-- ==== Sys2Proof/Word.lean ====
section
/-!
DEFINITION. Word.lean: the word and byte types, and the plainest constants of them (00 R9, R10, R40).
-/
namespace Sys2Proof

/-- A register word. A 32-bit register uses the low half. -/
abbrev Word := BitVec 64

/-- One byte of a record, frame or memory. -/
abbrev Byte := BitVec 8

/-- R40: the stamp value that means "absent", and the accord number that means "none". -/
def absent : Nat := 0xFFFF_FFFF_FFFF_FFFF

/-- 2^32 - 1, the saturation value of a 32-bit count and the "none" of a 32-bit field. -/
def ones32 : Nat := 0xFFFF_FFFF

/-- R9, R37: ticks of 0.25 ns in one microsecond. -/
def tickUs : Nat := 4000

/-- R37: ticks in one second. -/
def tickS : Nat := 4_000_000_000

end Sys2Proof
end

