-- ==== Sys2Proof/Records.lean ====
section
/-!
DEFINITION. Records.lean: the operands of the commands: messages, records and requests as the spec lays them out,
reserved fields left out.
-/
namespace Sys2Proof.Machine
open Sys2Proof

/-! ### Fleet time (02) -/

/-- The two parts of the block. -/
inductive Part where
  | otu
  | prd
deriving DecidableEq, Repr

/-- The clock edge at which a command happens at the OTU: its fleet time in ticks and its local time in engine cycles.
While the OTU is in NO_TIME its fleet time stays absent whatever `ft` says (R40, R47). -/
structure Edge where
  ft : Nat
  lt : Nat
deriving DecidableEq, Repr

/-- R450, R453, R455: the path by which a register access arrives. -/
inductive Path where
  /-- The OTU's privileged range. -/
  | otu
  /-- Tenant window `w` of the OTU. -/
  | tenant (w : Nat)
  /-- Priord's internal space, or BAR0. -/
  | prd
  /-- Priord's BAR2, which maps ring doorbells only. -/
  | bar2
deriving DecidableEq, Repr

/-- R37: a PTP timestamp: seconds and nanoseconds since the epoch of the grandmaster's timescale. -/
structure PtpTs where
  sec : Nat
  ns : Nat
deriving DecidableEq, Repr

/-- R41: a Sync message as the uplink received it; corrections and the uplink's own timestamps are in 1/256 tick. -/
structure PtpSync where
  domain : Nat
  seqId : Nat
  twoStep : Bool
  /-- originTimestamp, meaningful in a one-step Sync. -/
  origin : PtpTs
  /-- correctionField. -/
  corr : Int
  /-- Hardware receive timestamp. -/
  rx : Nat
deriving DecidableEq, Repr

/-- R41: the data set of an Announce message. -/
structure Announce where
  domain : Nat
  priority1 : Nat
  clockClass : Nat
  clockAccuracy : Nat
  variance : Nat
  priority2 : Nat
  gmIdentity : Nat
  stepsRemoved : Nat
  senderId : Nat
  utcOffset : Int
  utcValid : Bool
  /-- logMessageInterval: the interval of Announce messages is 2^logInterval s. -/
  logInterval : Int := 1
deriving DecidableEq, Repr

/-- R41: a Pdelay_Resp (or the Pdelay_Resp_Follow_Up that completes a two-step one). -/
structure PdelayResp where
  seqId : Nat
  followUp : Bool
  twoStep : Bool
  /-- requestReceiptTimestamp, in a Pdelay_Resp. -/
  t2 : PtpTs
  /-- responseOriginTimestamp, in a one-step response or in the follow-up. -/
  t3 : PtpTs
  corr : Int
  /-- Hardware receive timestamp of the Pdelay_Resp. -/
  rx : Nat
deriving DecidableEq, Repr

/-- R43: the 32-byte time word of an idle flit. -/
structure TimeWord where
  ver : Nat := 1
  seq : Nat := 0
  grade : Nat := 4
  ftValid : Bool := false
  holdover : Bool := false
  /-- DIR: true = die to Priord. -/
  fromDie : Bool := false
  echoValid : Bool := false
  jobOpen : Bool := false
  echoSeq : Nat := 0
  errBound : Nat := 0xFFFF_FFFF
  txStamp : Nat := 0
  txFrac : Nat := 0
  rxFrac : Nat := 0
  asym : Int := 0
  rxStamp : Nat := 0
deriving DecidableEq, Repr

/-- The end of a die-port link: the OTU's, or Priord's at port `n`. -/
inductive LinkEnd where
  | otu
  | prd (n : Nat)
deriving DecidableEq, Repr

/-! ### Accords (03) -/

/-- R70: the 128-byte accord header (reserved fields excepted). -/
structure AccHdr where
  ver : Nat := 1
  kind : Nat := 0
  flags : Nat := 0
  tag : Nat := 0
  contract : Nat := 0x100
  no : Nat := 0
  tCut : Nat := 0
  jtCut : Nat := 0
  ltCut : Nat := 0
  rank : Nat := 0
  interval : Nat := 0
  prevNo : Nat := 0
  dumpSlot : Nat := 0xFFFF_FFFF
  stepCount : Nat := 0
  nEngines : Nat := 512
  lenCtr : Nat := 0
  lenSeq : Nat := 0
  lenState : Nat := 0
  lenOvf : Nat := 0
  errBound : Nat := 0
  cfgEpoch : Nat := 0
  stepNo : Nat := 0
deriving DecidableEq, Repr

/-- Where a record of a rank reached this Priord: a die port, or an envelope from the serving tray (R231). -/
inductive RecSrc where
  | port (n : Nat)
  | fwd (tray : Nat)
deriving DecidableEq, Repr

/-- R89: the gap record. -/
structure GapRec where
  ver : Nat := 1
  reason : Nat := 0
  origin : Nat := 0
  kind : Nat := 0
  tag : Nat := 0
  no : Nat := 0
  rank : Nat := 0
  count : Nat := 1
  ftDecl : Nat := 0
deriving DecidableEq, Repr

/-- R92: the 64-byte summary of a closed accord. -/
structure Summary where
  level : Nat := 0
  state : Nat := 0
  kind : Nat := 0
  tag : Nat := 0
  no : Nat := 0
  tClose : Nat := 0
  expected : Nat := 0
  contributed : Nat := 0
  gapped : Nat := 0
  excluded : Nat := 0
  missing : Nat := 0
  listLen : Nat := 0
deriving DecidableEq, Repr

/-! ### Engine counters (04) -/

/-- R108, R110: what becomes of the job work that a slot issued: its result is kept, or discarded, as a structurally zero
tile, by gating, with its cancelled command, with its accumulator or prefetch, for want of capacity, or by a redirect. -/
inductive SlotFate where
  | kept
  | zeroTile
  | gated
  | cancelled
  | discarded
  | dropped
  | squashed
deriving DecidableEq, Repr

/-- R108: what the taps show of one issue slot: the fate of the job work it issued, if it issued any; else the stall reasons
of R111 that apply to its next step, as a mask whose bit 0, CANARY_ABORT, the OTU supplies itself. -/
structure SlotFact where
  work : Option SlotFate := none
  waits : Nat := 0
  /-- R105: privilege level of the code that the slot belongs to: 0 job, 1 supervisor, 2 secure. -/
  level : Nat := 0
deriving DecidableEq, Repr

/-- R97, R108 to R111: what one engine cycle shows at the taps of an engine. -/
structure EngCycle where
  slots : List SlotFact
  /-- R108: the command at the head of the queue has its descriptor decoded. -/
  decoded : Bool := false
  /-- The die's facts of this cycle (R71): HBM refresh holds off traffic, a throttle, clock stretching. -/
  refresh : Bool := false
  throttle : Bool := false
  stretch : Bool := false
  /-- Contributions to the catalogue's classes that no other command shows: (class, level 0 to 2, amount). -/
  events : List (Nat × Nat × Nat) := []
deriving DecidableEq, Repr

/-- R185, R205: an output tile at the drain tap: its position, its format and its elements in row-major order. -/
structure OutTile where
  tensor : Nat := 0
  tile : Nat := 0
  format : Nat := 0
  elems : List Nat := []
  scales : List Nat := []
deriving DecidableEq, Repr

/-- R187, R192: a sibling of the engine on which a mirror might run instead: the die's idle prediction for it, and whether
its accumulators hold no undrained data. -/
structure SibIdle where
  eng : Nat
  predIdle : Nat
  drained : Bool
deriving DecidableEq, Repr

/-- R187, R192: whether the engine's accumulators hold no undrained job data, and its siblings on which a mirror might run. -/
structure IdleFact where
  drained : Bool
  sib : List SibIdle
deriving DecidableEq, Repr

/-! ### Queues, waits and hangs (05) -/

/-- R106, R122: an entry that joins a queue: whether the queue then has reached its capacity, and the privilege level of the code
that issued it. -/
structure EnqFact where
  full : Bool
  level : Nat
deriving DecidableEq, Repr

/-- R127: a wait as it begins: kind, object, the rank that owns it, the holder's rank and engine where known, and the
target value. -/
structure WaitInfo where
  kind : Nat
  object : Nat
  objRank : Nat
  holder : Option Nat := none
  holderEng : Option Nat := none
  value : Nat := 0
deriving DecidableEq, Repr

/-- R128: the 48-byte sync wait record. -/
structure SyncRec where
  kind : Nat := 0
  flags : Nat := 0
  tag : Nat := 0
  waiter : Nat := 0
  object : Nat := 0
  objRank : Nat := 0
  holder : Nat := 0
  waitId : Nat := 0
  ftStart : Nat := 0
  ftEnd : Nat := 0xFFFF_FFFF_FFFF_FFFF
  value : Nat := 0
deriving DecidableEq, Repr

/-- R133: the hang notice. -/
structure HangNotice where
  cause : Nat := 0
  tag : Nat := 0
  nOpen : Nat := 0
  tCut : Nat := 0
  lastProgress : Nat := 0
  rank : Nat := 0
  dumpSlot : Nat := 0xFFFF_FFFF
  hangId : Nat := 0
deriving DecidableEq, Repr

/-- R138: an edge of the wait-for graph. -/
structure Edge16 where
  from_ : Nat := 0
  dst : Nat := 0
  kind : Nat := 0
  flags : Nat := 0
  age : Nat := 0
  /-- R135: the object of an object node. -/
  object : Nat := 0
deriving DecidableEq, Repr

/-- R136: what a tree node forwards of the graph of HANG_ID: the edges of components, the ranks whose notices the
sender holds, the ranks missing, and the states that the notices give for engines with no wait (R137). -/
structure HangComp where
  hangId : Nat
  tag : Nat
  child : Nat
  edges : List Edge16 := []
  ranks : List Nat := []
  missing : List Nat := []
  states : List (Nat × Nat) := []
deriving DecidableEq, Repr

/-- The queue spaces of R125: die queues, OTU egress queues, uplink egress queues. -/
inductive QSpace where
  | die
  | otuEgress
  | uplink (u : Nat)
deriving DecidableEq, Repr

/-! ### Sillage and flacons (06) -/

/-- R142: an instruction as a sequencer's trace port reports it. Addresses are byte addresses. -/
structure SilInstr where
  ia : Nat
  /-- 0 other, 1 conditional branch, 2 indirect transfer. -/
  kind : Nat := 0
  taken : Bool := false
  /-- Target of an indirect transfer. -/
  target : Nat := 0
  /-- 0 job, 1 supervisor, 2 secure. -/
  level : Nat := 0
  /-- Address of the next instruction to retire. -/
  next : Nat
deriving DecidableEq, Repr

/-- R146: a grant entry as the security block writes it. -/
structure GrantReq where
  id : Nat
  scope : Nat
  tag : Nat
  die : Nat
  expiry : Nat
  seqMask : Nat
deriving DecidableEq, Repr

/-- R164, R165: a trigger: source code, scope (1 TRAY, 2 JOB, 3 FLEET), job, instant and rank. -/
structure Trigger where
  source : Nat
  scope : Nat
  tag : Nat := 0
  tTrig : Nat
  rank : Nat := 0
deriving DecidableEq, Repr

/-! ### Numeric sentinels and canaries (07) -/

/-- R177: an output element at a tap. FORMAT as in R181; `e5m2` names the element format of an MXFP8 block. -/
structure OutElem where
  format : Nat
  bits : Nat
  /-- The conversion to the output format clamped the value. -/
  clamped : Bool := false
  /-- Block scale of an MX element. -/
  scale : Nat := 127
  e5m2 : Bool := false
  /-- No operand element that feeds the output carried a NaN (R180). -/
  origin : Bool := false
deriving DecidableEq, Repr

/-- R181: what the tap delivers with a first NaN. -/
structure FirstNan where
  origin : Bool
  creStage : Bool
  tensor : Nat
  tile : Nat
  row : Nat
  col : Nat
  element : Nat
  format : Nat
  raw : Nat
  /-- 0 none, 1 weight, 2 input, 3 intermediate. -/
  provAKind : Nat := 0
  provA : Nat := 0
  provBKind : Nat := 0
  provB : Nat := 0
deriving DecidableEq, Repr

/-- R193: the readings of a conditioning vector, CMD_SIG and FT excepted. -/
structure CondRead where
  temp : Nat := 0
  droop : Nat := 0
  vdd : Nat := 0
  clock : Nat := 0
  throttle : Nat := 0
  stretched : Bool := false
deriving DecidableEq, Repr

/-- R184, R326: an error report: FAULT_CODE, SYNDROME, BITS, and where it lies. -/
structure ErrReport where
  code : Nat
  syndrome : Nat
  bits : Nat := 0
  tag : Nat := 0
  path : Nat := 0
deriving DecidableEq, Repr

/-! ### Digests (08) -/

/-- R200: a sequencer image of a job, and a microcode identifier. -/
structure ProgImage where
  slot : Nat
  baseIa : Nat
  bytes : List Byte
deriving DecidableEq, Repr

/-- R200: a microcode identifier. -/
structure Microcode where
  kind : Nat
  id : Nat
  rev : Nat
deriving DecidableEq, Repr

/-- R207, R208: a drained tile, or a part of one split across buckets: the slot and position that its output descriptor
names, its elements and block scales, the part's byte offset, and the whole tile's LEN where the part holds its last
byte. -/
structure TilePart where
  slot : Nat
  tensor : Nat
  tile : Nat
  format : Nat
  elems : List Nat
  scales : List Nat := []
  off : Nat := 0
  len : Option Nat := none
deriving DecidableEq, Repr

/-- R214: the bucket order record. -/
structure BucketOrder where
  flags : Nat := 0
  n : Nat := 0
  tag : Nat := 0
  collSeq : Nat := 0
  rank : Nat := 0
  ftFirst : Nat := 0
  ftLast : Nat := 0
  orderCrc : Nat := 0
  order : List Nat := []
deriving DecidableEq, Repr

/-- R101, R105: a job command that starts: its signature entry, and the privilege level of the code that issued it. -/
structure CmdFact where
  sig : Nat
  level : Nat
deriving DecidableEq, Repr

/-- R214: the buckets of a collective in the order in which they completed, with the fleet times of the first and the last. -/
structure BucketRun where
  collSeq : Nat := 0
  order : List Nat := []
  ftFirst : Nat := 0
  ftLast : Nat := 0
deriving DecidableEq, Repr

/-- R131, R214: a command that completes on an engine, and what a CRE reports of a collective that it completed in bucket mode. -/
structure CmdEnd where
  eng : Nat
  run : Option BucketRun := none
deriving DecidableEq, Repr

/-! ### Reduction and the atomiser (09) -/

/-- R227: an item descriptor; `rsvd` says that a reserved bit or field is set. -/
structure ItemDesc where
  op : Nat
  src : Nat
  kindMask : Nat := 0x7F
  flags : Nat := 0
  index : Nat := 0
  k : Nat := 0
  rsvd : Bool := false
deriving DecidableEq, Repr

/-- R308: the collective windows of a job. -/
structure GateWin where
  start : Nat
  cycle : Nat
  ulMask : Nat
  fbMask : Nat
  wins : List (Nat × Nat)
deriving DecidableEq, Repr

/-- R238: an entry of a CONFIG. -/
inductive CfgEntry where
  /-- 0x0001: T_s and the new interval. -/
  | accordSwitch (ts interval : Nat)
  /-- 0x0002. -/
  | itemTable (items : List ItemDesc)
  /-- 0x0003: what the job forbids (R187, R191). -/
  | canary (noCanary noMirror : Bool)
  /-- 0x0004. -/
  | gates (w : GateWin)
  /-- A reserved key. -/
  | other (key : Nat)
deriving DecidableEq, Repr

/-- R237: the fields of an atomiser message's header, the type and the checks apart. `fromPort` is the sender's die port,
for a message from an OTU. -/
structure AtHdr where
  reissue : Bool := false
  tag : Nat := 0
  scope : Nat := 2
  issue : Nat := 0
  bseq : Nat := 0
  tAct : Nat := 0xFFFF_FFFF_FFFF_FFFF
  ref : Nat := 0
  treeEpoch : Nat := 0
  from_ : Nat := 0
deriving DecidableEq, Repr

/-- R245: the START payload. What an OTU learns besides it from its tray node: `subst` when a spare serves the rank (R417). -/
structure StartMsg where
  nRanks : Nat
  homes : List Nat
  items : List ItemDesc
  config : List CfgEntry := []
  /-- Port map: physical location and rank. -/
  ports : List (Nat × Nat)
  audit : Bool := false
  subst : Bool := false
deriving DecidableEq, Repr

/-- R57: whether every rank of the job is served by a die of one tray in which every block is homed: physical locations hold
their tray in bits 16 to 5, and home entries in bits 11 to 0. -/
def StartMsg.single (m : StartMsg) : Bool :=
  match m.ports with
  | [] => false
  | p :: r => r.all (fun q => q.1 % 2 ^ 17 / 32 == p.1 % 2 ^ 17 / 32) && m.homes.all fun h => h % 4096 == p.1 % 2 ^ 17 / 32

/-- R238, R173: the FREEZE payload. -/
structure FreezeMsg where
  freezeT : Nat
  tTrig : Nat
  pre : Nat
  post : Nat
  source : Nat
  trigRank : Nat
deriving DecidableEq, Repr

/-- R240: the DONE payload: OTUs that applied the message and that did not, failed trays, and the ranks with a non-zero
status. -/
structure DoneMsg where
  applied : Nat := 0
  notApplied : Nat := 0
  failed : List Nat := []
  statuses : List (Nat × Nat) := []
deriving DecidableEq, Repr

/-- A child of a tree node in a broadcast: an OTU at a die port, or a Priord. -/
inductive Child where
  | port (n : Nat)
  | tray (i : Nat)
deriving DecidableEq, Repr

/-- R242: a role assignment: the roles byte of R405 per tray index. -/
abbrev Roles := List (Nat × Nat)

/-- R226: an item value's body. -/
inductive ItemVal where
  /-- SUM_INT, an 80-bit sum, and whether it overflowed. -/
  | sum (v : Nat) (ovf : Bool)
  /-- SUM_FP64: binary64 bits. -/
  | fp (v : Nat)
  /-- MIN, MAX: value, rank, engine. -/
  | pick (v rank eng : Nat)
  /-- COUNT, OR, AND. -/
  | word (v : Nat)
  /-- HISTOGRAM, SKETCH: counts by bin. -/
  | bins (l : List (Nat × Nat))
  /-- TOPK: entries best first. -/
  | top (l : List (Nat × Nat × Nat))
  /-- FIRST: entries least first, each a key and a 64-byte record. -/
  | first (l : List (List Nat × List Byte))
deriving DecidableEq, Repr

/-- R226: an item value with its prefix; none is EMPTY. `unordered` are the ranks of first-NaN records that are not ranked
(R182), one per record, ascending. -/
structure ItemRes where
  nElem : Nat := 0
  noBase : Nat := 0
  unordered : List Nat := []
  val : Option ItemVal := none
deriving DecidableEq, Repr

/-- R233, R235: a fragment: the node (h, i) and its item values; none is EMPTY. -/
structure Frag where
  h : Nat
  i : Nat
  vals : Option (List ItemRes)
deriving DecidableEq, Repr

/-- R235: a partial, its summary and missing-rank list (rank and reason) included. -/
structure Partial where
  level : Nat
  tag : Nat
  no : Nat
  from_ : Nat
  treeEpoch : Nat := 0
  itemEpoch : Nat := 0
  crcOk : Bool := true
  summary : Summary
  missing : List (Nat × Nat) := []
  frags : List Frag := []
deriving DecidableEq, Repr

/-- R231: a forwarding envelope; `crcOk` says whether FW_CRC passes. -/
structure FwdEnv where
  rtype : Nat
  tag : Nat
  rank : Nat
  from_ : Nat
  fseq : Nat
  body : List Byte
  crcOk : Bool := true
deriving DecidableEq, Repr

/-- R249, R238: the fault record that a FAULT_NOTICE or JOB_FAULT names. -/
structure FaultRef where
  rank : Nat
  code : Nat
  ft : Nat
deriving DecidableEq, Repr

/-- A broadcast that a root has issued and that has not completed (R243). -/
structure BcastBody where
  kind : Nat
  hdr : AtHdr
  start : Option StartMsg := none
  config : List CfgEntry := []
  freeze : Option FreezeMsg := none
  hangId : Nat := 0
  fault : Option FaultRef := none
  roles : Roles := []
deriving DecidableEq, Repr

/-! ### Links, framing, gates (11) -/

/-- R288: what a DATA flit carries besides its acknowledgement and credit, which are those of the moment it is sent. -/
structure Flit where
  vl : Nat := 0
  alive : Nat := 0
  fseq : Nat := 0
  /-- Offset of the first frame header that begins in the payload, in 8-byte units, or 31. -/
  first : Nat := 31
  payload : List Byte := []
deriving DecidableEq, Repr

/-- R287, R288: a flit as it is received: its 256 bytes, and the symbol errors that the receive FEC finds in each codeword that it
overlaps, in order; a codeword that is not listed has none. -/
structure FlitRx where
  bytes : List Byte
  errs : List Nat
deriving DecidableEq, Repr

/-- A flit, and the end of a die-port link that receives it. -/
structure EndFlit where
  at_ : LinkEnd
  flit : FlitRx
deriving DecidableEq, Repr

/-- The gate list and schedulers of the OTU's fallback path (or its die port), or of a Priord uplink. -/
inductive GateSel where
  | otu
  | uplink (u : Nat)
deriving DecidableEq, Repr

/-- R311: a fallback packet of a frame as it reaches a relay: the origin die port, its class, whether it begins and
ends a frame, and its bytes. -/
structure FbPacket where
  origin : Nat
  cls : Nat
  first : Bool
  last : Bool
  bytes : List Byte
deriving DecidableEq, Repr

/-! ### Event recorder (12) -/

/-- R319, R320: what a source puts into an event request. -/
structure EvReq where
  code : Nat
  sev : Nat
  tag : Nat := 0
  rank : Option Nat := none
  path : Nat := 0
  phys : Nat := 0
  payload : List Byte := []
deriving DecidableEq, Repr

/-- R320: the event record, RCRC excepted, which is computed. -/
structure EvRec where
  ver : Nat := 1
  sev : Nat := 0
  fromDie : Bool := false
  shared : Bool := false
  grade : Nat := 0
  code : Nat := 0
  tag : Nat := 0
  suppressed : Nat := 0
  seq : Nat := 0xFFFF_FFFF
  rank : Nat := 0
  ft : Nat := 0xFFFF_FFFF_FFFF_FFFF
  path : Nat := 0
  phys : Nat := 0
  payload : List Byte := []
  valid : Nat := 0
deriving DecidableEq, Repr

/-! ### Start-up and recovery (15) -/

/-- R422: a job context's table as a buddy mirrors it: slot, state, START and tables. -/
structure CtxMirror where
  slot : Nat
  st : Nat
  tag : Nat
  s : Nat
  nRanks : Nat
  homes : List Nat
  items : List ItemDesc
  itemEpoch : Nat
  audit : Bool
  served : List (Nat × Nat)
deriving DecidableEq, Repr

/-- R422, R423: an item that a buddy mirrors; `ft` is the fleet time by which a request asks for it. -/
inductive MirrorItem where
  /-- A committed event record: tray, and the record with its session and SEQ. -/
  | event (tray ft : Nat) (r : EvRec)
  /-- A closed accord's summary at a level, with its missing-rank list. -/
  | closure (tray ft : Nat) (x : Summary) (miss : List (Nat × Nat))
  /-- A context, rank-home or item table. -/
  | context (tray ft : Nat) (x : CtxMirror)
  /-- A flacon descriptor. -/
  | flacon (tray ft : Nat) (bytes : List Byte)
  /-- The header of a completed export object. -/
  | export_ (tray ft : Nat) (bytes : List Byte)
  /-- RECOVERY_EPOCH. -/
  | epoch (tray ft epoch : Nat)
  /-- The end of an answer to a rebuild request: whether the mirror reached back to the requested instant (log entry 58). -/
  | done (tray : Nat) (reaches : Bool)
deriving DecidableEq, Repr

/-! ### Management (14) -/

/-- R390: the paths to the management command engine. -/
inductive MgmtPath where
  | mailbox
  | mctp
deriving DecidableEq, Repr

/-- R428: what a self-test finds. -/
structure SelfTest where
  fail : Bool := false
  mask : Nat := 0
  firstPath : Nat := 0
  duration : Nat := 0
  /-- R435: the measured capacitance of the hold-up bank, µF. -/
  bank : Nat := 0
deriving DecidableEq, Repr

/-- What a long command meets as it ends: whether the flash answers, the security block's verdict on the image, the straps
(TRAY_POS and TRAY_PAR), and the self-test's findings. -/
structure LongEnd where
  flashOk : Bool := true
  sigOk : Bool := true
  pos : Nat := 0
  par : Bool := true
  test : SelfTest := {}
deriving DecidableEq, Repr

/-- R447: TAP instructions. -/
inductive TapIr where
  | bypass
  | idcode
  | sample
  | extest
  | extestPulse
  | extestTrain
  /-- The private instruction that reaches the IEEE 1687 network. -/
  | network
deriving DecidableEq, Repr

end Sys2Proof.Machine
end

