-- ==== Sys2Proof/Syntax.lean ====
section
/-!
DEFINITION. Syntax.lean: the commands, one constructor per row of spec/opcode_table.json. A command that happens at the
OTU carries its clock edge `e`; one that happens at Priord carries Priord's fleet time `t`.
-/
namespace Sys2Proof
open Sys2Proof.Machine

/-- The commands. -/
inductive Instr where
  /-- REGISTER_WRITE (R12): a write of `width` bytes at offset `addr` of the path's space. -/
  | registerWrite (p : Path) (addr width value : Nat) (e : Edge)
  /-- RC_READ (R12): a full-width read of a register that holds an RC field. -/
  | rcRead (p : Path) (addr : Nat) (e : Edge)
  /-- PTP_SYNC (R41). -/
  | ptpSync (u : Nat) (m : PtpSync) (t : Nat)
  /-- PTP_FOLLOW_UP (R41): preciseOriginTimestamp and correctionField, in 1/256 tick. -/
  | ptpFollowUp (u seqId : Nat) (origin : PtpTs) (corr : Int) (t : Nat)
  /-- PTP_DELAY_REQ_TX (R41): the transmit timestamp in 1/256 tick. -/
  | ptpDelayReqTx (u tx t : Nat)
  /-- PTP_DELAY_RESP (R41): receiveTimestamp and correctionField, in 1/256 tick. -/
  | ptpDelayResp (u seqId : Nat) (rx : PtpTs) (corr : Int) (t : Nat)
  /-- PTP_PDELAY_REQ_TX (R41). -/
  | ptpPdelayReqTx (u tx t : Nat)
  /-- PTP_PDELAY_RESP (R41). -/
  | ptpPdelayResp (u : Nat) (m : PdelayResp) (t : Nat)
  /-- PTP_ANNOUNCE (R41). -/
  | ptpAnnounce (u : Nat) (m : Announce) (t : Nat)
  /-- PTP_IGNORED_MESSAGE (R41). -/
  | ptpIgnoredMessage (u t : Nat)
  /-- SYNCE_QL_CHANGE (R42): the SSM code that the uplink now reports, or the loss of Synchronous Ethernet there. -/
  | synceQlChange (u ql : Nat) (lost : Bool) (t : Nat)
  /-- HOLDOVER_ENTRY (R49), at Priord. -/
  | holdoverEntry (t : Nat)
  /-- TW_LOSS (R52), at the OTU. -/
  | twLoss (e : Edge)
  /-- HOLDOVER_AGE_GRADE3 (R48), at either clock. -/
  | holdoverAgeGrade3 (part : Part) (e : Edge)
  /-- LOCK_10MIN (R61), at either clock. -/
  | lock10Min (part : Part) (e : Edge)
  /-- TIME_WORD_TX (R44): the transmit stamp and its fraction. -/
  | timeWordTx (at_ : LinkEnd) (tx txFrac : Nat) (e : Edge)
  /-- TIME_WORD_RX (R45): an IDLE flit as it is received, its bytes and the symbol errors of its codewords (`FlitRx`), and the
  receiver's stamp of its arrival. -/
  | timeWordRx (at_ : LinkEnd) (bytes : List Byte) (rx rxFrac : Nat) (errs : List Nat) (e : Edge)
  /-- MARK (R58): a 64-bit write to OTU_MARK, through the privileged time block or a tenant window. -/
  | mark (p : Path) (value : Nat) (e : Edge)
  /-- MARK_RECORD_EMIT (R58). -/
  | markRecordEmit (e : Edge)
  /-- TIME_SNAP (R60). -/
  | timeSnap (value : Nat) (e : Edge)
  /-- PTP_CFG_WRITE (R61). -/
  | ptpCfgWrite (value t : Nat)
  /-- TIME_RESET (R50). -/
  | timeReset (p : MgmtPath) (seq t : Nat)
  /-- ACCORD_CUT (R64). -/
  | accordCut (e : Edge)
  /-- STEP_MARK (R69): sequencer, STEP_BEGIN (0) or STEP_END (1), step number and tokens. -/
  | stepMark (seq kind stepNo tokens : Nat) (e : Edge)
  /-- ACCORD_SEAL (R65). -/
  | accordSeal (e : Edge)
  /-- ACCORD_DUMP_DONE (R74): `ok` is false when the slot write failed. -/
  | accordDumpDone (ok : Bool) (e : Edge)
  /-- FAST_CUT (R81). -/
  | fastCut (e : Edge)
  /-- ACCORD_SWITCH (R63). -/
  | accordSwitch (e : Edge)
  /-- SWITCH_ARM (R63). -/
  | switchArm (value : Nat) (e : Edge)
  /-- SWITCH_CANCEL (R63). -/
  | switchCancel (e : Edge)
  /-- KEY_REQ_REGULAR (R93). -/
  | keyReqRegular (e : Edge)
  /-- KEY_REQ_FAST (R93). -/
  | keyReqFast (e : Edge)
  /-- UNPIN (R75). -/
  | unpin (value : Nat) (e : Edge)
  /-- FAST_CTRL_WRITE (R81). -/
  | fastCtrlWrite (value : Nat) (e : Edge)
  /-- FAST_SEL_WRITE (R81). -/
  | fastSelWrite (k value : Nat) (e : Edge)
  /-- ACCORD_OPEN (R87): the node's fleet time reaches a regular (`fast` false) or fast cut instant. -/
  | accordOpen (fast : Bool) (t : Nat)
  /-- ACCORD_RECORD_RX (R85): a delivered accord record of a rank of a context. -/
  | accordRecordRx (src : RecSrc) (tag rank : Nat) (body : List Byte) (t : Nat)
  /-- GAP_RECORD_RX (R89). -/
  | gapRecordRx (src : RecSrc) (g : GapRec) (t : Nat)
  /-- CLOSURE_DEADLINE (R87): the deadline of an accord of a context (slot) at a level 0 tray to 3 hall. -/
  | closureDeadline (level ctx kind no t : Nat)
  /-- PMC_WRITE (R100): engine, PMC 0 to 7, through the privileged window or a tenant window. -/
  | pmcWrite (p : Path) (eng k value : Nat) (e : Edge)
  /-- EVSEL_WRITE (R102). -/
  | evselWrite (p : Path) (eng k value : Nat) (e : Edge)
  /-- CMD_START (R101): a job command with this signature starts on the engine. -/
  | cmdStart (eng : Nat) (c : CmdFact) (e : Edge)
  /-- CMD_COMPLETE (R131, R214). -/
  | cmdComplete (c : CmdEnd) (e : Edge)
  /-- ENGINE_STATE_CHANGE (R67): 0 ACTIVE, 1 REST, 2 OFF, 3 FENCED. -/
  | engineStateChange (eng st : Nat) (e : Edge)
  /-- WRAP (R107): an addition of `n` to counter `c` of an engine, or to die counter `c` when `eng` is none. -/
  | wrap (eng : Option Nat) (c n : Nat) (e : Edge)
  /-- ENG_SNAP (R112). -/
  | engSnap (p : Path) (value : Nat) (e : Edge)
  /-- GCH_SAMPLE (R114): the channel values as the die gives them. -/
  | gchSample (values : List Nat) (validMask : Nat) (e : Edge)
  /-- ENGINE_CYCLE (R97). -/
  | engineCycle (eng : Nat) (c : EngCycle) (e : Edge)
  /-- QUEUE_BIND (R121). -/
  | queueBind (q tag : Nat) (e : Edge)
  /-- QUEUE_UNBIND (R121). -/
  | queueUnbind (q : Nat) (e : Edge)
  /-- QUEUE_SAMPLE (R123): the sample instant of the queues of a space that share a PERIOD. -/
  | queueSample (sp : QSpace) (e : Edge)
  /-- QUEUE_ENQUEUE (R122). -/
  | queueEnqueue (q : Nat) (c : EnqFact) (e : Edge)
  /-- QUEUE_DEQUEUE (R131). -/
  | queueDequeue (q : Nat) (e : Edge)
  /-- WAIT_BEGIN (R127). -/
  | waitBegin (eng : Nat) (w : WaitInfo) (e : Edge)
  /-- WAIT_END (R129): whether the wait's command was cancelled. -/
  | waitEnd (eng : Nat) (cancelled : Bool) (e : Edge)
  /-- OPEN_REPORT (R129). -/
  | openReport (eng : Nat) (e : Edge)
  /-- HANG_DETECTED (R131). -/
  | hangDetected (tag : Nat) (e : Edge)
  /-- HANG_CUT (R132). -/
  | hangCut (tag : Nat) (e : Edge)
  /-- HANG_NOTICE_RX (R134), from a die port or an envelope. -/
  | hangNoticeRx (src : RecSrc) (n : HangNotice) (t : Nat)
  /-- HANG_PROBE (R134), at the hall root: job tag. -/
  | hangProbe (tag t : Nat)
  /-- HANG_COMPONENT_RX (R136). -/
  | hangComponentRx (c : HangComp) (t : Nat)
  /-- HANG_GRAPH_DEADLINE (R136): level 0 tray to 3 hall. -/
  | hangGraphDeadline (level hangId t : Nat)
  /-- SIL_INSTR_RETIRE (R142): sequencer `seq` retires an instruction. -/
  | silInstrRetire (seq : Nat) (i : SilInstr) (e : Edge)
  /-- SPAN_ENTRY (R144): the level entered, 1 or 2, and the address of its first instruction. -/
  | spanEntry (seq level ia : Nat) (e : Edge)
  /-- SPAN_EXIT (R152): the first job-level instruction after the span, in whose cycle the command happens. -/
  | spanExit (seq ia : Nat) (e : Edge)
  /-- OUT_FLUSH (R150), of stream `k`: s, or 64 + s for the privileged stream. -/
  | outFlush (k : Nat) (e : Edge)
  /-- SIL_REC_TIMEOUT (R148), of stream `k`. -/
  | silRecTimeout (k : Nat) (e : Edge)
  /-- SIL_RESUME (R159), of stream `k`. -/
  | silResume (k : Nat) (e : Edge)
  /-- SIL_SEQ_EN_WRITE (R175). -/
  | silSeqEnWrite (value : Nat) (e : Edge)
  /-- SYNC_REQ (R155). -/
  | syncReq (value : Nat) (e : Edge)
  /-- GRANT_WRITE (R147): the security block's write of entry `g`, its signature checked. -/
  | grantWrite (g : Nat) (x : GrantReq) (e : Edge)
  /-- GRANT_REVOKE (R147). -/
  | grantRevoke (g : Nat) (e : Edge)
  /-- GRANT_EXPIRED (R147). -/
  | grantExpired (g : Nat) (e : Edge)
  /-- SIL_RECORD_RX (R162): a sillage frame at port `n` on virtual lane `vl`. -/
  | silRecordRx (n vl : Nat) (frame : List Byte) (t : Nat)
  /-- FLC_SW_TRIG (R164). -/
  | flcSwTrig (value t : Nat)
  /-- FREEZE_REQ (R165), at the hall root. -/
  | freezeReq (x : Trigger) (t : Nat)
  /-- FREEZE_FIRE (R167), of flacon slot `n`. -/
  | freezeFire (n t : Nat)
  /-- CAPTURE_END (R169), of flacon slot `n`. -/
  | captureEnd (n t : Nat)
  /-- FLC_RELEASE (R172): a write of `value` to the release register of slot `n`. -/
  | flcRelease (n value t : Nat)
  /-- DRAIN_OUTPUT (R177): an element leaves a tap of engine `eng`. -/
  | drainOutput (eng : Nat) (x : OutElem) (e : Edge)
  /-- FIRST_NAN (R180). -/
  | firstNan (eng : Nat) (x : FirstNan) (e : Edge)
  /-- UNCORRECTED_ERROR (R184). -/
  | uncorrectedError (part : Part) (x : ErrReport) (e : Edge)
  /-- CORRECTED_ERROR (R183). -/
  | correctedError (part : Part) (x : ErrReport) (e : Edge)
  /-- CANARY_START (R187): the die's idle prediction, and what else decides what may run. -/
  | canaryStart (eng predIdle : Nat) (x : IdleFact) (e : Edge)
  /-- CANARY_ABORT (R187): a job command arrives; `final` in the canary's final cycle. -/
  | canaryAbort (eng : Nat) (final : Bool) (e : Edge)
  /-- CANARY_COMPLETE (R190): the output fingerprint and the readings over the canary. -/
  | canaryComplete (eng : Nat) (out : List OutTile) (c : CondRead) (e : Edge)
  /-- TIEBREAK_WAIT (R192), of a cluster's candidate. -/
  | tiebreakWait (cluster : Nat) (e : Edge)
  /-- MIRROR_CAPTURE (R191): a command drains: its CMD_SEQ, its length in cycles, its operand bytes, its output
  fingerprint, readings and start. -/
  | mirrorCapture (eng cmdSeq len : Nat) (operands : List Byte) (out : List OutTile) (c : CondRead) (ftStart : Nat) (e : Edge)
  /-- ABORT_WINDOW (R189). -/
  | abortWindow (eng : Nat) (e : Edge)
  /-- MISMATCH_RECORD_RX (R195): a delivered mismatch record of a rank of a context. -/
  | mismatchRecordRx (src : RecSrc) (tag rank : Nat) (body : List Byte) (t : Nat)
  /-- FIRST_NAN_RX (R182): a delivered first-NaN record. -/
  | firstNanRx (src : RecSrc) (tag rank : Nat) (body : List Byte) (t : Nat)
  /-- WEIGHT_LOAD_DONE (R202): the shard's tensor, format and bytes as they lie in HBM. -/
  | weightLoadDone (tensor format : Nat) (bytes : List Byte) (e : Edge)
  /-- WEIGHT_HASH_DONE (R202). -/
  | weightHashDone (tensor : Nat) (e : Edge)
  /-- INPUT_INGEST (R202): an audit-input shard's tensor, part and bytes. -/
  | inputIngest (tensor part : Nat) (bytes : List Byte) (e : Edge)
  /-- TILE_DRAIN (R207). -/
  | tileDrain (x : TilePart) (e : Edge)
  /-- RESULT_MARK (R209). -/
  | resultMark (p : Path) (value : Nat) (e : Edge)
  /-- RANK_DIGEST_RX (R211): a rank digest record of a context. -/
  | rankDigestRx (src : RecSrc) (tag rank : Nat) (body : List Byte) (t : Nat)
  /-- RESULT_TIMEOUT (R211). -/
  | resultTimeout (tag result t : Nat)
  /-- BUCKET_ORDER_RX (R215). -/
  | bucketOrderRx (src : RecSrc) (b : BucketOrder) (t : Nat)
  /-- BUCKET_ORDER_DEADLINE (R215). -/
  | bucketOrderDeadline (tag collSeq t : Nat)
  /-- PARTIAL_RX (R236): from a child, of level LEVEL. -/
  | partialRx (p : Partial) (t : Nat)
  /-- FWD_ENVELOPE_RX (R232). -/
  | fwdEnvelopeRx (x : FwdEnv) (t : Nat)
  /-- START (R245), at an OTU or at a node. -/
  | start (at_ : Part) (h : AtHdr) (m : StartMsg) (e : Edge)
  /-- RETRACT (R248). -/
  | retract (at_ : Part) (h : AtHdr) (e : Edge)
  /-- CONFIG (R238). -/
  | config (at_ : Part) (h : AtHdr) (l : List CfgEntry) (e : Edge)
  /-- FREEZE (R166), at a node. -/
  | freeze (h : AtHdr) (x : FreezeMsg) (t : Nat)
  /-- HANG_FREEZE (R134). -/
  | hangFreeze (at_ : Part) (h : AtHdr) (hangId : Nat) (e : Edge)
  /-- JOB_FAULT (R249). -/
  | jobFault (at_ : Part) (h : AtHdr) (x : FaultRef) (e : Edge)
  /-- TREE (R242): the new role assignments. -/
  | tree (h : AtHdr) (epoch : Nat) (roles : Roles) (t : Nat)
  /-- HOP_ACK (R240): from a child, of the broadcast REF_BSEQ. -/
  | hopAck (c : Child) (bseq t : Nat)
  /-- DONE (R240). -/
  | done (c : Child) (bseq : Nat) (d : DoneMsg) (t : Nat)
  /-- HOP_ACK_TIMEOUT (R240). -/
  | hopAckTimeout (c : Child) (bseq t : Nat)
  /-- DONE_TIMEOUT (R240). -/
  | doneTimeout (c : Child) (bseq t : Nat)
  /-- HOP_FAIL (R242), at the root: the failed tray. -/
  | hopFail (tray t : Nat)
  /-- FAULT_NOTICE (R249), at a root. -/
  | faultNotice (tag : Nat) (x : FaultRef) (t : Nat)
  /-- HEARTBEAT_TX (R243), at the hall root. -/
  | heartbeatTx (t : Nat)
  /-- HEARTBEAT (R243), at the standby root: the broadcasts that have not completed, and the hall root's ROOT_EPOCH. -/
  | heartbeat (l : List BcastBody) (rootEpoch t : Nat)
  /-- ROOT_TAKEOVER (R243). -/
  | rootTakeover (t : Nat)
  /-- RETRACT_DEADLINE (R247), of the request of a job tag. -/
  | retractDeadline (tag t : Nat)
  /-- RESCHED_WAIT (R247), of the request of a job tag. -/
  | reschedWait (tag t : Nat)
  /-- TREE_PROBE (R410). -/
  | treeProbe (t : Nat)
  /-- START_BARRIER (R57): the engines that the die gives the job, its sequencer images and microcode. -/
  | startBarrier (engs : List Nat) (imgs : List ProgImage) (ucs : List Microcode) (e : Edge)
  /-- DIE_JOB_END (R250): CAUSE 0 COMPLETED or 2 WITHDRAWN. -/
  | dieJobEnd (tag cause : Nat) (e : Edge)
  /-- JOB_END_RECORD (R420). -/
  | jobEndRecord (tag : Nat) (e : Edge)
  /-- JOB_END_RX (R419): a delivered job-end record of a rank of a context. -/
  | jobEndRx (src : RecSrc) (tag rank : Nat) (body : List Byte) (t : Nat)
  /-- DRAIN_LIMIT (R419), of context slot `c`. -/
  | drainLimit (c t : Nat)
  /-- CTX_HOLD (R419), of context slot `c`. -/
  | ctxHold (c t : Nat)
  /-- NOSE_EVAL (R281): accord `no` of context slot `c`. -/
  | noseEval (c no t : Nat)
  /-- NOSE_EVAL_DONE (R281). -/
  | noseEvalDone (t : Nat)
  /-- LOAD_MODEL (R268): by register, or by the operation with this TAG on a CONTROL ring; the security block's verdict on
  the image's signature. -/
  | loadModel (via : Option (Nat × Nat)) (sigOk : Bool) (t : Nat)
  /-- MODEL_COPY_START (R268). -/
  | modelCopyStart (t : Nat)
  /-- MODEL_COPY_DONE (R268). -/
  | modelCopyDone (t : Nat)
  /-- LOAD_BASELINE (R283). -/
  | loadBaseline (via : Option (Nat × Nat)) (t : Nat)
  /-- SAVE_BASELINE (R283). -/
  | saveBaseline (via : Option (Nat × Nat)) (t : Nat)
  /-- UNLOAD (R285). -/
  | unload (via : Option (Nat × Nat)) (t : Nat)
  /-- PORT_TRAIN (R286): the OTU receives its location, Priord the die-reset report and the fault that the OTU reports
  (0 none, else CAUSE of R418), and either the peer's credits per
  virtual lane (R293). -/
  | portTrain (at_ : LinkEnd) (loc : Nat) (fromReset : Bool) (fault credit : Nat) (e : Edge)
  /-- PORT_DOWN (R286): at the OTU, what the relay dies answer in turn when fallback asks them (R310). -/
  | portDown (at_ : LinkEnd) (relayAnswers : List Bool) (e : Edge)
  /-- FB_SETTLE (R312). -/
  | fbSettle (cls : Nat) (e : Edge)
  /-- DATA_FLIT_RX (R291): a flit as it is received, its bytes and the symbol errors of its codewords (`FlitRx`). -/
  | dataFlitRx (at_ : LinkEnd) (bytes : List Byte) (errs : List Nat) (e : Edge)
  /-- NAK (R291): the CTRL flit that brings it. -/
  | nak (at_ : LinkEnd) (x : FlitRx) (e : Edge)
  /-- NAK_REPEAT (R289). -/
  | nakRepeat (at_ : LinkEnd) (e : Edge)
  /-- RESYNC_REQ (R297), at the OTU: the CTRL flit that brings it. -/
  | resyncReq (bytes : List Byte) (errs : List Nat) (e : Edge)
  /-- KEY_REQ (R289), at the OTU: the CTRL flit that brings it. -/
  | keyReq (x : FlitRx) (e : Edge)
  /-- RETRAIN_REQ (R289): the CTRL flit that brings it. -/
  | retrainReq (x : EndFlit) (e : Edge)
  /-- RELAY_FRAME_RX (R313): a relay frame arrives at port `n` on virtual lane `vl`. -/
  | relayFrameRx (n vl : Nat) (frame : List Byte) (t : Nat)
  /-- INGEST_WINDOW (R304). -/
  | ingestWindow (t : Nat)
  /-- GATE_ENTRY_BEGIN (R305). -/
  | gateEntryBegin (g : GateSel) (e : Edge)
  /-- GATE_CHANGE (R306). -/
  | gateChange (g : GateSel) (e : Edge)
  /-- CHANGE_T_WRITE (R306). -/
  | changeTWrite (g : GateSel) (value : Nat) (e : Edge)
  /-- SHAPER_WRITE (R301): register 0 CIR, 1 PIR, 2 BURST, 3 DRR of egress queue `eq`. -/
  | shaperWrite (g : GateSel) (eq reg value : Nat) (e : Edge)
  /-- POLICER_WRITE (R317): register 0 CIR, 1 PIR, 2 BURST, 3 CTRL of die port `n`. -/
  | policerWrite (n reg value t : Nat)
  /-- FLIT_SLOT (R290). -/
  | flitSlot (at_ : LinkEnd) (e : Edge)
  /-- EGRESS_FRAME_START (R300), on the fallback path or on an uplink. -/
  | egressFrameStart (g : GateSel) (e : Edge)
  /-- FALLBACK_PACKET_RX (R311), at a relay OTU. -/
  | fallbackPacketRx (p : FbPacket) (e : Edge)
  /-- UPLINK_DOWN (R318). -/
  | uplinkDown (u t : Nat)
  /-- UPLINK_UP (R318). -/
  | uplinkUp (u t : Nat)
  /-- HNR_RECORD_WRITE (R162): a frame arrives at port `n` on virtual lane `vl`. -/
  | hnrRecordWrite (n vl : Nat) (frame : List Byte) (t : Nat)
  /-- EVENT_REQUEST (R327). -/
  | eventRequest (part : Part) (r : EvReq) (e : Edge)
  /-- EVENT_COMMIT (R319): at Priord, whether the MRAM write passes its read-back. -/
  | eventCommit (part : Part) (mramOk : Bool) (e : Edge)
  /-- EVENT_RECORD_RX (R330): a die event record delivered from port `n`. -/
  | eventRecordRx (n : Nat) (r : EvRec) (t : Nat)
  /-- EVR_CLEAR (R334). -/
  | evrClear (part : Part) (value : Nat) (e : Edge)
  /-- BLOT_CURSOR_WRITE (R332). -/
  | blotCursorWrite (part : Part) (value : Nat) (e : Edge)
  /-- RL_ENTRY_WRITE (R327): entry `k`, or the default entry for `k` = none. -/
  | rlEntryWrite (part : Part) (k : Option Nat) (value : Nat) (e : Edge)
  /-- PREV_FRONTIER_SCAN (R337). -/
  | prevFrontierScan (t : Nat)
  /-- DIE_RESET (R321). -/
  | dieReset (e : Edge)
  /-- ALWAYS_ON_POWER_UP (R321). -/
  | alwaysOnPowerUp (e : Edge)
  /-- CMP_START (R350): START to compressor `k` of a part. -/
  | cmpStart (at_ : Part) (k : Nat) (e : Edge)
  /-- CMP_ABORT (R349): ABORT, when the compressor has written `blocks` container blocks. -/
  | cmpAbort (at_ : Part) (k blocks : Nat) (e : Edge)
  /-- CMP_JOB_END (R348): the job ends by itself, or, after `memErr` blocks, by an uncorrected error in engine memory. -/
  | cmpJobEnd (at_ : Part) (k : Nat) (memErr : Option Nat) (e : Edge)
  /-- DEC_START (R351): START to decompressor `k` of Priord. -/
  | decStart (k t : Nat)
  /-- DEC_ABORT (R352): ABORT, when the decompressor has written `blocks` blocks. -/
  | decAbort (k blocks t : Nat)
  /-- DEC_JOB_END (R351). -/
  | decJobEnd (k : Nat) (memErr : Option Nat) (t : Nat)
  /-- CMP_ASSIGN (R360). -/
  | cmpAssign (value t : Nat)
  /-- CV_CTRL_WRITE (R355), of check-value context `c` of a part. -/
  | cvCtrlWrite (at_ : Part) (c value : Nat) (e : Edge)
  /-- CV_VALUE_WRITE (R355). -/
  | cvValueWrite (at_ : Part) (c value : Nat) (e : Edge)
  /-- CV_DATA64 (R356). -/
  | cvData64 (at_ : Part) (c value : Nat) (e : Edge)
  /-- CV_DATA32 (R356). -/
  | cvData32 (at_ : Part) (c value : Nat) (e : Edge)
  /-- CV_DATA_TAIL (R356). -/
  | cvDataTail (at_ : Part) (c value : Nat) (e : Edge)
  /-- FEED_START (R356). -/
  | feedStart (at_ : Part) (c : Nat) (e : Edge)
  /-- FEED_ABORT (R357): FEED_ABORT, in the 64-byte beat that ends at byte `fed` of the feed. -/
  | feedAbort (at_ : Part) (c fed : Nat) (e : Edge)
  /-- FEED_DONE (R357). -/
  | feedDone (at_ : Part) (c : Nat) (e : Edge)
  /-- RING_SEL (R400). -/
  | ringSel (value t : Nat)
  /-- RING_COMMIT (R400). -/
  | ringCommit (value t : Nat)
  /-- TAIL_WRITE (R366), of ring `k`. -/
  | tailWrite (k value t : Nat)
  /-- CMPL_HEAD_WRITE (R369). -/
  | cmplHeadWrite (k value t : Nat)
  /-- DESC_FETCH (R371): for a ring in host memory, the 64 bytes that the read gives, or none when it fails. -/
  | descFetch (host : Option (List Byte)) (t : Nat)
  /-- CMPL_WRITE (R369), on ring `k`. -/
  | cmplWrite (k t : Nat)
  /-- READ_ITEM (R374): the operation with this TAG on ring `k`; `err`: an uncorrected error while answering. -/
  | readItem (k tag : Nat) (err : Bool) (t : Nat)
  /-- READ_SUMMARY (R374). -/
  | readSummary (k tag : Nat) (err : Bool) (t : Nat)
  /-- REDUCE (R374). -/
  | reduce (k tag : Nat) (err : Bool) (t : Nat)
  /-- READ_COUNTERS (R374). -/
  | readCounters (k tag : Nat) (err : Bool) (t : Nat)
  /-- READ_RECORDS (R375). -/
  | readRecords (k tag : Nat) (err : Bool) (t : Nat)
  /-- SUB_ACCORD (R379). -/
  | subAccord (k tag t : Nat)
  /-- SUB_RECORDS (R379). -/
  | subRecords (k tag t : Nat)
  /-- CANCEL (R379). -/
  | cancel (k tag t : Nat)
  /-- TRIGGER (R380). -/
  | trigger (k tag t : Nat)
  /-- RELEASE (R380). -/
  | release (k tag t : Nat)
  /-- CONTROL_CONFIG (R380): the entries that the list at the named address holds. -/
  | controlConfig (k tag : Nat) (l : List CfgEntry) (t : Nat)
  /-- START_JOB (R380): the JOB_TAG and the payload that the named buffer holds. -/
  | startJob (k tag jobTag : Nat) (m : StartMsg) (t : Nat)
  /-- EXPORT_HEART (R382). -/
  | exportHeart (k tag t : Nat)
  /-- EXPORT_FLACON (R382). -/
  | exportFlacon (k tag t : Nat)
  /-- EXPORT_PERIOD (R382), on ring `k`. -/
  | exportPeriod (k t : Nat)
  /-- REPLAY (R383). -/
  | replay (k tag t : Nat)
  /-- QP_OPEN (R386): the ring, and the security block's verdict on the credential. -/
  | qpOpen (k : Nat) (ok : Bool) (t : Nat)
  /-- QP_DESC (R387): session, PSEQ, ACK_SEQ, descriptors, and whether AUTH holds. -/
  | qpDesc (session pseq ack : Nat) (descs : List (List Byte)) (ok : Bool) (t : Nat)
  /-- QP_ACK (R388). -/
  | qpAck (session ack : Nat) (ok : Bool) (t : Nat)
  /-- QP_CLOSE (R385). -/
  | qpClose (session : Nat) (ok : Bool) (t : Nat)
  /-- QP_RETX (R388), of packet `pseq`. -/
  | qpRetx (session pseq t : Nat)
  /-- GET_INFO (R393). -/
  | getInfo (p : MgmtPath) (seq t : Nat)
  /-- GET_STATUS (R393). -/
  | getStatus (p : MgmtPath) (seq t : Nat)
  /-- GET_TIME (R393). -/
  | getTime (p : MgmtPath) (seq t : Nat)
  /-- STAGE_WRITE (R393). -/
  | stageWrite (p : MgmtPath) (seq off : Nat) (bytes : List Byte) (t : Nat)
  /-- STAGE_READ (R393). -/
  | stageRead (p : MgmtPath) (seq off len t : Nat)
  /-- FLASH_UPDATE (R394). -/
  | flashUpdate (p : MgmtPath) (seq len t : Nat)
  /-- RECONFIGURE (R394). -/
  | reconfigure (p : MgmtPath) (seq t : Nat)
  /-- SELF_TEST (R428). -/
  | selfTest (p : MgmtPath) (seq level t : Nat)
  /-- JOURNAL_DUMP (R394). -/
  | journalDump (p : MgmtPath) (seq t : Nat)
  /-- LONG_COMMAND_DONE (R391). -/
  | longCommandDone (x : LongEnd) (t : Nat)
  /-- PLDM_BASE (R390): the discovery command. -/
  | pldmBase (cmd t : Nat)
  /-- PLDM_PLATFORM (R390): sensor 0 hotspot, 1 module power, 2 input voltage, 3 time grade. -/
  | pldmPlatform (sensor t : Nat)
  /-- PLDM_FW_UPDATE (R390): image bytes at an offset of the staging area; `last` ends the transfer and runs FLASH_UPDATE over
  `len` bytes. -/
  | pldmFwUpdate (off : Nat) (bytes : List Byte) (last : Bool) (len t : Nat)
  /-- RESET_RELEASE (R403): TRAY_POS and TRAY_PAR. -/
  | resetRelease (pos : Nat) (par : Bool) (t : Nat)
  /-- IMAGE_READ_DONE (R406): whether the flash answers, and the security block's verdict. -/
  | imageReadDone (flashOk sigOk : Bool) (t : Nat)
  /-- OTU_DESCRIPTOR (R412): the descriptor, the bytes of the die's HBM, and whether the start-up self-test passes. -/
  | otuDescriptor (bytes : List Byte) (hbm : Nat) (testOk : Bool) (e : Edge)
  /-- FAULT_WAIT (R418), of the die on port `n`. -/
  | faultWait (n t : Nat)
  /-- MIRROR_RX (R422), on buddy port 0 or 1. -/
  | mirrorRx (port : Nat) (x : MirrorItem) (t : Nat)
  /-- BUDDY_REQUEST (R423): the requester's tray, its epoch, and the instant after which it asks for items, none for all. -/
  | buddyRequest (from_ epoch : Nat) (since : Option Nat) (t : Nat)
  /-- BUDDY_TIMEOUT (R424). -/
  | buddyTimeout (t : Nat)
  /-- FROM_STORE (R424). -/
  | fromStore (t : Nat)
  /-- SKIP_STORE (R424). -/
  | skipStore (t : Nat)
  /-- RECOVERY_STEP_REQ (R414): the sender's tray, its epoch, level and step, and the context slots that a CLOSE_CONTEXTS
  names as FREE. -/
  | recoveryStepReq (at_ : Part) (from_ epoch level step : Nat) (slots : List Nat) (e : Edge)
  /-- BUDDY_PORT_DOWN (R424). -/
  | buddyPortDown (p t : Nat)
  /-- BUDDY_PORT_UP (R441): the peer's tray index. -/
  | buddyPortUp (p peer t : Nat)
  /-- POWER_GOOD (R433): the cages that hold a module. -/
  | powerGood (osfp t : Nat)
  /-- PWR_FAIL (R434): whether the hot-swap controller called for it. -/
  | pwrFail (hotswap : Bool) (t : Nat)
  /-- MRAM_WRITE_PROTECT (R426). -/
  | mramWriteProtect (t : Nat)
  /-- RAIL_FAULT (R432). -/
  | railFault (t : Nat)
  /-- PRD_RESET (R436). -/
  | prdReset (t : Nat)
  /-- THERM_WARN (R439): a sensor (0 hotspot, 1 and 2 HBM stacks, 3 OCXO, 4 inlet) and its reading in 1/16 °C. -/
  | thermWarn (sensor : Nat) (temp : Int) (t : Nat)
  /-- THERM_THROTTLE (R439). -/
  | thermThrottle (sensor : Nat) (temp : Int) (t : Nat)
  /-- THERM_TRIP (R439). -/
  | thermTrip (sensor : Nat) (temp : Int) (t : Nat)
  /-- OSFP_OVERCURRENT (R439), of cage `u`. -/
  | osfpOvercurrent (u t : Nat)
  /-- OSFP_CTRL_WRITE (R448). -/
  | osfpCtrlWrite (value t : Nat)
  /-- OCXO_FAIL (R438). -/
  | ocxoFail (t : Nat)
  /-- OCXO_RETURN (R438). -/
  | ocxoReturn (t : Nat)
  /-- OCXO_WARM (R437). -/
  | ocxoWarm (t : Nat)
  /-- PLL_UNLOCK (R438). -/
  | pllUnlock (t : Nat)
  /-- TMUX_CFG_WRITE (R444). -/
  | tmuxCfgWrite (at_ : Part) (value : Nat) (e : Edge)
  /-- TMUX_GRANT_WRITE (R444): GRANT_ID, SCOPE, UID, EXPIRY and VALID. -/
  | tmuxGrantWrite (id scope uid expiry : Nat) (valid : Bool) (t : Nat)
  /-- TMUX_SEL_WRITE (R445). -/
  | tmuxSelWrite (at_ : Part) (k value : Nat) (e : Edge)
  /-- TMUX_GRANT_EXPIRED (R444). -/
  | tmuxGrantExpired (t : Nat)
  /-- TAP_INSTRUCTION (R447). -/
  | tapInstruction (ir : TapIr) (t : Nat)
  /-- MODULE_POWER_ON (R433). -/
  | modulePowerOn (t : Nat)
  /-- HOLDUP_END (R434). -/
  | holdupEnd (t : Nat)
  /-- TW_BIND (R452), of tenant window `w`. -/
  | twBind (w value : Nat) (e : Edge)
  /-- TW_PAGE_WRITE (R454): the queue page, or the engine page, of window `w`. -/
  | twPageWrite (w : Nat) (queue : Bool) (value : Nat) (e : Edge)
  /-- BAR4_WIN_WRITE (R457). -/
  | bar4WinWrite (value t : Nat)
  /-- BAR4_WRITE (R457): bytes at an offset of the window. -/
  | bar4Write (off : Nat) (bytes : List Byte) (t : Nat)
deriving DecidableEq, Repr

end Sys2Proof
end

