-- ==== Sys2Proof/Machine/Bits.lean ====
section
/-!
DEFINITION. Machine/Bits.lean: bit fields, little-endian byte sequences and saturating counts (00 R10, R12).
-/
namespace Sys2Proof.Machine
open Sys2Proof

/-- The field of `w` bits whose lowest bit is `lo`. -/
def getF (v lo w : Nat) : Nat := (v >>> lo) % 2 ^ w

/-- `v` with the field of `w` bits at `lo` replaced by `x` (modulo the field's width). -/
def setF (v lo w x : Nat) : Nat := v - getF v lo w * 2 ^ lo + (x % 2 ^ w) * 2 ^ lo

/-- Bit `k` of `v`. -/
def bit (v k : Nat) : Bool := (v >>> k) % 2 == 1

/-- 0 or 1. -/
def b2n (b : Bool) : Nat := if b then 1 else 0

/-- `v` with bit `k` set. -/
def setBit (v k : Nat) : Nat := v ||| 2 ^ k

/-- `v` with bit `k` cleared. -/
def clrBit (v k : Nat) : Nat := if bit v k then v - 2 ^ k else v

/-- `v` with bit `k` made `b`. -/
def putBit (v k : Nat) (b : Bool) : Nat := if b then setBit v k else clrBit v k

/-- A count of `w` bits that saturates. -/
def satAdd (w v n : Nat) : Nat := min (v + n) (2 ^ w - 1)

/-- R10: `n` bytes of `v`, least significant first. -/
def le : Nat → Nat → List Byte
  | 0, _ => []
  | n + 1, v => BitVec.ofNat 8 v :: le n (v >>> 8)

/-- The number that a little-endian byte sequence holds. -/
def unle : List Byte → Nat
  | [] => 0
  | b :: r => b.toNat + 256 * unle r

/-- The number that a big-endian byte sequence holds (R10's exception for network headers). -/
def unbe (l : List Byte) : Nat := l.foldl (fun a b => a * 256 + b.toNat) 0

/-- `n` bytes of `v`, most significant first. -/
def be (n v : Nat) : List Byte := (le n v).reverse

/-- The `n`-byte field at offset `o` of a record, little-endian; missing bytes read 0. -/
def fieldAt (l : List Byte) (o n : Nat) : Nat := unle ((l.drop o).take n)

/-- `n` zero bytes. -/
def zeros (n : Nat) : List Byte := List.replicate n 0

/-- `l` padded with zero bytes to a multiple of `m`. -/
def padTo (m : Nat) (l : List Byte) : List Byte := l ++ zeros ((m - l.length % m) % m)

/-- `l` cut or padded with zeros to exactly `n` bytes. -/
def fit (n : Nat) (l : List Byte) : List Byte := l.take n ++ zeros (n - l.length)

/-- Rounds up a division. -/
def ceilDiv (a b : Nat) : Nat := (a + b - 1) / b

/-- `v` as a two's complement number of `w` bits. -/
def toS (w v : Nat) : Int := if v % 2 ^ w < 2 ^ (w - 1) then (v % 2 ^ w : Nat) else ((v % 2 ^ w : Nat) : Int) - 2 ^ w

/-- The low `w` bits of an integer's two's complement. -/
def ofS (w : Nat) (v : Int) : Nat := (v % (2 ^ w : Int)).toNat

/-- Wrapping addition of `w`-bit numbers. -/
def wadd (w a b : Nat) : Nat := (a + b) % 2 ^ w

/-- Wrapping subtraction of `w`-bit numbers. -/
def wsub (w a b : Nat) : Nat := (a + (2 ^ w - b % 2 ^ w)) % 2 ^ w

/-- The bit numbers below `n` that are set in `m`, ascending. -/
def setBits (n m : Nat) : List Nat := (List.range n).filter (bit m)

/-- The mask with the given bits set. -/
def maskOf (l : List Nat) : Nat := l.foldl (fun m k => m ||| 2 ^ k) 0

/-- The first element of a list that satisfies `p`, replaced by `f`. -/
def updFirst {α : Type} (p : α → Bool) (f : α → α) : List α → List α
  | [] => []
  | x :: r => if p x then f x :: r else x :: updFirst p f r

/-- Insert keeping a list sorted by a key; equal keys keep their order of arrival. -/
def insertBy {α : Type} (key : α → Nat) (x : α) : List α → List α
  | [] => [x]
  | y :: r => if key x < key y then x :: y :: r else y :: insertBy key x r

/-- A list sorted by a key, stable. -/
def sortBy {α : Type} (key : α → Nat) (l : List α) : List α := l.foldl (fun a x => insertBy key x a) []

/-- The largest key of a list, or `d`. -/
def maxOf {α : Type} (key : α → Nat) (d : Nat) (l : List α) : Nat := l.foldl (fun m x => max m (key x)) d

/-- A value that a write changes from the cycle after it: until then the old value is in force. -/
structure Delayed (α : Type) where
  cur : α
  old : α
  at_ : Nat
deriving DecidableEq, Repr

/-- The value in force in cycle `lt`. -/
def Delayed.inForce {α : Type} (d : Delayed α) (lt : Nat) : α := if lt ≤ d.at_ then d.old else d.cur

/-- A write in cycle `lt`. -/
def Delayed.write {α : Type} (d : Delayed α) (lt : Nat) (v : α) : Delayed α :=
  { cur := v, old := d.inForce lt, at_ := lt }

end Sys2Proof.Machine
end

