-- ==== Sys2Proof/Machine/Crc.lean ====
section
/-!
DEFINITION. Machine/Crc.lean: CRC-32C and CRC-64/ECMA-182 (13 R353 to R355), bit by bit.
-/
namespace Sys2Proof.Machine
open Sys2Proof

/-- R354: one bit of the reflected CRC-32C, polynomial 0x1EDC_6F41 (reflected 0x82F6_3B78). -/
def crc32cBit (v : Nat) : Nat := if v % 2 = 1 then (v >>> 1) ^^^ 0x82F63B78 else v >>> 1

/-- One byte into the running value. -/
def crc32cByte (v : Nat) (b : Byte) : Nat :=
  crc32cBit (crc32cBit (crc32cBit (crc32cBit (crc32cBit (crc32cBit (crc32cBit (crc32cBit (v ^^^ b.toNat))))))))

/-- The running value after a byte sequence. -/
def crc32cFeed (v : Nat) (l : List Byte) : Nat := l.foldl crc32cByte v

/-- CRC-32C of a byte sequence. -/
def crc32c (l : List Byte) : Nat := crc32cFeed 0xFFFFFFFF l ^^^ 0xFFFFFFFF

/-- One bit of the unreflected CRC-64/ECMA-182. -/
def crc64Bit (v : Nat) : Nat :=
  if v ≥ 2 ^ 63 then ((v * 2) % 2 ^ 64) ^^^ 0x42F0E1EBA9EA3693 else v * 2

/-- One byte into the running value, most significant bit first. -/
def crc64Byte (v : Nat) (b : Byte) : Nat :=
  crc64Bit (crc64Bit (crc64Bit (crc64Bit (crc64Bit (crc64Bit (crc64Bit (crc64Bit (v ^^^ (b.toNat <<< 56)))))))))

/-- The running value after a byte sequence. -/
def crc64Feed (v : Nat) (l : List Byte) : Nat := l.foldl crc64Byte v

/-- CRC-64/ECMA-182 of a byte sequence. -/
def crc64 (l : List Byte) : Nat := crc64Feed 0 l

end Sys2Proof.Machine
end

