-- ==== Sys2Proof/Machine/Tbl.lean ====
section
/-!
DEFINITION. Machine/Tbl.lean: sparse tables and byte memories in one canonical form: keys strictly rising, and no
entry equal to what an unlisted key reads as.
-/
namespace Sys2Proof.Machine
open Sys2Proof

variable {α : Type}

/-- The entry of a key: the listed one, or the table's default for that key. -/
def Tbl.get (d : Nat → α) : List (Nat × α) → Nat → α
  | [], k => d k
  | (j, v) :: r, k => if j = k then v else Tbl.get d r k

/-- Remove a key. -/
def Tbl.del : List (Nat × α) → Nat → List (Nat × α)
  | [], _ => []
  | (j, v) :: r, k => if j = k then Tbl.del r k else (j, v) :: Tbl.del r k

/-- Insert or replace a key, keeping the order. -/
def Tbl.ins : List (Nat × α) → Nat → α → List (Nat × α)
  | [], k, v => [(k, v)]
  | (j, w) :: r, k, v => if j = k then (k, v) :: r else if k < j then (k, v) :: (j, w) :: r else (j, w) :: Tbl.ins r k v

/-- Store a value: storing the default removes the entry. -/
def Tbl.put [DecidableEq α] (d : Nat → α) (t : List (Nat × α)) (k : Nat) (v : α) : List (Nat × α) :=
  if v = d k then Tbl.del t k else Tbl.ins t k v

/-- Keys strictly rising from above `lo`. -/
def Tbl.sortedFrom : Nat → List (Nat × α) → Bool
  | _, [] => true
  | lo, (j, _) :: r => decide (lo ≤ j) && Tbl.sortedFrom (j + 1) r

/-- The canonical form. -/
def Tbl.wf [DecidableEq α] (d : Nat → α) (t : List (Nat × α)) : Bool :=
  Tbl.sortedFrom 0 t && t.all fun e => decide (e.2 ≠ d e.1)

/-- A byte memory. An unlisted byte reads 0 (DESIGN CHOICE, log entry 3). -/
abbrev Mem := List Host.Cell

/-- What an unlisted address of a byte memory reads as. -/
def Mem.unlisted (_ : Nat) : Byte := 0

/-- Read one byte. -/
def Mem.byte (m : Mem) (a : Nat) : Byte := Tbl.get Mem.unlisted m a

/-- Write one byte. -/
def Mem.setByte (m : Mem) (a : Nat) (b : Byte) : Mem := Tbl.put Mem.unlisted m a b

/-- The canonical form of a byte memory. -/
def Mem.wf (m : Mem) : Bool := Tbl.wf Mem.unlisted m

/-- Read `n` bytes from address `a` on. -/
def Mem.read (m : Mem) : Nat → Nat → List Byte
  | _, 0 => []
  | a, n + 1 => Mem.byte m a :: Mem.read m (a + 1) n

/-- Write bytes from address `a` on. -/
def Mem.write (m : Mem) : Nat → List Byte → Mem
  | _, [] => m
  | a, b :: r => Mem.write (Mem.setByte m a b) (a + 1) r

/-- The little-endian number of `n` bytes at `a`. -/
def Mem.num (m : Mem) (a n : Nat) : Nat := unle (Mem.read m a n)

/-- The cells of chunks of bytes at rising offsets from `a`: bytes of 0 list nothing. -/
def Mem.cells (a : Nat) (chunks : List (Nat × List Byte)) : Mem :=
  chunks.flatMap fun c => (c.2.zipIdx.map fun b => (a + c.1 + b.2, b.1)).filter fun x => decide (x.2 ≠ 0)

/-- Replace the `n` bytes from `a` on by chunks of bytes; what no chunk gives becomes 0. Chunks at rising offsets within the
`n` bytes go in at once; any others one after another, so that the canonical form is kept whatever they are. -/
def Mem.splice (m : Mem) (a n : Nat) (chunks : List (Nat × List Byte)) : Mem :=
  let c := Mem.cells a chunks
  let below := m.filter fun x => decide (x.1 < a)
  let above := m.filter fun x => decide (a + n ≤ x.1)
  if Tbl.sortedFrom a c && c.all (fun x => decide (x.1 < a + n)) then below ++ c ++ above
  else chunks.foldl (fun (m : Mem) x => m.write (a + x.1) x.2) (below ++ above)

end Sys2Proof.Machine
end

