-- ==== Sys2Proof/Machine/RegTab.lean ====
section
/-!
DEFINITION. Machine/RegTab.lean: what a register row of the spec's tables says, and the generic rules for register
accesses (00 R12 to R15).
-/
namespace Sys2Proof.Machine
open Sys2Proof

/-- A writable field: its lowest bit, its width, its valid values, and whether a value outside them leaves only this
field unchanged (`keep`) or discards the write whole. -/
structure Fld where
  lo : Nat
  w : Nat
  min : Nat := 0
  max : Nat
  keep : Bool := false
  /-- An interval of values that are not valid either (empty by default). -/
  xlo : Nat := 1
  xhi : Nat := 0
deriving DecidableEq, Repr

/-- Whether a value of the field is valid. -/
def Fld.ok (g : Fld) (n : Nat) : Bool :=
  decide (g.min ≤ n) && decide (n ≤ g.max) && !(decide (g.xlo ≤ n) && decide (n ≤ g.xhi))

/-- A field whose every value is valid. -/
def fr (lo w : Nat) : Fld := { lo, w, max := 2 ^ w - 1 }
/-- A field where a value outside `lo..hi` leaves the field unchanged. -/
def fk (lo w mn mx : Nat) : Fld := { lo, w, min := mn, max := mx, keep := true }
/-- A field where a value outside `lo..hi` discards the write whole. -/
def fd (lo w mn mx : Nat) : Fld := { lo, w, min := mn, max := mx }

/-- A signed 9-bit overhead from -64 to +255 (R302). -/
def fOvh (lo : Nat) : Fld := { lo, w := 9, max := 511, xlo := 256, xhi := 447 }

/-- One row of a register table: the registers at `a + s1 * i + s2 * j`, `i < n1`, `j < n2`. -/
structure RegRow where
  a : Nat
  n1 : Nat := 1
  s1 : Nat := 0
  n2 : Nat := 1
  s2 : Nat := 0
  /-- 32 or 64. -/
  b : Nat := 32
  /-- Reset value. -/
  r : Nat := 0
  /-- Writable (RW) fields; every other bit discards what is written (R14). -/
  f : List Fld := []
  /-- W1C bits. -/
  w1c : Nat := 0
  /-- RC bits. -/
  rc : Nat := 0
  /-- The write is checked or acted on as a whole, so a 32-bit write to a half is discarded (R15). -/
  whole : Bool := false
  /-- A wider array, accessed as words (R15). -/
  arr : Bool := false

/-- Whether the row holds the register at `addr`, exactly. -/
def RegRow.has (x : RegRow) (addr : Nat) : Bool :=
  decide (x.a ≤ addr) &&
  (let d := addr - x.a
   let i := if x.s1 = 0 then 0 else if x.n2 ≤ 1 then d / x.s1 else (d % x.s2) / x.s1
   let j := if x.n2 ≤ 1 then 0 else d / x.s2
   decide (i < x.n1) && decide (j < x.n2) && decide (d = i * x.s1 + j * x.s2))

/-- The row of an address. -/
def rowOf (t : List RegRow) (addr : Nat) : Option RegRow := t.find? (·.has addr)

/-- The reset value of an address; an address that no row holds reads 0 (R14). -/
def resetOf (t : List RegRow) (addr : Nat) : Word := BitVec.ofNat 64 (((rowOf t addr).map (·.r)).getD 0)

/-- Whether every field of a written word is in range, or merely kept (R14: reserved bits are ignored). -/
def RegRow.accepts (x : RegRow) (v : Nat) : Bool :=
  x.f.all fun g => g.keep || g.ok (getF v g.lo g.w)

/-- R12, R13, R14: the stored word after a full-width write of `v` to a register holding `old`, in a cycle in which hardware
has made the updates `hw` to it: a W1C bit that it set stays set. -/
def RegRow.written (x : RegRow) (hw old v : Nat) : Nat :=
  if x.accepts v then
    let rw := x.f.foldl (fun acc g =>
      let n := getF v g.lo g.w
      if g.ok n then setF acc g.lo g.w n else acc) old
    rw &&& (2 ^ x.b - 1 - (v &&& x.w1c &&& (2 ^ 64 - 1 - hw % 2 ^ 64)))
  else old

/-- R15: which register word an access of `width` bytes at `addr` reaches, and the half of it (none: the whole). -/
def accessOf (t : List RegRow) (addr width : Nat) : Option (RegRow × Nat × Option Nat) :=
  if width = 4 then
    match rowOf t addr with
    | some x => if addr % 4 = 0 then some (x, addr, if x.b = 64 then some 0 else none) else none
    | none => match rowOf t (addr - 4) with
      | some x => if addr % 8 = 4 && x.b = 64 then some (x, addr - 4, some 1) else none
      | none => none
  else if width = 8 then
    match rowOf t addr with
    | some x => if addr % 8 = 0 && x.b = 64 then some (x, addr, none) else none
    | none => none
  else none

/-- R15: the full word that a write of `width` bytes asks for, or none when the write is discarded: a 32-bit write to
a half of a register whose write is checked or acted on as a whole, or that holds W1C or RC bits. -/
def wordAsked (x : RegRow) (half : Option Nat) (old v : Nat) : Option Nat :=
  match half with
  | none => some (v % 2 ^ x.b)
  | some h =>
    if x.whole || x.f.isEmpty || x.w1c != 0 || x.rc != 0 then none else some (setF old (32 * h) 32 v)

/-- R15: what a read of that word or half returns of a register that reads `v`. -/
def wordRead (x : RegRow) (half : Option Nat) (v : Nat) : Nat :=
  match half with
  | none => v % 2 ^ x.b
  | some h => getF v (32 * h) 32

/-- R12, R13: what a full-width read leaves in a register that holds `v`, where hardware has made the updates `hw` to it in
this cycle: its RC fields hold these updates only. -/
def RegRow.afterRead (x : RegRow) (hw v : Nat) : Nat := (v &&& (2 ^ 64 - 1 - x.rc)) ||| (hw &&& x.rc)

/-- R13: what a full-width read returns of a register that reads `v` now and held `before` ahead of this cycle's updates. -/
def RegRow.rcRead (x : RegRow) (before v : Nat) : Nat := (v &&& (2 ^ 64 - 1 - x.rc)) ||| (before &&& x.rc)

/-- R12, R15: the register words of a part after an access of `width` bytes that writes `v` at `addr`, `hw` giving each
register's updates by hardware in this cycle. -/
def regWrite (t : List RegRow) (hw : Nat → Nat) (regs : List (Nat × Word)) (addr width v : Nat) : List (Nat × Word) :=
  match accessOf t addr width with
  | none => regs
  | some (x, a, half) =>
    let old := (Tbl.get (resetOf t) regs a).toNat
    match wordAsked x half old v with
    | none => regs
    | some w => Tbl.put (resetOf t) regs a (BitVec.ofNat 64 (x.written (hw a) old w))

end Sys2Proof.Machine
end

