-- ==== Sys2Proof/Machine/OtuRegs.lean ====
section
/-!
DEFINITION. Machine/OtuRegs.lean: the OTU's register map (17 R450 to R459 and the register tables of 02 to 16), as
offsets from OTU_BASE.
-/
namespace Sys2Proof.Machine
open Sys2Proof

/-! R451: global and ID registers. -/
abbrev OTU_ID : Nat := 0x0
abbrev OTU_REV : Nat := 0x4
abbrev OTU_CONTRACT : Nat := 0x8
abbrev OTU_CAPS : Nat := 0xC
abbrev OTU_DIE_UID : Nat := 0x10
abbrev OTU_GLB_EVENTS : Nat := 0x20
abbrev OTU_DESC_STATUS : Nat := 0x100
abbrev OTU_RCV_EPOCH : Nat := 0x104
abbrev OTU_SELFTEST : Nat := 0x108
abbrev OTU_TMUX_CTRL : Nat := 0x200
abbrev OTU_TMUX_SEL (k : Nat) : Nat := 0x210 + 4 * k
abbrev OTU_TW_BIND (w : Nat) : Nat := 0x800 + 4 * w
/-! R120: global channels. -/
abbrev OTU_GCH_CTRL : Nat := 0x1000
abbrev OTU_GCH_STATUS : Nat := 0x1004
abbrev OTU_GCH_LAST_SEQ : Nat := 0x1008
abbrev OTU_GCH_NEXT_T : Nat := 0x1010
/-! R60: time. -/
abbrev OTU_TIME_FT : Nat := 0x10000
abbrev OTU_TIME_JT : Nat := 0x10008
abbrev OTU_TIME_LT : Nat := 0x10010
abbrev OTU_TIME_STATUS : Nat := 0x10018
abbrev OTU_TIME_EVENTS : Nat := 0x1001C
abbrev OTU_TIME_CTRL : Nat := 0x10020
abbrev OTU_TIME_ASYM : Nat := 0x10024
abbrev OTU_TIME_OFFSET : Nat := 0x10028
abbrev OTU_TIME_DELAY : Nat := 0x1002C
abbrev OTU_TIME_ERR : Nat := 0x10030
abbrev OTU_TIME_HOLD_AGE : Nat := 0x10034
abbrev OTU_TIME_SNAP_CMD : Nat := 0x10038
abbrev OTU_TIME_SNAP_FT : Nat := 0x10040
abbrev OTU_TIME_SNAP_LT : Nat := 0x10048
abbrev OTU_TIME_JOB_START : Nat := 0x10050
abbrev OTU_MARK : Nat := 0x10058
abbrev OTU_MARK_STATUS : Nat := 0x10060
/-! R93: accords. -/
abbrev OTU_ACC_CTRL : Nat := 0x20000
abbrev OTU_ACC_STATUS : Nat := 0x20004
abbrev OTU_ACC_EVENTS : Nat := 0x20008
abbrev OTU_ACC_KEY_REQ : Nat := 0x2000C
abbrev OTU_ACC_NEXT_T : Nat := 0x20010
abbrev OTU_ACC_LAST_NO : Nat := 0x20018
abbrev OTU_ACC_SWITCH_T : Nat := 0x20020
abbrev OTU_ACC_SWITCH_INTERVAL : Nat := 0x20028
abbrev OTU_ACC_DUMP_SLOTS : Nat := 0x2002C
abbrev OTU_ACC_DUMP_BASE : Nat := 0x20030
abbrev OTU_ACC_DUMP_SIZE : Nat := 0x20038
abbrev OTU_ACC_FAST_CTRL : Nat := 0x20040
abbrev OTU_ACC_UNPIN : Nat := 0x20044
abbrev OTU_ACC_FAST_SEL (k : Nat) : Nat := 0x20080 + 4 * k
/-! R119, R120: engine counters and control. `c` is R71's counter 0 to 31. -/
abbrev OTU_ENG_CTR (e c : Nat) : Nat := 0x40000 + 0x100 * e + 8 * c
abbrev OTU_ENG_EVSEL (e k : Nat) : Nat := 0x60000 + 0x80 * e + 8 * k
abbrev OTU_ENG_INFO (e : Nat) : Nat := 0x60040 + 0x80 * e
abbrev OTU_ENG_OVF (e : Nat) : Nat := 0x60044 + 0x80 * e
abbrev OTU_ENG_CFG_EPOCH (e : Nat) : Nat := 0x60048 + 0x80 * e
abbrev OTU_ENG_CMD_SEQ (e : Nat) : Nat := 0x6004C + 0x80 * e
abbrev OTU_ENG_EVENTS (e : Nat) : Nat := 0x60050 + 0x80 * e
/-- Buffer `b` is 0 for the privileged snapshot buffer and 1 + w for window w's, which R453 places at window offset
0x0200. -/
def snapBase (b : Nat) : Nat := if b = 0 then 0x70000 else 0x200200 + 0x8000 * (b - 1)
abbrev OTU_ENG_SNAP_CMD (b : Nat) : Nat := snapBase b
abbrev OTU_ENG_SNAP_STATUS (b : Nat) : Nat := snapBase b + 0x4
abbrev OTU_ENG_SNAP_CMD_SEQ (b : Nat) : Nat := snapBase b + 0x8
abbrev OTU_ENG_SNAP_FT (b : Nat) : Nat := snapBase b + 0x10
abbrev OTU_ENG_SNAP_LT (b : Nat) : Nat := snapBase b + 0x18
abbrev OTU_ENG_SNAP (b c : Nat) : Nat := snapBase b + 0x100 + 8 * c
/-! R139, R140: queues, waits and hangs. -/
abbrev OTU_Q_CFG (q : Nat) : Nat := 0x80000 + 0x10 * q
abbrev OTU_Q_INFO (q : Nat) : Nat := 0x80004 + 0x10 * q
abbrev OTU_Q_LIVE (q : Nat) : Nat := 0x80008 + 0x10 * q
abbrev OTU_QS_CTRL : Nat := 0x90000
abbrev OTU_QS_LOST : Nat := 0x90004
abbrev OTU_QS_SEQ : Nat := 0x90008
abbrev OTU_SYNC_CTRL : Nat := 0xA0000
abbrev OTU_SYNC_EVENTS : Nat := 0xA0004
abbrev OTU_SYNC_SHORT : Nat := 0xA0008
abbrev OTU_SYNC_LOST : Nat := 0xA000C
abbrev OTU_SYNC_OPEN : Nat := 0xA0010
abbrev OTU_HANG_CTRL : Nat := 0xA0014
abbrev OTU_HANG_ACTIVE : Nat := 0xA0018
abbrev OTU_HANG_LAST_T : Nat := 0xA0020
/-! R175: sillage. -/
abbrev OTU_SIL_CTRL : Nat := 0xB0000
abbrev OTU_SIL_STATUS : Nat := 0xB0004
abbrev OTU_SIL_SEQ_EN : Nat := 0xB0008
abbrev OTU_SIL_SYNC_REQ : Nat := 0xB0010
abbrev OTU_SIL_EVENTS : Nat := 0xB0018
abbrev OTU_SIL_LOST_PKTS : Nat := 0xB001C
abbrev OTU_SIL_LOST_BYTES : Nat := 0xB0020
abbrev OTU_SIL_OVERWRITTEN : Nat := 0xB0024
abbrev OTU_SIL_LOST_MASK : Nat := 0xB0028
abbrev OTU_SIL_GRANT_ID (g : Nat) : Nat := 0xB0100 + 0x40 * g
abbrev OTU_SIL_GRANT_CTRL (g : Nat) : Nat := 0xB0104 + 0x40 * g
abbrev OTU_SIL_GRANT_DIE (g : Nat) : Nat := 0xB0108 + 0x40 * g
abbrev OTU_SIL_GRANT_EXPIRY (g : Nat) : Nat := 0xB0110 + 0x40 * g
abbrev OTU_SIL_GRANT_SEQ_MASK (g : Nat) : Nat := 0xB0118 + 0x40 * g
/-! R197, R198: numerics and canaries. -/
abbrev OTU_NUM_CTRL : Nat := 0xC0000
abbrev OTU_NUM_EVENTS : Nat := 0xC0004
abbrev OTU_NUM_QUEUE : Nat := 0xC0008
abbrev OTU_NUM_FIRST_LOST : Nat := 0xC000C
abbrev OTU_NUM_LAST_FT : Nat := 0xC0010
abbrev OTU_CAN_CTRL : Nat := 0xD0000
abbrev OTU_CAN_TIMING : Nat := 0xD0004
abbrev OTU_CAN_STATUS : Nat := 0xD0008
abbrev OTU_CAN_EVENTS : Nat := 0xD000C
abbrev OTU_CAN_MISMATCHES : Nat := 0xD0010
/-- Word `i` (0 to 7) of library entry `n`. -/
abbrev OTU_CAN_LIB (n i : Nat) : Nat := 0xD1000 + 0x40 * n + 8 * i
abbrev OTU_CAN_ENG_BUDGET (e : Nat) : Nat := 0xD8000 + 4 * e
/-! R218: digests. -/
abbrev OTU_DIG_CTRL : Nat := 0xE0000
abbrev OTU_DIG_STATUS : Nat := 0xE0004
abbrev OTU_DIG_EVENTS : Nat := 0xE0008
abbrev OTU_DIG_MARK_SLOTS : Nat := 0xE0010
abbrev OTU_DIG_MARK : Nat := 0xE0018
abbrev OTU_DIG_LAST_RESULT : Nat := 0xE001C
abbrev OTU_DIG_PROGRAM : Nat := 0xE0020
abbrev OTU_DIG_WEIGHTS : Nat := 0xE0040
abbrev OTU_DIG_FP (f : Nat) : Nat := 0xE0100 + 0x20 * f
abbrev OTU_DIG_FP_TILES (f : Nat) : Nat := 0xE0110 + 0x20 * f
/-! R338: event recorder. -/
abbrev OTU_EVR_CTRL : Nat := 0xF0000
abbrev OTU_EVR_STATUS : Nat := 0xF0004
abbrev OTU_EVR_EVENTS : Nat := 0xF0008
abbrev OTU_EVR_SESSION : Nat := 0xF000C
abbrev OTU_EVR_FRONTIER : Nat := 0xF0010
abbrev OTU_EVR_DROPPED : Nat := 0xF0014
abbrev OTU_EVR_CLEAR : Nat := 0xF0018
abbrev OTU_EVR_RL_DEFAULT : Nat := 0xF0020
abbrev OTU_EVR_RL (k : Nat) : Nat := 0xF0100 + 8 * k
abbrev OTU_BLOT_CURSOR : Nat := 0xF0400
abbrev OTU_BLOT_WINDOW : Nat := 0xF1000
/-! R358, R359: compressor and check-value contexts. -/
abbrev OTU_CV_BASE (c : Nat) : Nat := 0x100000 + 0x80 * c
abbrev OTU_CMP_BASE : Nat := 0x110000
/-! R316: port and shapers. -/
abbrev OTU_PORT_STATUS : Nat := 0x120000
abbrev OTU_PORT_EVENTS : Nat := 0x120004
abbrev OTU_PORT_LOC : Nat := 0x120008
abbrev OTU_PORT_OVH : Nat := 0x12000C
abbrev OTU_FB_CTRL : Nat := 0x120010
abbrev OTU_FB_RATE : Nat := 0x120014
abbrev OTU_FB_PIR : Nat := 0x120018
abbrev OTU_FB_RELAY (i : Nat) : Nat := 0x120020 + 8 * i
/-- Base of the OTU's gate and shaper block. -/
abbrev OTU_GB : Nat := 0x120000
abbrev OTU_GCL_CTRL : Nat := 0x120040
abbrev OTU_GCL_ADMIN_BASE : Nat := 0x120048
abbrev OTU_GCL_ADMIN_CYCLE : Nat := 0x120050
abbrev OTU_GCL_CHANGE_T : Nat := 0x120058
abbrev OTU_GCL_OPER_BASE : Nat := 0x120060
abbrev OTU_GCL_OPER_CYCLE : Nat := 0x120068
abbrev OTU_GCL_STATE : Nat := 0x120070
abbrev OTU_GCL_ADMIN (i : Nat) : Nat := 0x120800 + 8 * i
abbrev OTU_GCL_OPER (i : Nat) : Nat := 0x121000 + 8 * i
abbrev OTU_EQ_CLASS (c : Nat) : Nat := 0x122000 + 4 * c
abbrev OTU_EQ_CIR (q : Nat) : Nat := 0x124000 + 0x10 * q
abbrev OTU_EQ_PIR (q : Nat) : Nat := 0x124004 + 0x10 * q
abbrev OTU_EQ_BURST (q : Nat) : Nat := 0x124008 + 0x10 * q
abbrev OTU_EQ_DRR (q : Nat) : Nat := 0x12400C + 0x10 * q
abbrev OTU_EQS_CTRL : Nat := 0x128000
abbrev OTU_EQS_SEQ : Nat := 0x128004
abbrev OTU_EQ_LIVE (q : Nat) : Nat := 0x12A000 + 8 * q
/-! R453: tenant window registers of a window's own. -/
abbrev OTU_TW_INFO (w : Nat) : Nat := 0x200000 + 0x8000 * w
abbrev OTU_TW_ENG_PAGE (w : Nat) : Nat := 0x200004 + 0x8000 * w
abbrev OTU_TW_Q_PAGE (w : Nat) : Nat := 0x200008 + 0x8000 * w
abbrev OTU_TW_CONTRACT (w : Nat) : Nat := 0x200010 + 0x8000 * w

/-- R71, R119: the value width of counter `c` of an engine. -/
def ctrWidth (c : Nat) : Nat := if c = 0 then 64 else if c < 16 then 48 else 40

/-- R358: the rows of a compressor or decompressor block at `base`. -/
def cmpRows (base n : Nat) (dec : Bool) : List RegRow :=
  let m (x : RegRow) : RegRow := { x with n1 := n, s1 := 0x100 }
  [ m { a := base, b := 64, f := [fr 0 64] }, m { a := base + 0x8, b := 64, f := [fr 0 64] },
    m { a := base + 0x10, b := 64, f := [fr 0 64] }, m { a := base + 0x18, b := 64, f := [fr 0 64] },
    if dec then m { a := base + 0x20, r := 1, f := [fr 0 1] }
    else m { a := base + 0x20, r := 0x2400A, f := [fr 0 2, fr 2 3, fr 8 9, fr 17 1] },
    m { a := base + 0x24 }, m { a := base + 0x28 }, m { a := base + 0x2C, w1c := 0xF },
    m { a := base + 0x30, b := 64 }, m { a := base + 0x38, b := 64 },
    m { a := base + 0x40, b := 64, f := [fr 0 64] }, m { a := base + 0x48, b := 64 },
    m { a := base + 0x50, rc := if dec then 0 else 0xFFFFFFFF } ]

/-- R359: the rows of `n` check-value contexts at `base`. -/
def cvRows (base n : Nat) : List RegRow :=
  let m (x : RegRow) : RegRow := { x with n1 := n, s1 := 0x80 }
  [ m { a := base, f := [fr 0 1] }, m { a := base + 0x4 },
    m { a := base + 0x8, b := 64, r := 0xFFFFFFFF, f := [fr 0 64], whole := true }, m { a := base + 0x10, b := 64 },
    m { a := base + 0x18, b := 64 }, m { a := base + 0x20 }, m { a := base + 0x24 }, m { a := base + 0x28 },
    m { a := base + 0x2C, w1c := 0xF }, m { a := base + 0x30, b := 64, f := [fr 0 64] },
    m { a := base + 0x38, b := 64, f := [fr 0 64] }, m { a := base + 0x40, b := 64 } ]

/-- R316, R318: the rows of a gate and shaper block at `base`, `n` blocks `s` apart. -/
def gateRows (base n s cls5 clsReset maxFrame rate pir : Nat) : List RegRow :=
  let m (x : RegRow) : RegRow := { x with n2 := n, s2 := s, n1 := max x.n1 1, s1 := if x.n1 ≤ 1 then s else x.s1 }
  let one (x : RegRow) : RegRow := { x with n1 := n, s1 := s }
  [ one { a := base + 0x40, r := 2, f := [fr 0 1, fd 1 9 1 256] },
    one { a := base + 0x48, b := 64, f := [fr 0 64] },
    one { a := base + 0x50, b := 64, r := 1, f := [fd 0 64 1 (2 ^ 40)], whole := true },
    one { a := base + 0x58, b := 64, r := 0xFFFFFFFFFFFFFFFF, f := [fr 0 64], whole := true },
    one { a := base + 0x60, b := 64 }, one { a := base + 0x68, b := 64, r := 1 }, one { a := base + 0x70, r := 0xFF },
    m { a := base + 0x800, n1 := 256, s1 := 8, b := 64, r := 0x1000000FF, f := [fr 0 8, fd 32 32 1 0xFFFFFFFF],
        whole := true },
    m { a := base + 0x1000, n1 := 256, s1 := 8, b := 64, r := 0x1000000FF },
    m { a := base + 0x2000, n1 := 5, s1 := 4, r := clsReset, f := [fd 0 16 64 maxFrame] },
    one { a := base + 0x2014, r := cls5, f := [fd 0 16 64 maxFrame] },
    m { a := base + 0x2018, n1 := 2, s1 := 4, r := clsReset, f := [fd 0 16 64 maxFrame] },
    m { a := base + 0x4000, n1 := 1024, s1 := 0x10, f := [fd 0 32 0 rate] },
    m { a := base + 0x4004, n1 := 1024, s1 := 0x10, r := pir, f := [fd 0 32 1 rate] },
    m { a := base + 0x4008, n1 := 1024, s1 := 0x10, r := 0x1000040, f := [fd 0 16 1 65535, fd 16 16 1 65535] },
    m { a := base + 0x400C, n1 := 1024, s1 := 0x10, r := 0x4000, f := [fd 0 16 64 65535] },
    one { a := base + 0x8000, r := 0x15, f := [fr 0 1, fd 1 10 1 1000] },
    one { a := base + 0x8004 },
    m { a := base + 0xA000, n1 := 1024, s1 := 8, b := 64 } ]

/-- The OTU's rows outside the engine, queue, shaper and window arrays. -/
def otuRowsA : List RegRow := [
  { a := OTU_ID, r := 0x07E11F3E }, { a := OTU_REV, r := 0x11 }, { a := OTU_CONTRACT, r := 0x100 },
  { a := OTU_CAPS, r := 0x20400200 }, { a := OTU_DIE_UID, b := 64, r := 1 }, { a := OTU_GLB_EVENTS, w1c := 1 },
  { a := OTU_DESC_STATUS }, { a := OTU_RCV_EPOCH }, { a := OTU_SELFTEST },
  { a := OTU_TMUX_CTRL, f := [fr 0 1] }, { a := OTU_TMUX_SEL 0, n1 := 8, s1 := 4, f := [fr 0 12] },
  { a := OTU_TW_BIND 0, n1 := 64, s1 := 4, f := [fr 0 17] },
  { a := OTU_GCH_CTRL, r := 0x815, f := [fr 0 1, fk 1 10 1 1000, fr 11 1] },
  { a := OTU_GCH_STATUS }, { a := OTU_GCH_LAST_SEQ, r := 0xFFFFFFFF },
  { a := OTU_GCH_NEXT_T, b := 64, r := absent },
  { a := OTU_TIME_FT, b := 64, r := absent }, { a := OTU_TIME_JT, b := 64, r := absent }, { a := OTU_TIME_LT, b := 64 },
  { a := OTU_TIME_STATUS, r := 0x404 }, { a := OTU_TIME_EVENTS, w1c := 0x3F },
  { a := OTU_TIME_CTRL, r := 0x1000A6, f := [fk 0 4 0 10, fk 4 8 1 100, fr 12 12] },
  { a := OTU_TIME_ASYM }, { a := OTU_TIME_OFFSET }, { a := OTU_TIME_DELAY }, { a := OTU_TIME_ERR, r := 0xFFFFFFFF },
  { a := OTU_TIME_HOLD_AGE }, { a := OTU_TIME_SNAP_CMD }, { a := OTU_TIME_SNAP_FT, b := 64, r := absent },
  { a := OTU_TIME_SNAP_LT, b := 64 }, { a := OTU_TIME_JOB_START, b := 64, r := absent }, { a := OTU_MARK, b := 64 },
  { a := OTU_MARK_STATUS, rc := 0xFFFF00 },
  { a := OTU_ACC_CTRL, r := 0x3E87, f := [fr 0 3, fk 4 12 1 4095] }, { a := OTU_ACC_STATUS, r := 0xA },
  { a := OTU_ACC_EVENTS, w1c := 0xFF }, { a := OTU_ACC_KEY_REQ }, { a := OTU_ACC_NEXT_T, b := 64, r := absent },
  { a := OTU_ACC_LAST_NO, b := 64, r := absent },
  { a := OTU_ACC_SWITCH_T, b := 64, r := absent, f := [fr 0 64], whole := true },
  { a := OTU_ACC_SWITCH_INTERVAL, r := 0xA, f := [fd 0 14 1 10000] },
  { a := OTU_ACC_DUMP_SLOTS, r := 1365, f := [fr 0 16] },
  { a := OTU_ACC_DUMP_BASE, b := 64 }, { a := OTU_ACC_DUMP_SIZE, b := 64 },
  { a := OTU_ACC_FAST_CTRL, r := 0x0FA00014, f := [fr 0 1, fk 1 17 1 100000, fk 18 12 1 4095] },
  { a := OTU_ACC_UNPIN }, { a := OTU_ACC_FAST_SEL 0, n1 := 64, s1 := 4, f := [fd 0 15 0 16639, fr 15 1] } ]

/-- The OTU's rows of queues, waits, sillage, numerics, canaries and digests. -/
def otuRowsB : List RegRow := [
  { a := OTU_QS_CTRL, r := 1, f := [fr 0 2] }, { a := OTU_QS_LOST, rc := 0xFFFFFFFF }, { a := OTU_QS_SEQ },
  { a := OTU_SYNC_CTRL, r := 0x00640021, f := [fr 0 1, fr 1 8, fk 16 10 1 1000] },
  { a := OTU_SYNC_EVENTS, w1c := 7 }, { a := OTU_SYNC_SHORT, rc := 0xFFFFFFFF }, { a := OTU_SYNC_LOST, rc := 0xFFFFFFFF },
  { a := OTU_SYNC_OPEN }, { a := OTU_HANG_CTRL, r := 0xC9, f := [fr 0 1, fk 1 14 1 10000] }, { a := OTU_HANG_ACTIVE },
  { a := OTU_HANG_LAST_T, b := 64, r := absent },
  { a := OTU_SIL_CTRL, r := 0x404000A1, f := [fr 0 2, fk 4 8 1 255, fk 12 12 64 4095, fk 24 8 1 255] },
  { a := OTU_SIL_STATUS }, { a := OTU_SIL_SEQ_EN, b := 64, r := absent, f := [fr 0 64], whole := true },
  { a := OTU_SIL_SYNC_REQ, b := 64 }, { a := OTU_SIL_EVENTS, w1c := 0x1F },
  { a := OTU_SIL_LOST_PKTS, rc := 0xFFFFFFFF }, { a := OTU_SIL_LOST_BYTES, rc := 0xFFFFFFFF },
  { a := OTU_SIL_OVERWRITTEN, rc := 0xFFFFFFFF }, { a := OTU_SIL_LOST_MASK, b := 64 },
  { a := OTU_SIL_GRANT_ID 0, n1 := 4, s1 := 0x40 }, { a := OTU_SIL_GRANT_CTRL 0, n1 := 4, s1 := 0x40 },
  { a := OTU_SIL_GRANT_DIE 0, n1 := 4, s1 := 0x40, b := 64 }, { a := OTU_SIL_GRANT_EXPIRY 0, n1 := 4, s1 := 0x40, b := 64 },
  { a := OTU_SIL_GRANT_SEQ_MASK 0, n1 := 4, s1 := 0x40, b := 64 },
  { a := OTU_NUM_CTRL, r := 7, f := [fr 0 3] }, { a := OTU_NUM_EVENTS, w1c := 0xF }, { a := OTU_NUM_QUEUE },
  { a := OTU_NUM_FIRST_LOST, rc := 0xFFFFFFFF }, { a := OTU_NUM_LAST_FT, b := 64, r := absent },
  { a := OTU_CAN_CTRL, r := 0x01007B7F, f := [fr 0 7, fr 8 2, fk 10 6 0 30, fr 16 10] },
  { a := OTU_CAN_TIMING, r := 0x04000040, f := [fr 0 16, fk 16 16 1 65535] }, { a := OTU_CAN_STATUS },
  { a := OTU_CAN_EVENTS, w1c := 0x3F }, { a := OTU_CAN_MISMATCHES, rc := 0xFFFFFFFF },
  { a := OTU_CAN_LIB 0 0, n1 := 2048, s1 := 8, b := 64, f := [fr 0 64], arr := true },
  { a := OTU_CAN_ENG_BUDGET 0, n1 := 512, s1 := 4 },
  { a := OTU_DIG_CTRL, r := 7, f := [fr 0 3] }, { a := OTU_DIG_STATUS }, { a := OTU_DIG_EVENTS, w1c := 0xF },
  { a := OTU_DIG_MARK_SLOTS, b := 64, f := [fr 0 64] }, { a := OTU_DIG_MARK }, { a := OTU_DIG_LAST_RESULT, r := 0xFFFFFFFF },
  { a := OTU_DIG_PROGRAM, n1 := 4, s1 := 8, b := 64, arr := true }, { a := OTU_DIG_WEIGHTS, n1 := 4, s1 := 8, b := 64, arr := true },
  { a := OTU_DIG_FP 0, n1 := 2, s1 := 8, n2 := 64, s2 := 0x20, b := 64, arr := true },
  { a := OTU_DIG_FP_TILES 0, n1 := 64, s1 := 0x20, b := 64 } ]

/-- The OTU's rows of the recorder, compressor, check values and port. -/
def otuRowsC : List RegRow := [
  { a := OTU_EVR_CTRL, r := 1, f := [fr 0 4] }, { a := OTU_EVR_STATUS }, { a := OTU_EVR_EVENTS, w1c := 0xF },
  { a := OTU_EVR_SESSION, r := 1 }, { a := OTU_EVR_FRONTIER, r := 1 }, { a := OTU_EVR_DROPPED, rc := 0xFFFFFFFF },
  { a := OTU_EVR_CLEAR }, { a := OTU_EVR_RL_DEFAULT, b := 64, r := 0x004003E800000000, f := [fr 32 16, fd 48 16 1 65535], whole := true },
  { a := OTU_EVR_RL 0, n1 := 64, s1 := 8, b := 64, f := [fr 0 17, fr 32 16, fr 48 16], whole := true },
  { a := OTU_BLOT_CURSOR, f := [fr 0 12] },
  { a := OTU_BLOT_WINDOW, n1 := 512, s1 := 8, b := 64, arr := true },
  { a := OTU_PORT_STATUS }, { a := OTU_PORT_EVENTS, w1c := 0x3FF }, { a := OTU_PORT_LOC },
  { a := OTU_PORT_OVH, r := 0x00200000, f := [fOvh 0, fOvh 16] },
  { a := OTU_FB_CTRL, r := 0x0014E001, f := [fr 0 1, fr 8 1, fr 10 6, fd 16 8 1 255] }, { a := OTU_FB_RATE },
  { a := OTU_FB_PIR, r := 0x61A8, f := [fd 0 32 1000 400000] }, { a := OTU_FB_RELAY 0, n1 := 4, s1 := 8, b := 64 } ] ++
  cmpRows OTU_CMP_BASE 1 false ++ cvRows (OTU_CV_BASE 0) 4 ++
  gateRows OTU_GB 1 0x40000 0x1000 0x1000 4096 400000 400000

/-- The OTU's rows of engines, queues, global-channel entries and tenant windows. -/
def otuRowsD : List RegRow := [
  { a := 0x8000, n1 := 72, s1 := 8, n2 := 32, s2 := 0x400, b := 64, arr := true },
  { a := OTU_ENG_CTR 0 0, n1 := 512, s1 := 0x100, b := 64 },
  { a := OTU_ENG_CTR 0 1, n1 := 8, s1 := 8, n2 := 512, s2 := 0x100, b := 64, f := [fr 0 48], whole := true },
  { a := OTU_ENG_CTR 0 9, n1 := 23, s1 := 8, n2 := 512, s2 := 0x100, b := 64 },
  { a := OTU_ENG_EVSEL 0 0, n1 := 8, s1 := 8, n2 := 512, s2 := 0x80, b := 64, r := 0x1000000000, f := [fr 0 39],
    whole := true },
  { a := OTU_ENG_INFO 0, n1 := 512, s1 := 0x80 }, { a := OTU_ENG_OVF 0, n1 := 512, s1 := 0x80, w1c := 0xFFFFFFFE },
  { a := OTU_ENG_CFG_EPOCH 0, n1 := 512, s1 := 0x80 }, { a := OTU_ENG_CMD_SEQ 0, n1 := 512, s1 := 0x80 },
  { a := OTU_ENG_EVENTS 0, n1 := 512, s1 := 0x80, w1c := 0xF },
  { a := OTU_ENG_SNAP_CMD 0 }, { a := OTU_ENG_SNAP_STATUS 0 }, { a := OTU_ENG_SNAP_CMD_SEQ 0 },
  { a := OTU_ENG_SNAP_FT 0, b := 64, r := absent }, { a := OTU_ENG_SNAP_LT 0, b := 64 },
  { a := OTU_ENG_SNAP 0 0, n1 := 32, s1 := 8, b := 64 },
  { a := OTU_Q_CFG 0, n1 := 4096, s1 := 0x10, r := 0x15, f := [fr 0 1, fk 1 10 1 1000] },
  { a := OTU_Q_INFO 0, n1 := 4096, s1 := 0x10 }, { a := OTU_Q_LIVE 0, n1 := 4096, s1 := 0x10, b := 64 },
  { a := OTU_TW_INFO 0, n1 := 64, s1 := 0x8000 },
  { a := OTU_TW_ENG_PAGE 0, n1 := 64, s1 := 0x8000, f := [fd 0 5 0 31] },
  { a := OTU_TW_Q_PAGE 0, n1 := 64, s1 := 0x8000, f := [fd 0 4 0 15] },
  { a := OTU_TW_CONTRACT 0, n1 := 64, s1 := 0x8000, r := 0x100 },
  { a := OTU_ENG_SNAP_CMD 1, n1 := 64, s1 := 0x8000 }, { a := OTU_ENG_SNAP_STATUS 1, n1 := 64, s1 := 0x8000 },
  { a := OTU_ENG_SNAP_CMD_SEQ 1, n1 := 64, s1 := 0x8000 },
  { a := OTU_ENG_SNAP_FT 1, n1 := 64, s1 := 0x8000, b := 64, r := absent },
  { a := OTU_ENG_SNAP_LT 1, n1 := 64, s1 := 0x8000, b := 64 },
  { a := OTU_ENG_SNAP 1 0, n1 := 32, s1 := 8, n2 := 64, s2 := 0x8000, b := 64 } ]

/-- R459: every OTU register. -/
def otuRows : List RegRow := otuRowsA ++ otuRowsB ++ otuRowsC ++ otuRowsD

/-- The reset value of an OTU register address. -/
def otuReset (a : Nat) : Word := resetOf otuRows a

end Sys2Proof.Machine
end

