-- ==== Sys2Proof/Machine/PrdRegs.lean ====
section
/-!
DEFINITION. Machine/PrdRegs.lean: Priord's register map (17 R455 to R460 and the register tables of 02 to 16), as
internal-space offsets.
-/
namespace Sys2Proof.Machine
open Sys2Proof

/-! R458: chip global and ID registers. -/
abbrev PRD_ID : Nat := 0x0
abbrev PRD_REV : Nat := 0x4
abbrev PRD_CONTRACT : Nat := 0x8
abbrev PRD_CAPS : Nat := 0xC
abbrev PRD_UID : Nat := 0x10
abbrev PRD_GLB_EVENTS : Nat := 0x18
abbrev PRD_HBM_SIZE : Nat := 0x20
abbrev PRD_WORK_BASE : Nat := 0x28
abbrev PRD_SW_BASE : Nat := 0x30
abbrev PRD_BAR4_WIN : Nat := 0x38
/-! R429: start-up and recovery. -/
abbrev PRD_BOOT_STATUS : Nat := 0x1000
abbrev PRD_BOOT_STRAPS : Nat := 0x1004
abbrev PRD_BOOT_EVENTS : Nat := 0x1008
abbrev PRD_BOOT_IMAGE_ID : Nat := 0x1010
abbrev PRD_BOOT_RUN_FT : Nat := 0x1018
abbrev PRD_BOOT_IMAGE_SHA : Nat := 0x1020
abbrev PRD_RCV_EPOCH : Nat := 0x1060
abbrev PRD_RCV_STATUS : Nat := 0x1064
abbrev PRD_RCV_EVENTS : Nat := 0x1068
abbrev PRD_CTX_CFG : Nat := 0x1070
abbrev PRD_CTX_ORPHANS : Nat := 0x1074
abbrev PRD_CTX_UNDRAINED : Nat := 0x1078
abbrev PRD_OTU_FAULT_WAIT : Nat := 0x107C
abbrev PRD_BUDDY_STATUS : Nat := 0x1080
abbrev PRD_BUDDY_PEERS : Nat := 0x1084
abbrev PRD_BUDDY_LAG : Nat := 0x1088
abbrev PRD_RBLD_CMD : Nat := 0x1090
abbrev PRD_RBLD_STATUS : Nat := 0x1094
abbrev PRD_RBLD_STORE_ADDR : Nat := 0x1098
abbrev PRD_RBLD_STORE_LEN : Nat := 0x10A0
abbrev PRD_RBLD_GAP_FIRST : Nat := 0x10A8
abbrev PRD_RBLD_GAP_LAST : Nat := 0x10B0
/-! R61: time. -/
abbrev PRD_TIME_FT : Nat := 0x100000
abbrev PRD_TIME_STATUS : Nat := 0x100008
abbrev PRD_TIME_EVENTS : Nat := 0x10000C
abbrev PRD_TIME_OFFSET : Nat := 0x100010
abbrev PRD_TIME_ERR : Nat := 0x100014
abbrev PRD_TIME_HOLD_AGE : Nat := 0x100018
abbrev PRD_TIME_LOCK_AGE : Nat := 0x10001C
abbrev PRD_TIME_PTP_CFG : Nat := 0x100020
abbrev PRD_TIME_LOOP_CFG : Nat := 0x100024
abbrev PRD_TIME_UNCERT : Nat := 0x100028
abbrev PRD_TIME_UTC_OFFSET : Nat := 0x10002C
abbrev PRD_TIME_STEP_LIMIT : Nat := 0x100030
abbrev PRD_TIME_GM_ID : Nat := 0x100038
abbrev PRD_TIME_SYNCE_CFG : Nat := 0x100040
abbrev PRD_TIME_DP_OFFSET (n : Nat) : Nat := 0x100100 + 0x10 * n
abbrev PRD_TIME_DP_DELAY (n : Nat) : Nat := 0x100104 + 0x10 * n
abbrev PRD_TIME_DP_ASYM (n : Nat) : Nat := 0x100108 + 0x10 * n
abbrev PRD_TIME_DP_STATUS (n : Nat) : Nat := 0x10010C + 0x10 * n
/-! R317: die ports and ingest. -/
abbrev PRD_DP_STATUS (n : Nat) : Nat := 0x200000 + 0x1000 * n
abbrev PRD_DP_EVENTS (n : Nat) : Nat := 0x200004 + 0x1000 * n
abbrev PRD_DP_REPLAYS (n : Nat) : Nat := 0x200008 + 0x1000 * n
abbrev PRD_DP_RCRC_FAIL (n : Nat) : Nat := 0x20000C + 0x1000 * n
abbrev PRD_DP_RESYNC_DISCARD (n : Nat) : Nat := 0x200010 + 0x1000 * n
abbrev PRD_DP_ALIVE (n : Nat) : Nat := 0x200014 + 0x1000 * n
abbrev PRD_DP_POL_CIR (n : Nat) : Nat := 0x200018 + 0x1000 * n
abbrev PRD_DP_POL_PIR (n : Nat) : Nat := 0x20001C + 0x1000 * n
abbrev PRD_DP_POL_BURST (n : Nat) : Nat := 0x200020 + 0x1000 * n
abbrev PRD_DP_POL_CTRL (n : Nat) : Nat := 0x200024 + 0x1000 * n
abbrev PRD_DP_YELLOW_BYTES (n : Nat) : Nat := 0x200028 + 0x1000 * n
abbrev PRD_DP_RED_DROP_BYTES (n : Nat) : Nat := 0x200030 + 0x1000 * n
abbrev PRD_DP_RED_PROTECTED (n : Nat) : Nat := 0x200038 + 0x1000 * n
abbrev PRD_DP_CREDIT (n : Nat) : Nat := 0x20003C + 0x1000 * n
abbrev PRD_INGEST_LIMIT : Nat := 0x220000
abbrev PRD_INGEST_STATUS : Nat := 0x220004
abbrev PRD_INGEST_RATE : Nat := 0x220008
/-! R318: uplinks. -/
abbrev PRD_UL (u : Nat) : Nat := 0x300000 + 0x40000 * u
abbrev PRD_UL_STATUS (u : Nat) : Nat := PRD_UL u
abbrev PRD_UL_EVENTS (u : Nat) : Nat := PRD_UL u + 0x4
abbrev PRD_UL_OVH (u : Nat) : Nat := PRD_UL u + 0x8
abbrev PRD_UL_RATE (u : Nat) : Nat := PRD_UL u + 0xC
/-! R94: accord closure. -/
abbrev PRD_ACC_STATUS : Nat := 0x400000
abbrev PRD_ACC_EVENTS : Nat := 0x400004
abbrev PRD_ACC_DEADLINES : Nat := 0x400008
abbrev PRD_ACC_LAST_CLOSED (l : Nat) : Nat := 0x400010 + 8 * l
abbrev PRD_ACC_LATE : Nat := 0x400030
abbrev PRD_ACC_EXCLUDED : Nat := 0x400034
abbrev PRD_ACC_LOSS : Nat := 0x400038
abbrev PRD_ACC_GAPS : Nat := 0x40003C
abbrev PRD_ACC_DP_LAST (n : Nat) : Nat := 0x400100 + 8 * n
/-! R141: hangs. -/
abbrev PRD_HANG_CFG : Nat := 0x401000
abbrev PRD_HANG_DEADLINES : Nat := 0x401004
abbrev PRD_HANG_EVENTS : Nat := 0x401008
abbrev PRD_HANG_LAST_ID : Nat := 0x401010
/-! R251 to R253: tree, atomiser, contexts. -/
abbrev PRD_TREE_STATUS : Nat := 0x402000
abbrev PRD_TREE_EVENTS : Nat := 0x402004
abbrev PRD_TREE_EPOCH : Nat := 0x402008
abbrev PRD_TREE_INDEX : Nat := 0x40200C
abbrev PRD_TREE_PARENT : Nat := 0x402010
abbrev PRD_TREE_FAILED : Nat := 0x402014
abbrev PRD_FWD_SENT : Nat := 0x402020
abbrev PRD_FWD_RECV : Nat := 0x402024
abbrev PRD_FWD_LATE : Nat := 0x402028
abbrev PRD_FWD_BAD : Nat := 0x40202C
abbrev PRD_FWD_SKIPS : Nat := 0x402030
abbrev PRD_ATM_CFG : Nat := 0x403000
abbrev PRD_ATM_STATUS : Nat := 0x403004
abbrev PRD_ATM_EVENTS : Nat := 0x403008
abbrev PRD_ATM_DUPS : Nat := 0x40300C
abbrev PRD_ATM_LAST_BSEQ : Nat := 0x403010
abbrev PRD_ATM_TIMEOUTS : Nat := 0x403018
abbrev PRD_CTX_INFO (c : Nat) : Nat := 0x404000 + 0x10 * c
abbrev PRD_CTX_N_RANKS (c : Nat) : Nat := 0x404004 + 0x10 * c
abbrev PRD_CTX_ITEM_EPOCH (c : Nat) : Nat := 0x404008 + 0x10 * c
abbrev PRD_CTX_N_ITEMS (c : Nat) : Nat := 0x40400C + 0x10 * c
abbrev PRD_RESULT_CFG : Nat := 0x405000
abbrev PRD_RESULT_EVENTS : Nat := 0x405004
abbrev PRD_RESULT_OPEN : Nat := 0x405008
abbrev PRD_RHOME (c b : Nat) : Nat := 0x410000 + 0x4000 * c + 4 * b
abbrev PRD_ITEM_LO (c i : Nat) : Nat := 0x4A0000 + 0x1000 * c + 0x10 * i
abbrev PRD_ITEM_HI (c i : Nat) : Nat := 0x4A0008 + 0x1000 * c + 0x10 * i
/-! R285: the Nose. -/
abbrev PRD_NOSE_CTRL : Nat := 0x500000
abbrev PRD_NOSE_STATUS : Nat := 0x500004
abbrev PRD_NOSE_EVENTS : Nat := 0x500008
abbrev PRD_NOSE_LOAD_ADDR : Nat := 0x500010
abbrev PRD_NOSE_LOAD_LEN : Nat := 0x500018
abbrev PRD_NOSE_LOAD_CMD : Nat := 0x500020
abbrev PRD_NOSE_LOAD_RESULT : Nat := 0x500024
abbrev PRD_NOSE_NEEDED : Nat := 0x500028
abbrev PRD_NOSE_AVAILABLE : Nat := 0x500030
abbrev PRD_NOSE_MACERATE : Nat := 0x500038
abbrev PRD_NOSE_BASE_CTX : Nat := 0x50003C
abbrev PRD_NOSE_CTX_EN : Nat := 0x500040
abbrev PRD_NOSE_OVERRUNS : Nat := 0x500048
abbrev PRD_NOSE_ALARMS : Nat := 0x50004C
abbrev PRD_NOSE_LAST_EVAL : Nat := 0x500050
abbrev PRD_NOSE_STREAM_BW : Nat := 0x500058
abbrev PRD_NOSE_RESIDENT : Nat := 0x50005C
abbrev PRD_NOSE_MODEL_DIGEST : Nat := 0x500060
/-! R176: heart notes and flacons. -/
abbrev PRD_HNR_SEGS : Nat := 0x600000
abbrev PRD_HNR_EVENTS : Nat := 0x600004
abbrev PRD_HNR_OLDEST_FT : Nat := 0x600008
abbrev PRD_HNR_SIL_GAPS : Nat := 0x600010
abbrev PRD_FLC_CTRL : Nat := 0x600020
abbrev PRD_FLC_PRE : Nat := 0x600024
abbrev PRD_FLC_POST : Nat := 0x600028
abbrev PRD_FLC_SETTLE : Nat := 0x60002C
abbrev PRD_FLC_SRC_SCOPE : Nat := 0x600030
abbrev PRD_FLC_RESERVE_FREE : Nat := 0x600034
abbrev PRD_FLC_EVENTS : Nat := 0x600038
abbrev PRD_FLC_SW_TRIG : Nat := 0x600040
abbrev PRD_FLC_DESC (n : Nat) : Nat := 0x600100 + 0x80 * n
abbrev PRD_FLC_RELEASE (n : Nat) : Nat := 0x600140 + 0x80 * n
abbrev PRD_FLC_QUEUE (q : Nat) : Nat := 0x600300 + 0x40 * q
/-! R339: recorder, journal, blotter. -/
abbrev PRD_EVR_CTRL : Nat := 0x700000
abbrev PRD_EVR_STATUS : Nat := 0x700004
abbrev PRD_EVR_EVENTS : Nat := 0x700008
abbrev PRD_EVR_SESSION : Nat := 0x70000C
abbrev PRD_EVR_FRONTIER : Nat := 0x700010
abbrev PRD_EVR_DROPPED : Nat := 0x700014
abbrev PRD_EVR_CLEAR : Nat := 0x700018
abbrev PRD_EVR_RL_DEFAULT : Nat := 0x700020
abbrev PRD_JNL_PREV_SESSION : Nat := 0x700028
abbrev PRD_JNL_PREV_FRONTIER : Nat := 0x70002C
abbrev PRD_BLOT_CURSOR : Nat := 0x700400
abbrev PRD_EVR_RL (k : Nat) : Nat := 0x700800 + 8 * k
abbrev PRD_BLOT_WINDOW : Nat := 0x701000
/-! R358 to R360. -/
abbrev PRD_CMP_BASE (k : Nat) : Nat := 0x800000 + 0x100 * k
abbrev PRD_DEC_BASE (k : Nat) : Nat := 0x801000 + 0x100 * k
abbrev PRD_CV_BASE (c : Nat) : Nat := 0x802000 + 0x80 * c
abbrev PRD_CMP_ASSIGN : Nat := 0x803000
/-! R400 to R402: rings and the mailbox. -/
abbrev PRD_RING_SEL : Nat := 0x900000
abbrev PRD_RING_STAGE_CFG : Nat := 0x900004
abbrev PRD_RING_STAGE_LIMITS : Nat := 0x900008
abbrev PRD_RING_STAGE_DESC_BASE : Nat := 0x900010
abbrev PRD_RING_STAGE_CMPL_BASE : Nat := 0x900018
abbrev PRD_RING_COMMIT : Nat := 0x900020
abbrev PRD_RING_EVENTS : Nat := 0x900024
abbrev PRD_RING_INFLIGHT : Nat := 0x900028
abbrev PRD_EXPORT_PERIOD : Nat := 0x900030
abbrev PRD_QP_CFG : Nat := 0x900040
abbrev PRD_QP_RETX : Nat := 0x900044
abbrev PRD_QP_AUTH_FAIL : Nat := 0x900048
abbrev PRD_MSIX (v : Nat) : Nat := 0x908000 + 0x10 * v
abbrev PRD_MSIX_PBA : Nat := 0x910000
abbrev PRD_MBX_DOORBELL : Nat := 0xA00000
abbrev PRD_MBX_STATUS : Nat := 0xA00004
abbrev PRD_MBX_EVENTS : Nat := 0xA00008
abbrev PRD_MBX_STAGE_BASE : Nat := 0xA00010
abbrev PRD_MBX_REQ : Nat := 0xA01000
abbrev PRD_MBX_RSP : Nat := 0xA02000
abbrev PRD_RING_TAIL (k : Nat) : Nat := 0x1000000 + 0x40 * k
abbrev PRD_RING_DESC_HEAD (k : Nat) : Nat := 0x1000004 + 0x40 * k
abbrev PRD_RING_CMPL_TAIL (k : Nat) : Nat := 0x1000008 + 0x40 * k
abbrev PRD_RING_CMPL_HEAD (k : Nat) : Nat := 0x100000C + 0x40 * k
abbrev PRD_RING_STATE (k : Nat) : Nat := 0x1000010 + 0x40 * k
abbrev PRD_RING_K_EVENTS (k : Nat) : Nat := 0x1000014 + 0x40 * k
abbrev PRD_RING_LOST (k : Nat) : Nat := 0x1000018 + 0x40 * k
/-! R448, R449: power, clocks and test. -/
abbrev PRD_PWR_STATUS : Nat := 0xB00000
abbrev PRD_PWR_EVENTS : Nat := 0xB00004
abbrev PRD_PWR_VIN : Nat := 0xB00008
abbrev PRD_PWR_IIN : Nat := 0xB0000C
abbrev PRD_PWR_INPUT : Nat := 0xB00010
abbrev PRD_PWR_CHIP : Nat := 0xB00014
abbrev PRD_PWR_OSFP (u : Nat) : Nat := 0xB00018 + 4 * u
abbrev PRD_PWR_OSFP_CTRL : Nat := 0xB00028
abbrev PRD_PWR_HOLDUP : Nat := 0xB0002C
abbrev PRD_THERM_HOTSPOT : Nat := 0xB00040
abbrev PRD_THERM_HBM (b : Nat) : Nat := 0xB00044 + 4 * b
abbrev PRD_THERM_OCXO : Nat := 0xB0004C
abbrev PRD_THERM_INLET : Nat := 0xB00050
abbrev PRD_THERM_CFG : Nat := 0xB00054
abbrev PRD_CLK_STATUS : Nat := 0xB00060
abbrev PRD_TMUX_CTRL : Nat := 0xB00100
abbrev PRD_TMUX_SEL (k : Nat) : Nat := 0xB00140 + 4 * k
abbrev PRD_TMUX_GRANT_ID : Nat := 0xB00180
abbrev PRD_TMUX_GRANT_CTRL : Nat := 0xB00184
abbrev PRD_TMUX_GRANT_UID : Nat := 0xB00188
abbrev PRD_TMUX_GRANT_EXPIRY : Nat := 0xB00190

/-- R37 to R61, R94, R141: Priord's rows of identification, start-up, time, accords and hangs. -/
def prdRowsA : List RegRow := [
  { a := PRD_ID, r := 0x0A701F3E }, { a := PRD_REV, r := 0x11 }, { a := PRD_CONTRACT, r := 0x100 },
  { a := PRD_CAPS, r := 0x00884821 }, { a := PRD_UID, b := 64, r := 1 }, { a := PRD_GLB_EVENTS, w1c := 1 },
  { a := PRD_HBM_SIZE, b := 64, r := 0x10C388D000 }, { a := PRD_WORK_BASE, b := 64, r := 0xEE6800000 },
  { a := PRD_SW_BASE, b := 64, r := 0xF36800000 }, { a := PRD_BAR4_WIN, r := 0x3B, f := [fr 0 6] },
  { a := PRD_BOOT_STATUS }, { a := PRD_BOOT_STRAPS, r := 0x3000 }, { a := PRD_BOOT_EVENTS, w1c := 0xF },
  { a := PRD_BOOT_IMAGE_ID, b := 64 }, { a := PRD_BOOT_RUN_FT, b := 64, r := absent },
  { a := PRD_BOOT_IMAGE_SHA, n1 := 6, s1 := 8, b := 64, arr := true },
  { a := PRD_RCV_EPOCH }, { a := PRD_RCV_STATUS }, { a := PRD_RCV_EVENTS, w1c := 0xF },
  { a := PRD_CTX_CFG, r := 0x00140064, f := [fd 0 16 1 60000, fd 16 16 1 10000] },
  { a := PRD_CTX_ORPHANS, rc := 0xFFFFFFFF }, { a := PRD_CTX_UNDRAINED, rc := 0xFFFFFFFF },
  { a := PRD_OTU_FAULT_WAIT, r := 0x64, f := [fd 0 16 20 10000] },
  { a := PRD_BUDDY_STATUS }, { a := PRD_BUDDY_PEERS }, { a := PRD_BUDDY_LAG }, { a := PRD_RBLD_CMD },
  { a := PRD_RBLD_STATUS }, { a := PRD_RBLD_STORE_ADDR, b := 64, f := [fr 0 64] },
  { a := PRD_RBLD_STORE_LEN, b := 64, f := [fr 0 64] }, { a := PRD_RBLD_GAP_FIRST, b := 64, r := absent },
  { a := PRD_RBLD_GAP_LAST, b := 64, r := absent },
  { a := PRD_TIME_FT, b := 64 }, { a := PRD_TIME_STATUS, r := 4 }, { a := PRD_TIME_EVENTS, w1c := 0xFF },
  { a := PRD_TIME_OFFSET }, { a := PRD_TIME_ERR, r := 0xFFFFFFFF }, { a := PRD_TIME_HOLD_AGE }, { a := PRD_TIME_LOCK_AGE },
  { a := PRD_TIME_PTP_CFG, r := 0x000FBB00,
    f := [fr 0 7, { lo := 8, w := 4, max := 15, keep := true, xlo := 1, xhi := 8 },
          { lo := 12, w := 4, max := 15, keep := true, xlo := 1, xhi := 8 }, fr 16 4, fr 20 4, fr 24 1] },
  { a := PRD_TIME_LOOP_CFG, r := 0x00104143, f := [fk 0 4 0 6, fk 4 8 1 200, fk 12 4 1 15, fk 16 5 1 31] },
  { a := PRD_TIME_UNCERT, r := 0x400, f := [fr 0 32] }, { a := PRD_TIME_UTC_OFFSET },
  { a := PRD_TIME_STEP_LIMIT, b := 64, r := 0x3D0900, f := [fr 0 64] }, { a := PRD_TIME_GM_ID, b := 64 },
  { a := PRD_TIME_SYNCE_CFG, r := 0xC, f := [fr 0 4] },
  { a := PRD_TIME_DP_OFFSET 0, n1 := 32, s1 := 0x10 }, { a := PRD_TIME_DP_DELAY 0, n1 := 32, s1 := 0x10 },
  { a := PRD_TIME_DP_ASYM 0, n1 := 32, s1 := 0x10, f := [fr 0 32] },
  { a := PRD_TIME_DP_STATUS 0, n1 := 32, s1 := 0x10, r := 4 },
  { a := PRD_ACC_STATUS, r := 1 }, { a := PRD_ACC_EVENTS, w1c := 0x1F }, { a := PRD_ACC_DEADLINES, r := 0xC8643214 },
  { a := PRD_ACC_LAST_CLOSED 0, n1 := 4, s1 := 8, b := 64, r := absent },
  { a := PRD_ACC_LATE, rc := 0xFFFFFFFF }, { a := PRD_ACC_EXCLUDED, rc := 0xFFFFFFFF },
  { a := PRD_ACC_LOSS, rc := 0xFFFFFFFF }, { a := PRD_ACC_GAPS, rc := 0xFFFFFFFF },
  { a := PRD_ACC_DP_LAST 0, n1 := 32, s1 := 8, b := 64, r := absent },
  { a := PRD_HANG_CFG, r := 0x03E803E8, f := [fd 0 16 200 10000, fd 16 16 1 60000] },
  { a := PRD_HANG_DEADLINES, r := 0x04030201 }, { a := PRD_HANG_EVENTS, w1c := 0xF },
  { a := PRD_HANG_LAST_ID, b := 64, r := absent } ]

/-- R219, R251 to R253, R285, R176: Priord's rows of the tree, contexts, results, the Nose and heart notes. -/
def prdRowsB : List RegRow := [
  { a := PRD_TREE_STATUS }, { a := PRD_TREE_EVENTS, w1c := 0x3F }, { a := PRD_TREE_EPOCH }, { a := PRD_TREE_INDEX },
  { a := PRD_TREE_PARENT }, { a := PRD_TREE_FAILED }, { a := PRD_FWD_SENT, rc := 0xFFFFFFFF },
  { a := PRD_FWD_RECV, rc := 0xFFFFFFFF }, { a := PRD_FWD_LATE, rc := 0xFFFFFFFF }, { a := PRD_FWD_BAD, rc := 0xFFFFFFFF },
  { a := PRD_FWD_SKIPS, rc := 0xFFFFFFFF },
  { a := PRD_ATM_CFG, r := 0x0A0807D0, f := [fd 0 16 2000 60000, fd 16 8 1 255, fd 24 8 1 255] },
  { a := PRD_ATM_STATUS }, { a := PRD_ATM_EVENTS, w1c := 0xFF }, { a := PRD_ATM_DUPS, rc := 0xFFFFFFFF },
  { a := PRD_ATM_LAST_BSEQ, b := 64 }, { a := PRD_ATM_TIMEOUTS, b := 64, r := 0x9664321432 },
  { a := PRD_CTX_INFO 0, n1 := 33, s1 := 0x10 }, { a := PRD_CTX_N_RANKS 0, n1 := 33, s1 := 0x10 },
  { a := PRD_CTX_ITEM_EPOCH 0, n1 := 33, s1 := 0x10 }, { a := PRD_CTX_N_ITEMS 0, n1 := 33, s1 := 0x10 },
  { a := PRD_RESULT_CFG, r := 0x3E8, f := [fd 0 16 10 60000] }, { a := PRD_RESULT_EVENTS, w1c := 0xF },
  { a := PRD_RESULT_OPEN }, { a := PRD_RHOME 0 0, n1 := 4096, s1 := 4, n2 := 33, s2 := 0x4000 },
  { a := PRD_ITEM_LO 0 0, n1 := 512, s1 := 8, n2 := 33, s2 := 0x1000, b := 64 },
  { a := PRD_NOSE_CTRL, r := 5, f := [fr 0 3] }, { a := PRD_NOSE_STATUS }, { a := PRD_NOSE_EVENTS, w1c := 0x7F },
  { a := PRD_NOSE_LOAD_ADDR, b := 64, f := [fr 0 64] }, { a := PRD_NOSE_LOAD_LEN, b := 64, f := [fr 0 64] },
  { a := PRD_NOSE_LOAD_CMD }, { a := PRD_NOSE_LOAD_RESULT }, { a := PRD_NOSE_NEEDED, b := 64 },
  { a := PRD_NOSE_AVAILABLE, b := 64, r := 0x6000000 }, { a := PRD_NOSE_MACERATE, r := 0x258, f := [fk 0 32 1 1000000] },
  { a := PRD_NOSE_BASE_CTX, f := [fk 0 6 0 32] }, { a := PRD_NOSE_CTX_EN, b := 64, r := 0x1FFFFFFFF, f := [fr 0 33] },
  { a := PRD_NOSE_OVERRUNS, rc := 0xFFFFFFFF }, { a := PRD_NOSE_ALARMS, rc := 0xFFFFFFFF },
  { a := PRD_NOSE_LAST_EVAL, b := 64, r := absent }, { a := PRD_NOSE_STREAM_BW, r := 0x100 }, { a := PRD_NOSE_RESIDENT },
  { a := PRD_NOSE_MODEL_DIGEST, n1 := 4, s1 := 8, b := 64, arr := true },
  { a := PRD_HNR_SEGS, r := 0x0773165A }, { a := PRD_HNR_EVENTS, w1c := 3 }, { a := PRD_HNR_OLDEST_FT, b := 64, r := absent },
  { a := PRD_HNR_SIL_GAPS, rc := 0xFFFFFFFF }, { a := PRD_FLC_CTRL, r := 0x0003E801, f := [fr 0 1, fd 8 16 200 10000] },
  { a := PRD_FLC_PRE, r := 0xC350, f := [fd 0 32 0 1000000] }, { a := PRD_FLC_POST, r := 0x4E20, f := [fd 0 32 0 1000000] },
  { a := PRD_FLC_SETTLE, r := 0x3E8, f := [fd 0 32 0 100000] }, { a := PRD_FLC_SRC_SCOPE, r := 0x2198, f := [fr 0 14] },
  { a := PRD_FLC_RESERVE_FREE, r := 0x773 }, { a := PRD_FLC_EVENTS, w1c := 0xFF }, { a := PRD_FLC_SW_TRIG, b := 64 },
  { a := PRD_FLC_DESC 0, n1 := 8, s1 := 8, n2 := 4, s2 := 0x80, b := 64, arr := true },
  { a := PRD_FLC_RELEASE 0, n1 := 4, s1 := 0x80, b := 64 },
  { a := PRD_FLC_QUEUE 0, n1 := 32, s1 := 8, b := 64, arr := true } ]

/-- R317, R318, R339: Priord's rows of ports, uplinks and the recorder. -/
def prdRowsC : List RegRow := [
  { a := PRD_DP_STATUS 0, n1 := 32, s1 := 0x1000 }, { a := PRD_DP_EVENTS 0, n1 := 32, s1 := 0x1000, w1c := 0x3FF },
  { a := PRD_DP_REPLAYS 0, n1 := 32, s1 := 0x1000, rc := 0xFFFFFFFF },
  { a := PRD_DP_RCRC_FAIL 0, n1 := 32, s1 := 0x1000, rc := 0xFFFFFFFF },
  { a := PRD_DP_RESYNC_DISCARD 0, n1 := 32, s1 := 0x1000, rc := 0xFFFFFFFF },
  { a := PRD_DP_ALIVE 0, n1 := 32, s1 := 0x1000, rc := 0xFFFFFFFF },
  { a := PRD_DP_POL_CIR 0, n1 := 32, s1 := 0x1000, r := 0x493E0, f := [fd 0 32 1 400000] },
  { a := PRD_DP_POL_PIR 0, n1 := 32, s1 := 0x1000, r := 0x61A80, f := [fd 0 32 1 400000] },
  { a := PRD_DP_POL_BURST 0, n1 := 32, s1 := 0x1000, r := 0x40001000, f := [fd 0 16 16 65535, fd 16 16 16 65535] },
  { a := PRD_DP_POL_CTRL 0, n1 := 32, s1 := 0x1000, r := 1, f := [fr 0 1] },
  { a := PRD_DP_YELLOW_BYTES 0, n1 := 32, s1 := 0x1000, b := 64, rc := absent },
  { a := PRD_DP_RED_DROP_BYTES 0, n1 := 32, s1 := 0x1000, b := 64, rc := absent },
  { a := PRD_DP_RED_PROTECTED 0, n1 := 32, s1 := 0x1000, rc := 0xFFFFFFFF },
  { a := PRD_DP_CREDIT 0, n1 := 32, s1 := 0x1000, r := 0x80, f := [fd 0 8 1 255] },
  { a := PRD_INGEST_LIMIT, r := 0x4B0, f := [fd 0 32 100 1600] }, { a := PRD_INGEST_STATUS }, { a := PRD_INGEST_RATE },
  { a := PRD_UL_STATUS 0, n1 := 4, s1 := 0x40000 }, { a := PRD_UL_EVENTS 0, n1 := 4, s1 := 0x40000, w1c := 0xF },
  { a := PRD_UL_OVH 0, n1 := 4, s1 := 0x40000, r := 0x14, f := [fOvh 0] },
  { a := PRD_UL_RATE 0, n1 := 4, s1 := 0x40000, r := 0x640 },
  { a := PRD_EVR_CTRL, r := 7, f := [fr 0 4] }, { a := PRD_EVR_STATUS }, { a := PRD_EVR_EVENTS, w1c := 0x1F },
  { a := PRD_EVR_SESSION, r := 1 }, { a := PRD_EVR_FRONTIER, r := 1 }, { a := PRD_EVR_DROPPED, rc := 0xFFFFFFFF },
  { a := PRD_EVR_CLEAR }, { a := PRD_EVR_RL_DEFAULT, b := 64, r := 0x004003E800000000, f := [fr 32 16, fd 48 16 1 65535], whole := true },
  { a := PRD_JNL_PREV_SESSION }, { a := PRD_JNL_PREV_FRONTIER, r := 0xFFFFFFFF },
  { a := PRD_BLOT_CURSOR, f := [fr 0 18, fr 31 1] },
  { a := PRD_EVR_RL 0, n1 := 256, s1 := 8, b := 64, f := [fr 0 17, fr 32 16, fr 48 16], whole := true },
  { a := PRD_BLOT_WINDOW, n1 := 512, s1 := 8, b := 64, arr := true } ] ++
  gateRows (PRD_UL 0) 4 0x40000 0x5EE 0x2400 9216 1600000 1600000

/-- R358 to R360, R400 to R402, R448, R449, R455: Priord's rows of engines, rings, mailbox, power and test. -/
def prdRowsD : List RegRow :=
  cmpRows (PRD_CMP_BASE 0) 8 false ++ cmpRows (PRD_DEC_BASE 0) 8 true ++ cvRows (PRD_CV_BASE 0) 16 ++ [
  { a := PRD_CMP_ASSIGN, f := [fr 0 16] },
  { a := PRD_RING_SEL, f := [fr 0 16] },
  { a := PRD_RING_STAGE_CFG, r := 0xC0, f := [fr 0 18] },
  { a := PRD_RING_STAGE_LIMITS, r := 0x40, f := [fd 0 11 1 1024, fr 16 11] },
  { a := PRD_RING_STAGE_DESC_BASE, b := 64, f := [fr 0 64] }, { a := PRD_RING_STAGE_CMPL_BASE, b := 64, f := [fr 0 64] },
  { a := PRD_RING_COMMIT }, { a := PRD_RING_EVENTS, w1c := 3 }, { a := PRD_RING_INFLIGHT },
  { a := PRD_EXPORT_PERIOD, r := 0x2710, f := [fd 0 32 1000 600000] },
  { a := PRD_QP_CFG, r := 0x1555A, f := [fr 0 17] }, { a := PRD_QP_RETX, r := 0x1F4, f := [fd 0 32 50 10000] },
  { a := PRD_QP_AUTH_FAIL, rc := 0xFFFFFFFF },
  { a := PRD_MSIX 0, n1 := 2048, s1 := 0x10, b := 64, f := [fr 2 62], arr := true },
  { a := PRD_MSIX 0 + 8, n1 := 2048, s1 := 0x10, b := 64, r := 0x100000000, f := [fr 0 33], arr := true },
  { a := PRD_MSIX_PBA, n1 := 32, s1 := 8, b := 64, arr := true },
  { a := PRD_RING_TAIL 0, n1 := 65536, s1 := 0x40, f := [fr 0 32] }, { a := PRD_RING_DESC_HEAD 0, n1 := 65536, s1 := 0x40 },
  { a := PRD_RING_CMPL_TAIL 0, n1 := 65536, s1 := 0x40 }, { a := PRD_RING_CMPL_HEAD 0, n1 := 65536, s1 := 0x40, f := [fr 0 32] },
  { a := PRD_RING_STATE 0, n1 := 65536, s1 := 0x40 }, { a := PRD_RING_K_EVENTS 0, n1 := 65536, s1 := 0x40, w1c := 0x1F },
  { a := PRD_RING_LOST 0, n1 := 65536, s1 := 0x40, rc := 0xFFFFFFFF },
  { a := PRD_MBX_DOORBELL }, { a := PRD_MBX_STATUS }, { a := PRD_MBX_EVENTS, w1c := 3 }, { a := PRD_MBX_STAGE_BASE, b := 64 },
  { a := PRD_MBX_REQ, n1 := 512, s1 := 8, b := 64, f := [fr 0 64], arr := true },
  { a := PRD_MBX_RSP, n1 := 512, s1 := 8, b := 64, arr := true },
  { a := PRD_PWR_STATUS }, { a := PRD_PWR_EVENTS, w1c := 0x1FF }, { a := PRD_PWR_VIN }, { a := PRD_PWR_IIN },
  { a := PRD_PWR_INPUT }, { a := PRD_PWR_CHIP }, { a := PRD_PWR_OSFP 0, n1 := 4, s1 := 4 },
  { a := PRD_PWR_OSFP_CTRL, r := 0xF, f := [fr 0 4] }, { a := PRD_PWR_HOLDUP }, { a := PRD_THERM_HOTSPOT },
  { a := PRD_THERM_HBM 0, n1 := 2, s1 := 4 }, { a := PRD_THERM_OCXO }, { a := PRD_THERM_INLET },
  { a := PRD_THERM_CFG, r := 0x64, f := [fd 0 8 85 104] }, { a := PRD_CLK_STATUS },
  { a := PRD_TMUX_CTRL, f := [fr 0 1] }, { a := PRD_TMUX_SEL 0, n1 := 16, s1 := 4, f := [fr 0 12] },
  { a := PRD_TMUX_GRANT_ID }, { a := PRD_TMUX_GRANT_CTRL }, { a := PRD_TMUX_GRANT_UID, b := 64 },
  { a := PRD_TMUX_GRANT_EXPIRY, b := 64 } ]

/-- R460: every Priord register. -/
def prdRows : List RegRow := prdRowsA ++ prdRowsB ++ prdRowsC ++ prdRowsD

/-- The reset value of a Priord register address. -/
def prdReset (a : Nat) : Word := resetOf prdRows a

end Sys2Proof.Machine
end

