-- ==== Sys2Proof/Machine/State.lean ====
section
/-!
DEFINITION. Machine/State.lean: the state of the block, as plain data: one OTU, one Priord, and the queue of commands
that wait. Each field's default is its value after reset, and its comment names the rule that gives it.
-/
namespace Sys2Proof.Machine
open Sys2Proof

/-! ### Shared -/

/-- One mark in the mark FIFO (02 R58). -/
structure MarkEnt where
  id : Nat := 0 -- MARK_ID; 02 R58
  payload : Nat := 0 -- PAYLOAD; 02 R58
  hw : Nat := 0 -- HW_ARRIVAL; 02 R58
  window : Bool := false -- written through a tenant window; 02 R58
  tag : Nat := 0 -- job tag of that window; 02 R58
deriving DecidableEq, Repr

/-- What has happened in the current cycle, for the rules that fix the winner or the order within one cycle. -/
structure Cyc where
  hw : List (Nat × (Nat × Nat)) := [] -- registers that hardware has updated: the word before, and these updates alone; 00 R13
  grade : Nat := 4 -- the grade when the cycle began, in force for its actions; 02 R49
  mark : Option (MarkEnt × Bool) := none -- a mark dropped for want of room, and whether DROPPED counted it; 02 R59
  wraps : List (Nat × Nat) := [] -- engine counters that have wrapped: engine and counter; 04 R107
  die : Nat := 0 -- die-wide facts counted, as a mask: 0 refresh, 1 throttle, 2 stretch; 03 R71
  step : Nat := 0 -- ticks by which fleet time has stepped; 02 R50, 06 R147
deriving DecidableEq, Repr

/-- A disciplined clock (02 R46 to R51), of the OTU or of Priord. -/
structure Clk where
  st : Nat := 0 -- 0 PROVISIONAL or NO_TIME, 1 ACQUIRING, 2 LOCKED, 3 HOLDOVER; 02 R47
  ft : Nat := 0 -- fleet time in whole ticks, 64 bits; the OTU's counts only once its state has left 0; 02 R36
  sub : Nat := 0 -- fraction of the current tick in 10^-6 tick; MODEL'S OWN, for slewing; 02 R50
  slew : Int := 0 -- correction still to be slewed, in 10^-6 tick, positive to run faster; 02 R50
  thetas : List Int := [] -- the last accepted offsets in 1/256 tick, newest first; 02 R45, R46
  theta : Int := 0 -- their mean, the filtered offset, 1/256 tick; 02 R45
  delay : Nat := 0 -- last path delay, 1/256 tick; 02 R45
  err : Nat := 0xFFFF_FFFF -- error bound E in 1/256 tick, saturating; 02 R46
  run25 : Nat := 0 -- consecutive measurements with E at most 25 ns; 02 R49
  run2 : Nat := 0 -- consecutive measurements with E at most 2.5 ns since lock; 02 R49
  ever : Bool := false -- locked at least once since reset; 02 R47
  lockAt : Nat := 0 -- fleet time at which the current or last lock began; 02 R48
  lockEnd : Nat := 0 -- fleet time at which the last lock ended; 02 R48
  tenMin : Bool := false -- the current or last continuous lock lasted 10 min; 02 R48, R61
  lastMeas : Nat := 0 -- fleet time of the last accepted measurement (OTU: time word); 02 R47, R52
  lastLocked : Nat := 0 -- fleet time of the last measurement in LOCKED, the start of the holdover age; 02 R48
  errL : Nat := 0xFFFF_FFFF -- E_L, the error bound at that measurement; 02 R48
  own : Nat := 4 -- the grade that the clock's own state and error give; 02 R48, R49
  grade : Nat := 4 -- the grade reported, 0 to 4; 02 R48
  slewing : Bool := false -- the correction is limited by SLEW_PPM; 02 R60
deriving DecidableEq, Repr

/-- One time word that a sender has sent: its sequence, its transmit stamp and what it echoed (02 R43, R45). -/
structure TwSent where
  seq : Nat := 0 -- TW_SEQ; 02 R43
  tx : Nat := 0 -- TX_STAMP in 1/256 tick; 02 R43
  echo : Option (Nat × Nat) := none -- the peer's TX_STAMP and this end's RX_STAMP of the word echoed, 1/256 tick, where both are stamps of valid fleet time; 02 R45
deriving DecidableEq, Repr

/-- One end of a die-port link's time-word exchange (02 R43 to R45). -/
structure TwEnd where
  seq : Nat := 0 -- TW_SEQ of the next word, 8 bits; 02 R43
  sent : List TwSent := [] -- the last words sent, newest first, at most 129; 02 R44
  rxSeq : Option Nat := none -- TW_SEQ of the most recent word received; 02 R43
  rxTx : Nat := 0 -- its TX_STAMP, 1/256 tick; 02 R43
  rxAt : Nat := 0 -- its RX_STAMP, 1/256 tick; 02 R43
  rxOk : Bool := false -- that RX_STAMP is a stamp of valid fleet time; 02 R40, R43
  seqErrs : Nat := 0 -- words discarded as sequence errors, saturating at 2^32 - 1; 02 R44
  out : List Byte := [] -- the time word last put into an IDLE flit, empty before the first; 02 R43
deriving DecidableEq, Repr

/-- One end of a die-port link (11 R286 to R293). -/
structure LinkSt where
  st : Nat := 0 -- 0 DOWN, 1 TRAINING, 2 UP; 11 R316
  lanes : Nat := 0 -- lock of LANE_0 and LANE_1; 11 R286, R316
  tw : TwEnd := {} -- time words; 02 R43
  txSeq : Nat := 0 -- FSEQ of the next new DATA flit, modulo 4,096; 11 R291
  held : List Flit := [] -- unacknowledged DATA flits, oldest first, at most 1,024; 11 R291
  resend : List Flit := [] -- flits to be resent after a NAK; 11 R291
  txAlive : List (Nat × Nat) := [] -- last ALIVE sent per VL, default 0; 11 R292
  credits : List (Nat × Nat) := [] -- credits held per VL, default 0; 11 R293
  idleAt : Nat := 0 -- time of the last IDLE start; 11 R290
  ctrl : List (List Byte) := [] -- CTRL messages waiting, in order; 11 R289
  nakSeq : Option Nat := none -- FSEQ last named by a received NAK; 11 R291
  nakCount : Nat := 0 -- consecutive NAKs for it; 11 R291
  rxSeq : Nat := 0 -- FSEQ expected; 11 R291
  rxAlive : List (Nat × Nat) := [] -- last ALIVE accepted per VL, default 0; 11 R292
  discarding : Bool := false -- discarding until the expected FSEQ arrives; 11 R291
  ret : List (Nat × Nat) := [] -- flit credits to return per VL; 11 R293
  part : List (Nat × List Byte) := [] -- bytes of the frame under assembly per VL; 11 R294
  skip : Nat := 0 -- VLs that skip to the next flit whose FIRST is not 31, as a mask; 11 R297
  inbox : List (Nat × List Byte) := [] -- frames assembled and not yet checked, with their VL; 11 R297
  txPart : List (Nat × List Byte) := [] -- bytes of started frames not yet sent, per class; 11 R290
  rxAny : Bool := false -- a DATA flit has been accepted since training, so that ACK is valid; 11 R288
  rxBit : Nat := 0 -- place of the next received flit's first bit in its codeword, 0 to 5,139; 11 R287
  lastPass : Nat := 0 -- time of the last flit that passed its checks, or of training; 11 R286
  nakAt : Nat := 0 -- time of the last NAK; 11 R289
  dups : Nat := 0 -- replay duplicates dropped, saturating at 2^32 - 1; 11 R291
  out : List Byte := [] -- the flit that went out last; MODEL'S OWN output
deriving DecidableEq, Repr

/-- A record that waits in an egress queue of the OTU (11 R294 to R299). -/
structure QRec where
  rtype : Nat := 0 -- RTYPE; 11 R295
  kind : Nat := 0 -- stream kind; 11 R295
  inst : Nat := 0 -- stream instance; 11 R295
  tag : Nat := 0 -- JOB_TAG; 11 R294
  rank : Nat := 0 -- rank for the fold block; 11 R296
  body : List Byte := [] -- the record; 11 R294
  pk : Nat := 0 -- packets in a sillage record; 06 R159
  ft : Nat := 0 -- time of enqueue, for the sojourn delay; 11 R314
deriving DecidableEq, Repr

/-- The shaper registers before a write, and the time of its cycle (11 R301). -/
structure OldShaper where
  at_ : Nat := 0 -- the cycle of the write; 11 R301
  cir : Nat := 0 -- CIR before it; 11 R301
  pir : Nat := 0 -- PIR before it; 11 R301
  burst : Nat := 0 -- BURST before it; 11 R301
deriving DecidableEq, Repr

/-- Shaper, scheduler and sampling state of one egress queue (11 R300, R301, R314). -/
structure EqSt where
  c : Nat := 0 -- committed bucket, 1/256 byte; 11 R301
  p : Nat := 0 -- peak bucket, 1/256 byte; 11 R301
  filled : Bool := false -- false until the first use fills both buckets at their reset burst; 11 R301
  at_ : Nat := 0 -- time of the last refill; 11 R301
  deficit : Nat := 0 -- deficit round robin; 11 R300
  headAt : Nat := 0 -- when the head entry became head; 05 R122, 11 R314
  maxDepth : Nat := 0 -- greatest depth at the end of a cycle since the last sample, up to the last change; 05 R124
  seen : Nat := 0 -- the cycle of the last change; 05 R124
  dequeued : Nat := 0 -- frames started since the last sample; 11 R314
  first : Bool := true -- no sample since EN was set; 05 R124
  wasEmpty : Bool := false -- the previous sample had EMPTY; 05 R125
  held : Bool := false -- the head frame has been counted in GATE_HOLDS; 11 R315
  old : Option OldShaper := none -- the shaper registers that the frames of the cycle of a write are charged under; 11 R301
deriving DecidableEq, Repr

/-- A gate control list and its scheduler (11 R300, R305 to R307). -/
structure GateSt where
  entry : Nat := 0 -- current entry; 11 R316 GCL_STATE
  gates : Nat := 0xFF -- gates now; 11 R316
  operN : Nat := 1 -- entries in force; 11 R306
  ptr : List (Nat × Nat) := [] -- rotating pointer per class, 2 × k, plus 1 once visited; 11 R300
  aggAt : Nat := 0 -- when the fallback aggregate peak rate allows the next packet; 11 R311
  busyTill : Nat := 0 -- when the frame in progress ends; 11 R300
  nextSample : Nat := 0xFFFF_FFFF_FFFF_FFFF -- next egress sample instant; 11 R314
  lossy : Bool := false -- egress samples were lost since the last record; 05 R125, 11 R314
  old : Option (Nat × Nat × Nat × List (Nat × Nat)) := none -- last swap: its cycle, and the BASE, CYCLE_TIME and entries before it; 02 R55
deriving DecidableEq, Repr

/-- A token bucket of the event recorder (12 R327). -/
structure RlSt where
  tokens : Nat := 0 -- tokens in 2^-16; 12 R327
  at_ : Nat := 0 -- time of the last refill; 12 R327
  suppressed : Nat := 0 -- refused since the last admitted request; 12 R327
  used : Bool := false -- false while the bucket is still full as the last write (or reset) left it; 12 R327
deriving DecidableEq, Repr

/-- RECORDER_START of session 1, raised at power-up with PREV_SESSION 0 (12 R321, R326, R338). -/
def startRecord (phys : Nat) : EvRec :=
  { sev := 1, grade := 4, code := 1, seq := 0, phys := phys, payload := [0, 0, 0, 0, 0], valid := 1 }

/-- A request on its way into the in-flight queue (12 R327, R328). -/
structure EvAsk where
  src : Nat -- source number, which orders the requests of one cycle; 12 R328
  key : Nat -- rate-limit entry that it is charged to, 65,536 the default; 12 R327
  cfg : Nat -- that entry's word; 12 R327
  r : EvRec -- the record; 12 R320
deriving DecidableEq, Repr

/-- The requests of one cycle, and what they find (12 R328). -/
structure EvCycle where
  at_ : Nat := 0 -- the cycle; 12 R328
  inflight : List EvRec := [] -- the in-flight queue before them; 12 R319
  rl : List (Nat × RlSt) := [] -- the buckets before them; 12 R327
  asks : List EvAsk := [] -- the requests, in ascending source number; 12 R328
  refused : Nat := 0 -- how many of them their buckets refused; 12 R327
  dropped : Nat := 0 -- how many of them found no entry; 12 R319
deriving DecidableEq, Repr

/-- The recorder as a clear found it, for a commit of the clear's own cycle (12 R334). -/
structure EvOld where
  at_ : Nat := 0 -- the cycle of the clear; 12 R334
  sess : Nat := 0 -- the session it closed; 12 R334
  front : Nat := 0 -- FRONTIER before it; 12 R334
  full : Bool := false -- the recorder had stopped; 12 R329
  bank : Nat := 0 -- the journal bank before it; 12 R337
deriving DecidableEq, Repr

/-- An event recorder (12 R319 to R339). -/
structure Recorder where
  slots : List (Nat × EvRec) := [] -- committed slots of the current session; 12 R321
  full : Bool := false -- RECORDER_FULL is in the last slot; 12 R329
  inflight : List EvRec := [] -- in-flight queue, at most 64; VALID not yet given; 12 R319
  rl : List (Nat × RlSt) := [] -- bucket per rate-limit entry; key 65,536 is the default entry; 12 R327
  cursor : Delayed Nat := ⟨0, 0, 0⟩ -- blotter cursor; 12 R332
  lastFt : Nat := 0 -- at Priord the time of the last commit, at the OTU its cycle plus 1, 0 before the first; 12 R319
  cyc : Option EvCycle := none -- the requests of the last cycle that had any; 12 R328
  hot : Option (Nat × (Nat × Nat)) := none -- the last commit: its cycle, its slot, and what bytes 56 to 63 of it held before; 12 R322
  was : Option EvOld := none -- the last clear; 12 R334
deriving DecidableEq, Repr

/-! ### The OTU -/

/-- A step mark that waits for its accord (03 R69). -/
structure StepMk where
  stepNo : Nat := 0 -- STEP_NO; 03 R69
  ft : Nat := 0 -- FT; 03 R69
  tokens : Nat := 0 -- TOKENS; 03 R69
  seq : Nat := 0 -- SEQ; 03 R69
  kind : Nat := 0 -- 0 STEP_BEGIN, 1 STEP_END; 03 R69
  jt : Nat := 0 -- JT; 03 R69
  lt : Nat := 0 -- the cycle in which it was stamped; 03 R69
  tag : Nat := 0 -- job of the sequencer; 05 R131
deriving DecidableEq, Repr

/-- An engine header without ENGINE_ID, which is its key, and without CMD_SEQ (03 R73). -/
structure EngHdr where
  st : Nat := 0 -- STATE; 03 R73
  tag : Nat := 0 -- JOB_TAG; 03 R73
  resetMode : Nat := 0 -- RESET_MODE; 03 R73
  cfgEpoch : Nat := 0 -- CFG_EPOCH; 03 R73
  classes : List (Nat × Nat) := [] -- EVSEL_CLASS per PMC, default 0; 03 R73
deriving DecidableEq, Repr

/-- What a cut latches, sparsely: counter words by counter index, CMD_SEQ by engine, engine headers (03 R64, R73). -/
structure Image where
  ctr : List (Nat × Nat) := [] -- counter words with their sticky bit; 03 R71, R73
  seq : List (Nat × Nat) := [] -- CMD_SEQ by engine; 03 R64
  hdr : List (Nat × EngHdr) := [] -- engine headers that are not at their default; 03 R73
deriving DecidableEq, Repr

/-- A stream's reference copy, per context and accord kind (03 R76, R80). -/
structure RefCopy where
  tag : Nat := 0 -- context; 03 R76
  kind : Nat := 0 -- ACC_KIND; 03 R76
  image : Image := {} -- values of the last record sent; 03 R76
  no : Nat := 0 -- its accord number, PREV_NO of the next; 03 R76
  since : Nat := 0 -- records since the last KEY; 03 R80
  key : Bool := true -- the next record is KEY; 03 R80
deriving DecidableEq, Repr

/-- What a hang cut copies beside the counters (05 R132). -/
structure HangCopy where
  cause : Nat := 0 -- CAUSE of its notice; 05 R133
  id : Nat := 0 -- HANG_ID; 05 R133
  waits : List SyncRec := [] -- the job's open waits, as its context has them; 05 R128, R132
  whole : List SyncRec := [] -- those of them that hide a holder, as written; 05 R128
  queues : List Byte := [] -- the entries of its queues; 05 R132
deriving DecidableEq, Repr

/-- A shadow set: what it latched, until its dump and stream are done (03 R64, R65). -/
structure Shadow where
  kind : Nat := 0 -- 0 REGULAR, 2 HANG; 03 R70
  hdr : AccHdr := {} -- the header, sealed at t0 + 200; 03 R65, R70
  image : Image := {} -- latched values; 03 R64
  marks : List StepMk := [] -- step marks carried; 03 R69
  lt : Nat := 0 -- cut cycle t0; 03 R64
  ctxs : List (Nat × Nat) := [] -- contexts of the cut: tag and rank; 03 R80
  key : Bool := false -- a KEY was requested for this cut; 03 R93
  stream : Bool := true -- STREAM_EN at the cut; 03 R80
  sealed : Bool := false -- the header is sealed and the dump under way; 03 R65
  slot : Option Nat := none -- dump slot; 03 R72
  hang : Option HangCopy := none -- of a hang cut; 05 R132
deriving DecidableEq, Repr

/-- Accord state of the OTU (03). -/
structure AccSt where
  interval : Nat := 10 -- interval in force, 100 µs units; 03 R62
  nextT : Nat := 0xFFFF_FFFF_FFFF_FFFF -- next regular cut instant; 03 R93 NEXT_T
  stepped : Bool := false -- a forward step passed the pending cut; 03 R83
  a : Option Shadow := none -- shadow set A; 03 R68
  b : Option Shadow := none -- shadow set B; 03 R68
  lastB : Bool := true -- set used last, for alternation; 03 R68
  refs : List RefCopy := [] -- reference copies; 03 R76
  marks : List StepMk := [] -- step marks that no cut has carried, oldest first, at most 16; 03 R69
  stepOvf : Bool := false -- step marks were dropped since the last cut; 03 R69
  stepNo : Nat := 0xFFFF_FFFF_FFFF_FFFF -- step in progress; 03 R70
  keyReg : Bool := false -- next regular cut is KEY; 03 R93
  slotNext : Nat := 0 -- next dump slot; 03 R72
  pins : List (Nat × Nat) := [] -- pinned slot per PIN_ entry 0 to 3; 03 R72, R75
  lastSlot : Nat := 0xFFFF_FFFF -- LAST_SLOT of the directory; 03 R72
  lastNo : Nat := 0 -- LAST_NO of the directory; 03 R72
  fastNextT : Nat := 0xFFFF_FFFF_FFFF_FFFF -- next fast cut instant; 03 R81
  fastStepped : Bool := false -- a forward step passed the pending fast cut; 03 R83
  fastSel : List (Nat × Nat) := [] -- selection in force at the last fast cut; 03 R81
  fastKey : Bool := false -- next fast cut is KEY; 03 R81, R93
  hangPending : List (Nat × Nat × Nat) := [] -- hang cuts that wait for a shadow set: tag, cause, HANG_ID; 05 R132
deriving DecidableEq, Repr

/-- A grant entry (06 R146). -/
structure Grant where
  id : Nat := 0 -- GRANT_ID; 06 R146
  scope : Nat := 0 -- SCOPE: 0 SIL_SUP, 1 SIL_SEC, 2 PMC_SEC, 3 TESTMUX, 4 PMC_PRIVATE; 06 R146
  tag : Nat := 0 -- JOB_TAG; 06 R146
  die : Nat := 0 -- DIE_UID; 06 R146
  expiry : Nat := 0 -- EXPIRY; 06 R146
  seqMask : Nat := 0 -- SEQ_MASK; 06 R146
  valid : Bool := false -- VALID; 06 R175
  ended : Bool := false -- its expiry has been acted on; 06 R147
deriving DecidableEq, Repr

/-- The grant that admitted an event selection (04 R103, R105). -/
structure Admit where
  g : Nat := 0 -- its entry; 06 R146
  grant : Grant := {} -- the grant; 04 R103
  at_ : Nat := 0 -- cycle of the accepted EVSEL write; 04 R102
  was : Bool := false -- whether the selection before it still counted; 04 R102
  lapsed : Option Nat := none -- cycle of its expiry or revocation; 04 R103, R105
deriving DecidableEq, Repr

/-- R193: a conditioning vector. -/
structure Cond where
  r : CondRead := {} -- readings; 07 R193
  sig : Nat := 0 -- CMD_SIG; 07 R193
  ft : Nat := 0 -- FT, the start of the operation; 07 R193
deriving DecidableEq, Repr

/-- A canary that runs on an engine (07 R187). -/
structure CanRun where
  mirror : Bool := false -- a mirror canary; 07 R185
  idx : Nat := 0 -- library index, or the candidate's cluster; 07 R187
  ft : Nat := 0 -- fleet time of its start; 07 R193
  lt : Nat := 0 -- cycle of its start; 07 R187
deriving DecidableEq, Repr

/-- The pending tie-break of a mirror candidate (07 R192). -/
structure TieSt where
  eng : Nat := 0 -- B; 07 R192
  fp : Nat := 0 -- B's fingerprint; 07 R192
  cond : Cond := {} -- B's conditioning vector; 07 R194
  at_ : Nat := 0 -- fleet time at which the wait began; 07 R192
deriving DecidableEq, Repr

/-- A mirror candidate (07 R191). -/
structure Cand where
  eng : Nat := 0 -- A; 07 R192
  seq : Nat := 0 -- CMD_SEQ of A's command; 07 R194
  tag : Nat := 0 -- its job; 07 R191
  len : Nat := 0 -- the length of A's command, the LENGTH of its mirror canary; 07 R187
  fp : Nat := 0 -- A's output fingerprint; 07 R191
  cond : Cond := {} -- A's conditioning vector; 07 R191
  bytes : List Byte := [] -- the operands copied, at most 64 KiB; 07 R191
  tie : Option TieSt := none -- tie-break pending; 07 R192
deriving DecidableEq, Repr

/-- A cluster's mirror buffer (07 R191). -/
structure MirrorSt where
  count : Nat := 0 -- eligible commands since the last candidate fell due; 07 R191
  cand : Option Cand := none -- the candidate; 07 R191
deriving DecidableEq, Repr

/-- One engine, beside its registers (04, 07). -/
structure EngSt where
  st : Delayed Nat := ⟨0, 0, 0⟩ -- ACTIVE 0, REST 1, OFF 2, FENCED 3; 03 R67
  tag : Nat := 0 -- owning job, 0 if none; 04 R116
  running : Nat := 0 -- job commands in execution; 05 R131
  level : Nat := 0 -- privilege level of the code that issued the last command started; 04 R105
  doneAt : Option Nat := none -- cycle in which a job command last completed; 04 R108
  busyAt : Option Nat := none -- the last BUSY cycle; 04 R113
  xAt : Nat := 0 -- the cycle in which x(t) accumulates; 04 R104
  xs : List (Nat × Nat) := [] -- x of that cycle so far per PMC, default 0; 04 R104
  xNew : List Nat := [] -- PMCs whose EVSEL a write of that cycle set; 04 R104
  xprev : List (Nat × Nat) := [] -- x of the last ACTIVE cycle before it per PMC, default 0; 04 R104
  admits : List (Nat × Admit) := [] -- grants that admitted: PL_SEC of EVSEL_k under 2 × k, its private class under 2 × k + 1; 04 R103, R105
  evAt : Nat := 0 -- cycle of the last accepted EVSEL writes; 04 R102
  evOld : List (Nat × Nat) := [] -- what they replaced: EVSEL_k under k, CFG_EPOCH under 8; 04 R102
  startAt : Nat := 0 -- cycle of the last command start; 03 R66
  startOld : List (Nat × Nat) := [] -- what it replaced: counter c under c, CMD_SEQ under 32; 03 R66
  pmcAt : Nat := 0 -- cycle of the last accepted PMC writes; 04 R100
  pmcSet : List Nat := [] -- counters that they set; 04 R100
  sigs : List Nat := [] -- entries of the last 16 job commands started, oldest first; 07 R193
  nanGen : Option Nat := none -- step generation in which the first-NaN latch disarmed; 07 R180
  bucket : Nat := 0 -- canary bucket, 1/10,000 cycle; 07 R188
  aborts : Nat := 0 -- aborts in the current window; 07 R189
  canWin : Nat := 0 -- the current abort window; 07 R189
  canary : Option CanRun := none -- canary running; 07 R187
  canLast : Option Nat := none -- the last cycle that the last canary to end occupied; 07 R187, R188
  abort : Option (Nat × Bool) := none -- a job command's arrival at a canary that no command start has followed: its cycle, and whether it was the canary's final one; 07 R187
  arrived : Option Nat := none -- cycle of the last arrival of a job command; 07 R187
deriving DecidableEq, Repr

/-- One die queue (05 R121 to R124). -/
structure QSt where
  owner : Nat := 0 -- JOB_TAG; command queues follow their engine; 05 R121
  depth : Nat := 0 -- entries; 05 R122
  levels : List Nat := [] -- privilege levels of a command queue's entries, oldest first; 04 R105
  headAt : Nat := 0 -- fleet time at which the head became head; 05 R122
  maxDepth : Nat := 0 -- greatest depth at the end of a cycle since the previous sample, to the cycle upTo; 05 R124
  upTo : Nat := 0 -- the last cycle that maxDepth covers; 05 R124
  dequeued : Nat := 0 -- since the previous sample, saturating; 05 R124
  full : Bool := false -- reached its capacity since the previous sample; 05 R124
  ownerChanged : Bool := false -- since the previous sample; 05 R124
  first : Bool := true -- no sample since EN was set; 05 R124
  wasEmpty : Bool := false -- the previous sample had EMPTY; 05 R125
deriving DecidableEq, Repr

/-- An open wait of an engine (05 R127). -/
structure OpenWait where
  info : WaitInfo := ⟨0, 0, 0, none, none, 0⟩ -- kind, object, holder, value; 05 R127
  id : Nat := 0 -- WAIT_ID; 05 R128
  ft : Nat := 0 -- FT_START; 05 R128
  lt : Nat := 0 -- local time of the first blocked cycle; 05 R129
  grade : Nat := 0 -- grade at FT_START; 05 R128
  tag : Nat := 0 -- owner of the engine; 05 R128
  reported : Bool := false -- an OPEN record has been sent; 05 R129
deriving DecidableEq, Repr

/-- A job at the die (01 R23, 09, 05 R131). -/
structure JobSt where
  tag : Nat := 0 -- job tag; 01 R23
  rank : Nat := 0 -- logical rank; 01 R23
  s : Nat := 0xFFFF_FFFF_FFFF_FFFF -- start instant S; 02 R38
  open_ : Bool := false -- started and not ended; 02 R38
  ended : Bool := false -- ended, job-end record not yet sent; 09 R250
  window : Option Nat := none -- tenant window bound; 17 R452
  cause : Nat := 0 -- CAUSE of the end; 09 R250
  lastProgress : Nat := 0 -- fleet time of the last progress; 05 R131
  hang : Bool := false -- a hang of the job is active; 05 R131
  hangAt : Nat := 0xFFFF_FFFF_FFFF_FFFF -- T_h of a HANG_FREEZE to cut at; 05 R134
  noCanary : Bool := false -- its configuration disables canaries; 07 R187
  noMirror : Bool := false -- its configuration disables mirrors; 07 R191
  bseq : Nat := 0 -- BSEQ of the START applied; 09 R250
  nRanks : Nat := 0 -- ranks of the job; 09 R245
  subst : Bool := false -- a spare serves this rank; 15 R417
  frames : Nat := 0 -- frames of its context sent since S; 09 R250
  lastAcc : Nat := 0xFFFF_FFFF_FFFF_FFFF -- last regular accord of the job sent; 09 R250
  loss : Bool := false -- a stream of the job lost data; 09 R250
  cancelled : Bool := false -- a wait closed as cancelled; 09 R250
deriving DecidableEq, Repr

/-- A START that the OTU has armed (09 R245, 02 R57). -/
structure Armed where
  bseq : Nat := 0 -- its BSEQ; 09 R245
  tag : Nat := 0 -- job tag; 09 R245
  rank : Nat := 0 -- the rank that this die serves; 01 R23
  s : Nat := 0 -- start instant; 02 R57
  nRanks : Nat := 0 -- ranks of the job; 09 R245
  audit : Bool := false -- AUDIT; 09 R245
  subst : Bool := false -- a spare serves the rank; 15 R417
  noCanary : Bool := false -- canaries disabled by the START's CONFIG entries; 07 R187
  noMirror : Bool := false -- mirrors disabled; 07 R191
  fault : Bool := false -- a JOB_FAULT arrived in the cycle of S; 15 R421
deriving DecidableEq, Repr

/-- Broadcasts applied in a context (09 R241). -/
structure BMap where
  high : Nat := 0 -- highest BSEQ applied, 0 before the first; 09 R241
  map : List Nat := [] -- those of the 256 numbers below it that were applied; 09 R241
deriving DecidableEq, Repr

/-- A shard that is being hashed, or has been (08 R202, R203). -/
structure Shard where
  tensor : Nat := 0 -- TENSOR_ID; 08 R203
  part : Nat := 0 -- FORMAT of a weight shard, PART of an input shard; 08 R203
  len : Nat := 0 -- bytes; 08 R203
  digest : Nat := 0 -- SHARD_DIGEST, as a little-endian number; 08 R201
deriving DecidableEq, Repr

/-- What a cut took for a result mark (08 R209, R210). -/
structure MarkCut where
  no : Nat := 0 -- ACCORD_NO; 08 R210
  fp : Nat := 0 -- OUTPUT_FP; 08 R210
  tiles : Nat := 0 -- TILES; 08 R210
  inputs : Nat := 0 -- INPUTS; 08 R210
  nInputs : Nat := 0 -- N_INPUTS; 08 R210
  ovf : Bool := false -- INPUT_OVF; 08 R210
  late : Bool := false -- WEIGHT_LATE; 08 R210
  weights : List Shard := [] -- weight list taken; 08 R209
  wait : List Nat := [] -- tensors whose hash the record waits for; 08 R209
deriving DecidableEq, Repr

/-- A pending result mark (08 R209). -/
structure ResMark where
  id : Nat := 0 -- RESULT_ID; 08 R209
  mask : Nat := 0 -- slots; 08 R209
  lt : Nat := 0 -- cycle of acceptance; 08 R209
  tag : Nat := 0 -- job; 08 R210
  cut : Option MarkCut := none -- once a cut has closed the window; 08 R209
deriving DecidableEq, Repr

/-- A packet that a sillage stream emits at the end of a cycle, and what the OTU's clock showed there (06 R153, R158). -/
structure EndDue where
  reason : Nat := 0 -- REASON; 06 R153, R154
  lt : Nat := 0 -- the cycle; 06 R158
  st : Nat := 0 -- state of the clock; 02 R47
  ft : Nat := 0 -- fleet time; 06 R153
  grade : Nat := 0 -- grade; 06 R153
deriving DecidableEq, Repr

/-- A sillage stream of a sequencer (06 R145 to R159). -/
structure SilSt where
  lit : Nat := 0 -- last indirect target, in instruction units; 06 R151
  pend : List Bool := [] -- pending outcomes, oldest first, at most 32; 06 R150
  run : Option (Bool × Nat) := none -- open run; 06 R150
  lastOut : Nat := 0 -- cycle of the last outcome; 06 R150
  pktCount : Nat := 0 -- packets emitted, 32 bits; 06 R153
  counted : Nat := 0 -- counted packets since the last SYNC; 06 R155
  buf : List Byte := [] -- payload of the open record; 06 R148
  pk : Nat := 0 -- packets in the open record; 06 R159
  firstSync : Option Nat := none -- FIRST_SYNC of the open record; 06 R148
  hasOvf : Bool := false -- an OVF is in the open record; 06 R148
  openFt : Nat := 0 -- FT_OPEN; 06 R148
  openAt : Nat := 0 -- cycle of its first packet; 06 R148
  openFl : Nat := 0 -- grade and TRAY_LOCK at FT_OPEN; 06 R148
  rseq : Nat := 0 -- RSEQ of the next record; 06 R148
  dropped : Nat := 0 -- DROPPED of the next record; 06 R148
  lost : Bool := false -- LOST; 06 R159
  lostPkts : Nat := 0 -- packets lost since the last OVF; 06 R159
  lostBytes : Nat := 0 -- bytes lost since the last OVF; 06 R159
  ovfDue : Bool := false -- WRAP discarded a record: OVF before the next packet; 06 R159
  tag : Nat := 0 -- job of the open record; 06 R148
  live : Bool := false -- privileged stream: a granted span is open; 06 R156
  waitSync : Option Nat := none -- SYNC deferred to the end of the span: its reason; 06 R155
  due : Option EndDue := none -- SYNC due at the end of a cycle, with the lowest reason; 06 R155, R158
  endDue : Option EndDue := none -- END of a granted span due at the end of a cycle; 06 R156, R158
  syncAt : Option Nat := none -- cycle of the last SYNC; 06 R155
  began : Nat := 0 -- BSEQ + 1 of the job whose JOB_START has been sent, 0 before the first; 06 R155
deriving DecidableEq, Repr

/-- A sequencer as the sillage sees it (06 R144, R152). -/
structure SilSeq where
  level : Nat := 0 -- 0 job, 1 supervisor, 2 secure; 06 R144
  lastIa : Option Nat := none -- last instruction retired at job level; 06 R152
  lastLt : Nat := 0 -- its cycle; 06 R152
  nextIa : Nat := 0 -- next instruction to retire; 06 R153
  span : Nat := 0 -- span flags so far: 1 supervisor ran, 2 secure ran; 06 R152
  split : Bool := false -- the span has been split; 06 R152
  partLt : Nat := 0 -- last cycle before the current part of the span; 06 R152
  offFt : Nat := 0 -- fleet time of the last active cycle, while at rest, off or fenced; 06 R154
deriving DecidableEq, Repr

/-- The OTU of one die. -/
structure Otu where
  regs : List (Nat × Word) := [] -- register file, keyed by offset from OTU_BASE; an unlisted register holds its reset value; 17 R459
  cyc : Cyc := {} -- what has happened in the current engine cycle; 00 R13, 02 R49, R59
  period : Nat := 512 -- period of the engine clock in 1/256 tick, 512 at 2.0 GHz; 00 R9, 02 R46
  lt : Nat := 0 -- local time in engine cycles, 64 bits; 02 R39
  clk : Clk := {} -- fleet time; 02 R36, R45 to R53
  trayLock : Bool := false -- TRAY_LOCK; 02 R46
  prdGrade : Nat := 4 -- PRD_GRADE, from the last time word; 02 R60
  prdErr : Nat := 0xFFFF_FFFF -- E_prd from the last time word, 1/256 tick; 02 R46
  asym : Int := 0 -- link asymmetry from the last time word, 1/256 tick; 02 R45
  marks : List MarkEnt := [] -- mark FIFO, at most 64; 02 R58
  lastFw : Nat := 0 -- FW_STAMP of the last mark record; 02 R58
  jobs : List JobSt := [] -- jobs whose START has been applied and whose job-end record has not been sent; 01 R23
  acc : AccSt := {} -- accords; 03
  dctr : List (Nat × Nat) := [] -- die counter words with their sticky bit, by index, default 0; 03 R71
  engs : List (Nat × EngSt) := [] -- engines; 04
  gchNext : Nat := 0xFFFF_FFFF_FFFF_FFFF -- next global-channel sample instant; 04 R114
  gchSeq : Nat := 0 -- SEQ of the next sample; 04 R114
  gch : List (Nat × Nat) := [] -- running counts of the channels of type C, modulo 2^64, default 0; 04 R113
  grants : List (Nat × Delayed Grant) := [] -- the four grant entries; a write takes effect from the next cycle; 06 R146, R147
  step : Delayed (Nat × Nat) := ⟨(0, 0xFFFF_FFFF_FFFF_FFFF), (0, 0xFFFF_FFFF_FFFF_FFFF), 0⟩ -- step generation and number, as they arm first-NaN latches; 07 R180
  mirror : List (Nat × MirrorSt) := [] -- mirror buffer per cluster; 07 R191
  canPtr : List (Nat × Nat) := [] -- next library index per kind; 07 R187
  staleDue : List (Nat × Nat) := [] -- step marks whose mirror candidates go in the cycle after: their cycle and job; 07 R180, R191
  sil : List (Nat × SilSt) := [] -- sillage streams: s, and 64 + s privileged; 06 R145
  silSeq : List (Nat × SilSeq) := [] -- sequencers; 06 R144
  armed : Option Armed := none -- a START that waits for S; 09 R245, 02 R57
  bmaps : List (Nat × BMap) := [] -- broadcasts applied, by context; 09 R241
  answers : List (Nat × Nat × Bool) := [] -- status and whether applied, per BSEQ kept in a map; 09 R241
  retracted : List Nat := [] -- STARTs retracted before they arrived; 09 R241
  weights : List Shard := [] -- weight list, by TENSOR_ID; 08 R203
  hashing : List Shard := [] -- weight shards whose hash runs; 08 R202
  inputs : List Shard := [] -- input list of the open window, by TENSOR_ID and PART; 08 R203
  inputOvf : Bool := false -- an input shard of the window was not listed; 08 R203
  resMark : Option ResMark := none -- pending result mark; 08 R209
  queues : List (Nat × QSt) := [] -- die queues; 05
  qsLossy : Bool := false -- samples were lost since the last record; 05 R125
  qsLast : Nat := 0 -- the last die-queue sample instant that was taken or has passed; 05 R123
  qOld : List (Nat × (Nat × Nat)) := [] -- per queue whose PERIOD or EN was written: its PERIOD before, and the instant that stays scheduled; 05 R123
  hbm : Mem := [] -- carve-out bytes in the die's HBM, by address; an unlisted byte reads 0; 03 R72
  waits : List (Nat × OpenWait) := [] -- open waits by engine; 05 R127
  waitId : Nat := 0 -- next WAIT_ID; 05 R128
  link : LinkSt := {} -- the die port's OTU end; 11
  resync : List (Nat × Nat) := [] -- (STREAM, tag) pairs whose next frame carries RESYNC; 11 R297
  txSeq : List ((Nat × Nat) × Nat) := [] -- next sequence per (STREAM, tag); 11 R296
  rxNext : Option Nat := none -- expected sequence of the ATOMISER stream from Priord; 11 R296
  rxHunt : Bool := false -- that stream is in HUNT; 11 R297
  rxMsg : List Byte := [] -- the atomiser message last delivered; MODEL'S OWN output
  fresh : Bool := true -- out of die reset since the last training; 11 R286
  told : Option (Bool × Nat) := none -- what the last training reported to Priord: out of die reset, and the CAUSE of a fault or 0; 11 R286, 15 R412, R418
  eq : List (Nat × List QRec) := [] -- egress queues, oldest first; 11 R299
  eqs : List (Nat × EqSt) := [] -- shaper and sampling state per egress queue; 11 R301
  gate : GateSt := {} -- fallback gate list and scheduler; 11 R305
  fb : Bool := false -- fallback is active; 11 R310
  relay : Nat := 0 -- relay in use; 11 R310
  fbLast : List (Nat × Nat) := [] -- time of the last fallback packet per class; 11 R312
  fbPart : List (Nat × (Nat × List Byte)) := [] -- per class, the queue and the rest of the frame that fallback is sending; 11 R311
  fbOut : List FbPacket := [] -- fallback packets put on the scale-up links; MODEL'S OWN output
  relayPart : List (Nat × List Byte) := [] -- frames under reassembly for an origin port and class (8 * port + class); 11 R311
  evr : Recorder := { slots := [(0, startRecord 0)] } -- event recorder; 12
  pageOld : List (Nat × (Nat × Nat)) := [] -- registers of tenant windows, 2 × w ENG_PAGE, 2 × w + 1 Q_PAGE, 128 + w the binding: the value that the last write replaced, and its cycle; 17 R452, R454
  feeds : List (Nat × (Nat × Nat)) := [] -- check-value feeds that run: context, SRC and LEN at FEED_START; 13 R356
  winGone : List (Nat × Nat) := [] -- windows unbound whose snapshot buffer goes at the end of a cycle: window and cycle; 17 R452
  strobes : List (Nat × Nat) := [] -- fleet time of the last pulse of a strobe, per SOURCE; 16 R446
  readOut : Nat := 0 -- what the last read that cleared a count returned; MODEL'S OWN output
  free : Nat := 0 -- counter that the free values are applied to; MODEL'S OWN (DESIGN CHOICE, log entry 6)
deriving DecidableEq, Repr

/-! ### Priord -/

/-- PTP and frequency measurements of one uplink (02 R41, R42). -/
structure UlTime where
  sync : Option PtpSync := none -- the last Sync, kept until its Follow_Up; 02 R41
  t1 : Nat := 0 -- origin of the last completed Sync, 1/256 tick; 02 R41
  t2 : Nat := 0 -- its receive timestamp; 02 R41
  corr : Int := 0 -- its correction; 02 R41
  have12 : Bool := false -- t1 and t2 hold a measurement; 02 R41
  waiting : Bool := false -- that measurement waits for a path delay; 02 R41
  reqSeq : Nat := 0 -- sequenceId of the next Delay_Req or Pdelay_Req; 02 R41
  reqTx : Option (Nat × Nat) := none -- sequenceId and transmit stamp of the outstanding Delay_Req; 02 R41
  preqTx : Option (Nat × Nat) := none -- the same of the outstanding Pdelay_Req; 02 R41
  presp : Option PdelayResp := none -- a two-step Pdelay_Resp that waits for its follow-up; 02 R41
  delay : Option Int := none -- mean path delay, 1/256 tick; 02 R41
  offset : Int := 0 -- last offset measured on this uplink, standby included, 1/256 tick; 02 R41
  ann : Option Announce := none -- the last Announce data set; 02 R41
  annAt : List Nat := [] -- arrival of the last two Announces of its sender, newest first; 02 R41
  txQl : Nat := 15 -- SSM code transmitted on this uplink, 15 DNU, always; 02 R42
  ql : Nat := 15 -- SSM code last reported, 15 DNU; 02 R42
  synce : Bool := false -- Synchronous Ethernet is present; 02 R42
deriving DecidableEq, Repr

/-- A record in heart notes (06 R162, 14 R375). -/
structure HRec where
  rcls : Nat := 0 -- RCLASS of R375, 0 for a record that it does not list; 14 R375
  key : Nat := 0xFFFF_FFFF_FFFF_FFFF -- KEY of R375, all ones where the class has none; 14 R375
  tag : Nat := 0 -- context; 11 R294
  rank : Nat := 0 -- rank of its source; 14 R375
  ft : Nat := 0 -- fleet-time stamp, or the time of arrival; 06 R163
  priv : Bool := false -- reachable on privileged rings only; 06 R174
  late : Bool := false -- marked late; 03 R90
  fwd : Bool := false -- marked FORWARDED; 09 R232
  orphan : Bool := false -- marked ORPHAN; 15 R419
  rebuilt : Bool := false -- marked REBUILT; 15 R423
  rtype : Nat := 0 -- RTYPE of its frame; 11 R295
  stream : Nat := 0 -- STREAM of its frame; 11 R294
  seq : Nat := 0 -- sequence of its frame; 11 R296
  loc : Nat := 0xFFFF_FFFF -- physical location of the die whose frame carried it, all ones for Priord's own; 11 R296
  at_ : Nat := 0 -- fleet time of the write; 14 R377
  closed : Option (Nat × Nat) := none -- a closed accord, whose number is KEY: its LEVEL of R92 and its ACC_KIND; 01 R26, R28
  body : List Byte := [] -- the record; 11 R294
deriving DecidableEq, Repr

/-- A heart-note segment (06 R163). -/
structure Seg where
  slot : Nat := 0 -- ring slot; 06 R163
  ftMin : Nat := 0xFFFF_FFFF_FFFF_FFFF -- FT_MIN; 06 R163
  ftMax : Nat := 0 -- FT_MAX; 06 R163
  used : Nat := 0 -- bytes used; 06 R163
  recs : List HRec := [] -- records, oldest first; 06 R163
deriving DecidableEq, Repr

/-- A flacon slot or a queued freeze (06 R168, R173). -/
structure Flacon where
  st : Nat := 0 -- STATE: 0 FREE, 1 QUEUED, 2 ARMED, 3 CAPTURING, 4 HELD; 06 R168
  flags : Nat := 0 -- FLAGS: TRUNCATED, HEAD_LOST, LATE, WAS_QUEUED, EXPORTED; 06 R173
  tag : Nat := 0 -- JOB_TAG; 06 R173
  scope : Nat := 0 -- SCOPE; 06 R173
  source : Nat := 0 -- SOURCE; 06 R173
  freezeT : Nat := 0 -- FREEZE_T; 06 R173
  tTrig : Nat := 0 -- T_TRIG; 06 R173
  pre : Nat := 0 -- PRE, µs; 06 R173
  post : Nat := 0 -- POST, µs; 06 R173
  settle : Nat := 0 -- SETTLE of its acceptance, µs, for a queued freeze too; 06 R176
  end_ : Nat := 0 -- END_ACTUAL; 06 R173
  attached : Nat := 0 -- ATTACHED; 06 R173
  trigRank : Nat := 0 -- TRIG_RANK; 06 R173
  segs : List Seg := [] -- segments held, oldest first; 06 R169
deriving DecidableEq, Repr

/-- The heart-note ring and the flacons (06 R162 to R173). -/
structure Hnr where
  open_ : Seg := {} -- the open segment; 06 R163
  ring : List Seg := [] -- closed segments, oldest first; 06 R163
  slots : Nat := 5722 -- ring segments; 06 R163
  reserve : Nat := 1907 -- reserve segments; 06 R163
  free : Nat := 1907 -- free reserve segments; 06 R169
  lost : Nat := 0 -- greatest FT_MAX that a reclaim of an earlier cycle has removed; 06 R169
  goneAt : Nat := 0 -- the cycle of the last reclaim, as a fleet time; 06 R170
  gone : List Seg := [] -- segments reclaimed in that cycle, which a freeze of the same cycle takes; 06 R170
  flc : List (Nat × Flacon) := [] -- flacon slots 0 to 3; 06 R168
  queue : List Flacon := [] -- queued freezes, oldest first, at most 4; 06 R166
  rseq : List (Nat × Nat) := [] -- RSEQ expected, per 128 × port + sillage stream; 06 R162
deriving DecidableEq, Repr

/-- A job's collective windows at a tray (11 R308). -/
structure CtxWin where
  start : Nat := 0 -- CYCLE_START; 11 R308
  cycle : Nat := 0 -- CYCLE_TIME; 11 R308
  ulMask : Nat := 0 -- UL_MASK; 11 R308
  wins : List (Nat × Nat) := [] -- windows: OFFSET, LENGTH; 11 R308
deriving DecidableEq, Repr

/-- A context of Priord: slot 0 the fleet context, 1 to 32 jobs; 64 and up the tables of jobs that this node neither serves
nor homes, kept for its higher roles (01 R23, 09 R234, R253, 15 R419). -/
structure Ctx where
  st : Nat := 0 -- 0 FREE, 1 ARMED, 2 OPEN, 3 DRAINING, 4 HOLD; 15 R419
  tag : Nat := 0 -- JOB_TAG; 09 R253
  s : Nat := 0 -- start instant S; 09 R245
  bseq : Nat := 0 -- BSEQ of its START; 09 R245
  nRanks : Nat := 0 -- N; 09 R245
  homes : List Nat := [] -- rank-home table; 09 R229
  items : List ItemDesc := [] -- item table in force; 09 R227
  itemEpoch : Nat := 0 -- its generation; 09 R228
  nextItems : List (Nat × List ItemDesc) := [] -- tables that replace it, each at a cut instant, earliest first; 09 R228
  audit : Bool := false -- AUDIT; 09 R245
  served : List (Nat × Nat) := [] -- die port and rank served at this tray; 01 R23
  trays : List Nat := [] -- serving trays of the subtree, from the port map; 09 R239
  ended : List (Nat × Nat) := [] -- ranks whose job-end record has arrived, with FT_END; 15 R419
  since : Nat := 0 -- fleet time of entry to DRAINING or HOLD; 15 R419
  spare : List Nat := [] -- ranks of this tray served by a spare; 15 R417
  win : Option CtxWin := none -- collective windows; 11 R308
  from_ : List (Nat × Nat) := [] -- serving tray learned per homed rank; 09 R232
deriving DecidableEq, Repr

/-- What Priord keeps per rank, context and accord kind to decode records (03 R85). -/
structure AccRef where
  tag : Nat := 0 -- context; 03 R85
  rank : Nat := 0 -- rank; 03 R85
  kind : Nat := 0 -- ACC_KIND; 03 R85
  no : Nat := 0 -- ACCORD_NO of the last record accepted; 03 R85
  image : Image := {} -- its decoded values; 03 R77
  sel : List (Nat × Nat) := [] -- fast selection in force; 03 R81
  vals : List (Nat × Nat) := [] -- fast values by selection slot; 03 R81
  stepped : Option Nat := none -- that record was STEPPED: fleet time of its arrival; 03 R83
  last : Nat := 0xFFFF_FFFF_FFFF_FFFF -- last regular accord to which the rank contributed; 09 R228
  lastImage : Image := {} -- its values, the base of the next deltas; 09 R228
deriving DecidableEq, Repr

/-- A contribution of a rank to an open accord (03 R84, 09 R228). -/
structure Contrib where
  rank : Nat := 0 -- rank; 03 R84
  grade : Nat := 0 -- grade of its header; 03 R91
  interval : Nat := 0 -- INTERVAL of its header, in 100 µs; 10 R270
  image : Image := {} -- values of the record; 03 R77
  base : Option Image := none -- values of the contribution to the accord before, if it was one; 09 R228
deriving DecidableEq, Repr

/-- An accord at one level of a node, open or closed (03 R86, R87). -/
structure AccNode where
  level : Nat := 0 -- 0 tray, 1 rack, 2 pod, 3 hall; 03 R87
  tag : Nat := 0 -- context; 03 R86
  kind : Nat := 0 -- ACC_KIND; 03 R86
  no : Nat := 0 -- ACCORD_NO; 03 R86
  t : Nat := 0 -- cut instant; 03 R87
  prev : Nat := 0 -- ACCORD_NO of the scheduled accord before it; 09 R228
  epoch : Nat := 0 -- ITEM_EPOCH; 09 R228
  items : List ItemDesc := [] -- item table; 09 R228
  expected : List Nat := [] -- ranks (tray) or child trays expected; 03 R84, 09 R234
  owed : List (Nat × Nat) := [] -- above the tray: block owed, and the child that owes it; 09 R234
  contribs : List Contrib := [] -- contributions; 03 R84
  gaps : List (Nat × Nat × Nat) := [] -- rank, reason, and fleet time of this Priord's declaration, all ones for a gap record received; 03 R88, R89
  parts : List Partial := [] -- partials accepted, one per sender; 09 R236
  lateFrom : List Nat := [] -- trays whose partial came late; 09 R236
  frags : List Frag := [] -- fragments held; 09 R233
  st : Nat := 0 -- closure state; 03 R86
  closeT : Nat := 0 -- fleet time of closure; 03 R92
  local_ : Summary := {} -- tray-local summary; 03 R91
  localMiss : List (Nat × Nat) := [] -- its missing-rank list; 03 R92
  sum : Summary := {} -- summary of the partial, or of the level; 03 R92
  miss : List (Nat × Nat) := [] -- its missing-rank list; 03 R92
  sentTo : Option Nat := none -- parent to which the partial went; 09 R236
  hold : Bool := false -- the partial waits for the Nose's scores; MODEL'S OWN, log entry 54
deriving DecidableEq, Repr

/-- The hang graph of a HANG_ID at one node (05 R135, R136). -/
structure HangSt where
  id : Nat := 0 -- HANG_ID; 05 R135
  tag : Nat := 0 -- job; 05 R135
  edges : List Edge16 := [] -- edges held; 05 R135
  node : Nat := 0 -- level of the node: 0 tray, 1 rack, 2 pod, 3 hall; 05 R136
  t : Nat := 0 -- T_h; 05 R134
  expect : List Nat := [] -- ranks of the job homed in the node's subtree; 05 R136
  ranks : List Nat := [] -- ranks whose notices are held; 05 R136
  owed : List (Nat × Nat) := [] -- ranks whose notice is held, with the open records that it still announces; 05 R133
  seen : List Nat := [] -- ranks whose hang accord has arrived; 05 R133
  missing : List Nat := [] -- ranks that a child lists as missing; 05 R136
  states : List (Nat × Nat) := [] -- engine node and its state at T_h, as the hang accords show it; 05 R137
  done : Bool := false -- analysed and forwarded; 05 R136
deriving DecidableEq, Repr

/-- What one child has answered to a broadcast (09 R240). -/
structure ChildSt where
  child : Child := .tray 0 -- the child; 09 R240
  sent : Nat := 0 -- fleet time of the send; 09 R240
  ack : Bool := false -- HOP_ACK has come; 09 R240
  done : Option DoneMsg := none -- its DONE; 09 R240
  failed : Bool := false -- declared failed, or an OTU given up; 09 R240
deriving DecidableEq, Repr

/-- The receipt of a duplicate whose DONE is owed (09 R241). -/
structure DupWait where
  sender : Option Nat := none -- its sender; 09 R241
  kids : List Child := [] -- the children to which it was forwarded again; 09 R241
deriving DecidableEq, Repr

/-- A broadcast at a node (09 R240). -/
structure Bcast where
  body : BcastBody := ⟨0, {}, none, [], none, 0, none, []⟩ -- the message; 09 R237
  sender : Option Nat := none -- the parent that sent it, none at its root; 09 R240
  children : List ChildSt := [] -- children; 09 R240
  own : DoneMsg := {} -- what this node itself adds to DONE; 09 R240
  gone : Bool := false -- the DONE went to the sender; 09 R241
  closed : Option DoneMsg := none -- its DONE once complete; 09 R240, R241
  at_ : Nat := 0 -- fleet time at which it was applied; 09 R241
  dups : List DupWait := [] -- receipts of duplicates that await their DONE; 09 R241
  spoiled : Bool := false -- an entry that the node applies itself failed: its OTUs count as not applied; 09 R227, R238
deriving DecidableEq, Repr

/-- A START_JOB request at a hall root (09 R247). -/
structure StartReq where
  tag : Nat := 0 -- job tag; 09 R247
  msg : StartMsg := ⟨0, [], [], [], [], false, false⟩ -- its START; 09 R245
  bseq : Nat := 0 -- BSEQ of the last START; 09 R247
  s : Nat := 0 -- its S; 09 R247
  retracts : Nat := 0 -- retracts so far; 09 R247
  retract : Nat := 0 -- BSEQ of the RETRACT in progress, 0 if none; 09 R247
  statuses : List (Nat × Nat) := [] -- rank and status of the last try; 09 R247
  wait : Option Nat := none -- fleet time at which RESCHED_WAIT began; 09 R247
  result : Option Nat := none -- 0 started at S, 1 START_FAILED; 09 R247
deriving DecidableEq, Repr

/-- An ACCORD_SWITCH that a hall root has issued (09 R244). -/
structure SwitchTry where
  bseq : Nat := 0 -- its CONFIG; 09 R244
  n : Nat := 0 -- the new interval in 100 µs; 03 R62
  old : Nat := 0 -- the interval before; 03 R63
  refused : Option Nat := none -- OTUs that did not apply the try before it; MODEL'S OWN, log entry 64
deriving DecidableEq, Repr

/-- The fleet tree and the atomiser at this Priord (09 R229 to R249). -/
structure Tree where
  roles : Roles := [] -- role assignments in force, by tray; 09 R242
  next : Option Roles := none -- those of a TREE message, for reduction from the next cut; 09 R242
  epoch : Nat := 0 -- TREE_EPOCH; 09 R242
  joined : Bool := false -- a TREE message has been applied; 15 R410
  failed : List Nat := [] -- trays declared failed; 09 R240
  rootEpoch : Nat := 0 -- ROOT_EPOCH, as root or as last heard; 09 R237
  count : Nat := 0 -- broadcasts issued as root; 09 R237
  tookOver : Bool := false -- took the root role; 09 R251
  bcasts : List Bcast := [] -- broadcasts at this node, newest first; 09 R240
  bmaps : List (Nat × BMap) := [] -- broadcasts applied, by context; 09 R241
  retracted : List Nat := [] -- STARTs retracted before they arrived; 09 R241
  hbAt : Nat := 0 -- fleet time of the last HEARTBEAT received; 09 R243
  hbSent : Nat := 0 -- fleet time of the last one sent; 09 R243
  held : List BcastBody := [] -- broadcasts outstanding at the hall root, as the standby holds them; 09 R243
  reqs : List StartReq := [] -- start requests at the root; 09 R247
  faulted : List Nat := [] -- tags whose running instance has had its JOB_FAULT; 09 R249
  switches : List SwitchTry := [] -- CONFIG broadcasts of this root with an ACCORD_SWITCH; 09 R244
  maps : List (Nat × List (Nat × Nat)) := [] -- port map of the last START per tag, newest first, at most 1,024; 15 R417
  probes : List (Nat × Nat) := [] -- job tag, and the end of the holdoff of its last hang freeze; 05 R134, R141
  freezes : List Flacon := [] -- freezes issued by this root, FREE once released here; 06 R165
  fwdTx : List (Nat × Nat) := [] -- FSEQ of the next envelope per receiver; 09 R231
  fwdRx : List (Nat × Nat) := [] -- FSEQ expected per sender; 09 R232
  probeAt : Nat := 0 -- fleet time of the last TREE probe; 15 R410
deriving DecidableEq, Repr

/-- A rank digest record at the top node (08 R210, R211). -/
structure DigRec where
  rank : Nat := 0 -- rank; 08 R210
  body : List Byte := [] -- the record; 08 R210
deriving DecidableEq, Repr

/-- A result under assembly, or assembled (08 R211). -/
structure ResAsm where
  tag : Nat := 0 -- job; 08 R211
  id : Nat := 0 -- RESULT_ID; 08 R211
  no : Nat := 0 -- ACCORD_NO of the window's closing cut; 08 R210
  nRanks : Nat := 0 -- ranks of the job; 08 R213
  known : Bool := true -- this node holds the job's tables, and so N_RANKS; 08 R211
  timeout : Nat := 0 -- fleet time of RESULT_TIMEOUT; 08 R211
  recs : List DigRec := [] -- records, by rank; 08 R211
  conflict : Bool := false -- two records of a rank differed; 08 R211
  done : Bool := false -- assembled; 08 R211
deriving DecidableEq, Repr

/-- Bucket order records under comparison at a rank home (08 R215). -/
structure BktCmp where
  tag : Nat := 0 -- job; 08 R215
  coll : Nat := 0 -- COLL_SEQ; 08 R215
  recs : List (Nat × Nat) := [] -- rank and ORDER_CRC, in order of arrival; 08 R215
  deadline : Nat := 0 -- fleet time of the tray deadline; 08 R215
  done : Bool := false -- compared; 08 R215
deriving DecidableEq, Repr

/-- A die port at Priord (11 R286 to R313, 01 R23). -/
structure DpSt where
  link : LinkSt := {} -- Priord's end of the link; 11 R286
  expect : List ((Nat × Nat) × Nat) := [] -- expected sequence per (STREAM, tag); 11 R296
  hunt : List (Nat × Nat) := [] -- (STREAM, tag) pairs in HUNT; 11 R297
  ranks : List (Nat × Nat) := [] -- rank per job tag, kept after the context ends; 01 R23
  fails : Nat := 0 -- consecutive RCRC failures; 11 R297
  tp : Nat := 0 -- peak tokens of the policer, 1/32,000 byte; 11 R303
  tc : Nat := 0 -- committed tokens, 1/32,000 byte; 11 R303
  polAt : Nat := 0 -- time of the last refill; 11 R303
  polFull : Bool := true -- the buckets are full as a write or reset left them; 11 R317
  colour : Nat := 0 -- colour of the last frame: 0 green, 1 yellow, 2 red; 11 R303
  txNext : Option Nat := none -- next sequence of the ATOMISER stream towards the die; 11 R296
  down : List (List Byte) := [] -- atomiser messages that wait for the die, oldest first; 11 R295
  downSince : Nat := 0 -- fleet time at which the port went DOWN; 15 R418
  withdrawn : Bool := false -- a job-end record with CAUSE WITHDRAWN came and the port has not retrained; 03 R89
  noTime : Bool := false -- the die's last time word had FT_VALID clear; 02 R43, R47
  failedOtu : Option Nat := none -- CAUSE of the declared OTU failure; 15 R418
  fbRelay : Option Nat := none -- relay port that last delivered this die's frames; 11 R311
  fbAt : Nat := 0 -- fleet time of the last frame by the fallback path; 15 R418
  lastNo : Nat := 0xFFFF_FFFF_FFFF_FFFF -- last regular record accepted; 03 R94
deriving DecidableEq, Repr

/-- A message that waits on an uplink (11 R298, R299). -/
structure UpRec where
  dst : Nat := 0 -- tray index, or 2^16 plus a session of a query-protocol peer, or 2^17 for the fleet store; 11 R298
  body : List Byte := [] -- its bytes; 11 R298
  ft : Nat := 0 -- fleet time of enqueue; 11 R314
deriving DecidableEq, Repr

/-- An uplink's schedulers (11 R300 to R307, R314). -/
structure UlSt where
  q : List (Nat × List UpRec) := [] -- egress queues; 11 R299
  qs : List (Nat × EqSt) := [] -- their shapers; 11 R301
  gate : GateSt := {} -- gate list; 11 R305
  sampleNext : Nat := 0 -- sequence of the next egress sample record; 11 R314
  last : Option UpRec := none -- the frame that went out last; MODEL'S OWN output
deriving DecidableEq, Repr

/-- What the configuration image sets (15 R405). -/
structure Cfg where
  roles : Roles := [] -- ROLES: byte per populated tray; 15 R405
  ports : List (Nat × Nat) := [] -- PORTS: bits per die port, default 0; 15 R405
  buddyEn : Bool := false -- POLICY.BUDDY_EN; 15 R405
  signed : Bool := false -- POLICY.MODELS_SIGNED; 15 R405
deriving DecidableEq, Repr



/-- What the Nose keeps for one feature of a stream: binary64 patterns (10 R272). -/
structure NoseFeat where
  mu : Nat := 0 -- μ; 10 R272
  v : Nat := 0 -- v; 10 R272
  p : Nat := 0 -- P; 10 R272
  n : Nat := 0 -- N; 10 R272
  roc : List Nat := [] -- the last values evaluated, newest first, at most 64; 10 R272
  slope : List Nat := [] -- the last values evaluated, newest first, at most W; 10 R272
deriving DecidableEq, Repr

/-- A stream's state (10 R272, R282). -/
structure NoseStream where
  tag : Nat := 0 -- context; 10 R283
  id : Nat := 0 -- stream ID; 10 R269
  season : Nat := 0 -- SEASON; 10 R282
  gen : Nat := 0 -- GENERATION of the baseline in use, 0 if none; 10 R278
  feats : List NoseFeat := [] -- state of each feature; 10 R272
deriving DecidableEq, Repr

/-- A model image that passed its checks (10 R260 to R268). -/
structure NoseModel where
  image : List Byte := [] -- its bytes; 10 R260
  digest : Nat := 0 -- BLAKE3-256, as a little-endian number; 10 R268
  mode : Nat := 1 -- 1 RESIDENT, 2 STREAMED; 10 R266
  resident : Nat := 0 -- r; 10 R266
  streamed : Nat := 0 -- W_s, bytes of the streamed experts; 10 R267
  addr : Nat := 0 -- HBM address that it was loaded from; 10 R268
deriving DecidableEq, Repr

/-- A score of an evaluated accord (10 R278). -/
structure NoseScore where
  tag : Nat := 0 -- context; 10 R278
  no : Nat := 0 -- accord; 10 R278
  id : Nat := 0 -- stream ID; 10 R269
  v : Nat := 0 -- SCORE, FP32; 10 R278
deriving DecidableEq, Repr

/-- The Nose (10). -/
structure Nose where
  model : Option NoseModel := none -- the running model; 10 R268
  next : Option NoseModel := none -- a checked image that waits for its copy, or is being copied; 10 R268
  copying : Bool := false -- the copy runs; 10 R268
  waiting : List (Nat × Nat) := [] -- accords that wait, by context slot and number, in order of closure; 10 R281
  busy : Option (Nat × Nat) := none -- accord under evaluation, by context slot and number; 10 R281
  streams : List NoseStream := [] -- live state; 10 R272
  baseNext : List (Nat × List NoseStream) := [] -- baselines that wait for the end of an evaluation of their context; 10 R283
  replay : List NoseStream := [] -- replay state; 10 R284
  persist : List (List Nat × Nat) := [] -- peer-lag counts per (tag, level, entry, rank, engine); 10 R275
  scores : List NoseScore := [] -- scores of the last accord evaluated in each context; 10 R278
deriving DecidableEq, Repr


/-! #### Rings and management (14) -/

/-- A completion before it is written (14 R368). -/
structure Cmpl where
  status : Nat := 0 -- STATUS; 14 R370
  cstate : Nat := 0 -- CSTATE; 14 R368
  nAnswers : Nat := 0 -- N_ANSWERS; 14 R368
  accNo : Nat := 0xFFFF_FFFF_FFFF_FFFF -- ACCORD_NO; 14 R368
  bytes : Nat := 0 -- BYTES; 14 R368
  info : Nat := 0 -- INFO; 14 R368
  cflags : Nat := 0 -- CFLAGS, PHASE apart; 14 R368
  answer : List Byte := [] -- answer bytes that travel in packets on a REMOTE ring; 14 R387
deriving DecidableEq, Repr

/-- What a subscription has to deliver. -/
inductive SubItem where
  /-- A record written into heart notes. -/
  | record (r : HRec)
  /-- An accord that closed at a level of R92. -/
  | accord (level no : Nat)
deriving DecidableEq, Repr

/-- A subscription (14 R379). -/
structure Subscr where
  due : List SubItem := [] -- deliveries not yet made, oldest first; 14 R379
  off : Nat := 0 -- current offset of the byte ring; 14 R379
  live : List (Nat × Nat × Nat) := [] -- deliveries in the buffer: completion count, offset and length; 14 R379
  lost : Nat := 0 -- deliveries dropped since the last loss notice; 14 R379
deriving DecidableEq, Repr

/-- What an operation in flight waits for. -/
inductive OpWait where
  /-- Its command has not run. -/
  | fetched
  /-- WAIT: an accord. -/
  | accord
  /-- The DONE of a broadcast. -/
  | bcast (bseq : Nat)
  /-- The copy of a model that it has loaded (10 R268). -/
  | nose
  /-- A START_JOB request's result. -/
  | start (jobTag : Nat)
  /-- A running subscription. -/
  | sub (x : Subscr)
  /-- A finished operation's completion. -/
  | done (x : Cmpl)
deriving DecidableEq, Repr

/-- An operation in flight (14 R371). -/
structure Op where
  ring : Nat := 0 -- ring; 14 R371
  idx : Nat := 0 -- DESC_HEAD count at its fetch; 14 R368
  desc : List Byte := [] -- the descriptor; 14 R367
  chain : Nat := 0 -- 1 plus the count of its chain's first descriptor, 0 outside a chain; 14 R384
  last : Bool := true -- the last of its chain; 14 R367
  acc : Option Nat := none -- accord that it resolved, or that its chain did; 14 R384
  wait : OpWait := .fetched -- what it waits for; 14 R371
  fin : Nat := 0 -- order of completion; 14 R372
deriving DecidableEq, Repr

/-- A ring's configuration (14 R400). -/
structure RingCfg where
  cfg : Nat := 0xC0 -- PRD_RING_STAGE_CFG; 14 R400
  limits : Nat := 0x40 -- PRD_RING_STAGE_LIMITS; 14 R400
  descBase : Nat := 0 -- PRD_RING_STAGE_DESC_BASE; 14 R400
  cmplBase : Nat := 0 -- PRD_RING_STAGE_CMPL_BASE; 14 R400
  status : Nat := 0x0C -- status of its operations in flight while it drains; 14 R365
  autoFrom : Nat := 0 -- first fleet time of the next automatic export; 14 R382
  autoAt : Nat := 0 -- fleet time of the last automatic export; 14 R382
deriving DecidableEq, Repr

/-- A query-protocol packet that is not acknowledged (14 R388). -/
structure QpPkt where
  seq : Nat := 0 -- PSEQ; 14 R385
  ptype : Nat := 0 -- PTYPE; 14 R385
  flags : Nat := 0 -- PFLAGS; 14 R385
  payload : List Byte := [] -- payload; 14 R387
  slot : Nat := 0 -- slot of the context named: its egress queue; 14 R388
  sends : Nat := 0 -- times sent; 14 R388
  at_ : Nat := 0 -- fleet time of the last send; 14 R388
  frees : Bool := false -- its acknowledgement completes a completion; 14 R388
deriving DecidableEq, Repr

/-- A query-protocol session (14 R385 to R388). -/
structure Qp where
  id : Nat := 0 -- SESSION; 14 R386
  ring : Nat := 0 -- ring; 14 R386
  rx : Nat := 0 -- highest PSEQ received in order; 14 R385
  tx : Nat := 0 -- last PSEQ sent; 14 R385
  unacked : List QpPkt := [] -- sent and not acknowledged, oldest first, at most 64; 14 R388
  wait : List QpPkt := [] -- packets that wait for the window; 14 R388
deriving DecidableEq, Repr

/-- The rings (14 R361 to R388). -/
structure Rings where
  cfg : List (Nat × RingCfg) := [] -- configuration per ring; 14 R400
  ops : List Op := [] -- operations in flight, in order of fetch; 14 R371
  rrPriv : Nat := 255 -- privileged ring fetched last; 14 R371
  rrTen : Nat := 65535 -- tenant ring fetched last; 14 R371
  fins : Nat := 0 -- operations finished so far; 14 R372
  host : Mem := [] -- bytes that Priord has written to host memory; MODEL'S OWN output
  msix : List Nat := [] -- MSI-X vectors signalled, newest first; MODEL'S OWN output
  qp : List Qp := [] -- sessions; 14 R386
  qpNext : Nat := 1 -- next SESSION; 14 R386
  moved : List (Nat × Nat) := [] -- fleet time of the last change of STATE, per ring; 14 R365
  selAt : Option Nat := none -- fleet time of a write of RING_SEL whose load of STAGE is not made yet; 14 R400
deriving DecidableEq, Repr

/-- A command that occupies the management engine (14 R391). -/
structure MgmtCmd where
  cmd : Nat := 0 -- CMD; 14 R392
  seq : Nat := 0 -- SEQ; 14 R392
  path : MgmtPath := .mailbox -- where it came from; 14 R390
  arg : Nat := 0 -- length or level; 14 R393
  pldm : Bool := false -- run by a PLDM firmware update; 14 R395
deriving DecidableEq, Repr

/-- The management port (14 R390 to R395). -/
structure Mgmt where
  run : Option MgmtCmd := none -- the long command that holds the engine; 14 R391
  last : Option (Nat × Nat × Nat × List Byte) := none -- CMD, SEQ, CC and response of the last completed command; 14 R392
  rsp : List Byte := [] -- PRD_MBX_RSP; 14 R402
  mctp : List Byte := [] -- the last response over MCTP; MODEL'S OWN output
  pldm : List Byte := [] -- the last PLDM answer; MODEL'S OWN output
  taken : Option (Nat × Nat) := none -- fleet time and CMD of the last mailbox command taken; 14 R391
deriving DecidableEq, Repr

/-! #### Start-up, buddies, power (15, 16) -/

/-- Buddies and rebuild (15 R422 to R425). -/
structure Buddy where
  store : List MirrorItem := [] -- mirror of tray t - 1, newest first, at most 1 GiB; 15 R422
  out : List MirrorItem := [] -- items sent over BUDDY_1, newest first; MODEL'S OWN output
  served : List MirrorItem := [] -- items sent over BUDDY_0 in answer to a request, newest first; MODEL'S OWN output
  since : Option Nat := none -- the rebuild asks for items later than this, none for all of them; 15 R423
  askedAt : Nat := 0 -- fleet time of the request, or of the last answer to it; 15 R424
  epochs : List (Nat × Nat) := [] -- highest epoch seen per tray; 15 R414
  lastExport : Option Nat := none -- FT_LAST of the last export known; 15 R425
  gap : Bool := false -- the next export object carries GAP; 15 R425
  ringAt : Nat := 0 -- fleet time at which the ring began accepting records; 15 R425
deriving DecidableEq, Repr

/-- Power, clock, thermal and test state that no register holds (16). -/
structure Power where
  on : Nat := 2 -- 0 off, 1 rails coming up, 2 power good; 16 R433
  inReset : Bool := false -- PRD_RESET_N is low; 16 R436
  fail : Option Nat := none -- fleet time of PWR_FAIL; 16 R434
  warn : Nat := 0 -- sensors past their warning threshold, as a mask; 16 R439
  throttle : Nat := 0 -- sensors past their throttle threshold, as a mask; 16 R439
  why : Nat := 0 -- REASON of the next RECORDER_START: 0 POWER_UP, 1 RESET; 12 R326
  tripLast : Bool := false -- THERM_TRIP_LAST as MRAM keeps it; 16 R439
  ocxoFail : Bool := false -- the OCXO is held failed; 16 R438
  tap : TapIr := .idcode -- instruction in the TAP; 16 R447
  tapRefused : Bool := false -- REFUSED of its capture; 16 R447
  pinLive : Delayed Bool := ⟨false, false, 0⟩ -- whether the debug pins follow the multiplexer; from the cycle after a change; 16 R444
  nor : List Byte := [] -- the SPI NOR from offset 0: image and signature block; 15 R404
deriving DecidableEq, Repr

/-- The Priord of one tray. -/
structure Prd where
  regs : List (Nat × Word) := [] -- register file, keyed by internal-space offset; 17 R460
  cyc : Cyc := {} -- what has happened in the current cycle; 00 R13
  loopCfg : Nat := 0x0010_4143 -- PRD_TIME_LOOP_CFG as the last measurement found it; 02 R61
  clk : Clk := {} -- fleet time; 02 R36, R45 to R53
  ul : List (Nat × UlTime) := [] -- PTP and frequency state per uplink; 02 R41
  clockClass : Nat := 255 -- clockClass of Priord's own PTP data set: slave-only, always; 02 R41
  ptpRestart : Bool := false -- PTP reception returns to ACQUIRING at the next sync interval; 02 R61
  stepPending : Bool := false -- STEP_PENDING; 02 R50
  src : Option Nat := none -- uplink selected by the best master clock algorithm; 02 R41
  synceSrc : Option Nat := none -- uplink whose frequency disciplines the OCXO; 02 R42
  tw : List (Nat × TwEnd) := [] -- time-word exchange per die port; 02 R43
  evr : Recorder := { slots := [(0, startRecord (2 ^ 17))] } -- event recorder; 12
  jnl : List (Nat × EvRec) := [] -- MRAM journal: key 2^18 * bank + slot; 12 R335
  jnlBank : Nat := 0 -- bank that the current session writes; 12 R337
  mramProt : Bool := false -- MRAM is write-protected; 15 R426
  cfg : Cfg := {} -- what the configuration image sets; 15 R405
  hnr : Hnr := {} -- heart notes and flacons; 06 R163
  ctx : List (Nat × Ctx) := [] -- context slots; 09 R253
  refs : List AccRef := [] -- decode references per rank, context and kind; 03 R85
  accs : List AccNode := [] -- accords open or closed, newest first; 03 R86
  goneAccs : List AccNode := [] -- closed accords that went with the segments of hnr.gone; 06 R170, 01 R28
  accInt : Nat := 10 -- regular interval, 100 µs units; 03 R62
  accNext : Nat := 0xFFFF_FFFF_FFFF_FFFF -- next regular cut instant; 03 R62
  accPrev : Nat := 0xFFFF_FFFF_FFFF_FFFF -- number of the scheduled accord before it; 09 R228
  accSwitch : Option (Nat × Nat) := none -- switch instant and new interval; 03 R63
  nans : List (Nat × Nat × List Byte) := [] -- first-NaN records kept for FIRST items: tag, rank, record; 09 R227
  tree : Tree := {} -- fleet tree and atomiser; 09
  hangs : List HangSt := [] -- hang graphs; 05 R135
  results : List ResAsm := [] -- results at this node; 08 R211
  resTimeouts : List (Nat × Nat) := [] -- writes of RESULT_TIMEOUT, newest first: fleet time and ms; a mark takes the last one before its cut; 08 R219
  orders : List BktCmp := [] -- bucket orders under comparison; 08 R215
  dp : List (Nat × DpSt) := [] -- die ports; 11 R286
  ulq : List (Nat × UlSt) := [] -- uplink schedulers; 11 R299
  ingest : Nat := 0 -- bytes written in the current 10 µs window; 11 R304
  ingestRate : Nat := 0 -- bytes of the last window; 11 R304
  ingestAt : Nat := 0 -- fleet time at which the current window began; 11 R304
  nose : Nose := {} -- the Nose; 10
  divs : List (Nat × Nat × Nat) := [] -- bucket order divergences: job tag, rank, fleet time; 10 R270
  gapRuns : List GapRec := [] -- accepted gap records that cover accords not yet opened; 03 R89
  hbm : Mem := [] -- HBM working and software space, by address; an unlisted byte reads 0; 17 R457
  rings : Rings := {} -- rings and the query protocol; 14
  mgmt : Mgmt := {} -- management port; 14
  buddy : Buddy := {} -- buddies and rebuild; 15
  pw : Power := {} -- power, clocks, test; 16
  bar4 : Delayed Nat := ⟨0x3B, 0x3B, 0⟩ -- PRD_BAR4_WIN.BASE; a write takes effect from the next cycle; 17 R457
  feeds : List (Nat × (Nat × Nat)) := [] -- check-value feeds that run: context, SRC and LEN at FEED_START; 13 R356
  strobes : List (Nat × Nat) := [] -- fleet time of the last pulse of a strobe, per SOURCE; 16 R445
  readOut : Nat := 0 -- what the last read that cleared a count returned; MODEL'S OWN output
  free : Nat := 0 -- counter that the free values are applied to; MODEL'S OWN (DESIGN CHOICE, log entry 6)
deriving DecidableEq, Repr

/-- Reasons for a fault. The block has none of its own: every failed check of the spec is an effect on its state. -/
inductive Fault where
  /-- Raised by nothing; it stands because the host's interface asks for a type. Safe. -/
  | none
deriving DecidableEq, Repr

/-- Reasons for a refusal. -/
inductive Refusal where
  /-- A command with no meaning yet. Safe. -/
  | notModelled (mnemonic : String)
deriving DecidableEq, Repr

/-- The state of the block. -/
structure State where
  otu : Otu := {} -- the OTU of one die
  prd : Prd := {} -- the Priord of one tray
  pending : List Instr := [] -- commands that wait, first in, first out
deriving DecidableEq, Repr

/-- The block right after reset: every field at the default its declaration gives. -/
def State.reset : State := {}

end Sys2Proof.Machine
end

