-- ==== Sys2Proof/Machine/Recorder.lean ====
section
/-!
DEFINITION. Machine/Recorder.lean: event records and the recorder's own rules, shared by the OTU and Priord
(12 R319 to R334).
-/
namespace Sys2Proof.Machine
open Sys2Proof

/-- R320: bytes 0 to 55. -/
def EvRec.head (r : EvRec) : List Byte :=
  le 1 r.ver ++
  le 1 (r.sev % 8 + 8 * b2n r.fromDie + 16 * b2n r.shared + 32 * (r.grade % 8)) ++
  le 2 r.code ++ le 2 r.tag ++ le 2 r.suppressed ++ le 4 r.seq ++ le 4 r.rank ++ le 8 r.ft ++ le 8 r.path ++
  le 4 r.phys ++ fit 20 r.payload

/-- R321: RCRC, over bytes 0 to 55 followed by VALID. -/
def EvRec.rcrc (r : EvRec) : Nat := crc32c (r.head ++ le 4 r.valid)

/-- R320: the 64-byte record. -/
def EvRec.bytes (r : EvRec) : List Byte := r.head ++ le 4 r.rcrc ++ le 4 r.valid

/-- R320: a record read back from its bytes. -/
def EvRec.ofBytes (l : List Byte) : EvRec :=
  let s := fieldAt l 1 1
  { ver := fieldAt l 0 1, sev := s % 8, fromDie := bit s 3, shared := bit s 4, grade := s / 32,
    code := fieldAt l 2 2, tag := fieldAt l 4 2, suppressed := fieldAt l 6 2, seq := fieldAt l 8 4,
    rank := fieldAt l 12 4, ft := fieldAt l 16 8, path := fieldAt l 24 8, phys := fieldAt l 32 4,
    payload := (l.drop 36).take 20, valid := fieldAt l 60 4 }

/-- R331: the copy of a record that a job's context receives. -/
def EvRec.forJob (r : EvRec) : EvRec := { r with phys := 0, path := 0, grade := 0 }

/-- R320: the RANK field of a request. -/
def rankField (r : Option Nat) : Nat :=
  match r with
  | none => 0
  | some n => n % 2 ^ 20 + 2 ^ 20

/-- R321: the session number after `n`, skipping 0, 0xFFFF_FFFF and the numbers in `avoid`. -/
def nextSession (avoid : List Nat) (n : Nat) : Nat :=
  let up (x : Nat) : Nat := if x ≥ 0xFFFFFFFE then 1 else x + 1
  let a := up n
  if avoid.contains a then (let b := up a; if avoid.contains b then up b else b) else a

/-- R327: the key of the bucket that a code is charged to: a valid entry that names it, else the default entry. -/
def rlKey (entries : List (Nat × Nat)) (code : Nat) : Nat :=
  match entries.find? fun x => bit x.2 16 && getF x.2 0 16 == code with
  | some x => x.1
  | none => 65536

/-- R327: a bucket's tokens at time `now`, refilled at `rate` tokens per second of `perS` time units. -/
def RlSt.refill (b : RlSt) (rate burst perS now : Nat) : RlSt :=
  if b.used then
    let add := rate * 65536 * (now - b.at_) / perS
    if add = 0 then b
    else { b with tokens := min (burst * 65536) (b.tokens + add)
                  at_ := if rate = 0 then now else b.at_ + add * perS / (rate * 65536) }
  else { b with tokens := burst * 65536, at_ := now, used := true }

/-- R319: a request takes an entry of the in-flight queue; eight are held back for severities 6 and 7. -/
def EvCycle.place (c : EvCycle) (r : EvRec) : EvCycle :=
  if c.inflight.length < (if r.sev ≥ 6 then 64 else 56) then { c with inflight := c.inflight ++ [r] }
  else { c with dropped := c.dropped + 1 }

/-- R327, R330: take one request of the cycle. The count that the admitting entry gives is added to the one that an adopted record
brings, and so is SHARED_BUCKET. -/
def EvCycle.take (perS : Nat) (c : EvCycle) (q : EvAsk) : EvCycle :=
  if q.r.sev ≥ 6 then c.place q.r
  else
    let rate := getF q.cfg 32 16
    let b := (Tbl.get (fun _ => ({} : RlSt)) c.rl q.key).refill rate (getF q.cfg 48 16) perS c.at_
    if rate = 0 || b.tokens ≥ 65536 then
      let b' := { b with tokens := if rate = 0 then b.tokens else b.tokens - 65536, suppressed := 0 }
      ({ c with rl := Tbl.put (fun _ => {}) c.rl q.key b' }).place
        { q.r with suppressed := min 0xFFFF (q.r.suppressed + b.suppressed), shared := q.r.shared || q.key = 65536 }
    else { c with rl := Tbl.put (fun _ => {}) c.rl q.key { b with suppressed := satAdd 16 b.suppressed 1 }, refused := c.refused + 1 }

/-- R328: the requests of this cycle before another one joins them. -/
def Recorder.cycle (x : Recorder) (now : Nat) : EvCycle :=
  let fresh : EvCycle := { at_ := now, inflight := x.inflight, rl := x.rl }
  match x.cyc with
  | some c => if c.at_ = now then c else fresh
  | none => fresh

/-- R328: all the requests of a cycle, taken in ascending source number. -/
def EvCycle.run (c : EvCycle) (perS : Nat) : EvCycle := c.asks.foldl (EvCycle.take perS) { c with refused := 0, dropped := 0 }

/-- R327, R328: a request joins those of its cycle, which are taken anew in their order. -/
def Recorder.request (x : Recorder) (perS now : Nat) (q : EvAsk) : Recorder :=
  let c := x.cycle now
  let asks := c.asks.filter (fun a => decide (a.src ≤ q.src)) ++ q :: c.asks.filter fun a => decide (q.src < a.src)
  let r := ({ c with asks } : EvCycle).run perS
  { x with inflight := r.inflight, rl := r.rl, cyc := some { c with asks, refused := r.refused, dropped := r.dropped } }

/-- R319, R327: what a request, which left the recorder `y`, added to those refused and dropped in cycle `now`; another order of the
cycle's requests may drop fewer. -/
def Recorder.added (x y : Recorder) (now : Nat) : Bool × (Nat → Nat) × Bool :=
  let a := x.cycle now
  let b := y.cycle now
  (decide (b.refused > a.refused), (fun v => setF v 16 16 (min 0xFFFF (getF v 16 16 + b.dropped - a.dropped))), decide (b.dropped > a.dropped))

/-- R327: a write to an entry fills its bucket and clears its count. -/
def Recorder.rlReset (x : Recorder) (key : Nat) : Recorder := { x with rl := Tbl.put (fun _ => {}) x.rl key {}, cyc := none }

/-- R328: the source number of an own request: the codes stand in the order of the blocks that raise them, from the time block to the
port block; a job's start and end are the time block's (log entry 95). -/
def evSource (code : Nat) : Nat := if code = 0xA0 || code = 0xA1 then 0x1F else code

/-- What the recorder did with the record at its head. -/
inductive Committed where
  /-- The queue was empty. -/
  | idle
  /-- Committed, as the record given. -/
  | stored (r : EvRec)
  /-- Discarded under R461 or because the recorder had stopped. -/
  | discarded (r : EvRec)
  /-- R329: RECORDER_FULL took the last slot, and the record at the head is discarded. -/
  | filled (full r : EvRec)
deriving DecidableEq, Repr

/-- What bytes 56 to 63 of a slot hold. -/
def Recorder.tail (x : Recorder) (slot : Nat) : Nat :=
  match x.slots.lookup slot with
  | some r => fieldAt r.bytes 56 8
  | none => 0

/-- R319, R322, R329, R461: commit the record at the head of the in-flight queue in cycle `now`, into slot `front` of session `sess`. -/
def Recorder.commit (x : Recorder) (now : Nat) (en : Bool) (cap front sess : Nat) (stamp : EvRec) : Recorder × Committed :=
  match x.inflight with
  | [] => (x, .idle)
  | r :: rest =>
    let hot := some (now, front, x.tail front)
    let x := { x with inflight := rest, cyc := none }
    if !en || x.full || front ≥ cap then (x, .discarded r)
    else if front = cap - 1 then
      let f : EvRec := { stamp with code := 0x0002, sev := 3, seq := front, valid := sess }
      ({ x with full := true, slots := Tbl.ins x.slots front f, hot }, .filled f r)
    else
      let r' := { r with seq := front, valid := sess }
      ({ x with slots := Tbl.ins x.slots front r', hot }, .stored r')

/-- R334: what a commit in the cycle of a clear goes by, if `now` is that cycle. -/
def Recorder.oldNow (x : Recorder) (now : Nat) : Option EvOld := x.was.filter (·.at_ == now)

/-- R334: the recorder's memory after a commit `y` into the session that a clear of this cycle has closed. -/
def Recorder.backTo (y x : Recorder) : Recorder := { y with slots := x.slots, full := x.full, hot := x.hot, was := none }

/-- R334: a new session, with RECORDER_START in slot 0. With `zero` the slots are written with zeros first (R338); else those of an
earlier session stay as they are, not valid. -/
def Recorder.restart (x : Recorder) (zero : Bool) (sess : Nat) (start : EvRec) : Recorder :=
  { x with slots := Tbl.ins (if zero then [] else x.slots) 0 { start with seq := 0, valid := sess }, full := false, hot := none }

/-- R326: the payload of RECORDER_START. -/
def startPayload (prev reason : Nat) : List Byte := le 4 prev ++ le 1 reason

end Sys2Proof.Machine
end

