-- ==== Sys2Proof/Machine/OtuOps.lean ====
section
/-!
DEFINITION. Machine/OtuOps.lean: the OTU's named operations: registers, time, jobs, event requests and records queued
for the telemetry port.
-/
namespace Sys2Proof.Machine
open Sys2Proof

namespace OtuR
/-- A register's value. -/
def get (o : Otu) (a : Nat) : Nat := (Tbl.get otuReset o.regs a).toNat
/-- Hardware sets a register. -/
def set (o : Otu) (a v : Nat) : Otu := { o with regs := Tbl.put otuReset o.regs a (BitVec.ofNat 64 v) }
/-- A field of a register. -/
def fld (o : Otu) (a lo w : Nat) : Nat := getF (get o a) lo w
/-- Hardware sets a field of a register. -/
def setFld (o : Otu) (a lo w v : Nat) : Otu := set o a (setF (get o a) lo w v)
/-- R13: this cycle's updates of a register by hardware: the word before them, and they alone. -/
def hw (o : Otu) (a : Nat) : Nat × Nat := (o.cyc.hw.lookup a).getD (get o a, 0)
/-- R13: hardware updates a register by `f`, and the cycle remembers it. -/
def touch (o : Otu) (a : Nat) (f : Nat → Nat) : Otu :=
  { set o a (f (get o a)) with cyc := { o.cyc with hw := Tbl.ins o.cyc.hw a ((hw o a).1, f (hw o a).2) } }
/-- Hardware sets an event bit (W1C). -/
def ev (o : Otu) (a k : Nat) : Otu := touch o a (setBit · k)
/-- A bit of a register. -/
def flag (o : Otu) (a k : Nat) : Bool := bit (get o a) k
/-- Hardware adds to a saturating count held in a field. -/
def cnt (o : Otu) (a lo w n : Nat) : Otu := touch o a fun v => setF v lo w (satAdd w (getF v lo w) n)
/-- A write of software through the register's access codes (R12, R15). -/
def write (o : Otu) (a width v : Nat) : Otu := { o with regs := regWrite otuRows (fun b => (hw o b).2) o.regs a width v }
/-- R12, R13: software reads the whole of a register whose row is `x`. -/
def readRc (o : Otu) (x : RegRow) (a : Nat) : Otu := set o a (x.afterRead (hw o a).2 (get o a))
end OtuR

/-- R412: the descriptor was invalid. -/
def Otu.invalid (o : Otu) : Bool := OtuR.fld o OTU_DESC_STATUS 0 2 == 2

/-- R412: the registers that an OTU with an invalid descriptor still has: identity, start-up, time and port. -/
def keptInvalid (a : Nat) : Bool := decide (a < 0x800) || (0x10000 ≤ a && a < 0x20000) || (0x120000 ≤ a && a < 0x120040)

/-- R412: what a command's effect on `a`, leaving `b`, comes to while the descriptor is invalid: every counter and mechanism
is disabled, and only the port, its time words, the clock and their registers go on. -/
def Otu.contained (a b : Otu) : Otu :=
  if a.invalid && b.invalid then
    { a with lt := b.lt, cyc := b.cyc, clk := b.clk, trayLock := b.trayLock, prdGrade := b.prdGrade, prdErr := b.prdErr, asym := b.asym, link := b.link, fresh := b.fresh, told := b.told
             regs := (b.regs.filter fun x => keptInvalid x.1).foldl (fun r x => Tbl.put otuReset r x.1 x.2)
               (a.regs.filter fun x => !keptInvalid x.1) }
  else b

/-- Apply a command's effect to the OTU. -/
def State.onOtu (s : State) (f : Otu → Otu) : State := { s with otu := s.otu.contained (f s.otu) }

/-- The OTU's clock moves to the edge at which a command happens; it never runs backwards (R50, R53). -/
def Otu.go (o : Otu) (e : Edge) : Otu :=
  { o with lt := max o.lt e.lt
           cyc := if o.lt < e.lt then { grade := o.clk.grade } else o.cyc
           clk := if o.clk.st = 0 then o.clk else { o.clk with ft := max o.clk.ft e.ft } }

/-- R49: the grade in force for the actions of this engine cycle. -/
def Otu.actGrade (o : Otu) : Nat := o.cyc.grade

/-- R40: the fleet time stamped now. -/
def Otu.ft (o : Otu) : Nat := if o.clk.st = 0 then absent else o.clk.ft

/-- A monotone time for shapers and buckets, in nominal ticks of 2 per engine cycle. -/
def Otu.now (o : Otu) : Nat := 2 * o.lt

/-- Whether the time-triggered action scheduled for `t` is due (R53); none fires in NO_TIME. -/
def Otu.due (o : Otu) (t : Nat) : Bool := o.clk.st != 0 && t != absent && decide (t ≤ o.clk.ft)

/-- The job with this tag. -/
def Otu.job? (o : Otu) (tag : Nat) : Option JobSt := o.jobs.find? (·.tag == tag)

/-- The job that is open, if any (R23: at most one). -/
def Otu.openJob (o : Otu) : Option JobSt := o.jobs.find? (·.open_)

/-- Update the job with this tag. -/
def Otu.updJob (o : Otu) (tag : Nat) (f : JobSt → JobSt) : Otu :=
  { o with jobs := updFirst (·.tag == tag) f o.jobs }

/-- R250: a stream of the job lost data. -/
def Otu.jobLoss (o : Otu) (tag : Nat) : Otu := o.updJob tag fun j => { j with loss := true }

/-- R38: job time now. -/
def Otu.jt (o : Otu) : Nat :=
  match o.openJob with
  | none => absent
  | some j => if o.clk.st = 0 then absent else wsub 64 o.clk.ft j.s

/-- The rank of a tag: the job's, or the fleet rank of R223 for the fleet context. -/
def Otu.rankOf (o : Otu) (tag : Nat) : Nat :=
  if tag = 0 then OtuR.get o OTU_PORT_LOC % 2 ^ 17
  else match o.job? tag with
    | some j => j.rank
    | none => 0

/-- R295: the class of a stream kind. -/
def kindClass (kind : Nat) : Nat :=
  match kind with
  | 1 => 6 | 2 => 6 | 3 => 1 | 4 => 2 | 5 => 4 | 6 => 3
  | 7 => 5 | 8 => 5 | 9 => 5 | 10 => 5 | 11 => 7 | 12 => 7
  | _ => 0

/-- R299: the egress queue of a record of the OTU. -/
def Otu.eqOf (o : Otu) (kind inst tag : Nat) : Nat :=
  let k := if kind = 3 then inst else if tag = 0 then 0
    else match o.job? tag with
      | some j => (match j.window with | some w => 1 + w | none => 0)
      | none => 0
  128 * kindClass kind + k

/-- The records of an egress queue. -/
def Otu.eqGet (o : Otu) (q : Nat) : List QRec := Tbl.get (fun _ => []) o.eq q
/-- The state of an egress queue. -/
def Otu.eqSt (o : Otu) (q : Nat) : EqSt := Tbl.get (fun _ => {}) o.eqs q
/-- Set the state of an egress queue. -/
def Otu.setEqSt (o : Otu) (q : Nat) (x : EqSt) : Otu := { o with eqs := Tbl.put (fun _ => {}) o.eqs q x }

/-- R124: the first change in cycle `now` to a queue of `depth` entries: the greatest depth covers every cycle before. -/
def EqSt.cover (x : EqSt) (depth now : Nat) : EqSt :=
  if x.seen < now then { x with maxDepth := max x.maxDepth depth, seen := now } else x

/-- R124: what a sample in cycle `now` leaves of a queue with `depth` entries. -/
def EqSt.sampled (x : EqSt) (depth now : Nat) : EqSt :=
  { x with maxDepth := 0, seen := now, dequeued := 0, first := false, wasEmpty := depth == 0 }

/-- R124: samples begin afresh in cycle `now`. -/
def EqSt.afresh (x : EqSt) (now : Nat) : EqSt := { x with maxDepth := 0, seen := now, dequeued := 0, first := true, wasEmpty := false }

/-- Put a record into an egress queue (R299, R314). -/
def Otu.enqueue (o : Otu) (q : Nat) (r : QRec) : Otu :=
  let l := o.eqGet q
  let x := (o.eqSt q).cover l.length o.now
  let x := { x with headAt := if l.isEmpty then o.now else x.headAt }
  { (o.setEqSt q x) with eq := Tbl.put (fun _ => []) o.eq q (l ++ [r]) }

/-- Send a record on a stream (R295, R299). -/
def Otu.send (o : Otu) (kind inst rtype tag : Nat) (body : List Byte) : Otu :=
  o.enqueue (o.eqOf kind inst tag)
    { rtype, kind, inst, tag, rank := o.rankOf tag, body, ft := o.now }

/-- Record bytes of a stream kind that still wait in egress queues: the fill of its producer's staging buffer. -/
def Otu.queuedBytes (o : Otu) (kind : Nat) : Nat :=
  o.eq.foldl (fun n x => x.2.foldl (fun n r => if r.kind = kind then n + r.body.length else n) n) 0

/-- Whether a record of this tag still waits in an egress queue. -/
def Otu.queuedTag (o : Otu) (tag : Nat) : Bool := o.eq.any fun x => x.2.any (·.tag == tag)

/-- A die counter's word. -/
def Otu.dctrGet (o : Otu) (i : Nat) : Nat := Tbl.get (fun _ => 0) o.dctr i

/-- R107: add to a counter word of width `w`: the new word, and whether it wrapped. -/
def addWord (w word n : Nat) : Nat × Bool :=
  if w = 64 then ((word + n) % 2 ^ 64, decide (word + n ≥ 2 ^ 64))
  else
    let v := getF word 0 w + n
    let wrapped := decide (v ≥ 2 ^ w)
    (v % 2 ^ w + (if wrapped || bit word 63 then 2 ^ 63 else 0), wrapped)

/-- Add to a die counter (R71, R73). -/
def Otu.dctrAdd (o : Otu) (i n : Nat) : Otu :=
  { o with dctr := Tbl.put (fun _ => 0) o.dctr i (addWord 48 (o.dctrGet i) n).1 }

/-- R113: a running count of a die-global channel grows, modulo 2^64. -/
def Otu.gchAdd (o : Otu) (c n : Nat) : Otu :=
  { o with gch := Tbl.put (fun _ => 0) o.gch c ((Tbl.get (fun _ => 0) o.gch c + n) % 2 ^ 64) }

/-- R147: fleet time at the end of the cycle before this one. -/
def Otu.ftBefore (o : Otu) : Nat := o.clk.ft - (o.cyc.step + max 1 (o.period / 256))

/-- The engine's state beside its registers. -/
def Otu.eng (o : Otu) (e : Nat) : EngSt := Tbl.get (fun _ => {}) o.engs e
/-- Set it. -/
def Otu.setEng (o : Otu) (e : Nat) (x : EngSt) : Otu := { o with engs := Tbl.put (fun _ => {}) o.engs e x }

/-- A cluster's mirror buffer. -/
def Otu.mir (o : Otu) (c : Nat) : MirrorSt := Tbl.get (fun _ => {}) o.mirror c
/-- Set it. -/
def Otu.setMir (o : Otu) (c : Nat) (x : MirrorSt) : Otu := { o with mirror := Tbl.put (fun _ => {}) o.mirror c x }

/-- R446: a strobe of source `src` pulses at fleet time `t`. -/
def Otu.pulse (o : Otu) (src t : Nat) : Otu := { o with strobes := Tbl.ins o.strobes src t }

/-- R191: the candidates of a job that have not run are discarded. -/
def Otu.staleMirrors (o : Otu) (tag : Nat) : Otu :=
  let old := o.mirror.filter fun x => x.2.cand.any (fun c => c.tag == tag && c.tie.isNone) &&
    !o.engs.any (fun y => y.2.canary.any fun r => r.mirror && r.idx == x.1)
  old.foldl (fun o x => OtuR.ev ((o.setMir x.1 { x.2 with cand := none }).dctrAdd 0x4A 1) OTU_CAN_EVENTS 5) o

/-- R180, R191: the step number changes in the cycle after a mark, and with it the candidates go. -/
def Otu.settleMarks (o : Otu) : Otu :=
  (o.staleDue.filter (·.1 < o.lt)).foldl (fun o x => o.staleMirrors x.2) { o with staleDue := o.staleDue.filter (·.1 ≥ o.lt) }

/-- R320: an event record as the OTU stamps it. -/
def Otu.stampEv (o : Otu) (r : EvReq) : EvRec :=
  { sev := r.sev, grade := o.clk.grade, code := r.code, tag := r.tag
    rank := rankField (r.rank <|> (if r.tag = 0 then none else (o.job? r.tag).map (·.rank))), ft := o.ft,
    path := r.path, phys := if r.phys = 0 then OtuR.get o OTU_PORT_LOC else r.phys, payload := r.payload }

/-- The valid-entry table of the OTU's rate limits. -/
def Otu.rlEntries (o : Otu) : List (Nat × Nat) := (List.range 64).map fun k => (k, OtuR.get o (OTU_EVR_RL k))

/-- R327: an event request of the OTU. -/
def Otu.event (o : Otu) (r : EvReq) : Otu :=
  let key := rlKey o.rlEntries r.code
  let cfg := if key = 65536 then OtuR.get o OTU_EVR_RL_DEFAULT else OtuR.get o (OTU_EVR_RL key)
  let x := o.evr.request 2000000000 o.lt { src := evSource r.code, key, cfg, r := o.stampEv r }
  let (refused, drops, dropped) := o.evr.added x o.lt
  let o := OtuR.touch { o with evr := x } OTU_EVR_DROPPED drops
  let o := if refused then OtuR.ev o OTU_EVR_EVENTS 1 else o
  if dropped then OtuR.ev o OTU_EVR_EVENTS 2 else o

/-- R54: an action of kind `a` arrives after its instant. -/
def Otu.actionLate (o : Otu) (a t : Nat) (tag : Nat) : Otu :=
  (OtuR.ev o OTU_TIME_EVENTS 4).event { code := 0x12, sev := 3, tag := tag, payload := le 4 a ++ le 8 t }

/-- R330: the stream copy of an event record. -/
def Otu.streamEv (o : Otu) (r : EvRec) : Otu :=
  if r.sev ≥ OtuR.fld o OTU_EVR_CTRL 1 3 then o.send 10 0 0x0D 0 r.bytes else o

/-- R319, R329, R330, R334, R461: one commit of the OTU's recorder, at most one per engine cycle; in the cycle of a clear it goes into
the old session, of which nothing stays. -/
def Otu.commitEv (o : Otu) : Otu :=
  if o.evr.lastFt = o.lt + 1 then o
  else
    let old := o.evr.oldNow o.lt
    let was : EvOld := old.getD { sess := OtuR.get o OTU_EVR_SESSION, front := OtuR.get o OTU_EVR_FRONTIER, full := o.evr.full }
    let (x, c) := ({ o.evr with full := was.full } : Recorder).commit o.lt (OtuR.flag o OTU_EVR_CTRL 0) 4096 was.front was.sess
      (o.stampEv { code := 2, sev := 3 })
    let x := if old.isSome then x.backTo o.evr else x
    let next (o : Otu) : Otu := if old.isSome then o else OtuR.set o OTU_EVR_FRONTIER (was.front + 1)
    match c with
    | .idle => o
    | .stored r => (next { o with evr := { x with lastFt := o.lt + 1 } }).streamEv r
    | .discarded r => (OtuR.cnt { o with evr := { x with lastFt := o.lt + 1 } } OTU_EVR_DROPPED 0 16 1).streamEv { r with seq := ones32 }
    | .filled f r =>
      let o := OtuR.ev (next { o with evr := { x with lastFt := o.lt + 1 } }) OTU_EVR_EVENTS 0
      ((OtuR.cnt o OTU_EVR_DROPPED 0 16 1).streamEv f).streamEv { r with seq := ones32 }

/-- R321, R338: zero the slots, take session `sess` and commit RECORDER_START. -/
def Otu.evrRestart (o : Otu) (sess prev reason : Nat) : Otu :=
  let start := o.stampEv { code := 1, sev := 1, payload := startPayload prev reason }
  let o := { o with evr := o.evr.restart true sess start }
  OtuR.set (OtuR.set o OTU_EVR_SESSION sess) OTU_EVR_FRONTIER 1

/-- R452: the job tag that a tenant window is bound to. -/
def Otu.boundTag (o : Otu) (w : Nat) : Option Nat :=
  let v := OtuR.get o (OTU_TW_BIND w)
  if w < 64 && bit v 16 then some (getF v 0 16) else none

/-- R452, R454: a register of a tenant window as an access in this cycle sees it: key 2 × w for ENG_PAGE, 2 × w + 1 for
Q_PAGE, 128 + w for the binding; a write is seen from the cycle after it. -/
def Otu.winReg (o : Otu) (key a : Nat) : Nat :=
  match o.pageOld.lookup key with
  | some (old, lt) => if lt = o.lt then old else OtuR.get o a
  | none => OtuR.get o a

/-- R452, R454: change such a register from the next cycle on. -/
def Otu.setWinReg (o : Otu) (key a v : Nat) : Otu :=
  OtuR.set { o with pageOld := Tbl.ins o.pageOld key (o.winReg key a, o.lt) } a v

/-- R452: the snapshot buffer of a window that an earlier cycle unbound is clear. -/
def Otu.settleWindow (o : Otu) (w : Nat) : Otu :=
  match o.winGone.lookup w with
  | some t =>
    if t < o.lt then
      let o := { o with winGone := Tbl.del o.winGone w }
      let o := (List.range 32).foldl (fun o c => OtuR.set o (OTU_ENG_SNAP (1 + w) c) 0) o
      let o := OtuR.set (OtuR.set (OtuR.set o (OTU_ENG_SNAP_STATUS (1 + w)) 0) (OTU_ENG_SNAP_FT (1 + w)) absent) (OTU_ENG_SNAP_LT (1 + w)) 0
      OtuR.set o (OTU_ENG_SNAP_CMD_SEQ (1 + w)) 0
    else o
  | none => o

/-- R452, R453: the job tag to which a tenant window is bound for an access in this cycle. -/
def Otu.winTag (o : Otu) (w : Nat) : Option Nat :=
  let v := o.winReg (128 + w) (OTU_TW_BIND w)
  if w < 64 && bit v 16 then some (getF v 0 16) else none

/-- A path's job: none for a path that is discarded; tag 0 for the privileged range. -/
def Otu.pathTag (o : Otu) (p : Path) : Option Nat :=
  match p with
  | .otu => some 0
  | .tenant w => o.winTag w
  | .prd => none
  | .bar2 => none

/-- Hardware sets `n` consecutive 64-bit registers from bytes. -/
def Otu.writeWords (o : Otu) (a : Nat) : List Byte → Nat → Otu
  | _, 0 => o
  | l, n + 1 => Otu.writeWords (OtuR.set o a (fieldAt l 0 8)) (a + 8) (l.drop 8) n

/-- The next free value of the OTU, applied to what it depends on by the caller; the counter advances. -/
def Otu.tick1 (o : Otu) : Otu := { o with free := o.free + 1 }

end Sys2Proof.Machine
end

