-- ==== Sys2Proof/Machine/AccordCodec.lean ====
section
/-!
DEFINITION. Machine/AccordCodec.lean: the accord record: header, step marks and sections, encoded and decoded
(03 R69 to R80), and the gap record and summary (R89, R92).
-/
namespace Sys2Proof.Machine
open Sys2Proof

/-- R95: the KIND code of an engine, from its position in the cluster. -/
def engKind (e : Nat) : Nat :=
  let p := e % 16
  if p < 4 then 0 else if p < 7 then 1 else if p < 9 then 2 else if p = 9 then 3 else if p = 10 then 4
  else if p < 14 then 5 else 6

/-- R95: the engine that is sequencer `s`. -/
def seqEngine (s : Nat) : Nat := 16 * (s / 2) + 14 + s % 2

/-- R71: the value width of a counter index. -/
def idxWidth (i : Nat) : Nat := if i < 256 then 48 else ctrWidth ((i - 256) % 32)

/-- R71: the value of a counter word, its sticky bit apart. -/
def wordVal (i word : Nat) : Nat := getF word 0 (idxWidth i)

/-- R73: the sticky bit of a counter word; CYCLE has none. -/
def wordSticky (i word : Nat) : Bool := idxWidth i != 64 && bit word 63

/-! ### Numbers -/

/-- Unsigned LEB128, 7 bits per byte, of at most `fuel` bytes. -/
def lebGo : Nat → Nat → List Byte
  | 0, _ => []
  | fuel + 1, v => if v < 128 then [BitVec.ofNat 8 v] else BitVec.ofNat 8 (v % 128 + 128) :: lebGo fuel (v / 128)

/-- R77: unsigned LEB128. -/
def leb (v : Nat) : List Byte := lebGo 10 v

/-- Read an unsigned LEB128 number of at most `fuel` bytes. -/
def unlebGo : Nat → List Byte → Option (Nat × List Byte)
  | 0, _ => none
  | _, [] => none
  | fuel + 1, b :: r =>
    if b.toNat < 128 then some (b.toNat, r)
    else match unlebGo fuel r with
      | some (v, r') => some (b.toNat - 128 + 128 * v, r')
      | none => none

/-- R77: read an unsigned LEB128 number. -/
def unleb (l : List Byte) : Option (Nat × List Byte) := unlebGo 10 l

/-- R77: the zigzag number of the change from `old` to `new` at width `w`. -/
def zigzag (w old new : Nat) : Nat :=
  let d := wsub w (new % 2 ^ w) old
  if d < 2 ^ (w - 1) then 2 * d else 2 * (2 ^ w - d) - 1

/-- R77: the new value that a zigzag number gives. -/
def unzigzag (w old z : Nat) : Nat :=
  if z % 2 = 0 then (old + z / 2) % 2 ^ w else wsub w old ((z + 1) / 2)

/-- Two sorted tables side by side: every key of either, with both values (default 0). -/
def merge2 : Nat → List (Nat × Nat) → List (Nat × Nat) → List (Nat × Nat × Nat)
  | 0, _, _ => []
  | _, [], b => b.map fun x => (x.1, 0, x.2)
  | _, a, [] => a.map fun x => (x.1, x.2, 0)
  | fuel + 1, (i, u) :: a, (j, v) :: b =>
    if i = j then (i, u, v) :: merge2 fuel a b
    else if i < j then (i, u, 0) :: merge2 fuel a ((j, v) :: b)
    else (j, 0, v) :: merge2 fuel ((i, u) :: a) b

/-- Two sorted tables side by side. -/
def both (a b : List (Nat × Nat)) : List (Nat × Nat × Nat) := merge2 (a.length + b.length) a b

/-! ### Records in bytes -/

/-- R70: the 128-byte header. -/
def AccHdr_bytes (h : AccHdr) : List Byte :=
  le 1 h.ver ++ le 1 h.kind ++ le 2 h.flags ++ le 2 h.tag ++ le 2 h.contract ++ le 8 h.no ++ le 8 h.tCut ++
  le 8 h.jtCut ++ le 8 h.ltCut ++ le 4 h.rank ++ le 4 h.interval ++ le 8 h.prevNo ++ le 4 h.dumpSlot ++
  le 1 h.stepCount ++ le 1 0 ++ le 2 h.nEngines ++ le 4 h.lenCtr ++ le 4 h.lenSeq ++ le 4 h.lenState ++
  le 4 h.lenOvf ++ le 4 h.errBound ++ le 4 h.cfgEpoch ++ le 8 h.stepNo ++ zeros 32

/-- R70: a header read from bytes. -/
def accHdrOf (l : List Byte) : AccHdr :=
  { ver := fieldAt l 0 1, kind := fieldAt l 1 1, flags := fieldAt l 2 2, tag := fieldAt l 4 2,
    contract := fieldAt l 6 2, no := fieldAt l 8 8, tCut := fieldAt l 16 8, jtCut := fieldAt l 24 8,
    ltCut := fieldAt l 32 8, rank := fieldAt l 40 4 % 2 ^ 20, interval := fieldAt l 44 4, prevNo := fieldAt l 48 8,
    dumpSlot := fieldAt l 56 4, stepCount := fieldAt l 60 1, nEngines := fieldAt l 62 2, lenCtr := fieldAt l 64 4,
    lenSeq := fieldAt l 68 4, lenState := fieldAt l 72 4, lenOvf := fieldAt l 76 4, errBound := fieldAt l 80 4,
    cfgEpoch := fieldAt l 84 4, stepNo := fieldAt l 88 8 }

/-- R85: whether an accord header can be read at all. -/
def accHdrRead (l : List Byte) : Bool := l.length ≥ 128 && fieldAt l 0 1 == 1

/-- R70: the values that a header may hold; what is reserved is ignored (R5), and a rank of 2^17 or more is malformed (R21). -/
def accHdrOk (l : List Byte) : Bool :=
  let h := accHdrOf l
  accHdrRead l && h.kind ≤ 2 && getF h.flags 1 3 ≤ 4 && h.contract / 256 == 1 &&
  decide (h.rank < 2 ^ 17) && h.stepCount ≤ 16 && h.nEngines == 512 && (bit h.flags 0 == (h.prevNo == absent))

/-- R69: the 32-byte step mark. -/
def stepMkBytes (m : StepMk) : List Byte :=
  le 8 m.stepNo ++ le 8 m.ft ++ le 4 m.tokens ++ le 1 m.seq ++ le 1 m.kind ++ le 2 0 ++ le 8 m.jt

/-- R73: the 64-byte engine header. -/
def engHdrBytes (e seq : Nat) (h : EngHdr) : List Byte :=
  le 2 e ++ le 1 (engKind e) ++ le 1 (h.st % 4) ++ le 2 h.tag ++ le 1 h.resetMode ++ le 1 0 ++ le 4 seq ++
  le 4 h.cfgEpoch ++ (List.range 8).flatMap (fun k => le 2 (Tbl.get (fun _ => 0) h.classes k)) ++ zeros 32

/-- R73: an engine header read from bytes. -/
def engHdrOf (l : List Byte) : EngHdr :=
  { st := fieldAt l 3 1 % 4, tag := fieldAt l 4 2, resetMode := fieldAt l 6 1, cfgEpoch := fieldAt l 12 4,
    classes := ((List.range 8).map fun k => (k, fieldAt l (16 + 2 * k) 2)).filter fun x => decide (x.2 ≠ 0) }

/-- R89: the 32-byte gap record. -/
def gapBytes (g : GapRec) : List Byte :=
  le 1 g.ver ++ le 1 g.reason ++ le 1 g.origin ++ le 1 g.kind ++ le 2 g.tag ++ le 2 0 ++ le 8 g.no ++ le 4 g.rank ++
  le 4 g.count ++ le 8 g.ftDecl

/-- R21, R89: a gap record whose fields all hold values that the spec allows. -/
def GapRec.ok (g : GapRec) : Bool :=
  g.ver == 1 && decide (1 ≤ g.reason) && decide (g.reason ≤ 8) && decide (g.origin ≤ 4) && decide (g.kind ≤ 2) &&
  decide (g.rank < 2 ^ 17) && decide (1 ≤ g.count)

/-- R92: the 64-byte summary. -/
def summaryBytes (x : Summary) : List Byte :=
  le 1 1 ++ le 1 x.level ++ le 1 x.state ++ le 1 x.kind ++ le 2 x.tag ++ le 2 0 ++ le 8 x.no ++ le 8 x.tClose ++
  le 4 x.expected ++ le 4 x.contributed ++ le 4 x.gapped ++ le 4 x.excluded ++ le 4 x.missing ++ le 4 x.listLen ++ zeros 16

/-! ### Sections -/

/-- A bitmap of `n` 64-bit words. -/
def bitmap (n : Nat) (l : List Nat) : List Byte :=
  (List.range n).flatMap fun w => le 8 (maskOf ((l.filter fun x => x / 64 == w).map (· % 64)))

/-- The groups of 64 that a rising list of indices touches, in order. -/
def groupsOf (l : List Nat) : List Nat :=
  (l.foldl (fun a x => if a.head? = some (x / 64) then a else x / 64 :: a) []).reverse

/-- R78: the counter section between two images. -/
def counterSection (old new : List (Nat × Nat)) : List Byte :=
  let ds := ((both old new).map fun x => (x.1, zigzag (idxWidth x.1) (wordVal x.1 x.2.1) (wordVal x.1 x.2.2))).filter
    fun x => decide (x.2 ≠ 0)
  if ds.isEmpty then []
  else
    let ks := ds.map (·.1)
    let gs := groupsOf ks
    padTo 8 (bitmap 5 gs ++
      gs.flatMap (fun g => le 8 (maskOf ((ks.filter fun k => k / 64 == g).map (· % 64)))) ++
      ds.flatMap (fun x => leb x.2))

/-- R79: the sequence section. -/
def seqSection (old new : List (Nat × Nat)) : List Byte :=
  let ds := ((both old new).map fun x => (x.1, zigzag 32 x.2.1 x.2.2)).filter fun x => decide (x.2 ≠ 0)
  if ds.isEmpty then [] else padTo 8 (bitmap 8 (ds.map (·.1)) ++ ds.flatMap (fun x => leb x.2))

/-- The default engine header is what an unlisted engine holds. -/
def hdrGet (l : List (Nat × EngHdr)) (e : Nat) : EngHdr := Tbl.get (fun _ => {}) l e

/-- R79: the state section: headers whose bytes other than CMD_SEQ changed; in a KEY record, every header. -/
def stateSection (key : Bool) (old new : Image) : List Byte :=
  let es := (List.range 512).filter fun e => key || decide (hdrGet old.hdr e ≠ hdrGet new.hdr e)
  es.flatMap fun e => engHdrBytes e (Tbl.get (fun _ => 0) new.seq e) (hdrGet new.hdr e)

/-- The differences of a rising list from one element to the next. -/
def diffs : Nat → List Nat → List Nat
  | _, [] => []
  | p, x :: r => (x - p) :: diffs x r

/-- R79: the overflow section: the counters whose sticky bit toggled. -/
def ovfSection (old new : List (Nat × Nat)) : List Byte :=
  let ts := ((both old new).filter fun x => wordSticky x.1 x.2.1 != wordSticky x.1 x.2.2).map (·.1)
  if ts.isEmpty then [] else padTo 8 (le 4 ts.length ++ (diffs 0 ts).flatMap leb)

/-- R76, R80: the stream record of an image against a reference; `h` has every field but the lengths. -/
def accordRecord (h : AccHdr) (marks : List StepMk) (key : Bool) (old new : Image) : List Byte :=
  let old := if key then {} else old
  let c := counterSection old.ctr new.ctr
  let q := seqSection old.seq new.seq
  let st := stateSection key old new
  let v := ovfSection old.ctr new.ctr
  AccHdr_bytes { h with lenCtr := c.length, lenSeq := q.length, lenState := st.length, lenOvf := v.length,
                        stepCount := marks.length } ++
  marks.flatMap stepMkBytes ++ c ++ q ++ st ++ v

/-- R116: the view of an image that job `tag`'s accord carries: nothing of the die counters, of engines that the job
does not own, or of PMCs that count private classes (R103). -/
def Image_forJob (tag : Nat) (m : Image) : Image :=
  let own (e : Nat) : Bool := (hdrGet m.hdr e).tag == tag
  { ctr := m.ctr.filter fun x => x.1 ≥ 256 && own ((x.1 - 256) / 32) &&
      (let c := (x.1 - 256) % 32
       !(1 ≤ c && c ≤ 8 && Tbl.get (fun _ => 0) (hdrGet m.hdr ((x.1 - 256) / 32)).classes (c - 1) ≥ 0x8000)),
    seq := m.seq.filter fun x => own x.1,
    hdr := m.hdr.filter fun x => own x.1 }

/-! ### Decoding (R85) -/

/-- Read `n` little-endian 64-bit words as the rising list of their set bits. -/
def readBitmap : Nat → Nat → List Byte → Option (List Nat × List Byte)
  | 0, _, l => some ([], l)
  | n + 1, base, l =>
    if l.length < 8 then none
    else match readBitmap n (base + 64) (l.drop 8) with
      | some (r, rest) => some ((setBits 64 (fieldAt l 0 8)).map (base + ·) ++ r, rest)
      | none => none

/-- Read one presence word per group. -/
def readGroups : List Nat → List Byte → Option (List Nat × List Byte)
  | [], l => some ([], l)
  | g :: r, l =>
    if l.length < 8 || fieldAt l 0 8 = 0 then none
    else match readGroups r (l.drop 8) with
      | some (ks, rest) => some ((setBits 64 (fieldAt l 0 8)).map (64 * g + ·) ++ ks, rest)
      | none => none

/-- Read one LEB128 number per key. -/
def readLebs : List Nat → List Byte → Option (List (Nat × Nat) × List Byte)
  | [], l => some ([], l)
  | k :: r, l =>
    match unleb l with
    | some (v, rest) => (match readLebs r rest with | some (vs, z) => some ((k, v) :: vs, z) | none => none)
    | none => none

/-- What is left of a section must be padding of fewer than 8 zero bytes. -/
def padOk (l : List Byte) : Bool := l.length < 8 && l.all (· == 0)

/-- R78: the counter words after a counter section. The sticky bit of a word is kept. -/
def decodeCounters (old : List (Nat × Nat)) (sec : List Byte) : Option (List (Nat × Nat)) :=
  if sec.isEmpty then some old
  else match readBitmap 5 0 sec with
    | none => none
    | some (gs, l) =>
      if gs.isEmpty || gs.any (· ≥ 260) then none
      else match readGroups gs l with
        | none => none
        | some (ks, l) =>
          match readLebs ks l with
          | none => none
          | some (zs, rest) =>
            if !padOk rest || zs.any (fun x => x.2 = 0 || x.2 ≥ 2 ^ idxWidth x.1) then none
            else some (zs.foldl (fun t x =>
              let o := Tbl.get (fun _ => 0) t x.1
              let v := unzigzag (idxWidth x.1) (wordVal x.1 o) x.2
              Tbl.put (fun _ => 0) t x.1 (v + (if wordSticky x.1 o then 2 ^ 63 else 0))) old)

/-- R79: CMD_SEQ after a sequence section. -/
def decodeSeqs (old : List (Nat × Nat)) (sec : List Byte) : Option (List (Nat × Nat)) :=
  if sec.isEmpty then some old
  else match readBitmap 8 0 sec with
    | none => none
    | some (es, l) =>
      match readLebs es l with
      | none => none
      | some (zs, rest) =>
        if !padOk rest || es.isEmpty || zs.any (fun x => x.2 = 0 || x.2 ≥ 2 ^ 32) then none
        else some (zs.foldl (fun t x =>
          Tbl.put (fun _ => 0) t x.1 (unzigzag 32 (Tbl.get (fun _ => 0) t x.1) x.2)) old)

/-- R79: engine headers after a state section of `n` entries, rising from `lo`. -/
def decodeHdrs : Nat → Nat → List (Nat × EngHdr) → List Byte → Option (List (Nat × EngHdr))
  | 0, _, t, l => if l.isEmpty then some t else none
  | n + 1, lo, t, l =>
    if l.isEmpty then some t
    else if l.length < 64 then none
    else
      let e := fieldAt l 0 2
      if e < lo || e ≥ 512 || fieldAt l 2 1 ≠ engKind e then none
      else decodeHdrs n (e + 1) (Tbl.put (fun _ => {}) t e (engHdrOf l)) (l.drop 64)

/-- The sums of a list of differences. -/
def sums : Nat → List Nat → List Nat
  | _, [] => []
  | p, x :: r => (p + x) :: sums (p + x) r

/-- R79: counter words after an overflow section: its indices rise, and none is a CYCLE's, which has no sticky bit (R73). -/
def decodeOvf (t : List (Nat × Nat)) (sec : List Byte) : Option (List (Nat × Nat)) :=
  if sec.isEmpty then some t
  else
    let n := fieldAt sec 0 4
    if sec.length < 4 || n = 0 || n > 16640 then none
    else match readLebs (List.range n) (sec.drop 4) with
      | none => none
      | some (ds, rest) =>
        let ks := sums 0 (ds.map (·.2))
        if !padOk rest || (ds.drop 1).any (fun x => x.2 == 0) || ks.any (fun k => decide (k ≥ 16640) || idxWidth k == 64) then none
        else some (ks.foldl (fun t k =>
          let o := Tbl.get (fun _ => 0) t k
          Tbl.put (fun _ => 0) t k (if bit o 63 then o - 2 ^ 63 else o + 2 ^ 63)) t)

/-- R85: decode a regular or hang accord record against the reference image: its header and the new image. -/
def decodeAccord (ref : Image) (l : List Byte) : Option (AccHdr × Image) :=
  if !accHdrOk l then none
  else
    let h := accHdrOf l
    let sec := l.drop (128 + 32 * h.stepCount)
    if sec.length ≠ h.lenCtr + h.lenSeq + h.lenState + h.lenOvf ||
       h.lenCtr % 8 ≠ 0 || h.lenSeq % 8 ≠ 0 || h.lenState % 64 ≠ 0 || h.lenOvf % 8 ≠ 0 then none
    else
      let ref := if bit h.flags 0 then {} else ref
      match decodeCounters ref.ctr (sec.take h.lenCtr),
            decodeSeqs ref.seq ((sec.drop h.lenCtr).take h.lenSeq),
            decodeHdrs 512 0 ref.hdr ((sec.drop (h.lenCtr + h.lenSeq)).take h.lenState) with
      | some c, some q, some d =>
        (match decodeOvf c (sec.drop (h.lenCtr + h.lenSeq + h.lenState)) with
         | some c => some (h, { ctr := c, seq := q, hdr := d })
         | none => none)
      | _, _, _ => none

/-- The step marks of a record. -/
def recordMarks (l : List Byte) : List StepMk :=
  (List.range (accHdrOf l).stepCount).map fun i =>
    let b := l.drop (128 + 32 * i)
    { stepNo := fieldAt b 0 8, ft := fieldAt b 8 8, tokens := fieldAt b 16 4, seq := fieldAt b 20 1, kind := fieldAt b 21 1,
      jt := fieldAt b 24 8 }

/-- R81: the section of a fast record: the selection in a KEY record, the presence word, the deltas in slot order. -/
def fastSection (key : Bool) (sel : List (Nat × Nat)) (old new : List (Nat × Nat)) : List Byte :=
  let idx (k : Nat) : Nat := getF (Tbl.get (fun _ => 0) sel k) 0 15
  let old := if key then [] else old
  let ds := ((both old new).map fun x => (x.1, zigzag (idxWidth (idx x.1)) (wordVal (idx x.1) x.2.1) (wordVal (idx x.1) x.2.2))).filter
    fun x => decide (x.2 ≠ 0)
  if key then
    padTo 8 ((List.range 64).flatMap (fun k => le 2 (Tbl.get (fun _ => 0) sel k)) ++ bitmap 1 (ds.map (·.1)) ++
      ds.flatMap (fun x => leb x.2))
  else if ds.isEmpty then [] else padTo 8 (bitmap 1 (ds.map (·.1)) ++ ds.flatMap (fun x => leb x.2))

/-- R81, R85: decode a fast record against the last selection and values. -/
def decodeFast (sel old : List (Nat × Nat)) (l : List Byte) : Option (AccHdr × List (Nat × Nat) × List (Nat × Nat)) :=
  if !accHdrOk l then none
  else
    let h := accHdrOf l
    let sec := l.drop 128
    let key := bit h.flags 0
    if h.kind ≠ 1 || h.stepCount ≠ 0 || sec.length ≠ h.lenCtr || h.lenSeq + h.lenState + h.lenOvf ≠ 0 ||
       h.lenCtr % 8 ≠ 0 || (key && h.lenCtr = 0) then none
    else
      let sel := if key then
          ((List.range 64).map fun k => (k, fieldAt sec (2 * k) 2)).filter fun x => decide (x.2 ≠ 0) else sel
      let old := if key then [] else old
      let body := if key then sec.drop 128 else sec
      if body.isEmpty then some (h, sel, old)
      else match readBitmap 1 0 body with
        | none => none
        | some (ks, r) =>
          match readLebs ks r with
          | none => none
          | some (zs, rest) =>
            let w (k : Nat) : Nat := idxWidth (getF (Tbl.get (fun _ => 0) sel k) 0 15)
            let live (k : Nat) : Bool := bit (Tbl.get (fun _ => 0) sel k) 15
            if !padOk rest || zs.any (fun x => x.2 == 0 || !live x.1 || decide (x.2 ≥ 2 ^ w x.1)) then none
            else some (h, sel, zs.foldl (fun t x =>
              Tbl.put (fun _ => 0) t x.1 (unzigzag (w x.1) (Tbl.get (fun _ => 0) t x.1) x.2)) old)

end Sys2Proof.Machine
end

