-- ==== Sys2Proof/Machine/Blake3.lean ====
section
/-!
DEFINITION. Machine/Blake3.lean: BLAKE3 in its default hash mode with a 32-byte output (08 R199).
-/
namespace Sys2Proof.Machine
open Sys2Proof

/-- The initial chaining value. -/
def blakeIv : List Nat :=
  [0x6A09E667, 0xBB67AE85, 0x3C6EF372, 0xA54FF53A, 0x510E527F, 0x9B05688C, 0x1F83D9AB, 0x5BE0CD19]

/-- Rotation of a 32-bit word to the right. -/
def rotr32 (x n : Nat) : Nat := (x >>> n) ||| ((x <<< (32 - n)) % 2 ^ 32)

/-- The quarter round. -/
def blakeG (a b c d x y : Nat) : Nat × Nat × Nat × Nat :=
  let a := (a + b + x) % 2 ^ 32
  let d := rotr32 (d ^^^ a) 16
  let c := (c + d) % 2 ^ 32
  let b := rotr32 (b ^^^ c) 12
  let a := (a + b + y) % 2 ^ 32
  let d := rotr32 (d ^^^ a) 8
  let c := (c + d) % 2 ^ 32
  let b := rotr32 (b ^^^ c) 7
  (a, b, c, d)

/-- Quarter rounds over the columns of four rows, with two message words each. -/
def blakeCols : List Nat → List Nat → List Nat → List Nat → List Nat → List (Nat × Nat × Nat × Nat)
  | a :: ar, b :: br, c :: cr, d :: dr, x :: y :: m => blakeG a b c d x y :: blakeCols ar br cr dr m
  | _, _, _, _, _ => []

/-- The first `n` elements go to the end. -/
def rotl (n : Nat) (l : List Nat) : List Nat := l.drop n ++ l.take n

/-- One round: columns, then diagonals. -/
def blakeRound (v : List Nat × List Nat × List Nat × List Nat) (m : List Nat) :
    List Nat × List Nat × List Nat × List Nat :=
  let q := blakeCols v.1 v.2.1 v.2.2.1 v.2.2.2 (m.take 8)
  let q := blakeCols (q.map (·.1)) (rotl 1 (q.map (·.2.1))) (rotl 2 (q.map (·.2.2.1))) (rotl 3 (q.map (·.2.2.2))) (m.drop 8)
  (q.map (·.1), rotl 3 (q.map (·.2.1)), rotl 2 (q.map (·.2.2.1)), rotl 1 (q.map (·.2.2.2)))

/-- The message permutation between rounds. -/
def blakePermute (m : List Nat) : List Nat :=
  [2, 6, 3, 10, 7, 0, 4, 13, 1, 11, 12, 5, 9, 14, 15, 8].map fun i => m.getD i 0

/-- `n` rounds. -/
def blakeRounds : Nat → List Nat × List Nat × List Nat × List Nat → List Nat → List Nat × List Nat × List Nat × List Nat
  | 0, v, _ => v
  | n + 1, v, m => blakeRounds n (blakeRound v m) (blakePermute m)

/-- The compression function's first eight words. -/
def blakeCompress (cv m : List Nat) (counter len flags : Nat) : List Nat :=
  let v := blakeRounds 7 (cv.take 4, cv.drop 4, blakeIv.take 4, [counter % 2 ^ 32, counter >>> 32, len, flags]) m
  (List.zipWith (· ^^^ ·) v.1 v.2.2.1) ++ (List.zipWith (· ^^^ ·) v.2.1 v.2.2.2)

/-- A block's 16 words, padded with zeros. -/
def blakeWords (l : List Byte) : List Nat := (List.range 16).map fun i => fieldAt l (4 * i) 4

/-- What a compression that may yet be the root needs: chaining value, words, counter, length, flags. -/
structure BlakeOut where
  cv : List Nat
  m : List Nat
  counter : Nat
  len : Nat
  flags : Nat

/-- Its chaining value. -/
def BlakeOut.cvOut (x : BlakeOut) : List Nat := blakeCompress x.cv x.m x.counter x.len x.flags

/-- The root's 32 bytes, as a little-endian number. -/
def BlakeOut.root (x : BlakeOut) : Nat :=
  unle ((blakeCompress x.cv x.m 0 x.len (x.flags + 8)).flatMap (le 4))

/-- The output of a chunk of at most 1,024 bytes: its blocks in turn; `fuel` bounds them. -/
def blakeChunk (counter : Nat) : Nat → List Nat → Nat → List Byte → BlakeOut
  | 0, cv, start, l => { cv, m := blakeWords l, counter, len := min 64 l.length, flags := start + 2 }
  | fuel + 1, cv, start, l =>
    if l.length ≤ 64 then { cv, m := blakeWords l, counter, len := l.length, flags := start + 2 }
    else blakeChunk counter fuel (blakeCompress cv (blakeWords (l.take 64)) counter 64 start) 0 (l.drop 64)

/-- A parent node. -/
def blakeParent (a b : List Nat) : BlakeOut := { cv := blakeIv, m := a ++ b, counter := 0, len := 64, flags := 4 }

/-- Push a chunk's chaining value onto the stack of completed subtrees, merging as the count of chunks allows. -/
def blakePush : Nat → Nat → List (List Nat) → List Nat → List (List Nat)
  | 0, _, st, cv => cv :: st
  | fuel + 1, total, st, cv =>
    if total % 2 = 0 then
      match st with
      | a :: r => blakePush fuel (total / 2) r (blakeParent a cv).cvOut
      | [] => [cv]
    else cv :: st

/-- The chunks in turn; the last one stays open and folds into the stack. -/
def blakeGo : Nat → Nat → List (List Nat) → List Byte → Nat
  | 0, _, _, _ => 0
  | fuel + 1, i, st, l =>
    let out := blakeChunk i 16 blakeIv 1 (l.take 1024)
    if l.length ≤ 1024 then (st.foldl (fun (o : BlakeOut) a => blakeParent a o.cvOut) out).root
    else blakeGo fuel (i + 1) (blakePush 64 (i + 1) st out.cvOut) (l.drop 1024)

/-- BLAKE3 of a byte sequence: the 32-byte digest as a little-endian number. -/
def blake3 (l : List Byte) : Nat := blakeGo (l.length / 1024 + 1) 0 [] l

end Sys2Proof.Machine
end

