-- ==== Sys2Proof/Machine/Gf128.lean ====
section
/-!
DEFINITION. Machine/Gf128.lean: the field GF(2^128) of P(x) = x^128 + x^7 + x^2 + x + 1, and the output fingerprint
(08 R205 to R208).
-/
namespace Sys2Proof.Machine
open Sys2Proof

/-- R205: multiplication by x, modulo P. -/
def gfX (a : Nat) : Nat := if a ≥ 2 ^ 127 then ((a * 2) % 2 ^ 128) ^^^ 0x87 else a * 2

/-- `n` multiplications by x. -/
def gfXn : Nat → Nat → Nat
  | 0, a => a
  | n + 1, a => gfXn n (gfX a)

/-- Bits `k - 1` to 0 of `b`, by Horner's rule. -/
def gfMulGo (a b : Nat) : Nat → Nat → Nat
  | 0, acc => acc
  | k + 1, acc => gfMulGo a b k (gfX acc ^^^ (if bit b k then a else 0))

/-- The product modulo P of elements below 2^128. -/
def gfMul (a b : Nat) : Nat := gfMulGo a b 128 0

/-- R205: a byte sequence as M(x) modulo P, byte k the coefficients from x^(8k) on. -/
def gfBytes (l : List Byte) : Nat := l.foldr (fun b a => gfXn 8 a ^^^ b.toNat) 0

/-- R205: one element's bytes in its output format. -/
def elemBytes (format : Nat) (v : Nat) : List Byte :=
  match format with
  | 4 => le 2 v
  | 5 => le 4 v
  | _ => le 1 v

/-- R205: MXFP4 packs two elements a byte, the even-indexed one in the low half. -/
def packNibbles : List Nat → List Byte
  | [] => []
  | [a] => le 1 (a % 16)
  | a :: b :: r => le 1 (a % 16 + 16 * (b % 16)) ++ packNibbles r

/-- R205: the tile data of elements in row-major order, with the block scales of an MX format. -/
def tileData (format : Nat) (elems scales : List Nat) : List Byte :=
  (if format = 2 then packNibbles elems else elems.flatMap (elemBytes format)) ++
  (if format = 2 || format = 3 then scales.flatMap (le 1) else [])

/-- R206: the position element. -/
def tilePos (tile tensor rank : Nat) : Nat :=
  (1 + 2 * (tile % 2 ^ 32) + 2 ^ 33 * (tensor % 2 ^ 32) + 2 ^ 65 * (rank % 2 ^ 20)) % 2 ^ 128

/-- R206, R208: the contribution of a part of a tile at byte offset `off`; `len` is the whole tile's LEN when the part
holds its last byte. -/
def tileContribution (part : List Byte) (off : Nat) (len : Option Nat) (tile tensor rank : Nat) : Nat :=
  let m := gfXn (8 * off) (gfBytes part)
  let m := match len with | some n => m ^^^ gfXn (8 * n) 1 | none => m
  gfMul (gfXn 128 m) (tilePos tile tensor rank)

end Sys2Proof.Machine
end

