-- ==== Sys2Proof/Machine/Digest.lean ====
section
/-!
DEFINITION. Machine/Digest.lean: audit digests, output fingerprints and result marks at the OTU (08 R199 to R210).
-/
namespace Sys2Proof.Machine
open Sys2Proof

/-- R199: the digest-format version. -/
def dfv : Nat := 1

/-- R199: four ASCII characters as bytes. -/
def tagBytes (s : String) : List Byte := s.toList.map fun c => BitVec.ofNat 8 c.toNat

/-- R200: the structure that the rank's program digest hashes. -/
def programBytes (imgs : List ProgImage) (ucs : List Microcode) : List Byte :=
  tagBytes "UPRG" ++ le 2 dfv ++ le 2 imgs.length ++ le 2 ucs.length ++ zeros 6 ++
  (sortBy (·.slot) imgs).flatMap (fun i => le 1 i.slot ++ zeros 3 ++ le 4 i.bytes.length ++ le 8 i.baseIa ++ i.bytes) ++
  (sortBy (·.kind) ucs).flatMap (fun u => le 1 u.kind ++ le 1 0 ++ le 2 u.id ++ le 4 u.rev)

/-- R203: the structure of a shard list. -/
def shardBytes (tag : String) (l : List Shard) : List Byte :=
  tagBytes tag ++ le 2 dfv ++ le 2 0 ++ le 4 l.length ++ le 4 0 ++
  l.flatMap fun x => le 4 x.tensor ++ le 4 x.part ++ le 8 x.len ++ le 32 x.digest

/-- R203: the rank weight digest. -/
def weightDigest (l : List Shard) : Nat := blake3 (shardBytes "UWGT" l)
/-- R203: the rank input digest. -/
def inputDigest (l : List Shard) : Nat := blake3 (shardBytes "UINP" l)

/-- A shard list sorted by TENSOR_ID, one entry a tensor; at most 4,096 (R203). -/
def putWeight (l : List Shard) (x : Shard) : List Shard :=
  let l' := l.filter fun y => y.tensor != x.tensor
  if l'.length ≥ 4096 then l else insertBy (·.tensor) x l'

/-- The order of the input list. -/
def Shard.key (x : Shard) : Nat := x.tensor * 2 ^ 32 + x.part

/-- R218: OTU_DIG_WEIGHTS shows the digest over the shards hashed so far. -/
def Otu.showWeights (o : Otu) : Otu := o.writeWords OTU_DIG_WEIGHTS (le 32 (weightDigest o.weights)) 4

/-! ### The rank digest record (R210) -/

/-- R209, R210: send the record of a mark whose window is closed and which waits for no hash. -/
def Otu.markSend (o : Otu) : Otu :=
  match o.resMark with
  | none => o
  | some m =>
    match m.cut with
    | none => o
    | some c =>
      if !c.wait.isEmpty then o
      else
        let subst := ((o.job? m.tag).map (·.subst)).getD false
        let prog := (List.range 4).flatMap fun i => le 8 (OtuR.get o (OTU_DIG_PROGRAM + 8 * i))
        let body := le 1 1 ++ le 1 (b2n c.late + 2 * b2n c.ovf + 4 * b2n subst) ++ le 2 dfv ++ le 2 m.tag ++ le 2 0 ++
          le 4 m.id ++ le 4 (o.rankOf m.tag) ++ le 8 c.no ++ prog ++ le 32 (weightDigest c.weights) ++ le 32 c.inputs ++
          le 16 c.fp ++ le 8 c.tiles ++ le 4 c.nInputs ++ le 4 0 ++ le 8 m.mask
        let o := (o.send 9 0 0x0B 0 body)
        let o := if m.tag = 0 then o else o.send 9 0 0x0B m.tag body
        OtuR.ev (OtuR.set { o with resMark := none } OTU_DIG_LAST_RESULT m.id) OTU_DIG_EVENTS 0

/-- The value of fingerprint slot `f`. -/
def Otu.fp (o : Otu) (f : Nat) : Nat := OtuR.get o (OTU_DIG_FP f) + 2 ^ 64 * OtuR.get o (OTU_DIG_FP f + 8)

/-- Set a fingerprint slot and its TILES. -/
def Otu.setFp (o : Otu) (f v tiles : Nat) : Otu :=
  OtuR.set (OtuR.set (OtuR.set o (OTU_DIG_FP f) (v % 2 ^ 64)) (OTU_DIG_FP f + 8) (v / 2 ^ 64)) (OTU_DIG_FP_TILES f) tiles

/-- R209: a regular cut closes the window of a mark accepted before its cycle. -/
def Otu.markCut (o : Otu) (no : Nat) : Otu :=
  match o.resMark with
  | none => o
  | some m =>
    if m.cut.isSome || decide (m.lt ≥ o.lt) then o
    else
      let fs := setBits 64 m.mask
      let c : MarkCut :=
        { no, fp := fs.foldl (fun v f => v ^^^ o.fp f) 0, tiles := fs.foldl (fun n f => n + OtuR.get o (OTU_DIG_FP_TILES f)) 0 % 2 ^ 64
          inputs := inputDigest o.inputs, nInputs := o.inputs.length, ovf := o.inputOvf, late := !o.hashing.isEmpty
          weights := o.weights, wait := o.hashing.map (·.tensor) }
      let o := fs.foldl (fun o f => o.setFp f 0 0) o
      let o := if c.late then OtuR.ev o OTU_DIG_EVENTS 3 else o
      ({ o with resMark := some { m with cut := some c }, inputs := [], inputOvf := false }).markSend

/-- RESULT_MARK: through the privileged range, or the tenant window of the die's owning job (R218). -/
def execResultMark (p : Path) (value : Nat) (e : Edge) (s : State) : Host.Outcome State Fault Refusal :=
  .next (s.onOtu fun o =>
    let o := o.go e
    let tag := (o.openJob.map (·.tag)).getD 0
    match o.pathTag p with
    | none => o
    | some t =>
      if t ≠ 0 && t ≠ tag then o
      else if o.resMark.isSome then OtuR.ev o OTU_DIG_EVENTS 1
      else { o with resMark := some { id := value % 2 ^ 32, mask := OtuR.get o OTU_DIG_MARK_SLOTS, lt := o.lt, tag } })

/-! ### Shards (R201 to R203) -/

/-- WEIGHT_LOAD_DONE: a reload restarts the hash. -/
def execWeightLoadDone (tensor format : Nat) (bytes : List Byte) (e : Edge) (s : State) : Host.Outcome State Fault Refusal :=
  .next (s.onOtu fun o =>
    let o := o.go e
    if OtuR.flag o OTU_DIG_CTRL 0 then
      let x : Shard := { tensor := tensor % 2 ^ 32, part := format % 256, len := bytes.length, digest := blake3 bytes }
      { o with hashing := (o.hashing.filter fun y => y.tensor != x.tensor) ++ [x] }
    else o)

/-- WEIGHT_HASH_DONE: the entry joins the weight list, and that of a rank digest record that waits for it. -/
def execWeightHashDone (tensor : Nat) (e : Edge) (s : State) : Host.Outcome State Fault Refusal :=
  .next (s.onOtu fun o =>
    let o := o.go e
    match o.hashing.find? (·.tensor == tensor) with
    | none => o
    | some x =>
      let mk := o.resMark.map fun m =>
        { m with cut := m.cut.map fun c =>
            if c.wait.contains tensor then { c with weights := putWeight c.weights x, wait := c.wait.filter (· != tensor) } else c }
      let o := { o with hashing := o.hashing.filter (·.tensor != tensor), weights := putWeight o.weights x, resMark := mk }
      o.showWeights.markSend)

/-- INPUT_INGEST: the entry joins the open window's input list, or INPUT_OVF says that it did not. -/
def execInputIngest (tensor part : Nat) (bytes : List Byte) (e : Edge) (s : State) : Host.Outcome State Fault Refusal :=
  .next (s.onOtu fun o =>
    let o := o.go e
    if !OtuR.flag o OTU_DIG_CTRL 1 then o
    else if o.inputs.length ≥ 4096 then OtuR.ev { o with inputOvf := true } OTU_DIG_EVENTS 2
    else
      let x : Shard := { tensor := tensor % 2 ^ 32, part := part % 2 ^ 32, len := bytes.length, digest := blake3 bytes }
      { o with inputs := insertBy Shard.key x o.inputs })

/-! ### Fingerprints (R205 to R208) -/

/-- TILE_DRAIN: the contribution goes into the slot; TILES counts with the tile's last byte. -/
def execTileDrain (x : TilePart) (e : Edge) (s : State) : Host.Outcome State Fault Refusal :=
  .next (s.onOtu fun o =>
    let o := o.go e
    if OtuR.flag o OTU_DIG_CTRL 2 && x.slot < 64 then
      let rank := (o.openJob.map (·.rank)).getD 0
      let c := tileContribution (tileData x.format x.elems x.scales) x.off x.len x.tile x.tensor rank
      o.setFp x.slot (o.fp x.slot ^^^ c) ((OtuR.get o (OTU_DIG_FP_TILES x.slot) + b2n x.len.isSome) % 2 ^ 64)
    else o)

/-- R200, R203, R209: a job's start opens its program digest, its lists and its first window. -/
def Otu.digestStart (o : Otu) (imgs : List ProgImage) (ucs : List Microcode) : Otu :=
  let o := { o with weights := [], hashing := [], inputs := [], inputOvf := false }
  let o := (List.range 64).foldl (fun o f => o.setFp f 0 0) o
  (o.writeWords OTU_DIG_PROGRAM (le 32 (blake3 (programBytes imgs ucs))) 4).showWeights

end Sys2Proof.Machine
end

