-- ==== Sys2Proof/Machine/QueueRec.lean ====
section
/-!
DEFINITION. Machine/QueueRec.lean: the records of queues, waits and hangs in bytes (05 R122 to R133, R138).
-/
namespace Sys2Proof.Machine
open Sys2Proof

/-- A die queue's state. -/
def Otu.queue (o : Otu) (q : Nat) : QSt := Tbl.get (fun _ => {}) o.queues q
/-- Set it. -/
def Otu.setQueue (o : Otu) (q : Nat) (x : QSt) : Otu := { o with queues := Tbl.put (fun _ => {}) o.queues q x }

/-- R121: the owner of a queue; a command queue has its engine's. -/
def Otu.queueOwner (o : Otu) (q : Nat) : Nat := if q < 512 then (o.eng q).tag else (o.queue q).owner

/-- R121: QKIND. -/
def queueKind (q : Nat) : Nat := if q < 512 then 0 else if q < 2048 then 1 else 2

/-- R122: a sojourn delay in ns at instant `t`; 4 ticks are 1 ns. -/
def sojourn (t head depth : Nat) : Nat := if depth = 0 then 0 else min ones32 ((t - head) / 4)

/-- R124: the 16-byte entry of one queue. -/
def qEntryBytes (q t depth depthMax head dequeued : Nat) (full ownerChange first : Bool) : List Byte :=
  let soj := sojourn t head depth
  le 2 (q % 4096) ++
  le 1 (b2n (depth == 0) + 2 * b2n full + 4 * b2n (decide (depth > 65535)) +
        8 * b2n (depth != 0 && decide ((t - head) / 4 > ones32)) + 16 * b2n ownerChange + 32 * b2n first) ++
  le 1 0 ++ le 2 (min 65535 depth) ++ le 2 (min 65535 depthMax) ++ le 4 soj ++ le 4 (min ones32 dequeued)

/-- R124: in cycle `lt` the greatest depth covers every cycle before it; the depth held since the last one covered. -/
def QSt.upto (x : QSt) (lt : Nat) : QSt :=
  if x.upTo + 1 < lt then { x with maxDepth := max x.maxDepth x.depth, upTo := lt - 1 } else x

/-- R124: the entry of die queue `q` at instant `t`, the end of cycle `lt`. -/
def QSt.entry (x : QSt) (q t lt : Nat) : List Byte :=
  qEntryBytes q t x.depth (max (x.upto lt).maxDepth x.depth) x.headAt x.dequeued x.full x.ownerChanged x.first

/-- R125: one sample record. -/
def qsRecord (space flags tag n t lt seq chunk omitted : Nat) (entries : List Byte) : List Byte :=
  le 1 1 ++ le 1 space ++ le 2 flags ++ le 2 tag ++ le 2 n ++ le 8 t ++ le 8 lt ++ le 4 seq ++ le 1 chunk ++ le 1 0 ++
  le 2 omitted ++ entries

/-- A list cut into pieces of at most `n`, with `fuel` pieces at most. -/
def chunks {α : Type} (n : Nat) : Nat → List α → List (List α)
  | 0, _ => []
  | _, [] => []
  | fuel + 1, l => l.take n :: chunks n fuel (l.drop n)

/-- R125: the owners of a list of (owner, …) pairs, ascending, each once. -/
def ownersOf {α : Type} (l : List (Nat × α)) : List Nat :=
  ((sortBy id (l.map (·.1))).foldl (fun a x => if a.head? = some x then a else x :: a) []).reverse

/-- R125: the records of one instant. `es` holds, per queue in rising order, its owner and its entry, or none for an
entry that SKIP_IDLE omits. Answers the tag and the bytes of each record. -/
def qsRecords (space t lt seq gradeFlags : Nat) (afterLoss : Bool) (es : List (Nat × Option (List Byte))) :
    List (Nat × List Byte) :=
  let series := (ownersOf es).flatMap fun tag =>
    let mine := es.filter (·.1 == tag)
    let kept := mine.filterMap (·.2)
    let omitted := mine.length - kept.length
    let cs := chunks 256 (kept.length + 1) kept
    cs.mapIdx fun i c => (tag, i, if i + 1 = cs.length then omitted else 0, c)
  series.mapIdx fun i (tag, chunk, om, c) =>
    let flags := gradeFlags + 16 * b2n (i + 1 == series.length) + 32 * b2n (afterLoss && i == 0)
    (tag, qsRecord space flags tag c.length t lt ((seq + i) % 2 ^ 32) chunk om c.flatten)

/-- R128: the 48-byte sync wait record. -/
def syncBytes (r : SyncRec) : List Byte :=
  le 1 1 ++ le 1 r.kind ++ le 2 r.flags ++ le 2 r.tag ++ le 2 r.waiter ++ le 4 r.object ++ le 4 r.objRank ++ le 4 r.holder ++
  le 4 r.waitId ++ le 8 r.ftStart ++ le 8 r.ftEnd ++ le 4 r.value ++ le 4 0

/-- R128: the record of an engine's wait, `rank` the die's own rank of its job. A holder engine of another job is hidden in a
job's copy. -/
def OpenWait.record (w : OpenWait) (eng flags ftEnd rank : Nat) (holderShown : Bool) : SyncRec :=
  let hasEng := w.info.holder.isSome && w.info.holderEng.isSome && holderShown
  { kind := w.info.kind
    flags := flags + 2 * b2n w.info.holder.isSome + 4 * b2n hasEng + 32 * w.grade
    tag := w.tag, waiter := eng
    object := w.info.object % (if w.info.kind = 0 || w.info.kind = 2 then 2 ^ 14 else if w.info.kind = 5 then 2 ^ 8 else 2 ^ 12)
    objRank := (if w.info.kind = 2 || w.info.kind = 3 then w.info.objRank else rank) % 2 ^ 20
    holder := w.info.holder.getD 0 % 2 ^ 20 + 2 ^ 20 * (if hasEng then w.info.holderEng.getD 0 % 2 ^ 9 else 0)
    waitId := w.id, ftStart := w.ft, ftEnd := ftEnd, value := w.info.value % 2 ^ 32 }

/-- R128: whether the holder engine of a wait may appear in the waiter's job's records: a local holder of the same job,
or an engine of another die's rank of the job. -/
def Otu.holderShown (o : Otu) (w : OpenWait) : Bool :=
  match w.info.kind, w.info.holderEng with
  | 0, some e => w.tag = 0 || (o.eng e).tag == w.tag
  | 1, some e => w.tag = 0 || (o.eng e).tag == w.tag
  | _, _ => true

/-- R128, R399: a wait's record as its job's context has it, and as the fleet context has it besides where the two differ
(DESIGN CHOICE, log entry 47). -/
def Otu.waitCopies (o : Otu) (w : OpenWait) (eng flags ftEnd : Nat) : SyncRec × Option SyncRec :=
  let rank := o.rankOf w.tag
  (w.record eng flags ftEnd rank (o.holderShown w), if o.holderShown w then none else some (w.record eng flags ftEnd rank true))

/-- R132: the open waits of a job as the hang table's records. -/
def Otu.hangTable (o : Otu) (tag : Nat) : List (SyncRec × Option SyncRec) :=
  (o.waits.filter fun x => x.2.tag == tag).map fun x => o.waitCopies x.2 x.1 (1 + 16) absent

/-- R133: the entries of every queue that a job owns, at instant `t`. -/
def Otu.hangQueues (o : Otu) (tag t : Nat) : List (List Byte) :=
  ((List.range 4096).filter fun q => o.queueOwner q == tag).map fun q => (o.queue q).entry q t o.lt

/-- R133: the 40-byte hang notice. -/
def hangNoticeBytes (n : HangNotice) : List Byte :=
  le 1 1 ++ le 1 n.cause ++ le 2 0 ++ le 2 n.tag ++ le 2 n.nOpen ++ le 8 n.tCut ++ le 8 n.lastProgress ++ le 4 n.rank ++
  le 4 n.dumpSlot ++ le 8 n.hangId

end Sys2Proof.Machine
end

