-- ==== Sys2Proof/Machine/Clock.lean ====
section
/-!
DEFINITION. Machine/Clock.lean: the disciplined clock that the OTU and Priord share (02 R45 to R51).
-/
namespace Sys2Proof.Machine
open Sys2Proof

/-- R45: an integer divided and rounded to the nearest, ties to even. -/
def rhe (n : Int) (d : Nat) : Int :=
  let q := n.fdiv d
  let r := n - q * d
  if 2 * r < d then q else if 2 * r > d then q + 1 else if q % 2 = 0 then q else q + 1

/-- R45: the mean of a list of offsets, to the nearest 1/256 tick, ties to even. -/
def meanInt (l : List Int) : Int := if l.isEmpty then 0 else rhe (l.foldl (· + ·) 0) l.length

/-- R45: delay and offset of one round from its four stamps and the asymmetry, all in 1/256 tick. -/
def fourStamp (t1 t2 t3 t4 : Nat) (asym : Int) : Int × Int :=
  let d2 : Int := ((t4 : Int) - t1) - ((t3 : Int) - t2)
  (rhe d2 2, rhe (2 * ((t2 : Int) - t1) - d2 - 2 * asym) 2)

/-- 25 ns, 2.5 ns and 1 ns in 1/256 tick. -/
def e25 : Nat := 25600
def e2p5 : Nat := 2560
def e1 : Nat := 1024

/-- Ten minutes and one second in ticks. -/
def tenMinTicks : Nat := 600 * tickS

/-- R48: the grade of a clock that is not LOCKED. -/
def Clk.unlockedGrade (c : Clk) : Nat :=
  if c.st = 3 || (c.st = 1 && c.ever) then
    (if c.tenMin && c.ft - c.lastLocked < tickS then 2 else 3)
  else 4

/-- R45, R46: take an accepted offset into the filter of 2^filt values and recompute mean and bound; `extra` is what
the bound adds to |θ|. -/
def Clk.push (c : Clk) (filt extra : Nat) (th : Int) : Clk :=
  let l := (th :: c.thetas).take (2 ^ filt)
  let m := meanInt l
  { c with thetas := l, theta := m, err := min ones32 (m.natAbs + extra) }

/-- R49: leave LOCKED into state `st`. -/
def Clk.unlock (c : Clk) (st : Nat) : Clk :=
  { c with st := st, lockEnd := c.ft, run2 := 0, run25 := 0
           tenMin := c.tenMin || decide (c.ft - c.lockAt ≥ tenMinTicks) }

/-- R49: the state and own grade after an accepted measurement. -/
def Clk.judge (c : Clk) (lockN : Nat) : Clk :=
  let good := decide (c.err ≤ e25)
  let c : Clk := { c with lastMeas := c.ft, run25 := if good then c.run25 + 1 else 0 }
  let c : Clk :=
    if c.st = 2 then
      if !good then c.unlock 1
      else
        let r2 := if c.err ≤ e2p5 then c.run2 + 1 else 0
        { c with run2 := r2, own := if c.err > e2p5 then 1 else if r2 ≥ lockN then 0 else c.own }
    else if c.run25 ≥ lockN then
      { c with st := 2, ever := true, lockAt := c.ft, tenMin := false, run2 := 0, own := 1 }
    else { c with st := 1 }
  if c.st = 2 then { c with lastLocked := c.ft, errL := c.err } else { c with own := c.unlockedGrade }

/-- R50: the forward step due after a measurement, in ticks: the clock is behind by more than `limit` ticks and is not
LOCKED. It is of whole ticks, and leaves the fraction of θ_f to be slewed (log entry 30). -/
def Clk.stepDue (c : Clk) (limit : Nat) : Option Nat :=
  if c.st != 2 && c.theta < 0 && decide (c.theta.natAbs > 256 * limit) then some (c.theta.natAbs / 256) else none

/-- R46: the error bound over the filtered offset that stands; `extra` is what the bound adds to |θ|. A clock that has
measured nothing has none. -/
def Clk.bound (c : Clk) (extra : Nat) : Clk :=
  if c.thetas.isEmpty then c else { c with err := min ones32 (c.theta.natAbs + extra) }

/-- R46, R50: step forward by `n` ticks; the offsets measured before it move with it, and the error bound is taken again. -/
def Clk.step (c : Clk) (n extra : Nat) : Clk :=
  let l := c.thetas.map (· + (256 * n : Int))
  ({ c with ft := (c.ft + n) % 2 ^ 64, thetas := l, theta := meanInt l, slew := 0, slewing := false } : Clk).bound extra

/-- R50: what an engine cycle of `period` 1/256 ticks lets a clock slew at `ppm`, in 10^-6 tick. -/
def slewMax (period ppm : Nat) : Nat := period * ppm / 256

/-- R50: slew towards the filtered offset at no more than `ppm`; the correction is limited when it does not fit into
one engine cycle. -/
def Clk.slewTo (c : Clk) (period ppm : Nat) : Clk :=
  let n := -(rhe (c.theta * 1000000) 256)
  { c with slew := n, slewing := decide (n.natAbs > slewMax period ppm) }

/-- One engine cycle of `period` 1/256 ticks, of a clock that slews at up to `ppm` (R50, R51). -/
def Clk.cycle (c : Clk) (period ppm : Nat) : Clk :=
  let m : Int := slewMax period ppm
  let d : Int := if c.slew > 0 then min c.slew m else max c.slew (-m)
  let n := ((c.sub : Int) + period * 1000000 / 256 + d).toNat
  let left := c.slew - d
  { c with ft := (c.ft + n / 1000000) % 2 ^ 64, sub := n % 1000000, slew := left
           slewing := c.slewing && decide (left ≠ 0) }

/-- R51, R47: measurements stopped. A clock that has locked enters HOLDOVER with slewing stopped; one that never has
stays as it is, with slewing stopped. -/
def Clk.lose (c : Clk) : Clk :=
  let c : Clk := { c with slew := 0, slewing := false, run25 := 0, run2 := 0 }
  if c.st = 2 then (let c : Clk := c.unlock 3; { c with own := c.unlockedGrade })
  else if c.st = 1 && c.ever then (let c : Clk := { c with st := 3 }; { c with own := c.unlockedGrade })
  else c

/-- R60, R61: holdover age in µs, saturating; 0 outside HOLDOVER. -/
def Clk.holdAge (c : Clk) : Nat := if c.st = 3 then min ones32 ((c.ft - c.lastLocked) / tickUs) else 0

/-- R61: the current or last continuous lock, in s, saturating. -/
def Clk.lockAge (c : Clk) : Nat :=
  if c.st = 2 then min ones32 ((c.ft - c.lockAt) / tickS)
  else if c.ever then min ones32 ((c.lockEnd - c.lockAt) / tickS) else 0

/-- R43: the 32 bytes of a time word. -/
def TimeWord.bytes (w : TimeWord) : List Byte :=
  le 1 w.ver ++ le 1 w.seq ++
  le 1 (w.grade % 8 + 8 * b2n w.ftValid + 16 * b2n w.holdover + 32 * b2n w.fromDie + 64 * b2n w.echoValid + 128 * b2n w.jobOpen) ++
  le 1 w.echoSeq ++ le 4 w.errBound ++ le 8 w.txStamp ++ le 1 w.txFrac ++ le 1 w.rxFrac ++ le 4 (ofS 32 w.asym) ++ le 2 0 ++
  le 8 w.rxStamp

/-- R43: the time word that 32 bytes hold; its reserved bytes are ignored (R5). -/
def TimeWord.ofBytes (b : List Byte) : TimeWord :=
  let f := fieldAt b 2 1
  { ver := fieldAt b 0 1, seq := fieldAt b 1 1, grade := f % 8, ftValid := bit f 3, holdover := bit f 4, fromDie := bit f 5,
    echoValid := bit f 6, jobOpen := bit f 7, echoSeq := fieldAt b 3 1, errBound := fieldAt b 4 4, txStamp := fieldAt b 8 8,
    txFrac := fieldAt b 16 1, rxFrac := fieldAt b 17 1, asym := toS 32 (fieldAt b 18 4), rxStamp := fieldAt b 24 8 }

/-- R43: whether those bytes are a time word: 32 of them, with the one TW_VER that the spec defines (log entry 31). -/
def isTimeWord (b : List Byte) : Bool := b.length == 32 && fieldAt b 0 1 == 1

/-- A sender's next time word: it takes the sequence number and remembers its stamps (R43, R45). `valid` says that the
sender's fleet time is valid: without it the transmit stamp is absent (R40), and the word opens no round. -/
def TwEnd.send (x : TwEnd) (valid : Bool) (tx : Nat) (w : TimeWord) : TwEnd :=
  let echo := x.rxSeq.isSome && x.rxOk
  let rec_ : TwSent := { seq := x.seq, tx := tx, echo := if echo && valid then some (x.rxTx, x.rxAt) else none }
  let w := { w with seq := x.seq, txStamp := if valid then tx / 256 else absent, txFrac := if valid then tx % 256 else 0,
                    echoValid := echo, echoSeq := x.rxSeq.getD 0,
                    rxStamp := if echo then x.rxAt / 256 else absent, rxFrac := if echo then x.rxAt % 256 else 0 }
  { x with seq := (x.seq + 1) % 256, sent := (rec_ :: x.sent).take 129, out := w.bytes }

/-- R44: a time word whose ECHO_SEQ lies more than 128 words behind the receiver's own TW_SEQ is a sequence error. That
TW_SEQ is the one of the word it sent last (log entry 32). -/
def TwEnd.seqError (x : TwEnd) (w : TimeWord) : Bool :=
  w.echoValid && decide (wsub 8 (x.seq + 255) w.echoSeq > 128)

/-- R44: count a sequence error. -/
def TwEnd.seqErr (x : TwEnd) : TwEnd := { x with seqErrs := satAdd 32 x.seqErrs 1 }

/-- R43: remember the most recent time word received; `ok` says that the receiver's fleet time, which stamps it, is valid. -/
def TwEnd.receive (x : TwEnd) (w : TimeWord) (at_ : Nat) (ok : Bool) : TwEnd :=
  { x with rxSeq := some (w.seq % 256), rxTx := w.txStamp * 256 + w.txFrac, rxAt := at_, rxOk := ok && w.ftValid }

/-- R50: the clock whose stamps this end holds steps forward by `n` ticks: the stamps it has taken step with it, so that no
round mixes the two times (log entry 30). -/
def TwEnd.shift (x : TwEnd) (n : Nat) : TwEnd :=
  { x with rxAt := x.rxAt + 256 * n,
           sent := x.sent.map fun y => { y with tx := y.tx + 256 * n, echo := y.echo.map fun p => (p.1, p.2 + 256 * n) } }

/-- The word of this end that a received word echoes. -/
def TwEnd.echoed (x : TwEnd) (w : TimeWord) : Option TwSent :=
  if w.echoValid then x.sent.find? (·.seq == w.echoSeq) else none

end Sys2Proof.Machine
end

