-- ==== Sys2Proof/Machine/Flit.lean ====
section
/-!
DEFINITION. Machine/Flit.lean: flits in bytes, as they are sent and as the link check takes them (11 R287 to R289, R293).
-/
namespace Sys2Proof.Machine
open Sys2Proof

/-- R288: the 256 bytes of a flit; `ack` and `credit` are the fields at offsets 4 and 6. -/
def flitBytes (ftype alive fseq ack credit first : Nat) (payload : List Byte) : List Byte :=
  let b := le 1 ftype ++ le 1 alive ++ le 2 fseq ++ le 2 ack ++ le 1 credit ++ le 1 first ++ fit 240 payload
  b ++ le 8 (crc64 b)

/-- R293: the credit of the next outgoing flit: the lowest virtual lane that has credits to return, and how many. -/
def LinkSt.creditOut (l : LinkSt) : LinkSt × Nat × Nat :=
  match l.ret with
  | [] => (l, 0, 0)
  | (v, n) :: r => ({ l with ret := if n ≤ 255 then r else (v, n - 255) :: r }, v, min n 255)

/-- R288: put a flit of any type on the link, with the acknowledgement and the credit of this moment. -/
def LinkSt.put (l : LinkSt) (ftype alive fseq first : Nat) (payload : List Byte) : LinkSt :=
  let (l, v, c) := l.creditOut
  let ack := (l.rxSeq + 4095) % 4096 + 4096 * b2n l.rxAny + 8192 * v
  { l with out := flitBytes ftype alive fseq ack c first payload }

/-- R288: an IDLE flit with a time word. -/
def LinkSt.putIdle (l : LinkSt) (word : List Byte) : LinkSt := l.put 0 0 0 0x1F word

/-- R288, R289: a CTRL flit with a message. -/
def LinkSt.putCtrl (l : LinkSt) (msg : List Byte) : LinkSt := l.put 2 0 0 0x1F msg

/-- R288: a DATA flit. -/
def LinkSt.putData (l : LinkSt) (f : Flit) : LinkSt := l.put (1 + 4 * f.vl) f.alive f.fseq f.first f.payload

/-- R287: the codewords that the next flit overlaps, each with its symbol errors and whether it begins within the flit. A codeword
carries 5,140 bits of the flit stream, an alignment codeword none of it. -/
def LinkSt.codewords (l : LinkSt) (errs : List Nat) : List (Nat × Bool) :=
  (errs.getD 0 0, l.rxBit == 0) :: (if l.rxBit + 2048 > 5140 then [(errs.getD 1 0, true)] else [])

/-- R287, R315: symbols corrected in the codewords that begin within a flit. -/
def corrected (cs : List (Nat × Bool)) : Nat := cs.foldl (fun n c => if c.2 && decide (c.1 ≤ 15) then n + c.1 else n) 0

/-- R287, R315: uncorrectable codewords among those that begin within a flit. -/
def uncorrectable (cs : List (Nat × Bool)) : Nat := (cs.filter fun c => c.2 && decide (c.1 > 15)).length

/-- R287, R288: whether a flit passes the link check: no codeword that it overlaps is uncorrectable, and its FCRC matches. -/
def LinkSt.checks (l : LinkSt) (x : FlitRx) : Bool :=
  (l.codewords x.errs).all (fun c => decide (c.1 ≤ 15)) && x.bytes.length == 256 &&
  fieldAt x.bytes 248 8 == crc64 (x.bytes.take 248)

/-- R288, R291, R293: the acknowledgement and the credit that a flit brings, whatever its type. -/
def LinkSt.ackIn (l : LinkSt) (b : List Byte) : LinkSt :=
  let ack := fieldAt b 4 2
  let n := fieldAt b 6 1
  let v := getF ack 13 3
  let held := if bit ack 12 && l.held.any (·.fseq == ack % 4096) then (l.held.dropWhile fun x => x.fseq != ack % 4096).drop 1 else l.held
  { l with held := held
           credits := if n = 0 then l.credits else Tbl.put (fun _ => 0) l.credits v (Tbl.get (fun _ => 0) l.credits v + n) }

/-- R286 to R288: a flit arrives at time `now`: the FEC stream moves on, and one that passes brings its acknowledgement and credit. -/
def LinkSt.hear (l : LinkSt) (now : Nat) (x : FlitRx) : LinkSt :=
  let ok := l.checks x
  let l := { l with rxBit := (l.rxBit + 2048) % 5140 }
  if ok then ({ l with lastPass := now } : LinkSt).ackIn x.bytes else l

/-- R288: the DATA flit that the bytes hold. -/
def flitOf (b : List Byte) : Flit :=
  { vl := getF (fieldAt b 0 1) 2 3, alive := fieldAt b 1 1, fseq := getF (fieldAt b 2 2) 0 12, first := getF (fieldAt b 7 1) 0 5
    payload := (b.drop 8).take 240 }

/-- R288: whether the bytes are a flit of type `k`: 0 IDLE, 1 DATA, 2 CTRL. -/
def flitType (b : List Byte) (k : Nat) : Bool := fieldAt b 0 1 % 4 == k

/-- R289: whether the bytes are a CTRL flit with a message of CTYPE `k`. -/
def ctrlType (b : List Byte) (k : Nat) : Bool := flitType b 2 && fieldAt b 8 1 == k

end Sys2Proof.Machine
end

