-- ==== Sys2Proof/Config.lean ====
section
/-!
DEFINITION. Config.lean: the free values: what the spec leaves open, as constants without a body.
-/
namespace Sys2Proof

/-- R344, R346: the DEFLATE stream of a DYNAMIC block, from its input and its chain depth: the spec fixes the bytes for the
hardware and does not give the construction of the codes (log entry 57). -/
opaque Config.dynamicStream : List Byte → Nat → List Byte

/-- R351: destination bytes that the spec calls undefined, by use and position (log entry 56). -/
opaque Config.undefinedByte : Nat → Nat → Byte

/-- R137: whether an engine that is active at T_h and does not wait has a command: no record tells Priord, so the value is
free, by HANG_ID and node (log entry 60). -/
opaque Config.engineRuns : Nat → Nat → Bool

/-- R211, R213: N_RANKS of a result, by JOB_TAG, at a top node to which the role moved and which holds no table of the job: no
rule brings it the number (log entry 29). -/
opaque Config.unknownRanks : Nat → Nat

/-- R204, R213: a job-level digest of a result that lacks ranks, by the counter and the kind (0 program, 1 weights, 2
inputs): the spec combines the digests of all ranks and states no value without some of them (log entry 66). -/
opaque Config.partialDigest : Nat → Nat → Nat

/-- R213: the attestation block over bytes 0 to 191 of a result record, which the security block makes in a format of its own
(log entry 67). -/
opaque Config.attestation : List Byte → List Byte

/-- R385, R386: AUTH of a packet of a session over header bytes 0 to 23 and the payload, which the security block computes
with a key that it holds itself (log entry 71). -/
opaque Config.qpAuth : Nat → List Byte → Nat

/-- R422, R429: PRD_BUDDY_LAG at a fleet time, once items have gone out: the spec gives no acknowledgement of a mirror item (log
entry 99). -/
opaque Config.buddyLag : Nat → Nat

/-- R448: an electrical reading of the module, by register and fleet time: the spec gives no value (log entry 100). -/
opaque Config.measured : Nat → Nat → Nat

/-- R392: PROGRESS of a long command in per mille: the spec fixes no rate (log entry 72). -/
opaque Config.progress : Nat → Nat

/-- R390: the data of an answer to a PLDM discovery command, which DSP0240 gives and the spec does not (log entry 87). -/
opaque Config.pldmDiscovery : Nat → List Byte

/-- R272, R273: max(a, b) of binary64 numbers one of which is a NaN: the spec gives no order for it (log entry 69). -/
opaque Config.nanMax : Nat → Nat → Nat

/-- R272: a peer's q at a given FSCALE where its feature is a NaN (log entry 69). -/
opaque Config.nanPeer : Nat → Int → Nat

/-- R320, R348, R370: SYNDROME of an uncorrected error that an engine or a ring operation meets (log entry 96). -/
opaque Config.syndrome : Nat → Nat

/-- R283: GENERATION of a baseline that Priord saves (log entry 73). -/
opaque Config.baselineGeneration : Nat → Nat

end Sys2Proof
end

