-- ==== Sys2Proof/Machine/PrdOps.lean ====
section
/-!
DEFINITION. Machine/PrdOps.lean: Priord's named operations: registers, time, event requests and its recorder and
journal.
-/
namespace Sys2Proof.Machine
open Sys2Proof

namespace PrdR
/-- A register's value. -/
def get (o : Prd) (a : Nat) : Nat := (Tbl.get prdReset o.regs a).toNat
/-- Hardware sets a register. -/
def set (o : Prd) (a v : Nat) : Prd := { o with regs := Tbl.put prdReset o.regs a (BitVec.ofNat 64 v) }
/-- A field of a register. -/
def fld (o : Prd) (a lo w : Nat) : Nat := getF (get o a) lo w
/-- Hardware sets a field of a register. -/
def setFld (o : Prd) (a lo w v : Nat) : Prd := set o a (setF (get o a) lo w v)
/-- R13: this cycle's updates of a register by hardware: the word before them, and they alone. -/
def hw (o : Prd) (a : Nat) : Nat × Nat := (o.cyc.hw.lookup a).getD (get o a, 0)
/-- R13: hardware updates a register by `f`, and the cycle remembers it. -/
def touch (o : Prd) (a : Nat) (f : Nat → Nat) : Prd :=
  { set o a (f (get o a)) with cyc := { o.cyc with hw := Tbl.ins o.cyc.hw a ((hw o a).1, f (hw o a).2) } }
/-- Hardware sets an event bit (W1C). -/
def ev (o : Prd) (a k : Nat) : Prd := touch o a (setBit · k)
/-- A bit of a register. -/
def flag (o : Prd) (a k : Nat) : Bool := bit (get o a) k
/-- Hardware adds to a saturating count held in a field. -/
def cnt (o : Prd) (a lo w n : Nat) : Prd := touch o a fun v => setF v lo w (satAdd w (getF v lo w) n)
/-- A write of software through the register's access codes (R12, R15). -/
def write (o : Prd) (a width v : Nat) : Prd := { o with regs := regWrite prdRows (fun b => (hw o b).2) o.regs a width v }
/-- R12, R13: software reads the whole of a register whose row is `x`. -/
def readRc (o : Prd) (x : RegRow) (a : Nat) : Prd := set o a (x.afterRead (hw o a).2 (get o a))
end PrdR

/-- R419, R296: contexts that are ARMED open when S is reached; the expected sequences of their tags start at 0. -/
def Prd.openCtx (o : Prd) : Prd :=
  let due (x : Nat × Ctx) : Bool := x.2.st == 1 && o.clk.st != 0 && decide (x.2.s ≤ o.clk.ft)
  if o.ctx.any due then
    let tags := (o.ctx.filter due).map (·.2.tag)
    { o with
      ctx := o.ctx.map fun x => if due x then (x.1, { x.2 with st := 2, since := o.clk.ft }) else x
      dp := o.dp.map fun p =>
        (p.1, { p.2 with expect := p.2.expect.filter fun e => !tags.contains e.1.2, hunt := p.2.hunt.filter fun h => !tags.contains h.2 }) }
  else o

/-- Priord's clock moves to the fleet time at which a command happens; it never runs backwards (R50, R53). A job whose S
is reached opens. -/
def Prd.go (o : Prd) (t : Nat) : Prd :=
  { o with clk := { o.clk with ft := max o.clk.ft t }, cyc := if o.clk.ft < t then { grade := o.clk.grade } else o.cyc }.openCtx

/-- Priord's fleet time now; it counts in every state (R47). -/
def Prd.ft (o : Prd) : Nat := o.clk.ft

/-- R458, R251, R403: the tray's index, from the straps; straps whose parity fails are not used, and the index is then 0
(log entry 82). -/
def Prd.tray (o : Prd) : Nat := if PrdR.flag o PRD_BOOT_STRAPS 13 then PrdR.fld o PRD_BOOT_STRAPS 0 12 else 0

/-- R22: the physical location of the die on port `n`. -/
def Prd.location (o : Prd) (n : Nat) : Nat := o.tray * 32 + n % 32

/-- R320: an event that concerns the Priord itself. -/
def Prd.ownPhys (o : Prd) : Nat := o.tray * 32 + 2 ^ 17

/-- R323: the PATH of block `b`, instance `i`, within the TLK-PA7. -/
def prdPath (b i : Nat) : Nat := 4 + 2 ^ 4 + b * 2 ^ 13 + i * 2 ^ 18

/-- R320: an event record as Priord stamps it. -/
def Prd.stampEv (o : Prd) (r : EvReq) : EvRec :=
  { sev := r.sev, grade := o.clk.grade, code := r.code, tag := r.tag, rank := rankField r.rank, ft := o.ft,
    path := r.path, phys := if r.phys = 0 then o.ownPhys else r.phys, payload := r.payload }

/-- The table of Priord's rate limits. -/
def Prd.rlEntries (o : Prd) : List (Nat × Nat) := (List.range 256).map fun k => (k, PrdR.get o (PRD_EVR_RL k))

/-- R429: PHASE: 0 IMAGE, 1 LINKS, 2 TIME, 3 TREE_WAIT, 4 RUNNING. -/
def Prd.phase (o : Prd) : Nat := PrdR.fld o PRD_BOOT_STATUS 0 3
/-- R408: the safe profile. -/
def Prd.safe (o : Prd) : Bool := PrdR.flag o PRD_BOOT_STATUS 3
/-- R443: the transmitters are squelched: without power, in reset, and until PHASE LINKS of a start-up from power good. -/
def Prd.squelched (o : Prd) : Bool := o.pw.on ≠ 2 || o.pw.inReset || (o.phase == 0 && o.mgmt.run.isNone)
/-- R445: a strobe of source `src` pulses at fleet time `t`. -/
def Prd.pulse (o : Prd) (src t : Nat) : Prd := { o with strobes := Tbl.ins o.strobes src t }
/-- R448: an electrical reading, a mean over the last 1 ms, at the register `a`: a free value (log entry 100). -/
def Prd.measured (o : Prd) (a : Nat) : Nat := if o.clk.ft < 4000000 then 0 else Config.measured a o.clk.ft % 2 ^ 32
/-- R403: the straps have odd parity. -/
def Prd.strapsOk (o : Prd) : Bool := PrdR.flag o PRD_BOOT_STRAPS 13

/-- R327, R328: charge a record of source `src` to its bucket and queue it. From PWR_FAIL no new request is admitted (R426). -/
def Prd.charge (o : Prd) (src : Nat) (r : EvRec) : Prd :=
  if o.pw.fail.isSome then o
  else
  let key := rlKey o.rlEntries r.code
  let cfg := if key = 65536 then PrdR.get o PRD_EVR_RL_DEFAULT else PrdR.get o (PRD_EVR_RL key)
  let x := o.evr.request tickS o.ft { src, key, cfg, r }
  let (refused, drops, dropped) := o.evr.added x o.ft
  let o := PrdR.touch { o with evr := x } PRD_EVR_DROPPED drops
  let o := if refused then PrdR.ev o PRD_EVR_EVENTS 1 else o
  if dropped then PrdR.ev o PRD_EVR_EVENTS 2 else o

/-- R327, R328: an event request of Priord's own; its blocks are numbered from 32. -/
def Prd.event (o : Prd) (r : EvReq) : Prd := o.charge (32 + evSource r.code) (o.stampEv r)

/-- R54: an action of kind `a` arrives after its instant. -/
def Prd.actionLate (o : Prd) (a t tag : Nat) : Prd :=
  (PrdR.ev o PRD_TIME_EVENTS 7).event { code := 0x12, sev := 3, tag := tag, payload := le 4 a ++ le 8 t }

/-- R335: journal slot `i` of bank `b`. -/
def jnlKey (b i : Nat) : Nat := 262144 * b + i

/-- R336: a committed record goes into the journal; a failed read-back sets JNL_ERROR. -/
def Prd.journal (o : Prd) (ok : Bool) (bank slot : Nat) (r : EvRec) : Prd :=
  if o.mramProt then o
  else if ok then { o with jnl := Tbl.ins o.jnl (jnlKey bank slot) r }
  else PrdR.ev { o with jnl := Tbl.del o.jnl (jnlKey bank slot) } PRD_EVR_EVENTS 4

/-- R337: the valid session of a bank: slot 0 holds a RECORDER_START that passes R321 against its own VALID. -/
def Prd.bankSession (o : Prd) (b : Nat) : Option Nat :=
  match o.jnl.lookup (jnlKey b 0) with
  | some r => if r.code = 1 && r.seq = 0 && r.valid ≠ 0 && r.valid ≠ ones32 then some r.valid else none
  | none => none

/-- R321, R337: the first slot from `i` on, of `fuel` slots, that holds no valid record of session `sess`. -/
def Prd.firstInvalid (o : Prd) (b sess : Nat) : Nat → Nat → Nat
  | _, 0 => 262144
  | i, fuel + 1 =>
    match o.jnl.lookup (jnlKey b i) with
    | some r => if r.valid = sess && r.seq = i then Prd.firstInvalid o b sess (i + 1) fuel else i
    | none => i

/-- R319, R329, R334, R336, R461: one commit of Priord's recorder, at most one per 250 ns, the pace of the journal, which thus always
has an entry free; in the cycle of a clear it goes into the old session. -/
def Prd.commitEv (o : Prd) (ok : Bool) : Prd :=
  if o.evr.lastFt ≠ 0 && o.ft < o.evr.lastFt + 1000 then o
  else
    let old := o.evr.oldNow o.ft
    let was : EvOld := old.getD { sess := PrdR.get o PRD_EVR_SESSION, front := PrdR.get o PRD_EVR_FRONTIER, full := o.evr.full, bank := o.jnlBank }
    let (x, c) := ({ o.evr with full := was.full } : Recorder).commit o.ft (PrdR.flag o PRD_EVR_CTRL 0) 262144 was.front was.sess
      (o.stampEv { code := 2, sev := 3 })
    let x := if old.isSome then x.backTo o.evr else x
    let next (o : Prd) : Prd := if old.isSome then o else PrdR.set o PRD_EVR_FRONTIER (was.front + 1)
    match c with
    | .idle => o
    | .stored r => (next { o with evr := { x with lastFt := o.ft } }).journal ok was.bank was.front r
    | .discarded _ => PrdR.cnt { o with evr := x } PRD_EVR_DROPPED 0 16 1
    | .filled f _ =>
      let o := PrdR.ev (next { o with evr := { x with lastFt := o.ft } }) PRD_EVR_EVENTS 0
      (PrdR.cnt o PRD_EVR_DROPPED 0 16 1).journal ok was.bank was.front f

/-- R334, R337: a session in bank `b` begins with RECORDER_START; what the bank held stays until it is written over, and is not valid. -/
def Prd.evrRestart (o : Prd) (b sess prev reason : Nat) : Prd :=
  let start := o.stampEv { code := 1, sev := 1, payload := startPayload prev reason }
  let o := { o with evr := o.evr.restart false sess start, jnlBank := b }
  let o := o.journal true b 0 { start with seq := 0, valid := sess }
  let o := PrdR.set (PrdR.set o PRD_EVR_SESSION sess) PRD_EVR_FRONTIER 1
  let o := PrdR.set o PRD_JNL_PREV_SESSION ((o.bankSession (1 - b)).getD 0)
  PrdR.set o PRD_JNL_PREV_FRONTIER ones32

/-- R328, R330: a record of the die on port `n` whose severity reaches DIE_MIN_SEV is adopted, unless EN is 0 (R461). -/
def Prd.adopt (o : Prd) (n : Nat) (r : EvRec) : Prd :=
  if PrdR.flag o PRD_EVR_CTRL 0 && r.sev ≥ PrdR.fld o PRD_EVR_CTRL 1 3 then o.charge (n % 32) { r with fromDie := true } else o

/-! ### Contexts (01 R23, 15 R419) -/

/-- Context slot `c`. -/
def Prd.slot (o : Prd) (c : Nat) : Ctx := Tbl.get (fun _ => {}) o.ctx c
/-- Set it. -/
def Prd.setSlot (o : Prd) (c : Nat) (x : Ctx) : Prd := { o with ctx := Tbl.put (fun _ => {}) o.ctx c x }
/-- The slot of a job tag, or 0 for the fleet context. -/
def Prd.slotOf (o : Prd) (tag : Nat) : Option Nat :=
  if tag = 0 then some 0 else (o.ctx.find? fun x => x.1 ≠ 0 && x.2.st ≠ 0 && x.2.tag == tag).map (·.1)
/-- Whether a job context is open: its slot is not FREE (02 R50). -/
def Prd.jobOpen (o : Prd) : Bool := o.ctx.any fun x => 1 ≤ x.1 && x.1 ≤ 32 && x.2.st ≠ 0

/-! ### Ports, roles, uplinks -/

/-- Die port `n`. -/
def Prd.port (o : Prd) (n : Nat) : DpSt := Tbl.get (fun _ => {}) o.dp n
/-- Set it. -/
def Prd.setPort (o : Prd) (n : Nat) (x : DpSt) : Prd := { o with dp := Tbl.put (fun _ => {}) o.dp n x }

/-- R405: PORTS bits of die port `n`: 0 POPULATED, 1 SPARE, 2 FB_EN. -/
def Prd.portCfg (o : Prd) (n : Nat) : Nat := (o.cfg.ports.lookup n).getD 0
/-- R405: whether die port `n` is populated. -/
def Prd.populated (o : Prd) (n : Nat) : Bool := n < 32 && bit (o.portCfg n) 0

/-- R405: the roles byte of tray `i` in an assignment. -/
def roleByte (r : Roles) (i : Nat) : Nat := (r.lookup i).getD 0

/-- R94, R18, R408: whether this Priord holds the role of level 0 tray to 3 hall in an assignment; in the safe profile it
takes the tray-node role only. -/
def Prd.holds (o : Prd) (r : Roles) (level : Nat) : Bool :=
  level = 0 || (!o.safe && bit (roleByte r o.tray) level)

/-- Uplink `u`'s schedulers. -/
def Prd.uplink (o : Prd) (u : Nat) : UlSt := Tbl.get (fun _ => {}) o.ulq u
/-- Set them. -/
def Prd.setUplink (o : Prd) (u : Nat) (x : UlSt) : Prd := { o with ulq := Tbl.put (fun _ => {}) o.ulq u x }

/-- R298: the uplink of a message: the lowest-numbered one that is up, else 0 (DESIGN CHOICE, log entry 52). -/
def Prd.outUplink (o : Prd) : Nat := ((List.range 4).find? fun u => PrdR.flag o (PRD_UL_STATUS u) 0).getD 0

/-- R307: a message in frames of at most `max` bytes, so that none is longer than MAX_FRAME of its class (log entry 59). -/
def upFrames (max : Nat) : Nat → List Byte → List (List Byte)
  | 0, b => [b]
  | fuel + 1, b => if b.length ≤ max || max = 0 then [b] else b.take max :: upFrames max fuel (b.drop max)

/-- R299: put a message for `dst`, in its frames, into egress queue 128 × `cls` + `k` of an uplink. -/
def Prd.send (o : Prd) (dst cls k : Nat) (body : List Byte) : Prd :=
  let u := o.outUplink
  let x := o.uplink u
  let q := 128 * cls + k
  let l := Tbl.get (fun _ => []) x.q q
  let st := (Tbl.get (fun _ => {}) x.qs q : EqSt).cover l.length o.ft
  let st := { st with headAt := if l.isEmpty then o.ft else st.headAt }
  let frames := (upFrames (PrdR.fld o (PRD_UL u + 0x2000 + 4 * cls) 0 16) body.length body).map fun b => ({ dst, body := b, ft := o.ft } : UpRec)
  o.setUplink u { x with q := Tbl.put (fun _ => []) x.q q (l ++ frames), qs := Tbl.put (fun _ => {}) x.qs q st }

/-- R237: an atomiser message for the die on port `n`. -/
def Prd.sendDown (o : Prd) (n : Nat) (body : List Byte) : Prd :=
  let x := o.port n
  o.setPort n { x with down := x.down ++ [body] }

/-- R456: whether the bytes `a` to `a + n` lie in the software area. -/
def inSoftware (a n : Nat) : Bool := decide (0xF36800000 ≤ a) && decide (a + n ≤ 0x10C388D000)

/-! ### Flacons (R165 to R173) -/

/-- R165: the window of a freeze. -/
def Flacon.lo (f : Flacon) : Nat := f.freezeT - f.pre * tickUs
/-- R165: its end. -/
def Flacon.hi (f : Flacon) : Nat := f.freezeT + f.post * tickUs
/-- R169: whether a segment meets the window. -/
def Flacon.meets (f : Flacon) (s : Seg) : Bool := s.recs ≠ [] && decide (s.ftMin ≤ f.hi && f.lo ≤ s.ftMax)
/-- R169: whether the flacon takes segments: from acceptance until the capture ends. -/
def Flacon.takes (f : Flacon) : Bool := f.st == 2 || f.st == 3
/-- R173: START_ACTUAL. -/
def Flacon.startActual (f : Flacon) : Nat :=
  if f.st = 0 then 0 else f.segs.foldl (fun m s => min m s.ftMin) absent
/-- R169: the stamp up to which a flacon is complete. -/
def Flacon.endActual (f : Flacon) : Nat := if f.st = 0 then 0 else if f.st = 4 then f.end_ else absent

/-- R173: the descriptor. -/
def Flacon.bytes (f : Flacon) : List Byte :=
  if f.st = 0 then le 1 0 ++ zeros 63
  else le 1 1 ++ le 1 f.st ++ le 2 f.flags ++ le 2 f.tag ++ le 1 f.scope ++ le 1 f.source ++ le 8 f.freezeT ++ le 8 f.tTrig ++
    le 4 f.pre ++ le 4 f.post ++ le 8 f.startActual ++ le 8 f.endActual ++ le 8 (8388608 * f.segs.length) ++
    le 2 f.segs.length ++ le 2 f.attached ++ le 4 (f.trigRank % 2 ^ 20)

/-- Flacon slot `n`. -/
def Prd.flacon (o : Prd) (n : Nat) : Flacon := Tbl.get (fun _ => {}) o.hnr.flc n
/-- R163: the stamp by which a record counts. -/
def HRec.stamp (r : HRec) : Nat := if r.ft = absent then r.at_ else r.ft

/-! ### Mirroring (15 R422) -/

/-- R422: a context's tables as the buddy keeps them. -/
def Ctx.mirror (x : Ctx) (slot : Nat) : CtxMirror :=
  { slot, st := x.st, tag := x.tag, s := x.s, nRanks := x.nRanks, homes := x.homes, items := x.items, itemEpoch := x.itemEpoch
    audit := x.audit, served := x.served }

/-- R422: whether Priord mirrors now: BUDDY_EN, BUDDY_1 UP, and no PWR_FAIL (R426). -/
def Prd.mirrors (o : Prd) : Bool :=
  o.cfg.buddyEn && PrdR.fld o PRD_BUDDY_STATUS 2 2 == 1 && o.pw.fail.isNone && !o.safe

/-- R422: the items that a command's effect on `a`, leaving `b`, gives the buddy, oldest first. -/
def Prd.newItems (a b : Prd) : List MirrorItem :=
  let i := b.tray
  let evs := (b.evr.slots.filter fun (x : Nat × EvRec) => !a.evr.slots.contains x).map fun x => MirrorItem.event i x.2.ft x.2
  let closed (n : AccNode) : Bool :=
    n.st ≠ 0 && !a.accs.any fun m => m.level == n.level && m.tag == n.tag && m.kind == n.kind && m.no == n.no && m.st != 0
  let sums := ((b.accs.filter closed).reverse).flatMap fun n =>
    (if n.level = 0 then [MirrorItem.closure i b.ft n.local_ n.localMiss] else []) ++
    (if n.kind = 0 then [MirrorItem.closure i b.ft n.sum n.miss] else [])
  let ctxs := ((List.range 33).filter fun c => a.slot c ≠ b.slot c).map fun c => MirrorItem.context i b.ft ((b.slot c).mirror c)
  let flcs := ((List.range 4).filter fun n => (a.flacon n).st ≠ (b.flacon n).st).map fun n => MirrorItem.flacon i b.ft (b.flacon n).bytes
  let eps := if PrdR.get a PRD_RCV_EPOCH = PrdR.get b PRD_RCV_EPOCH then [] else [MirrorItem.epoch i b.ft (PrdR.get b PRD_RCV_EPOCH)]
  evs ++ sums ++ ctxs ++ flcs ++ eps

/-- R422: send those items over BUDDY_1. -/
def Prd.mirrored (a b : Prd) : Prd :=
  { b with buddy := if b.mirrors then { b.buddy with out := (a.newItems b).reverse ++ b.buddy.out } else b.buddy }

/-- Apply a command's effect to Priord. -/
def State.onPrd (s : State) (f : Prd → Prd) : State := { s with prd := s.prd.mirrored (f s.prd) }

end Sys2Proof.Machine
end

