-- ==== Sys2Proof/Machine/Time.lean ====
section
/-!
DEFINITION. Machine/Time.lean: the commands of fleet time (02 R41 to R61).
-/
namespace Sys2Proof.Machine
open Sys2Proof

/-! ### The OTU's clock -/

/-- R62, R81: the first multiple of `p` after `t`. -/
def nextMultiple (t p : Nat) : Nat := if p = 0 then absent else (t / p + 1) * p

/-- R62, R81, R114: when fleet time first becomes valid, or an interval is to run from now, the next instants of the
OTU's periodic actions. -/
def Otu.armTimers (o : Otu) : Otu :=
  let t := o.clk.ft
  let fast := if OtuR.flag o OTU_ACC_FAST_CTRL 0 then nextMultiple t (OtuR.fld o OTU_ACC_FAST_CTRL 1 17 * 40000)
    else absent
  let gch := if OtuR.flag o OTU_GCH_CTRL 0 then nextMultiple t (OtuR.fld o OTU_GCH_CTRL 1 10 * 4000) else absent
  let eqs := if OtuR.flag o OTU_EQS_CTRL 0 then nextMultiple t (OtuR.fld o OTU_EQS_CTRL 1 10 * 40000) else absent
  { o with acc := { o.acc with nextT := nextMultiple t (o.acc.interval * 400000), fastNextT := fast }, gchNext := gch, qsLast := t, qOld := []
           gate := { o.gate with nextSample := eqs } }

/-- R49: recompute the reported grade; a change sets GRADE_CHANGE and requests an event. -/
def Otu.regrade (o : Otu) : Otu :=
  let g := if o.clk.st = 0 then 4 else max o.clk.own o.prdGrade
  if g = o.clk.grade then o
  else
    let old := o.clk.grade
    let o := { o with clk := { o.clk with grade := g } }
    (OtuR.ev o OTU_TIME_EVENTS 0).event { code := 0x10, sev := 2, payload := le 1 old ++ le 1 g ++ le 2 0 ++ le 4 o.clk.err }

/-- R46: U_link + q, what E_link adds to |θ_f|: q is half the period of the engine clock. -/
def Otu.linkExtra (o : Otu) : Nat := OtuR.fld o OTU_TIME_CTRL 12 12 + o.period / 2

/-- R46: E_die again, over the offset that stands and the bound that Priord last sent. -/
def Otu.bound (o : Otu) : Otu := { o with clk := o.clk.bound (o.linkExtra + o.prdErr) }

/-- R46: TRAY_LOCK after an accepted time word. -/
def Otu.setTrayLock (o : Otu) : Otu :=
  { o with trayLock := o.clk.st != 0 && o.clk.st != 3 && !o.clk.thetas.isEmpty &&
                       decide (o.clk.theta.natAbs + o.linkExtra ≤ e1) }

/-- R50, R83: step the OTU's fleet time forward by `n` ticks; the cut pending now fires STEPPED if the step passes it. -/
def Otu.stepBy (o : Otu) (n : Nat) : Otu :=
  let c := o.clk.step n (o.linkExtra + o.prdErr)
  let passed := decide (o.acc.nextT ≤ c.ft) && o.acc.nextT != absent
  let fast := decide (o.acc.fastNextT ≤ c.ft) && o.acc.fastNextT != absent
  let o := { o with clk := c, acc := { o.acc with stepped := o.acc.stepped || passed, fastStepped := o.acc.fastStepped || fast },
                    link := { o.link with tw := o.link.tw.shift n }, cyc := { o.cyc with step := o.cyc.step + n } }
  (OtuR.ev o OTU_TIME_EVENTS 2).event { code := 0x11, sev := 2, payload := le 8 n }

/-- R50: the forward step due, where no job context is open. -/
def Otu.stepIfDue (o : Otu) : Option Nat := if o.openJob.isNone then o.clk.stepDue tickUs else none

/-- R45, R46, R49, R50: an accepted round at the OTU. -/
def Otu.measure (o : Otu) (delay th : Int) : Otu :=
  let filt := OtuR.fld o OTU_TIME_CTRL 0 4
  let ppm := OtuR.fld o OTU_TIME_CTRL 4 8
  let c := ((o.clk.push filt (o.linkExtra + o.prdErr) th).judge 16)
  let o := { o with clk := { c with delay := ofS 32 delay } }
  let o :=
    match o.stepIfDue with
    | some n => o.stepBy n
    | none =>
      let c := o.clk.slewTo o.period ppm
      let o := { o with clk := c }
      if c.slewing then OtuR.ev o OTU_TIME_EVENTS 3 else o
  o.setTrayLock.regrade

/-- R46, R50: an accepted time word that completes no round: the bound follows Priord's, and a step that is still due is
taken. -/
def Otu.noRound (o : Otu) : Otu :=
  let o := match o.stepIfDue with | some n => o.stepBy n | none => o.bound
  o.setTrayLock.regrade

/-- R43 to R46: an accepted time word at the OTU. From NO_TIME, the first valid one steps the clock to the sender's
time and starts acquisition (R50). Every word that echoes one of this end's is a round, also a second one that echoes the same
word (log entry 33). -/
def Otu.timeWord (o : Otu) (w : TimeWord) (at_ : Nat) : Otu :=
  if o.link.tw.seqError w then OtuR.ev { o with link := { o.link with tw := o.link.tw.seqErr } } OTU_TIME_EVENTS 5
  else
    let echoed := o.link.tw.echoed w
    let o := { o with link := { o.link with tw := o.link.tw.receive w at_ (o.clk.st != 0) }, prdGrade := min w.grade 4,
                      prdErr := w.errBound, asym := w.asym }
    if o.clk.st = 0 then
      if w.ftValid then
        let o := { o with clk := { o.clk with st := 1, ft := w.txStamp, lastMeas := w.txStamp } }
        ((OtuR.ev o OTU_TIME_EVENTS 2).event { code := 0x11, sev := 2, payload := le 8 w.txStamp }).armTimers.regrade
      else o
    else
      let o := { o with clk := { o.clk with lastMeas := o.clk.ft } }
      match echoed with
      | some x =>
        match x.echo with
        | some (t1, t2) =>
          let (d, th) := fourStamp t1 t2 x.tx (w.rxStamp * 256 + w.rxFrac) w.asym
          o.measure d th
        | none => o.noRound
      | none => o.noRound

/-- R43: the OTU's own time word. -/
def Otu.timeWordOut (o : Otu) (tx : Nat) : Otu :=
  let valid := o.clk.st != 0
  let w : TimeWord := { grade := o.clk.grade, ftValid := valid, holdover := o.clk.st == 3, fromDie := true,
                        jobOpen := o.openJob.isSome, errBound := o.clk.err }
  let tw := o.link.tw.send valid tx w
  { o with link := ({ o.link with tw, idleAt := o.now } : LinkSt).putIdle tw.out }

/-- R52, R47: the OTU's loss of time words. -/
def Otu.timeLoss (o : Otu) : Otu :=
  if o.clk.st = 0 || o.clk.st = 3 || decide (o.clk.ft < o.clk.lastMeas + 10 * tickUs) then o
  else
    let c := o.clk.lose
    let o := { o with clk := c }
    let o := if c.st = 3 then OtuR.ev { o with trayLock := false } OTU_TIME_EVENTS 1 else o
    o.regrade

/-! ### Priord's clock -/

/-- R37: the fleet time of a PTP timestamp, in ticks. -/
def PtpTs.ticks (x : PtpTs) : Nat := 4 * (x.sec * 10 ^ 9 + x.ns) % 2 ^ 64

/-- The same in 1/256 tick. -/
def PtpTs.fine (x : PtpTs) : Nat := 256 * x.ticks

/-- PTP and frequency state of uplink `u`. -/
def Prd.ulT (o : Prd) (u : Nat) : UlTime := Tbl.get (fun _ => {}) o.ul u
/-- Set it. -/
def Prd.setUlT (o : Prd) (u : Nat) (x : UlTime) : Prd := { o with ul := Tbl.put (fun _ => {}) o.ul u x }

/-- R61: whether PTP runs on uplink `u`. -/
def Prd.ptpOn (o : Prd) (u : Nat) : Bool :=
  decide (u < 4) && PrdR.flag o PRD_TIME_PTP_CFG (16 + u) && PrdR.flag o (PRD_UL_STATUS u) 0

/-- Whether uplink `u` uses the peer-to-peer mechanism. -/
def Prd.ptpP2p (o : Prd) (u : Nat) : Bool := PrdR.flag o PRD_TIME_PTP_CFG (20 + u)

/-- R409: at grade 1 PHASE TIME becomes TREE_WAIT. -/
def Prd.phaseTime (o : Prd) : Prd :=
  if o.phase = 2 && o.clk.grade ≤ 1 then PrdR.setFld o PRD_BOOT_STATUS 0 3 3 else o

/-- R49: recompute Priord's grade; a failed OCXO keeps it at 3 or worse (R438). -/
def Prd.regrade (o : Prd) : Prd :=
  let g := if o.clk.st = 0 then 4 else if o.pw.ocxoFail then max 3 o.clk.own else o.clk.own
  if g = o.clk.grade then o.phaseTime
  else
    let old := o.clk.grade
    let o := { o with clk := { o.clk with grade := g } }
    ((PrdR.ev o PRD_TIME_EVENTS 0).event { code := 0x10, sev := 2, payload := le 1 old ++ le 1 g ++ le 2 0 ++ le 4 o.clk.err }).phaseTime

/-- R46, R49, R50: an accepted PTP offset measurement; none is accepted while the OCXO has failed (R438). -/
def Prd.measure (o : Prd) (th : Int) : Prd :=
  if o.pw.ocxoFail then o
  else
  let o := { o with loopCfg := PrdR.get o PRD_TIME_LOOP_CFG }
  let filt := PrdR.fld o PRD_TIME_LOOP_CFG 0 4
  let ppm := PrdR.fld o PRD_TIME_LOOP_CFG 4 8
  let lockN := PrdR.fld o PRD_TIME_LOOP_CFG 16 5
  let limit := PrdR.get o PRD_TIME_STEP_LIMIT
  let wasLocked := o.clk.st == 2
  let c0 : Clk := if o.ptpRestart && o.clk.st == 2 then o.clk.unlock 1 else o.clk
  let c := (c0.push filt (PrdR.get o PRD_TIME_UNCERT) th).judge lockN
  let o := { o with clk := c, ptpRestart := false }
  let o := if wasLocked && c.st != 2 then PrdR.ev o PRD_TIME_EVENTS 1 else o
  let o :=
    match o.clk.stepDue limit with
    | some n =>
      if (!o.jobOpen) then
        let o := { o with clk := o.clk.step n (PrdR.get o PRD_TIME_UNCERT), stepPending := false
                          tw := o.tw.map fun (x : Nat × TwEnd) => (x.1, x.2.shift n) }
        (PrdR.ev o PRD_TIME_EVENTS 2).event { code := 0x11, sev := 2, payload := le 8 n }
      else { o with stepPending := true, clk := { o.clk with st := 1, slew := 0, slewing := false } }
    | none =>
      let c := o.clk.slewTo 512 ppm
      let o := { o with clk := c, stepPending := false }
      let o := if c.slewing then PrdR.ev o PRD_TIME_EVENTS 3 else o
      if o.clk.theta > 256 * (limit : Int) then PrdR.ev o PRD_TIME_EVENTS 5 else o
  o.regrade

/-- R41: the offset that uplink `u` now gives, once it holds a Sync and a path delay; only the selected uplink's
disciplines the clock. -/
def Prd.ptpOffset (o : Prd) (u : Nat) : Prd :=
  let x := o.ulT u
  match x.delay with
  | none => o.setUlT u { x with waiting := x.have12 }
  | some d =>
    if x.have12 then
      let off : Int := (x.t2 : Int) - x.t1 - x.corr - d
      let o := o.setUlT u { x with offset := off, waiting := false }
      if o.src = some u then o.measure off else o
    else o

/-- IEEE 1588 default data set comparison of two Announce data sets: whether `a` is better than `b`. -/
def Announce.better (a b : Announce) : Bool :=
  let ka := [a.priority1, a.clockClass, a.clockAccuracy, a.variance, a.priority2, a.gmIdentity, a.stepsRemoved, a.senderId]
  let kb := [b.priority1, b.clockClass, b.clockAccuracy, b.variance, b.priority2, b.gmIdentity, b.stepsRemoved, b.senderId]
  decide (ka < kb)

/-- Ticks in 2^n s. -/
def logTicks (n : Int) : Nat := if n < 0 then tickS / 2 ^ n.natAbs else tickS * 2 ^ n.toNat

/-- R41: an uplink's Announce takes part in the best master clock algorithm, as IEEE 1588 has it by default: it is the second
of its sender within four of its intervals, its stepsRemoved is below 255, and no more than three intervals have passed since it
came (log entry 34). -/
def UlTime.qualified (x : UlTime) (now : Nat) : Option Announce :=
  match x.ann, x.annAt with
  | some a, [t1, t0] =>
    if decide (t1 - t0 ≤ 4 * logTicks a.logInterval) && decide (a.stepsRemoved < 255) && decide (now ≤ t1 + 3 * logTicks a.logInterval) then some a
    else none
  | _, _ => none

/-- R41: an Announce of the configured domain arrives. -/
def UlTime.announce (x : UlTime) (a : Announce) (now : Nat) : UlTime :=
  let same := x.ann.any fun b => b.senderId == a.senderId
  { x with ann := some a, annAt := now :: (if same then x.annAt.take 1 else []) }

/-- R41: the best master clock algorithm over the Announce messages of all enabled uplinks. -/
def Prd.bmca (o : Prd) : Prd :=
  let cands := ((List.range 4).filter o.ptpOn).filterMap fun u => ((o.ulT u).qualified o.ft).map fun a => (u, a)
  let best := cands.foldl (fun (b : Option (Nat × Announce)) x =>
    match b with
    | none => some x
    | some y => if x.2.better y.2 then some x else some y) none
  match best with
  | none => { o with src := none }
  | some (u, a) =>
    let old := PrdR.get o PRD_TIME_GM_ID
    let o := { o with src := some u }
    let o := PrdR.set o PRD_TIME_UTC_OFFSET (ofS 16 a.utcOffset + 2 ^ 16 * b2n a.utcValid)
    if old = a.gmIdentity then o
    else (PrdR.ev (PrdR.set o PRD_TIME_GM_ID a.gmIdentity) PRD_TIME_EVENTS 4).event
           { code := 0x13, sev := 2, payload := le 8 a.gmIdentity }

/-- R41: a selected source whose Announces have stopped is given up. -/
def Prd.annCheck (o : Prd) : Prd :=
  match o.src with
  | some u => if ((o.ulT u).qualified o.ft).isNone then o.bmca else o
  | none => o

/-- R42: select the uplink that gives frequency: by quality level, best code first, or the fixed port. -/
def Prd.synceSelect (o : Prd) : Prd :=
  let cfg := PrdR.get o PRD_TIME_SYNCE_CFG
  let usable := (List.range 4).filter fun u => (o.ulT u).synce && decide ((o.ulT u).ql < 15)
  let pick : Option Nat :=
    if !bit cfg 3 then none
    else if bit cfg 2 then
      usable.foldl (fun (b : Option Nat) u =>
        match b with
        | none => some u
        | some v => if (o.ulT u).ql < (o.ulT v).ql then some u else some v) none
    else if (o.ulT (getF cfg 0 2)).synce then some (getF cfg 0 2) else none
  let o' := { o with synceSrc := pick }
  if o.synceSrc.isSome && pick.isNone then PrdR.ev o' PRD_TIME_EVENTS 6 else o'

/-- R49: ticks in a sync interval, from LOG_SYNC. -/
def Prd.syncInterval (o : Prd) : Nat :=
  let n := PrdR.fld o PRD_TIME_PTP_CFG 8 4
  if n = 0 then tickS else tickS / 2 ^ (16 - n)

/-- Priord's end of the time-word exchange on port `n`. -/
def Prd.twEnd (o : Prd) (n : Nat) : TwEnd := Tbl.get (fun _ => {}) o.tw n
/-- Set it. -/
def Prd.setTwEnd (o : Prd) (n : Nat) (x : TwEnd) : Prd := { o with tw := Tbl.put (fun _ => {}) o.tw n x }

/-- R45, R61: a time word from the die on port `n`, for monitoring. A time word tells the die's grade, not its TRAY_LOCK: that
is taken from FT_VALID, HOLDOVER and the bound, and TW_VALID stays set once a word has been accepted (log entry 35). -/
def Prd.timeWord (o : Prd) (n : Nat) (w : TimeWord) (at_ : Nat) : Prd :=
  let x := o.twEnd n
  if x.seqError w then o.setTwEnd n x.seqErr
  else
    let o := (o.setTwEnd n (x.receive w at_ true)).setPort n { o.port n with noTime := !w.ftValid }
    let lock := w.ftValid && !w.holdover && decide (w.errBound ≤ o.clk.err + e1)
    let o := PrdR.set o (PRD_TIME_DP_STATUS n) (min w.grade 7 + 8 * b2n lock + 16)
    match x.echoed w with
    | some y =>
      let d := fourStamp y.tx (w.rxStamp * 256 + w.rxFrac) (w.txStamp * 256 + w.txFrac) at_
        (toS 32 (PrdR.get o (PRD_TIME_DP_ASYM n)))
      PrdR.set (PrdR.set o (PRD_TIME_DP_DELAY n) (ofS 32 d.1)) (PRD_TIME_DP_OFFSET n) (ofS 32 d.2)
    | none => o

/-- R43: Priord's own time word on port `n`. It has FT_VALID set in every state, PROVISIONAL included (log entry 36). -/
def Prd.timeWordOut (o : Prd) (n tx : Nat) : Prd :=
  let w : TimeWord := { grade := o.clk.grade, ftValid := true, holdover := o.clk.st == 3, fromDie := false,
                        jobOpen := o.jobOpen, errBound := o.clk.err,
                        asym := toS 32 (PrdR.get o (PRD_TIME_DP_ASYM n)) }
  let tw := (o.twEnd n).send true tx w
  (o.setTwEnd n tw).setPort n { o.port n with link := ({ (o.port n).link with idleAt := o.ft } : LinkSt).putIdle tw.out }

/-! ### Meanings -/

/-- R61: a Sync after a write of PTP_CFG finds the clock ACQUIRING, at the grade of a clock that is not LOCKED. -/
def Prd.ptpBegin (o : Prd) : Prd :=
  let o := if o.ptpRestart && o.clk.st == 2 then
      (PrdR.ev { o with clk := o.clk.unlock 1, ptpRestart := false } PRD_TIME_EVENTS 1) else { o with ptpRestart := false }
  ({ o with clk := if o.clk.st = 2 then o.clk else { o.clk with own := o.clk.unlockedGrade } } : Prd).regrade

/-- PTP_SYNC: a one-step Sync completes the measurement of t1 and t2; a two-step one waits for its Follow_Up. -/
def execPtpSync (u : Nat) (m : PtpSync) (t : Nat) (s : State) : Host.Outcome State Fault Refusal :=
  .next (s.onPrd fun o =>
    let o := o.go t
    if !o.ptpOn u || m.domain ≠ PrdR.fld o PRD_TIME_PTP_CFG 0 7 then o
    else
      let o := o.annCheck.ptpBegin
      let o := if o.src == some u then o.pulse 0x102 o.ft else o
      let x := o.ulT u
      if m.twoStep then o.setUlT u { x with sync := some m }
      else (o.setUlT u { x with sync := none, t1 := m.origin.fine, t2 := m.rx, corr := m.corr, have12 := true }).ptpOffset u)

/-- PTP_FOLLOW_UP: completes the two-step Sync of the same sequenceId. -/
def execPtpFollowUp (u seqId : Nat) (origin : PtpTs) (corr : Int) (t : Nat) (s : State) : Host.Outcome State Fault Refusal :=
  .next (s.onPrd fun o =>
    let o := (o.go t).annCheck
    match (o.ulT u).sync with
    | some m =>
      if o.ptpOn u && m.seqId == seqId then
        (o.setUlT u { o.ulT u with sync := none, t1 := origin.fine, t2 := m.rx, corr := m.corr + corr, have12 := true }).ptpOffset u
      else o
    | none => o)

/-- PTP_DELAY_REQ_TX: only on an uplink that uses the request-response mechanism. -/
def execPtpDelayReqTx (u tx t : Nat) (s : State) : Host.Outcome State Fault Refusal :=
  .next (s.onPrd fun o =>
    let o := o.go t
    if o.ptpOn u && !o.ptpP2p u then
      let x := o.ulT u
      o.setUlT u { x with reqTx := some (x.reqSeq, tx), reqSeq := (x.reqSeq + 1) % 65536 }
    else o)

/-- PTP_DELAY_RESP: completes the path delay ((t2 - t1) + (t4 - t3)) / 2; a Sync that waited for it now counts. -/
def execPtpDelayResp (u seqId : Nat) (rx : PtpTs) (corr : Int) (t : Nat) (s : State) : Host.Outcome State Fault Refusal :=
  .next (s.onPrd fun o =>
    let o := (o.go t).annCheck
    let x := o.ulT u
    match x.reqTx with
    | some (q, t3) =>
      if o.ptpOn u && !o.ptpP2p u && q == seqId && x.have12 then
        let d := rhe (((x.t2 : Int) - x.t1 - x.corr) + ((rx.fine : Int) - t3 - corr)) 2
        let o := o.setUlT u { x with reqTx := none, delay := some d }
        if x.waiting then o.ptpOffset u else o
      else o
    | none => o)

/-- PTP_PDELAY_REQ_TX: only on an uplink that uses the peer-to-peer mechanism. -/
def execPtpPdelayReqTx (u tx t : Nat) (s : State) : Host.Outcome State Fault Refusal :=
  .next (s.onPrd fun o =>
    let o := o.go t
    if o.ptpOn u && o.ptpP2p u then
      let x := o.ulT u
      o.setUlT u { x with preqTx := some (x.reqSeq, tx), reqSeq := (x.reqSeq + 1) % 65536 }
    else o)

/-- PTP_PDELAY_RESP: a one-step response, or the follow-up of a two-step one, completes the peer delay
((t4 - t1) - (t3 - t2)) / 2. -/
def execPtpPdelayResp (u : Nat) (m : PdelayResp) (t : Nat) (s : State) : Host.Outcome State Fault Refusal :=
  .next (s.onPrd fun o =>
    let o := (o.go t).annCheck
    let x := o.ulT u
    match x.preqTx with
    | some (q, t1) =>
      if !(o.ptpOn u && o.ptpP2p u && q == m.seqId) then o
      else if m.followUp then
        match x.presp with
        | some r =>
          let d := rhe (((r.rx : Int) - t1) - ((m.t3.fine : Int) - r.t2.fine) - r.corr - m.corr) 2
          let o := o.setUlT u { x with preqTx := none, presp := none, delay := some d }
          if x.waiting then o.ptpOffset u else o
        | none => o
      else if m.twoStep then o.setUlT u { x with presp := some m }
      else
        let d := rhe (((m.rx : Int) - t1) - ((m.t3.fine : Int) - m.t2.fine) - m.corr) 2
        let o := o.setUlT u { x with preqTx := none, delay := some d }
        if x.waiting then o.ptpOffset u else o
    | none => o)

/-- PTP_ANNOUNCE: the best master clock algorithm runs again. -/
def execPtpAnnounce (u : Nat) (m : Announce) (t : Nat) (s : State) : Host.Outcome State Fault Refusal :=
  .next (s.onPrd fun o =>
    let o := o.go t
    if o.ptpOn u && m.domain == PrdR.fld o PRD_TIME_PTP_CFG 0 7 then
      (o.setUlT u ((o.ulT u).announce m o.ft)).bmca
    else o)

/-- PTP_IGNORED_MESSAGE: nothing but time passes. -/
def execPtpIgnoredMessage (_u t : Nat) (s : State) : Host.Outcome State Fault Refusal :=
  .next (s.onPrd fun o => o.go t)

/-- SYNCE_QL_CHANGE. -/
def execSynceQlChange (u ql : Nat) (lost : Bool) (t : Nat) (s : State) : Host.Outcome State Fault Refusal :=
  .next (s.onPrd fun o =>
    let o := o.go t
    if u < 4 then (o.setUlT u { o.ulT u with ql := ql, synce := !lost }).synceSelect else o)

/-- HOLDOVER_ENTRY: LOSS_N sync intervals have passed since the last accepted measurement. -/
def execHoldoverEntry (t : Nat) (s : State) : Host.Outcome State Fault Refusal :=
  .next (s.onPrd fun o =>
    let o := o.go t
    let span := getF o.loopCfg 12 4 * o.syncInterval
    if o.clk.st = 0 || o.clk.st = 3 || decide (o.clk.ft < o.clk.lastMeas + span) then o
    else
      let was := o.clk.st
      let o := { o with clk := o.clk.lose }
      (if was = 2 then PrdR.ev o PRD_TIME_EVENTS 1 else o).regrade)

/-- TW_LOSS. -/
def execTwLoss (e : Edge) (s : State) : Host.Outcome State Fault Refusal :=
  .next (s.onOtu fun o => (o.go e).timeLoss)

/-- HOLDOVER_AGE_GRADE3: the own grade of an unlocked clock is taken again at its age. -/
def execHoldoverAgeGrade3 (part : Part) (e : Edge) (s : State) : Host.Outcome State Fault Refusal :=
  match part with
  | .otu => .next (s.onOtu fun o =>
      let o := o.go e
      if o.clk.own = 2 then ({ o with clk := { o.clk with own := o.clk.unlockedGrade } } : Otu).regrade else o)
  | .prd => .next (s.onPrd fun o =>
      let o := o.go e.ft
      if o.clk.own = 2 then ({ o with clk := { o.clk with own := o.clk.unlockedGrade } } : Prd).regrade else o)

/-- R61: the lock has lasted ten minutes. -/
def Clk.tenMinutes (c : Clk) : Clk :=
  if c.st = 2 && decide (c.ft - c.lockAt ≥ tenMinTicks) then { c with tenMin := true } else c

/-- LOCK_10MIN. -/
def execLock10Min (part : Part) (e : Edge) (s : State) : Host.Outcome State Fault Refusal :=
  match part with
  | .otu => .next (s.onOtu fun o => let o := o.go e; { o with clk := o.clk.tenMinutes })
  | .prd => .next (s.onPrd fun o => let o := o.go e.ft; { o with clk := o.clk.tenMinutes })

/-- TIME_WORD_TX: a port that is not UP sends nothing (R52); the forced IDLE counts in die counter 0x67 at the OTU (R315). -/
def execTimeWordTx (at_ : LinkEnd) (tx txFrac : Nat) (e : Edge) (s : State) : Host.Outcome State Fault Refusal :=
  match at_ with
  | .otu => .next (s.onOtu fun o =>
      let o := o.go e
      if o.link.st = 2 then (o.timeWordOut (tx * 256 + txFrac % 256)).dctrAdd 0x67 1 else o)
  | .prd n => .next (s.onPrd fun o =>
      let o := o.go e.ft
      if n < 32 && (o.port n).link.st = 2 then o.timeWordOut n (tx * 256 + txFrac % 256) else o)

/-- R58, R59: a write of OTU_MARK through path tag `tag`; one for which there is no room is dropped, and remembered for as long as
a dequeue in the same cycle may still make room for it. -/
def Otu.putMark (o : Otu) (window : Bool) (tag value : Nat) : Otu :=
  let m : MarkEnt := { id := getF value 48 16, payload := getF value 0 48, hw := o.ft, window, tag }
  if o.marks.length ≥ 64 then
    { OtuR.cnt o OTU_MARK_STATUS 8 16 1 with cyc := { (OtuR.cnt o OTU_MARK_STATUS 8 16 1).cyc with
        mark := o.cyc.mark <|> some (m, decide (OtuR.fld o OTU_MARK_STATUS 8 16 < 0xFFFF)) } }
  else { o with marks := o.marks ++ [m] }

/-- R59: a dequeue in the cycle in which a mark found the FIFO full: the dequeue counts as first, so the mark is accepted. -/
def Otu.markRoom (o : Otu) : Otu :=
  match o.cyc.mark with
  | none => o
  | some (m, counted) =>
    let less (v : Nat) : Nat := if counted then setF v 8 16 (getF v 8 16 - 1) else v
    { OtuR.touch o OTU_MARK_STATUS less with marks := o.marks ++ [m], cyc := { (OtuR.touch o OTU_MARK_STATUS less).cyc with mark := none } }

/-- MARK. -/
def execMark (p : Path) (value : Nat) (e : Edge) (s : State) : Host.Outcome State Fault Refusal :=
  .next (s.onOtu fun o =>
    let o := o.go e
    match p, o.pathTag p with
    | .tenant _, some tag => o.putMark true tag value
    | .otu, some _ => o.putMark false 0 value
    | _, _ => o)

/-- R58: the 32-byte mark record. -/
def markBytes (m : MarkEnt) (fw grade : Nat) : List Byte :=
  let late := fw != absent && m.hw != absent && decide (fw - m.hw > 20000)
  le 2 m.id ++ le 2 (1 + 2 * b2n late + 4 * grade + 32 * b2n m.window) ++ le 2 m.tag ++ le 2 0 ++
  le 6 m.payload ++ le 2 0 ++ le 8 fw ++ le 8 m.hw

/-- MARK_RECORD_EMIT: the oldest mark leaves the FIFO and its record goes out on the EVENT stream. -/
def execMarkRecordEmit (e : Edge) (s : State) : Host.Outcome State Fault Refusal :=
  .next (s.onOtu fun o =>
    let o := o.go e
    match o.marks with
    | [] => o
    | m :: r => ({ o with marks := r, lastFw := o.ft } : Otu).markRoom.send 10 0 0x07 m.tag (markBytes m o.ft o.clk.grade))

/-- TIME_SNAP. -/
def execTimeSnap (value : Nat) (e : Edge) (s : State) : Host.Outcome State Fault Refusal :=
  .next (s.onOtu fun o =>
    let o := o.go e
    if bit value 0 then OtuR.set (OtuR.set o OTU_TIME_SNAP_FT o.ft) OTU_TIME_SNAP_LT o.lt else o)

/-- PTP_CFG_WRITE: the register takes the write, and reception returns to ACQUIRING from the next sync interval. -/
def execPtpCfgWrite (value t : Nat) (s : State) : Host.Outcome State Fault Refusal :=
  .next (s.onPrd fun o => { PrdR.write (o.go t) PRD_TIME_PTP_CFG 4 value with ptpRestart := true }.bmca)

end Sys2Proof.Machine
end

