-- ==== Sys2Proof/Machine/Accord.lean ====
section
/-!
DEFINITION. Machine/Accord.lean: the cut on the die, its dump and its stream record (03 R62 to R83, 05 R132, R133).
-/
namespace Sys2Proof.Machine
open Sys2Proof

/-! ### What a cut latches (R64) -/

/-- R64, R66: the counter words at the end of this cycle, before the resets of commands that start in it. -/
def Otu.latchCtrs (o : Otu) : List (Nat × Nat) :=
  let t := o.dctr ++ o.regs.filterMap fun x =>
    if 0x40000 ≤ x.1 && x.1 < 0x60000 then some (256 + (x.1 - 0x40000) / 8, x.2.toNat) else none
  o.engs.foldl (fun t x =>
    if x.2.startAt = o.lt then
      x.2.startOld.foldl (fun t y => if y.1 < 32 then Tbl.put (fun _ => 0) t (256 + 32 * x.1 + y.1) y.2 else t) t
    else t) t

/-- R66: CMD_SEQ of every engine, the old command's where one starts in this cycle. -/
def Otu.latchSeqs (o : Otu) : List (Nat × Nat) :=
  let t := o.regs.filterMap fun x =>
    if 0x60000 ≤ x.1 && x.1 < 0x70000 && (x.1 - 0x60000) % 0x80 = 0x4C then some ((x.1 - 0x60000) / 0x80, x.2.toNat) else none
  o.engs.foldl (fun t x =>
    if x.2.startAt = o.lt then
      (match x.2.startOld.lookup 32 with | some v => Tbl.put (fun _ => 0) t x.1 v | none => t)
    else t) t

/-- R102: the value of EVSEL_k (k to 7) or CFG_EPOCH (8) that a latch in this cycle takes. -/
def Otu.evLatched (o : Otu) (e k : Nat) : Nat :=
  let x := o.eng e
  let now := OtuR.get o (if k < 8 then OTU_ENG_EVSEL e k else OTU_ENG_CFG_EPOCH e)
  if x.evAt = o.lt then (x.evOld.lookup k).getD now else now

/-- R73: an engine's header in this cycle. -/
def Otu.latchHdr (o : Otu) (e : Nat) : EngHdr :=
  let x := o.eng e
  let evs := (List.range 8).map fun k => (k, o.evLatched e k)
  { st := x.st.inForce o.lt, tag := x.tag, resetMode := maskOf ((evs.filter fun p => bit p.2 35).map (·.1)),
    cfgEpoch := o.evLatched e 8,
    classes := (evs.map fun p => (p.1, getF p.2 0 16)).filter fun p => decide (p.2 ≠ 0) }

/-- R64: the shadow image. -/
def Otu.latch (o : Otu) : Image :=
  { ctr := o.latchCtrs, seq := o.latchSeqs
    hdr := ((List.range 512).map fun e => (e, o.latchHdr e)).filter fun x => decide (x.2 ≠ {}) }

/-- R70: the die's CFG_EPOCH, the sum of its engines' (DEDUCED, log entry 21). -/
def Image.epoch (m : Image) : Nat := m.hdr.foldl (fun n x => n + x.2.cfgEpoch) 0 % 2 ^ 32

/-- R70, R80: the contexts of a cut: the fleet context and each job whose job-end record has not been sent, with its rank. -/
def Otu.contexts (o : Otu) : List (Nat × Nat) := (0, 0) :: o.jobs.map fun j => (j.tag, j.rank)

/-- R70: a header as the cut cycle fixes it. -/
def Otu.cutHdr (o : Otu) (kind no tCut interval : Nat) (stepped change : Bool) (m : Image) : AccHdr :=
  { kind, no, tCut, jtCut := o.jt, ltCut := o.lt, interval, errBound := o.clk.err, cfgEpoch := m.epoch
    stepNo := o.acc.stepNo
    flags := 2 * o.actGrade + 16 * b2n o.trayLock + 32 * b2n o.openJob.isSome + 64 * b2n stepped + 512 * b2n change }

/-- R68: the shadow set that a cut takes: A (false) and B (true) alternate; none when both are in use. -/
def AccSt.freeSet (a : AccSt) : Option Bool :=
  match a.a, a.b with
  | none, none => some (!a.lastB)
  | none, some _ => some false
  | some _, none => some true
  | some _, some _ => none

/-- Put a shadow into a set. -/
def AccSt.setShadow (a : AccSt) (b : Bool) (x : Option Shadow) : AccSt := if b then { a with b := x } else { a with a := x }

/-- The set whose shadow satisfies `p` and was cut first. -/
def AccSt.oldest (a : AccSt) (p : Shadow → Bool) : Option (Bool × Shadow) :=
  match a.a.filter p, a.b.filter p with
  | some x, some y => if x.lt ≤ y.lt then some (false, x) else some (true, y)
  | some x, none => some (false, x)
  | none, some y => some (true, y)
  | none, none => none

/-- R89: a gap record of the OTU in a context, on the accord stream. -/
def Otu.sendGap (o : Otu) (reason tag rank no : Nat) : Otu :=
  o.send 1 0 0x02 tag (gapBytes { reason, origin := 0, kind := 0, tag, no, rank, count := 1, ftDecl := o.ft })

/-- R64, R65, R68, R83: the regular cut at instant `t`, in this cycle. -/
def Otu.regularCut (o : Otu) (t : Nat) (change : Bool) : Otu :=
  let a := o.acc
  let no := t / 400000
  let step := a.interval * 400000
  let next := if a.stepped || decide (t + step ≤ o.clk.ft) then nextMultiple o.clk.ft step else t + step
  match a.freeSet with
  | none =>
    let o := { o with acc := { a with nextT := next, stepped := false, keyReg := a.keyReg || change } }
    let o := (OtuR.ev o OTU_ACC_EVENTS 1).dctrAdd 0x80 1
    o.contexts.foldl (fun o c => o.sendGap 6 c.1 c.2 no) o
  | some b =>
    let m := o.latch
    let h := o.cutHdr 0 no t a.interval a.stepped change m
    let sh : Shadow := { kind := 0, hdr := { h with flags := h.flags + 128 * b2n a.stepOvf }, image := m, marks := a.marks
                         lt := o.lt, ctxs := o.contexts, key := a.keyReg || change, stream := OtuR.flag o OTU_ACC_CTRL 2 }
    let a' := { (a.setShadow b (some sh)) with nextT := next, lastB := b, marks := [], stepOvf := false, stepped := false, keyReg := false }
    let o := OtuR.set (OtuR.ev { o with acc := a' } OTU_ACC_EVENTS 0) OTU_ACC_LAST_NO no
    ((if a.stepped then OtuR.ev o OTU_ACC_EVENTS 6 else o).markCut no).pulse 0x100 t

/-- R63: at T_s the new interval comes into force. -/
def Otu.switchNow (o : Otu) : Otu :=
  OtuR.set { o with acc := { o.acc with interval := OtuR.fld o OTU_ACC_SWITCH_INTERVAL 0 14 } } OTU_ACC_SWITCH_T absent

/-- R63, R83: a switch instant that a forward step passed over besides the pending cut: the interval changes, nothing is cut
there, the next cut is at the first multiple of the new interval, and it is KEY (log entry 37). -/
def Otu.switchPassed (o : Otu) : Otu :=
  if o.due (OtuR.get o OTU_ACC_SWITCH_T) then
    let o := o.switchNow
    { o with acc := { o.acc with nextT := nextMultiple o.clk.ft (o.acc.interval * 400000), keyReg := true } }
  else o

/-- The regular instant `t` is here: a switch due at it happens, and the cut fires if it is enabled. -/
def Otu.cutInstant (o : Otu) (t : Nat) : Otu :=
  let o := o.settleMarks
  let stepped := o.acc.stepped
  let change := decide (OtuR.get o OTU_ACC_SWITCH_T = t)
  let o := if change then o.switchNow else o
  let o := if OtuR.flag o OTU_ACC_CTRL 0 then o.regularCut t change
    else { o with acc := { o.acc with nextT := nextMultiple o.clk.ft (o.acc.interval * 400000), stepped := false
                                      keyReg := o.acc.keyReg || change } }
  if stepped then o.switchPassed else o

/-- R53, R62: the regular cut of this cycle, if its instant has come. -/
def Otu.cutIfDue (o : Otu) : Otu := if o.due o.acc.nextT then o.cutInstant o.acc.nextT else o

/-- ACCORD_CUT. -/
def execAccordCut (e : Edge) (s : State) : Host.Outcome State Fault Refusal :=
  .next (s.onOtu fun o => (o.go e).cutIfDue)

/-- ACCORD_SWITCH: after a forward step the one pending cut fires first, and no cut at an instant that was passed over (R83). -/
def execAccordSwitch (e : Edge) (s : State) : Host.Outcome State Fault Refusal :=
  .next (s.onOtu fun o =>
    let o := o.go e
    let t := OtuR.get o OTU_ACC_SWITCH_T
    if !o.due t then o else if o.acc.stepped then o.cutIfDue.switchPassed else o.cutInstant t)

/-- R132: a hang cut of job `tag` in this cycle, or once a shadow set is free. -/
def Otu.hangCut (o : Otu) (tag cause : Nat) (hangId : Option Nat) : Otu :=
  match o.acc.freeSet with
  | none => { o with acc := { o.acc with hangPending := o.acc.hangPending ++ [(tag, cause, hangId.getD absent)] } }
  | some b =>
    let o := o.settleMarks
    let m := o.latch
    let h := o.cutHdr 2 (OtuR.get o OTU_ACC_LAST_NO) o.ft 0 false false m
    let sh : Shadow := { kind := 2, hdr := h, image := m, lt := o.lt, ctxs := [(tag, o.rankOf tag)]
                         stream := OtuR.flag o OTU_ACC_CTRL 2
                         hang := some { cause, id := hangId.getD o.ft, waits := (o.hangTable tag).map (·.1), whole := (o.hangTable tag).filterMap (·.2)
                                        queues := (o.hangQueues tag o.ft).flatten } }
    OtuR.set { o with acc := { (o.acc.setShadow b (some sh)) with lastB := b } } OTU_HANG_LAST_T o.ft

/-- Hang cuts that wait for a shadow set take one as it becomes free (R132). -/
def Otu.hangCutWaiting (o : Otu) : Otu :=
  match o.acc.hangPending with
  | [] => o
  | (tag, cause, id) :: r =>
    ({ o with acc := { o.acc with hangPending := r } }).hangCut tag cause (if id = absent then none else some id)

/-! ### The dump (R72 to R75) -/

/-- R72: base address of the directory. -/
def Otu.dirBase (o : Otu) : Nat := OtuR.get o OTU_ACC_DUMP_BASE
/-- R72: base address of slot `k`. -/
def Otu.slotBase (o : Otu) (k : Nat) : Nat := o.dirBase + 65536 + 196608 * k

/-- R72: the first 48 bytes of the directory. -/
def Otu.dirBytes (o : Otu) : List Byte :=
  le 4 1 ++ le 4 0x30000 ++ le 4 (OtuR.get o OTU_ACC_DUMP_SLOTS) ++ le 4 512 ++ le 4 o.acc.lastSlot ++ le 4 0 ++
  le 8 o.acc.lastNo ++ (List.range 4).flatMap fun i => le 4 (Tbl.get (fun _ => ones32) o.acc.pins i)

/-- R72, R75: the directory shows the last slot and the pins. -/
def Otu.writeDir (o : Otu) : Otu := { o with hbm := o.hbm.splice o.dirBase 48 [(0, o.dirBytes)] }

/-- R72: the first slot from `k` on that is not pinned, of `n` slots. -/
def nextSlot (pins : List (Nat × Nat)) (n : Nat) : Nat → Nat → Option Nat
  | 0, _ => none
  | fuel + 1, k => if pins.any (·.2 == k % n) then nextSlot pins n fuel (k + 1) else some (k % n)

/-- R72: the chunks of a slot, at rising offsets. -/
def slotChunks (h : AccHdr) (marks : List StepMk) (m : Image) : List (Nat × List Byte) :=
  (0, AccHdr_bytes { h with stepCount := marks.length }) :: (0x80, marks.flatMap stepMkBytes) ::
  ((m.ctr.filter fun x => decide (x.1 < 256)).map fun x => (0x800 + 8 * x.1, le 8 x.2)) ++
  (List.range 512).flatMap fun e =>
    let base := 0x1000 + 320 * e
    (base, engHdrBytes e (Tbl.get (fun _ => 0) m.seq e) (hdrGet m.hdr e)) ::
    (m.ctr.filter fun x => 256 + 32 * e ≤ x.1 && x.1 < 288 + 32 * e).map fun x =>
      (base + 64 + 8 * (x.1 - 256 - 32 * e), le 8 x.2)

/-- R75: pin a slot in the first free entry. -/
def AccSt.pin (a : AccSt) (slot : Nat) : Option AccSt :=
  ((List.range 4).find? fun i => (a.pins.lookup i).isNone).map fun i => { a with pins := Tbl.ins a.pins i slot }

/-- UNPIN (R75). -/
def execUnpin (value : Nat) (e : Edge) (s : State) : Host.Outcome State Fault Refusal :=
  .next (s.onOtu fun o =>
    let o := o.go e
    let k := getF value 0 16
    if o.acc.pins.any (·.2 == k) then
      ({ o with acc := { o.acc with pins := o.acc.pins.filter fun x => decide (x.2 ≠ k) } }).writeDir
    else o)

/-! ### The header, the dump and the record -/

/-- ACCORD_SEAL (R65): 200 cycles after the cut the header is sealed, and the slot's HDR_VER becomes 0. -/
def execAccordSeal (e : Edge) (s : State) : Host.Outcome State Fault Refusal :=
  .next (s.onOtu fun o =>
    let o := o.go e
    match o.acc.oldest (fun x => !x.sealed) with
    | none => o
    | some (b, sh) =>
      if o.lt < sh.lt + 200 then o
      else
        let n := OtuR.get o OTU_ACC_DUMP_SLOTS
        let slot := if OtuR.flag o OTU_ACC_CTRL 1 then nextSlot o.acc.pins n (min n 8) o.acc.slotNext else none
        let a := o.acc.setShadow b (some { sh with sealed := true, slot := slot })
        match slot with
        | none => { o with acc := a }
        | some k => { o with acc := { a with slotNext := (k + 1) % n }, hbm := o.hbm.setByte (o.slotBase k) 0 })

/-- R76, R80: the reference copy of a context and kind. -/
def AccSt.ref (a : AccSt) (tag kind : Nat) : RefCopy :=
  (a.refs.find? fun r => r.tag == tag && r.kind == kind).getD { tag := tag, kind := kind }

/-- Replace it. -/
def AccSt.setRef (a : AccSt) (r : RefCopy) : AccSt :=
  { a with refs := r :: a.refs.filter fun x => !(x.tag == r.tag && x.kind == r.kind) }

/-- R80: every reference asks for a KEY: after a retrain, or a return of STREAM_EN. -/
def AccSt.keyAll (a : AccSt) : AccSt := { a with refs := a.refs.map fun r => { r with key := true } }

/-- R76, R80: encode and send the record of a shadow in context `tag`, and advance its reference copy. -/
def Otu.streamAccord (o : Otu) (sh : Shadow) (h : AccHdr) (tag rank : Nat) : Otu :=
  let m := if tag = 0 then sh.image else Image_forJob tag sh.image
  let r := o.acc.ref tag sh.kind
  let key := r.key || sh.key || decide (r.since + 1 ≥ OtuR.fld o OTU_ACC_CTRL 4 12)
  let h := { h with tag := tag, rank := rank, prevNo := if key then absent else r.no, flags := h.flags + b2n key }
  let body := accordRecord h sh.marks key r.image m
  let o := { o with acc := o.acc.setRef { tag, kind := sh.kind, image := m, no := h.no, since := if key then 0 else r.since + 1, key := false } }
  let o := if key then o.dctrAdd 0x82 1 else o
  let o := if sh.kind = 0 then o.updJob tag fun j => { j with lastAcc := h.no } else o
  o.send (if sh.kind = 2 then 2 else 1) 0 0x01 tag body

/-- R133: what a hang cut sends: notice, hang accord, open waits, queue samples. -/
def Otu.streamHang (o : Otu) (sh : Shadow) (h : AccHdr) : Otu :=
  match sh.hang, sh.ctxs.head? with
  | some ⟨cause, id, waits, whole, queues⟩, some (tag, rank) =>
    let lp := ((o.job? tag).map (·.lastProgress)).getD absent
    let o := o.send 2 0 0x03 tag (hangNoticeBytes
      { cause, tag, nOpen := waits.length, tCut := h.tCut, lastProgress := lp, rank,
        dumpSlot := if o.acc.pins.any (fun x => some x.2 == sh.slot) then h.dumpSlot else ones32, hangId := id })
    let o := if cause = 0 then
        o.event { code := 0x30, sev := 4, tag := tag, rank := some rank, payload := le 8 h.tCut ++ le 4 h.dumpSlot } else o
    let o := if sh.stream then o.streamAccord sh h tag rank else o
    let o := waits.foldl (fun o w => o.send 2 0 0x06 tag (syncBytes w)) o
    let o := whole.foldl (fun o w => o.send 2 0 0x06 0 (syncBytes w)) o
    let rs := qsRecords 0 h.tCut sh.lt (OtuR.get o OTU_QS_SEQ) (getF h.flags 1 3 + 8 * b2n (bit h.flags 4)) false
      ((chunks 16 4097 queues).map fun c => (tag, some c))
    let o := OtuR.set o OTU_QS_SEQ ((OtuR.get o OTU_QS_SEQ + rs.length) % 2 ^ 32)
    rs.foldl (fun o r => o.send 2 0 0x05 tag r.2) o
  | _, _ => o

/-- ACCORD_DUMP_DONE (R65, R74, R75): the slot is written (`ok`) or failed, the record is queued, and the set is free. -/
def execAccordDumpDone (ok : Bool) (e : Edge) (s : State) : Host.Outcome State Fault Refusal :=
  .next (s.onOtu fun o =>
    let o := o.go e
    match o.acc.oldest (·.sealed) with
    | none => o
    | some (b, sh) =>
      let dumped := ok && sh.slot.isSome
      let h : AccHdr := { sh.hdr with dumpSlot := if dumped then sh.slot.getD ones32 else ones32, flags := sh.hdr.flags + 256 * b2n dumped }
      let tag := if sh.kind = 2 then ((sh.ctxs.head?).map (·.1)).getD 0 else 0
      let o : Otu :=
        match sh.slot with
        | none => o
        | some k =>
          if ok then
            let m := if tag = 0 then sh.image else Image_forJob tag sh.image
            let dh := { h with flags := h.flags + 1, prevNo := absent, tag := tag, rank := if tag = 0 then 0 else o.rankOf tag }
            let o := { o with hbm := o.hbm.splice (o.slotBase k) 196608 (slotChunks dh sh.marks m)
                              acc := { o.acc with lastSlot := k, lastNo := h.no } }
            let o : Otu :=
              if sh.kind = 2 then
                (match o.acc.pin k with
                 | some a => { o with acc := a }
                 | none => OtuR.ev o OTU_SYNC_EVENTS 2)
              else o
            o.writeDir
          else (OtuR.ev o OTU_ACC_EVENTS 2).dctrAdd 0x83 1
      let o := if sh.kind = 2 then o.streamHang sh h
        else if sh.stream then sh.ctxs.foldl (fun o c => o.streamAccord sh h c.1 c.2) o else o
      ({ o with acc := o.acc.setShadow b none }).hangCutWaiting)

/-! ### Step marks (R69) -/

/-- R69: take a step mark: into the shadow cut in this very cycle, or held for the next cut; more than 16 are dropped. -/
def Otu.addMark (o : Otu) (m : StepMk) : Otu :=
  let drop (o : Otu) : Otu := (OtuR.ev o OTU_ACC_EVENTS 3).dctrAdd 0x81 1
  match o.acc.oldest (fun x => x.kind == 0 && !x.sealed && decide (m.lt ≤ x.lt)) with
  | some (b, sh) =>
    if sh.marks.length < 16 then { o with acc := o.acc.setShadow b (some { sh with marks := sh.marks ++ [m] }) }
    else drop { o with acc := o.acc.setShadow b (some { sh with hdr := { sh.hdr with flags := setBit sh.hdr.flags 7 } }) }
  | none =>
    if o.acc.marks.length < 16 then { o with acc := { o.acc with marks := o.acc.marks ++ [m] } }
    else drop { o with acc := { o.acc with stepOvf := true } }

/-- R131: job `tag` makes progress, which ends its active hang. -/
def Otu.progress (o : Otu) (tag : Nat) : Otu :=
  if tag = 0 then o else o.updJob tag fun j => { j with lastProgress := o.ft, hang := false }

/-! ### Fast accords (R81, R82) -/

/-- R81: the selection entries, VALID or not, that are not 0. -/
def Otu.fastSel (o : Otu) : List (Nat × Nat) :=
  ((List.range 64).map fun k => (k, OtuR.fld o (OTU_ACC_FAST_SEL k) 0 16)).filter fun x => decide (x.2 ≠ 0)

/-- R81: the value that a fast cut latches in each slot that is VALID, as context `tag` sees it. -/
def fastValues (m : Image) (sel : List (Nat × Nat)) : List (Nat × Nat) :=
  ((sel.filter fun x => bit x.2 15).map fun x => (x.1, wordVal (getF x.2 0 15) (Tbl.get (fun _ => 0) m.ctr (getF x.2 0 15)))).filter fun x => decide (x.2 ≠ 0)

/-- R81: the fast record of a context. -/
def Otu.streamFast (o : Otu) (h : AccHdr) (m : Image) (sel : List (Nat × Nat)) (key : Bool) (tag rank : Nat) : Otu :=
  let vals := fastValues (if tag = 0 then m else Image_forJob tag m) sel
  let r := o.acc.ref tag 1
  let key := r.key || key || decide (r.since + 1 ≥ OtuR.fld o OTU_ACC_FAST_CTRL 18 12)
  let sec := fastSection key sel r.image.ctr vals
  let h := { h with tag := tag, rank := rank, prevNo := if key then absent else r.no, flags := h.flags + b2n key, lenCtr := sec.length }
  let o := { o with acc := o.acc.setRef { tag, kind := 1, image := { ctr := vals }, no := h.no, since := if key then 0 else r.since + 1, key := false } }
  let o := if key then o.dctrAdd 0x82 1 else o
  o.send 1 1 0x01 tag (AccHdr_bytes h ++ sec)

/-- R53, R81: the fast cut of this cycle, if its instant has come. -/
def Otu.fastCutIfDue (o : Otu) : Otu :=
  let t := o.acc.fastNextT
  if !(OtuR.flag o OTU_ACC_FAST_CTRL 0 && o.due t) then o
  else
    let o := o.settleMarks
    let f := OtuR.fld o OTU_ACC_FAST_CTRL 1 17
    let step := f * 40000
    let stepped := o.acc.fastStepped
    let next := if stepped || decide (t + step ≤ o.clk.ft) then nextMultiple o.clk.ft step else t + step
    let sel := o.fastSel
    let key := o.acc.fastKey || decide (sel ≠ o.acc.fastSel)
    let m := o.latch
    let h := o.cutHdr 1 (t / 40000) t f stepped false m
    let o := ({ o with acc := { o.acc with fastNextT := next, fastStepped := false } } : Otu).pulse 0x101 t
    let o := if stepped then OtuR.ev o OTU_ACC_EVENTS 6 else o
    if OtuR.flag o OTU_ACC_CTRL 2 then
      let o := { o with acc := { o.acc with fastSel := sel, fastKey := false } }
      o.contexts.foldl (fun o c => o.streamFast h m sel key c.1 c.2) o
    else { o with acc := { o.acc with fastSel := sel, fastKey := key } }

/-- FAST_CUT. -/
def execFastCut (e : Edge) (s : State) : Host.Outcome State Fault Refusal :=
  .next (s.onOtu fun o => (o.go e).fastCutIfDue)

/-- R81: whether a fast interval of `f` units of 10 µs divides a regular interval of `i` units of 100 µs. -/
def fastDivides (f i : Nat) : Bool := f ≠ 0 && (10 * i) % f == 0

/-- FAST_CTRL_WRITE: an interval that breaks R81, or an armed switch's new interval, is refused whole. -/
def Otu.fastCtrlWrite (o : Otu) (value : Nat) : Otu :=
  let o' := OtuR.write o OTU_ACC_FAST_CTRL 4 value
  let f := OtuR.fld o' OTU_ACC_FAST_CTRL 1 17
  let en := OtuR.flag o' OTU_ACC_FAST_CTRL 0
  let armed := OtuR.get o OTU_ACC_SWITCH_T ≠ absent
  if en && !(fastDivides f o.acc.interval && (!armed || fastDivides f (OtuR.fld o OTU_ACC_SWITCH_INTERVAL 0 14))) then
    OtuR.ev o OTU_ACC_EVENTS 7
  else
    let same := OtuR.flag o OTU_ACC_FAST_CTRL 0 && OtuR.fld o OTU_ACC_FAST_CTRL 1 17 == f
    let next := if !en || o.clk.st = 0 then absent else if same then o.acc.fastNextT else nextMultiple o.clk.ft (f * 40000)
    { o' with acc := { o'.acc with fastNextT := next } }

/-- FAST_CTRL_WRITE. -/
def execFastCtrlWrite (value : Nat) (e : Edge) (s : State) : Host.Outcome State Fault Refusal :=
  .next (s.onOtu fun o => (o.go e).fastCtrlWrite value)

/-- FAST_SEL_WRITE: the selection takes effect at the next fast cut. -/
def execFastSelWrite (k value : Nat) (e : Edge) (s : State) : Host.Outcome State Fault Refusal :=
  .next (s.onOtu fun o => let o := o.go e; if k < 64 then OtuR.write o (OTU_ACC_FAST_SEL k) 4 value else o)

/-! ### The switch (R63) and the KEY requests (R93) -/

/-- R54, R63: a write of OTU_ACC_SWITCH_T; a switch instant that has been reached is a late action as well. -/
def Otu.switchWrite (o : Otu) (t : Nat) : Otu :=
  let n := OtuR.fld o OTU_ACC_SWITCH_INTERVAL 0 14
  if t = absent then OtuR.set o OTU_ACC_SWITCH_T absent
  else if o.clk.st = 0 || decide (t ≤ o.clk.ft) || t % (o.acc.interval * 400000) != 0 || t % (n * 400000) != 0 ||
       (OtuR.flag o OTU_ACC_FAST_CTRL 0 && !fastDivides (OtuR.fld o OTU_ACC_FAST_CTRL 1 17) n) then
    let o := OtuR.ev (OtuR.set o OTU_ACC_SWITCH_T absent) OTU_ACC_EVENTS 4
    if o.clk.st != 0 && decide (t ≤ o.clk.ft) then o.actionLate 6 t 0 else o
  else OtuR.set o OTU_ACC_SWITCH_T t

/-- SWITCH_ARM. -/
def execSwitchArm (value : Nat) (e : Edge) (s : State) : Host.Outcome State Fault Refusal :=
  .next (s.onOtu fun o => (o.go e).switchWrite (value % 2 ^ 64))

/-- SWITCH_CANCEL. -/
def execSwitchCancel (e : Edge) (s : State) : Host.Outcome State Fault Refusal :=
  .next (s.onOtu fun o => (o.go e).switchWrite absent)

/-- KEY_REQ_REGULAR: the next regular cut is KEY. -/
def execKeyReqRegular (e : Edge) (s : State) : Host.Outcome State Fault Refusal :=
  .next (s.onOtu fun o => let o := o.go e; { o with acc := { o.acc with keyReg := true } })

/-- KEY_REQ_FAST: the next fast cut is KEY. -/
def execKeyReqFast (e : Edge) (s : State) : Host.Outcome State Fault Refusal :=
  .next (s.onOtu fun o => let o := o.go e; { o with acc := { o.acc with fastKey := true } })

end Sys2Proof.Machine
end

