-- ==== Sys2Proof/Machine/AtCore.lean ====
section
/-!
DEFINITION. Machine/AtCore.lean: atomiser messages as bytes, and the record of the broadcasts applied (09 R237 to R241).
-/
namespace Sys2Proof.Machine
open Sys2Proof

/-- R241: whether a BSEQ is a duplicate: in the map, or below it. -/
def BMap.seen (m : BMap) (b : Nat) : Bool :=
  m.high ≠ 0 && (b == m.high || m.map.contains b || decide (b + 256 < m.high))

/-- R241: whether a BSEQ is still within the map. -/
def BMap.holds (m : BMap) (b : Nat) : Bool := m.high ≠ 0 && (b == m.high || m.map.contains b)

/-- R241: record a BSEQ as applied. -/
def BMap.add (m : BMap) (b : Nat) : BMap :=
  if b > m.high then
    { high := b, map := ((if m.high = 0 then [] else [m.high]) ++ m.map).filter fun x => decide (b ≤ x + 256) }
  else { m with map := b :: m.map }

/-- R237, R238: an atomiser message: the 64-byte header and its payload. -/
def atBytes (type : Nat) (h : AtHdr) (from_ : Nat) (payload : List Byte) : List Byte :=
  let a := le 1 1 ++ le 1 type ++ le 2 (b2n h.reissue) ++ le 2 h.tag ++ le 1 h.scope ++ le 1 h.issue ++ le 8 h.bseq ++
    le 8 h.tAct ++ le 8 h.ref ++ le 4 h.treeEpoch ++ le 4 from_ ++ le 4 payload.length
  a ++ le 4 (crc32c (a ++ payload)) ++ zeros 16 ++ payload

/-- R240: the DONE payload; the widths of its counts are the model's (log entry 46). -/
def doneBytes (d : DoneMsg) : List Byte :=
  le 4 d.applied ++ le 4 d.notApplied ++ le 4 d.failed.length ++ le 4 d.statuses.length ++
  d.failed.flatMap (le 4) ++ d.statuses.flatMap fun x => le 4 (x.1 % 2 ^ 20 + 2 ^ 24 * (x.2 % 256))

/-- R240: an upward answer to the message `h`: HOP_ACK 0x80 or DONE 0x81. -/
def atAnswer (h : AtHdr) : AtHdr := { tag := h.tag, scope := h.scope, bseq := 0, ref := h.bseq, treeEpoch := h.treeEpoch }

/-- The broadcasts applied in a context. -/
def bmapOf (l : List (Nat × BMap)) (tag : Nat) : BMap := Tbl.get (fun _ => {}) l tag

end Sys2Proof.Machine
end

