-- ==== Sys2Proof/Machine/Engine.lean ====
section
/-!
DEFINITION. Machine/Engine.lean: engine counters, event selection, snapshots and global channels (04 R95 to R120).
-/
namespace Sys2Proof.Machine
open Sys2Proof

/-! ### Grants (06 R146, R147) -/

/-- Grant entry `g` in force in cycle `lt`. -/
def Otu.grant (o : Otu) (g : Nat) : Grant := (Tbl.get (fun _ => ⟨{}, {}, 0⟩) o.grants g).inForce o.lt

/-- R147: whether a grant in force, unexpired at fleet time `t`, has scope bit `b` for owner `tag`. -/
def Otu.grantLiveAt (o : Otu) (t b tag : Nat) : Bool :=
  o.clk.st != 0 && (List.range 4).any fun g =>
    let x := o.grant g
    x.valid && decide (t < x.expiry) && bit x.scope b && x.tag == tag

/-- R103, R105: whether a grant with scope bit `b` is live now for owner `tag`. -/
def Otu.grantLive (o : Otu) (b tag : Nat) : Bool := o.grantLiveAt o.clk.ft b tag

/-- R103, R105: the grant that admits a selection for owner `tag` by scope bit `b`, with its entry. -/
def Otu.admittedBy (o : Otu) (b tag : Nat) : Option (Nat × Grant) :=
  if o.clk.st = 0 then none
  else ((List.range 4).map fun g => (g, o.grant g)).find? fun x =>
    x.2.valid && decide (o.clk.ft < x.2.expiry) && bit x.2.scope b && x.2.tag == tag

/-- R103, R105: whether the grant `a` is the one that entry `a.g` holds, live at fleet time `t`. -/
def Admit.liveIn (a : Admit) (t : Nat) (x : Grant) : Bool :=
  x.valid && decide ({ x with ended := a.grant.ended } = a.grant) && decide (t < x.expiry)

/-- R103, R105: whether the selection that key `key` names still counts in this cycle: its grant was live when the cycle
began, and it has not lapsed before; in the cycle of an EVSEL write the selection before it stands. -/
def Otu.admitted (o : Otu) (e key : Nat) : Bool :=
  match (o.eng e).admits.lookup key with
  | none => false
  | some a => if a.at_ = o.lt then a.was
    else o.clk.st != 0 && a.liveIn o.ftBefore (o.grant a.g) && a.lapsed.all fun c => decide (c ≥ o.lt)

/-- R103, R105: an accepted write notes the grant that admits it, and so begins afresh after a lapse. -/
def Otu.noteAdmit (o : Otu) (e key b : Nat) : Otu :=
  let x := o.eng e
  match o.admittedBy b x.tag with
  | none => o
  | some (g, gr) => o.setEng e { x with admits := Tbl.ins x.admits key { g, grant := gr, at_ := o.lt, was := o.admitted e key } }

/-! ### The event catalogue (R103, R106) -/

/-- The catalogue: first class, last class, the kinds that list it (bit per KIND code), and whether it is marked P. -/
def evCatalogue : List (Nat × Nat × Nat × Bool) :=
  [ (0x00, 0x0C, 0x7F, false), (0x10, 0x1F, 0x7F, false), (0x20, 0x20, 0x03, false), (0x21, 0x23, 0x01, false),
    (0x24, 0x24, 0x17, false), (0x25, 0x25, 0x03, false), (0x26, 0x26, 0x01, false), (0x27, 0x27, 0x03, false),
    (0x28, 0x28, 0x12, false), (0x29, 0x2A, 0x03, false), (0x2B, 0x2B, 0x02, false), (0x2C, 0x2C, 0x10, false),
    (0x40, 0x41, 0x3F, false), (0x42, 0x43, 0x27, false), (0x44, 0x44, 0x13, false), (0x45, 0x46, 0x3F, false),
    (0x47, 0x47, 0x7F, false), (0x60, 0x61, 0x7F, false), (0x62, 0x63, 0x64, false), (0x80, 0x85, 0x04, false),
    (0xA0, 0xA2, 0x08, false), (0xA3, 0xA5, 0x20, false), (0xA6, 0xA7, 0x28, false), (0xC0, 0xC7, 0x40, false),
    (0xE0, 0xE3, 0x1B, false), (0xE4, 0xE5, 0x3F, false), (0xE6, 0xE6, 0x13, false), (0xF0, 0xF1, 0x7F, true),
    (0xF2, 0xF2, 0x3F, true) ]

/-- R106: whether class `c` is listed for engine kind `k`, and open to a window that is privileged or not. -/
def classListed (c k : Nat) (privileged : Bool) : Bool :=
  evCatalogue.any fun x => x.1 ≤ c && c ≤ x.2.1 && bit x.2.2.1 k && (privileged || !x.2.2.2)

/-- R106: the classes of type L. -/
def classIsLevel (c : Nat) : Bool := [0x0C, 0x2B, 0x44, 0x45, 0x60, 0x63, 0x85, 0xA5].contains c

/-- R103, R105: whether the OTU accepts an EVSEL value for an engine that `tag` owns. -/
def Otu.evselOk (o : Otu) (privileged : Bool) (eng k tag v : Nat) : Bool :=
  let cls := getF v 0 16
  decide (getF v 32 3 < 4) &&
  (if cls < 0x8000 then classListed cls (engKind eng) privileged else privileged && o.grantLive 4 tag) &&
  (!bit v 37 || privileged) && (!bit v 38 || (privileged && o.grantLive 2 tag)) && (privileged || k ≥ 4)

/-! ### Counter writes -/

/-- R97: hardware changes a counter word; a read in this cycle still sees the word before it. -/
def Otu.ctrSet (o : Otu) (e c v : Nat) : Otu := OtuR.touch o (OTU_ENG_CTR e c) fun _ => v

/-- R107: a counter wraps: EVENTS.WRAP, and no clear of this cycle takes its sticky bit. -/
def Otu.wrapped (o : Otu) (e c : Nat) : Otu :=
  OtuR.ev { o with cyc := { o.cyc with wraps := (e, c) :: o.cyc.wraps } } (OTU_ENG_EVENTS e) 1

/-- R107: add `n` to counter `c` of an engine, wrapping with its sticky bit. -/
def Otu.ctrAdd (o : Otu) (e c n : Nat) : Otu :=
  if n = 0 then o
  else
    let r := addWord (ctrWidth c) (OtuR.get o (OTU_ENG_CTR e c)) n
    let o := o.ctrSet e c r.1
    if r.2 then o.wrapped e c else o

/-- R66, R100: the addition of one cycle to PMC counter `c`: discarded if a PMC write set it in this cycle, and added to
the word that a command start's reset replaced if there was one. -/
def Otu.pmcAdd (o : Otu) (e c n : Nat) : Otu :=
  let x := o.eng e
  if n = 0 || (x.pmcAt = o.lt && x.pmcSet.contains c) then o
  else if x.startAt = o.lt then
    match x.startOld.lookup c with
    | some w =>
      let r := addWord 48 w n
      let o := o.setEng e { x with startOld := x.startOld.map fun p => if p.1 = c then (c, r.1) else p }
      if r.2 then (o.ctrSet e c (setBit (OtuR.get o (OTU_ENG_CTR e c)) 63)).wrapped e c else o
    | none => o.ctrAdd e c n
  else o.ctrAdd e c n

/-! ### Events at the taps (R104 to R106) -/

/-- R104: the accumulation of x(t) moves on to cycle `lt`; a PMC whose EVSEL the cycle before set forgets. -/
def EngSt.roll (x : EngSt) (lt : Nat) : EngSt :=
  if x.xAt = lt then x
  else { x with xAt := lt, xs := [], xNew := [], xprev := x.xs.filter fun p => !x.xNew.contains p.1 }

/-- R104: what a PMC with EVSEL `v` has added in a cycle whose x has come to `x`, with `p` before it. -/
def evAmount (v p x : Nat) : Nat :=
  let n := getF v 16 16
  match getF v 32 3 with
  | 1 => x
  | 2 => b2n (decide (x > n))
  | 3 => b2n (decide (x > n) && decide (p ≤ n))
  | _ => 0

/-- R104: PMC_k's x(t) grows by `n`. -/
def Otu.pmcTap (o : Otu) (e k n : Nat) : Otu :=
  let v := o.evLatched e k
  let x := (o.eng e).roll o.lt
  let a := Tbl.get (fun _ => 0) x.xs k
  let p := Tbl.get (fun _ => 0) x.xprev k
  (o.setEng e { x with xs := Tbl.put (fun _ => 0) x.xs k (a + n) }).pmcAdd e (k + 1) (evAmount v p (a + n) - evAmount v p a)

/-- R104: `n` further cycles with the same x(t) as this one's. -/
def Otu.pmcRepeat (o : Otu) (e k n : Nat) : Otu :=
  if n = 0 then o
  else
    let x := o.eng e
    let a := Tbl.get (fun _ => 0) x.xs k
    (o.setEng e { x with xprev := Tbl.put (fun _ => 0) x.xprev k a }).pmcAdd e (k + 1) (n * evAmount (o.evLatched e k) a a)

/-- R102 to R105: the levels that EVSEL_k counts in this cycle, as a mask. -/
def Otu.plNow (o : Otu) (e k : Nat) : Nat :=
  let v := o.evLatched e k
  b2n (bit v 36) + 2 * b2n (bit v 37) + 4 * b2n (bit v 38 && o.admitted e (2 * k))

/-- R109: the classes that count canaries, which belong to no level. -/
def canaryClass (c : Nat) : Bool := 0xE4 ≤ c && c ≤ 0xE6

/-- R103 to R106: whether PMC_k counts class `cls` at privilege level `level` now. -/
def Otu.pmcCounts (o : Otu) (e k cls level : Nat) : Bool :=
  getF (o.evLatched e k) 0 16 == cls && (canaryClass cls || bit (o.plNow e k) level)

/-- R97, R106: `n` events of a class at the taps of an ACTIVE engine, in this cycle. -/
def Otu.tap (o : Otu) (e cls level n : Nat) : Otu :=
  if n = 0 || (o.eng e).st.inForce o.lt ≠ 0 then o
  else ((List.range 8).filter fun k => o.pmcCounts e k cls level).foldl (fun o k => o.pmcTap e k n) o

/-- R106: the classes whose events the OTU sees by other commands than ENGINE_CYCLE, or derives from its slots. -/
def classDerived (kind c : Nat) : Bool :=
  decide (c ≤ 0x0C) || (0x10 ≤ c && c ≤ 0x1F) || (0x22 ≤ c && c ≤ 0x24) || c == 0x60 || c == 0x61 ||
  (c == 0xA0 && kind == 3) || (0xC0 ≤ c && c ≤ 0xC6) || (0xE0 ≤ c && c ≤ 0xE6) || c == 0xF0 || c == 0xF1

/-- R106: the level of a SEQ engine's code. -/
def Otu.seqLevel (o : Otu) (e : Nat) : Nat := (Tbl.get (fun _ => ({} : SilSeq)) o.silSeq (2 * (e / 16) + (e % 16 - 14))).level

/-! ### Configuration -/

/-- R102: the engine's configuration words as they were, kept while a write of this cycle may be latched over. -/
def Otu.keepEv (o : Otu) (e : Nat) (ks : List Nat) : Otu :=
  let x := o.eng e
  let old := if x.evAt = o.lt then x.evOld else []
  let word (k : Nat) : Nat := OtuR.get o (if k < 8 then OTU_ENG_EVSEL e k else OTU_ENG_CFG_EPOCH e)
  let add := (ks.filter fun k => (old.lookup k).isNone).map fun k => (k, word k)
  o.setEng e { x with evAt := o.lt, evOld := old ++ add }

/-- R100, R102, R117: CFG_EPOCH counts, wrapping. -/
def Otu.bumpEpoch (o : Otu) (e : Nat) : Otu :=
  OtuR.set o (OTU_ENG_CFG_EPOCH e) ((OtuR.get o (OTU_ENG_CFG_EPOCH e) + 1) % 2 ^ 32)

/-- R100: a PMC write that the window may make. An increment of the same cycle that it discards may already have wrapped:
the sticky bit and EVENTS.WRAP then stay set (DESIGN CHOICE, log entry 42). -/
def Otu.pmcWrite (o : Otu) (e k value : Nat) : Otu :=
  let c := k + 1
  let x := o.eng e
  let sticky (w : Nat) : Nat := if bit w 63 then 2 ^ 63 else 0
  let o :=
    match (if x.startAt = o.lt then x.startOld.lookup c else none) with
    | some w => o.setEng e { x with startOld := x.startOld.map fun (p : Nat × Nat) => if p.1 = c then (c, value % 2 ^ 48 + sticky w) else p }
    | none => o.ctrSet e c (value % 2 ^ 48 + sticky (OtuR.get o (OTU_ENG_CTR e c)))
  let x := o.eng e
  let x := if x.pmcAt = o.lt then { x with pmcSet := c :: x.pmcSet } else { x with pmcAt := o.lt, pmcSet := [c] }
  let x := if x.evAt = o.lt then { x with evOld := x.evOld.map fun (p : Nat × Nat) => if p.1 = 8 then (8, (p.2 + 1) % 2 ^ 32) else p } else x
  (o.setEng e x).bumpEpoch e

/-- R116: whether the job of a path may see the engine; none for a discarded path. -/
def Otu.sees (o : Otu) (p : Path) (e : Nat) : Bool :=
  match p with
  | .otu => decide (e < 512)
  | .tenant w => (match o.winTag w with | some tag => decide (e < 512) && (o.eng e).tag == tag | none => false)
  | .prd => false
  | .bar2 => false

/-- R116: the privileged path. -/
def Path.privileged : Path → Bool
  | .otu => true
  | .prd => true
  | .tenant _ => false
  | .bar2 => false

/-- PMC_WRITE: a tenant may write PMC_4 to PMC_7 of an engine its job owns. -/
def execPmcWrite (p : Path) (eng k value : Nat) (e : Edge) (s : State) : Host.Outcome State Fault Refusal :=
  .next (s.onOtu fun o =>
    let o := o.go e
    if o.sees p eng && k < 8 && (p.privileged || k ≥ 4) then o.pmcWrite eng k value else o)

/-- R102, R103: an EVSEL write through a window that sees the engine. -/
def Otu.evselWrite (o : Otu) (privileged : Bool) (e k value : Nat) : Otu :=
  if o.evselOk privileged e k (o.eng e).tag value then
    let o := if bit value 38 then o.noteAdmit e (2 * k) 2 else o
    let o := if getF value 0 16 ≥ 0x8000 then o.noteAdmit e (2 * k + 1) 4 else o
    let o := o.keepEv e [k, 8]
    let x := (o.eng e).roll o.lt
    let o := o.setEng e { x with xNew := k :: x.xNew }
    (OtuR.write o (OTU_ENG_EVSEL e k) 8 value).bumpEpoch e
  else OtuR.ev o (OTU_ENG_EVENTS e) 0

/-- EVSEL_WRITE. -/
def execEvselWrite (p : Path) (eng k value : Nat) (e : Edge) (s : State) : Host.Outcome State Fault Refusal :=
  .next (s.onOtu fun o =>
    let o := o.go e
    if o.sees p eng && k < 8 then o.evselWrite p.privileged eng k value else o)

/-! ### Commands on engines -/

/-- R66, R101, R102: a job command starts: CMD_SEQ counts and the counters in reset-on-command-start mode reset. A canary
abort that it waited for is over (R187). -/
def Otu.cmdStart (o : Otu) (e : Nat) : Otu :=
  let seq := OtuR.get o (OTU_ENG_CMD_SEQ e)
  let cs := ((List.range 8).filter fun k => bit (o.evLatched e k) 35).map (· + 1)
  let old := (32, seq) :: cs.map fun c => (c, OtuR.get o (OTU_ENG_CTR e c))
  let x := o.eng e
  let o := o.setEng e { x with running := x.running + 1, startAt := o.lt, startOld := old, abort := x.abort.filter fun a => decide (a.1 ≥ o.lt) }
  let o := cs.foldl (fun o c =>
    let w := OtuR.get o (OTU_ENG_CTR e c)
    o.ctrSet e c (if bit w 63 then 2 ^ 63 else 0)) o
  OtuR.set o (OTU_ENG_CMD_SEQ e) ((seq + 1) % 2 ^ 32)

/-- R131: a job command completes, which is progress of the engine's owner. -/
def Otu.cmdComplete (o : Otu) (e : Nat) : Otu :=
  let x := o.eng e
  (o.setEng e { x with running := x.running - 1, doneAt := some o.lt }).progress x.tag

/-- R214: the bucket order record; it lists the first 256 indices. -/
def BucketOrder.bytes (b : BucketOrder) : List Byte :=
  le 1 1 ++ le 1 b.flags ++ le 2 b.n ++ le 2 b.tag ++ le 2 0 ++ le 8 b.collSeq ++ le 4 (b.rank % 2 ^ 20) ++ le 4 0 ++ le 8 b.ftFirst ++
    le 8 b.ftLast ++ le 8 b.orderCrc ++ (b.order.take (min b.n 256)).flatMap (le 2)

/-- R214: the record of a collective's order, in a job. -/
def BucketRun.record (x : BucketRun) (tag rank : Nat) : BucketOrder :=
  let n := x.order.length
  { flags := b2n (decide (n > 256)), n, tag, collSeq := x.collSeq, rank, ftFirst := x.ftFirst, ftLast := x.ftLast
    orderCrc := crc64 (x.order.flatMap (le 2)), order := x.order.take 256 }

/-- R214: the CRE's bucket order goes to the engine's job and to the fleet context. Without fleet time its instants are all ones
(R40). -/
def Otu.bucketOrder (o : Otu) (e : Nat) (x : BucketRun) : Otu :=
  let tag := (o.eng e).tag
  if engKind e ≠ 3 || x.order.length = 0 || x.order.length > 65535 then o
  else
    let x := if o.clk.st = 0 then { x with ftFirst := absent, ftLast := absent } else x
    let body := (x.record tag (o.rankOf tag)).bytes
    let o := o.send 9 0 0x0C 0 body
    if tag = 0 then o else o.send 9 0 0x0C tag body

/-- CMD_COMPLETE. -/
def execCmdComplete (c : CmdEnd) (e : Edge) (s : State) : Host.Outcome State Fault Refusal :=
  .next (s.onOtu fun o =>
    let o := o.go e
    if c.eng < 512 then
      let o := match c.run with | some x => o.bucketOrder c.eng x | none => o
      (o.cmdComplete c.eng).tap c.eng 0x07 (o.eng c.eng).level 1
    else o)

/-- R67: a change of state takes effect from the next cycle; R104: a return to ACTIVE forgets x_prev. -/
def Otu.engineState (o : Otu) (e st : Nat) : Otu :=
  let x := o.eng e
  let back := st % 4 = 0 && x.st.cur ≠ 0
  o.setEng e { x with st := x.st.write o.lt (st % 4), xprev := if back then [] else x.xprev, xs := if back then [] else x.xs }

/-! ### One engine cycle (R97, R98, R104 to R111) -/

/-- R110: issue slots of a kind. -/
def slotWidth (k : Nat) : Nat := if k = 1 then 2 else 1

/-- R111: the reasons that are not reserved for a kind, as a mask. -/
def reasonMask (k : Nat) : Nat := if k = 4 || k = 6 then 0x9FFF else 0xBFFF

/-- R108: the class of a slot: 0 Retired, 1 Wasted, 3 Back-starved, 2 Front-starved, decided in this order; `ready` says that
a job command is in execution, or heads the queue with its descriptor decoded. -/
def SlotFact.cls (ready : Bool) (x : SlotFact) : Nat :=
  match x.work with
  | some f => if f = .kept then 0 else 1
  | none => if ready && x.waits ≠ 0 then 3 else 2

/-- A cycle's slots, classed. -/
abbrev Slots : Type := List (Nat × SlotFact)

/-- R108, R110: the classes of the cycle's slots, exactly W of them; a slot that the taps do not show is Front-starved. -/
def EngCycle.slotsOf (c : EngCycle) (kind : Nat) (ready : Bool) : Slots :=
  ((c.slots ++ List.replicate (slotWidth kind) ({} : SlotFact)).take (slotWidth kind)).map fun x => (x.cls ready, x)

/-- The slots of class `k` whose level is in the mask `pl`. -/
def Slots.of (l : Slots) (k pl : Nat) : Slots := l.filter fun x => x.1 == k && bit pl x.2.level

/-- Slots of class `k`. -/
def Slots.count (l : Slots) (k : Nat) : Nat := (l.filter (·.1 == k)).length

/-- R111: 0 BUSY, 1 STALL, 2 IDLE. -/
def Slots.activity (l : Slots) : Nat := if l.count 0 + l.count 1 > 0 then 0 else if l.count 3 > 0 then 1 else 2

/-- R111: the one stall reason of a STALL cycle. -/
def Slots.reason (l : Slots) (kind : Nat) : Nat :=
  let m := l.foldl (fun m x => if x.1 = 3 then m ||| x.2.waits else m) 0
  ((setBits 15 (m &&& reasonMask kind)).head?).getD 15

/-- R104 to R106: x(t) of a class that the slots decide, over the levels in the mask `pl`. A cycle that belongs to no command
counts at the level that its slots show (DESIGN CHOICE, log entry 40). -/
def Slots.x (l : Slots) (c : EngCycle) (kind cls pl : Nat) : Nat :=
  let n (k : Nat) : Nat := (l.of k pl).length
  let any : Nat := b2n (l.any fun x => bit pl x.2.level)
  let fate (f : SlotFate) : Nat := ((l.of 1 pl).filter fun x => x.2.work == some f).length
  match cls with
  | 0x00 => any
  | 0x01 => n 0 + n 1
  | 0x02 => n 0
  | 0x03 => n 1
  | 0x04 => n 2
  | 0x05 => n 3
  | 0x08 => b2n (decide (n 0 + n 1 > 0))
  | 0x09 => b2n (l.activity == 1 && decide (n 3 > 0))
  | 0x0A => b2n (l.activity == 2) * any
  | 0x22 => n 0
  | 0x23 => fate .zeroTile
  | 0x24 => fate .gated
  | 0xA0 => n 0
  | 0xF0 => b2n c.throttle * any
  | 0xF1 => b2n c.stretch * any
  | _ => if 0x10 ≤ cls && cls ≤ 0x1F then b2n (l.activity == 1 && l.reason kind == cls - 0x10 && decide (n 3 > 0)) else 0

/-- R104 to R106: x(t) of class `cls` at the end of this cycle, its tapped events apart. -/
def Otu.xNow (o : Otu) (e : Nat) (c : EngCycle) (l : Slots) (cls pl : Nat) : Nat :=
  let x := o.eng e
  if cls = 0x0C then (if bit pl x.level then x.running else 0)
  else if cls = 0x60 then ((o.queue e).levels.filter (bit pl)).length
  else if classDerived (engKind e) cls then l.x c (engKind e) cls pl
  else (c.events.filter fun y => y.1 == cls && decide (y.2.1 ≤ 2) && bit pl y.2.1).foldl (fun n y => n + y.2.2) 0

/-- R103 to R106: the levels over which PMC_k counts in this cycle: none for a private class whose grant has lapsed. -/
def Otu.plFor (o : Otu) (e k : Nat) : Nat :=
  if getF (o.evLatched e k) 0 16 ≥ 0x8000 && !o.admitted e (2 * k + 1) then 0 else o.plNow e k

/-- R97 to R111: `n` cycles of an ACTIVE engine with the same slots `l`. -/
def Otu.slotCycles (o : Otu) (e : Nat) (c : EngCycle) (l : Slots) (n : Nat) : Otu :=
  if n = 0 || (o.eng e).st.inForce o.lt ≠ 0 then o
  else
    let kind := engKind e
    let o := o.ctrAdd e 0 n
    let o := o.ctrAdd e 9 (n * l.count 0)
    let o := o.ctrAdd e 10 (n * l.count 1)
    let o := o.ctrAdd e 11 (n * l.count 2)
    let o := o.ctrAdd e 12 (n * l.count 3)
    let o := o.ctrAdd e (13 + l.activity) n
    let o := if l.activity = 1 then o.ctrAdd e (16 + l.reason kind) n else o
    let o := if l.activity = 1 && l.reason kind = 0 then o.dctrAdd 0x44 n else o
    let o := if l.activity = 0 then o.setEng e { o.eng e with busyAt := some o.lt } else o
    (List.range 8).foldl (fun o k => (o.pmcTap e k (o.xNow e c l (getF (o.evLatched e k) 0 16) (o.plFor e k))).pmcRepeat e k (n - 1)) o

/-- R108: whether a job command is in execution in this cycle, or heads the queue with its descriptor decoded. -/
def Otu.ready (o : Otu) (e : Nat) (decoded : Bool) : Bool :=
  let x := o.eng e
  decide (x.running > 0) || x.doneAt == some o.lt || (decoded && decide ((o.queue e).depth > 0))

/-- R109, R187: whether this is one of the cycles in which a job command waits for a canary abort. -/
def EngSt.aborting (x : EngSt) (lt : Nat) : Bool := x.abort.any fun a => decide (a.1 ≤ lt && lt ≤ a.1 + (if a.2 then 0 else 3))

/-- R187, R188: whether a canary occupies the engine in this cycle. -/
def EngSt.occupied (x : EngSt) (lt : Nat) : Bool := x.canary.isSome || x.canLast == some lt

/-- R108, R109: the slots of this cycle: Back-starved for CANARY_ABORT while a command waits for an abort, Front-starved while a
canary occupies the engine, else as the taps show. -/
def Otu.cycleSlots (o : Otu) (e : Nat) (c : EngCycle) : Slots :=
  let x := o.eng e
  let l := c.slotsOf (engKind e) (o.ready e c.decoded)
  if x.aborting o.lt then l.map fun y => (3, { y.2 with work := none, waits := 1 })
  else if x.occupied o.lt then l.map fun y => (2, { y.2 with work := none, waits := 0 })
  else l.map fun y => (y.1, { y.2 with waits := clrBit y.2.waits 0 })

/-- R71, R113: the die's refresh, throttle and stretch counts, one a cycle whichever engine shows the fact. -/
def Otu.dieCycle (o : Otu) (c : EngCycle) : Otu :=
  let m := b2n c.refresh + 2 * b2n c.throttle + 4 * b2n c.stretch
  let new (k : Nat) : Nat := b2n (bit m k && !bit o.cyc.die k)
  let a := new 0; let b := new 1; let d := new 2
  let o := { o with cyc := { o.cyc with die := o.cyc.die ||| m } }
  ((((o.dctrAdd 1 a).dctrAdd 2 b).dctrAdd 4 d).gchAdd 32 b).gchAdd 33 d

/-- R188: the most units a bucket holds. -/
def bucketCap : Nat := 655360000

/-- R188: a cycle of an ACTIVE engine fills its canary bucket and pays for a canary. -/
def Otu.canaryCycle (o : Otu) (e : Nat) : Otu :=
  let x := o.eng e
  let b := min bucketCap (x.bucket + OtuR.fld o OTU_CAN_CTRL 10 6)
  let occ := x.occupied o.lt
  let o := o.setEng e { x with bucket := if occ then b - 10000 else b }
  if occ then (o.dctrAdd 0x43 1).tap e 0xE4 0 1 else o

/-- ENGINE_CYCLE: the cycle's slots and events, the last command of its cycle on the engine (log entry 7). -/
def execEngineCycle (eng : Nat) (c : EngCycle) (e : Edge) (s : State) : Host.Outcome State Fault Refusal :=
  .next (s.onOtu fun o =>
    let o := ((o.go e).settleMarks).dieCycle c
    if eng ≥ 512 || (o.eng eng).st.inForce o.lt ≠ 0 then o
    else (o.slotCycles eng c (o.cycleSlots eng c) 1).canaryCycle eng)

/-- R98: the cycles that add `n` to fixed counter `c` of an engine: the slots of one, how many, and the slots of one more with
what is left of `n`. -/
def wrapSlots (kind c n : Nat) : Slots × Nat × Slots :=
  let w := slotWidth kind
  let rest (k : Nat) : Nat × SlotFact := if k = 2 then (3, ({ waits := 2 ^ 15 } : SlotFact)) else (2, {})
  let mk (k m waits : Nat) : Slots := (List.replicate m (k, ({ waits } : SlotFact)) ++ List.replicate (w - m) (rest k)).take w
  let slot (k waits : Nat) : Slots × Nat × Slots := (mk k w waits, n / w, if n % w = 0 then [] else mk k (n % w) waits)
  if c = 9 then slot 0 0 else if c = 10 then slot 1 0 else if c = 11 then slot 2 0 else if c = 12 then slot 3 (2 ^ 15)
  else (mk (if c = 13 then 0 else if c = 14 || c ≥ 16 then 3 else 2) w (if c ≥ 16 then 2 ^ (c - 16) else 2 ^ 15), n, [])

/-- WRAP: an addition of `n` that carries a counter past its width: to a PMC alone, to a fixed counter of an engine with the
whole cycles that the equalities of R98 ask for (DESIGN CHOICE, log entry 41), or to a die counter. A reserved reason never
increments (R111). -/
def execWrap (eng : Option Nat) (c n : Nat) (e : Edge) (s : State) : Host.Outcome State Fault Refusal :=
  .next (s.onOtu fun o =>
    let o := o.go e
    match eng with
    | some i =>
      if !(i < 512 && c < 32 && (o.eng i).st.inForce o.lt = 0) then o
      else if 1 ≤ c && c ≤ 8 then o.pmcAdd i c n
      else if c ≥ 16 && !bit (reasonMask (engKind i)) (c - 16) then o
      else
        let (l, k, r) := wrapSlots (engKind i) c n
        let o := o.slotCycles i { slots := [] } l k
        o.slotCycles i { slots := [] } r (b2n !r.isEmpty)
    | none => if c < 256 then o.dctrAdd c n else o)

/-! ### Snapshots (R112) -/

/-- R112: what a latch of counter `c` of engine `e` (or CMD_SEQ, for 32) takes in this cycle. -/
def Otu.latchWord (o : Otu) (e c : Nat) : Nat :=
  let x := o.eng e
  let now := OtuR.get o (if c < 32 then OTU_ENG_CTR e c else OTU_ENG_CMD_SEQ e)
  if x.startAt = o.lt then (x.startOld.lookup c).getD now else now

/-- R112: an accepted snapshot of engine `e` into buffer `b`. -/
def Otu.snap (o : Otu) (b e : Nat) : Otu :=
  let n := OtuR.fld o (OTU_ENG_SNAP_STATUS b) 16 16
  let vals := (List.range 32).map fun c => (c, o.latchWord e c)
  let seq := o.latchWord e 32
  let o := vals.foldl (fun o p => OtuR.set o (OTU_ENG_SNAP b p.1) p.2) o
  let o := OtuR.set o (OTU_ENG_SNAP_CMD_SEQ b) seq
  let o := OtuR.set (OtuR.set o (OTU_ENG_SNAP_FT b) o.ft) (OTU_ENG_SNAP_LT b) o.lt
  OtuR.set o (OTU_ENG_SNAP_STATUS b) (e + 2 ^ 9 + 2 ^ 16 * ((n + 1) % 65536))

/-- ENG_SNAP: a tenant's command for an engine that its job does not own is refused. -/
def execEngSnap (p : Path) (value : Nat) (e : Edge) (s : State) : Host.Outcome State Fault Refusal :=
  .next (s.onOtu fun o =>
    let o := o.go e
    let eng := getF value 0 9
    match p with
    | .otu => o.snap 0 eng
    | .tenant w =>
      (let o := o.settleWindow w
       match o.winTag w with
       | some tag => if (o.eng eng).tag == tag then o.snap (1 + w) eng
                     else OtuR.setFld o (OTU_ENG_SNAP_STATUS (1 + w)) 10 1 1
       | none => o)
    | .prd => o
    | .bar2 => o)

/-! ### Global channels (R113 to R115) -/

/-- R114: the 576-byte sample record. -/
def gchBytes (flags seq t lt mask : Nat) (vals : List Nat) : List Byte :=
  le 1 1 ++ le 1 flags ++ le 2 0 ++ le 4 seq ++ le 8 t ++ le 8 lt ++ le 8 mask ++ zeros 32 ++
  (List.range 64).flatMap fun n => le 8 (if bit mask n then vals.getD n 0 else 0)

/-- R114, R115: a channel sample of instant `t` goes into the next of 32 slots. ENABLE leaves NEXT where it is, and WRAPPED comes with
the 33rd sample after it (DESIGN CHOICE, log entry 43). -/
def Otu.gchStore (o : Otu) (t : Nat) (b : List Byte) : Otu :=
  let i := OtuR.fld o OTU_GCH_STATUS 0 5
  let wrapped := OtuR.flag o OTU_GCH_STATUS 5 || decide (o.gchSeq ≥ 32)
  let seq := o.gchSeq
  let o := { o with gchSeq := (seq + 1) % 2 ^ 32, gchNext := nextMultiple t (OtuR.fld o OTU_GCH_CTRL 1 10 * 4000) }
  OtuR.set (OtuR.set (o.writeWords (0x8000 + 0x400 * i) b 72) OTU_GCH_STATUS ((i + 1) % 32 + 32 * b2n wrapped)) OTU_GCH_LAST_SEQ seq

/-- R113: the channels of type C whose growth the die shows. -/
def gchCounts : List Nat := List.range 18 ++ [19, 21]

/-- R113: the channels that the OTU knows by itself. -/
def gchOwn : Nat := maskOf ((List.range 11).map (· + 32))

/-- R113: the values of the channels in the sample cycle: `vals` gives what has come to each count since the last sample, and
each of the die's levels. -/
def Otu.gchValues (o : Otu) (vals : List Nat) : List Nat :=
  (List.range 64).map fun n =>
    if gchCounts.contains n || n = 32 || n = 33 || n = 42 then Tbl.get (fun _ => 0) o.gch n
    else if 34 ≤ n && n ≤ 40 then (o.engs.filter fun x => engKind x.1 == n - 34 && x.2.busyAt == some o.lt).length
    else if n = 41 then (o.queues.filter fun x => decide (x.2.depth > 0)).length
    else vals.getD n 0

/-- GCH_SAMPLE: the sample of the instant scheduled, one a command, those that a forward step passed included (R53). -/
def execGchSample (values : List Nat) (validMask : Nat) (e : Edge) (s : State) : Host.Outcome State Fault Refusal :=
  .next (s.onOtu fun o =>
    let o := o.go e
    let t := o.gchNext
    if !(OtuR.flag o OTU_GCH_CTRL 0 && o.due t) then o
    else
      let o := gchCounts.foldl (fun o n => o.gchAdd n (values.getD n 0)) o
      let b := gchBytes (o.actGrade + 8 * b2n o.trayLock) o.gchSeq t o.lt ((validMask ||| gchOwn) % 2 ^ 43) (o.gchValues values)
      let o := o.gchStore t b
      if OtuR.flag o OTU_GCH_CTRL 11 then o.send 6 0 0x08 0 b else o)

/-! ### Release (R117) -/

/-- R117: at a job's job-end record, the job's half of each of its engines' configuration and counters goes. -/
def Otu.releaseEngine (o : Otu) (e : Nat) : Otu :=
  let o := o.keepEv e [4, 5, 6, 7, 8]
  let x := o.eng e
  let old := (if x.startAt = o.lt then x.startOld else [])
  let add := ([5, 6, 7, 8].filter fun c => (old.lookup c).isNone).map fun c => (c, OtuR.get o (OTU_ENG_CTR e c))
  let o := o.setEng e { x with startAt := o.lt, startOld := old ++ add }
  let o := [4, 5, 6, 7].foldl (fun o k =>
    (OtuR.set o (OTU_ENG_EVSEL e k) 0x1000000000).ctrSet e (k + 1) 0) o
  OtuR.ev (o.bumpEpoch e) (OTU_ENG_EVENTS e) 3

end Sys2Proof.Machine
end

