-- ==== Sys2Proof/Machine/Queue.lean ====
section
/-!
DEFINITION. Machine/Queue.lean: die queues, waits and hangs at the OTU (05 R121 to R134), and step marks.
-/
namespace Sys2Proof.Machine
open Sys2Proof

/-! ### Queues (R121 to R126) -/

/-- R121: DMA rings and link queues change owner; command queues follow their engine. -/
def Otu.queueOwn (o : Otu) (q tag : Nat) : Otu :=
  if 512 ≤ q && q < 4096 then
    let x := o.queue q
    o.setQueue q { x with owner := tag, ownerChanged := x.ownerChanged || x.owner != tag }
  else o

/-- QUEUE_BIND. -/
def execQueueBind (q tag : Nat) (e : Edge) (s : State) : Host.Outcome State Fault Refusal :=
  .next (s.onOtu fun o => (o.go e).queueOwn q (tag % 65536))

/-- QUEUE_UNBIND. -/
def execQueueUnbind (q : Nat) (e : Edge) (s : State) : Host.Outcome State Fault Refusal :=
  .next (s.onOtu fun o => (o.go e).queueOwn q 0)

/-- QUEUE_ENQUEUE (R122): in a command queue it is a push of the engine (04 R106), at the level of the code that issued it. -/
def execQueueEnqueue (q : Nat) (c : EnqFact) (e : Edge) (s : State) : Host.Outcome State Fault Refusal :=
  .next (s.onOtu fun o =>
    let o := o.go e
    if q < 4096 then
      let x := (o.queue q).upto o.lt
      let o := o.setQueue q { x with depth := x.depth + 1, headAt := if x.depth = 0 then o.ft else x.headAt
                                     levels := if q < 512 then x.levels ++ [c.level] else [], full := x.full || c.full }
      if q < 512 then o.tap q 0x61 c.level 1 else o
    else o)

/-- QUEUE_DEQUEUE (R122, R131): the next entry becomes head, and the owner makes progress. -/
def execQueueDequeue (q : Nat) (e : Edge) (s : State) : Host.Outcome State Fault Refusal :=
  .next (s.onOtu fun o =>
    let o := o.go e
    let x := (o.queue q).upto o.lt
    if q < 4096 && x.depth > 0 then
      (o.setQueue q { x with depth := x.depth - 1, levels := x.levels.drop 1, headAt := o.ft, dequeued := satAdd 32 x.dequeued 1 }).progress (o.queueOwner q)
    else o)

/-- R123: the instant at which a queue that is sampled is sampled next. -/
def Otu.nextSampleOf (o : Otu) (q : Nat) : Nat :=
  match o.qOld.lookup q with
  | some (_, at_) => at_
  | none => nextMultiple o.qsLast (OtuR.fld o (OTU_Q_CFG q) 1 10 * 40000)

/-- R123: the queues that are sampled, each with its next instant. -/
def Otu.sampleTimes (o : Otu) : List (Nat × Nat) :=
  ((List.range 4096).filter fun q => OtuR.flag o (OTU_Q_CFG q) 0).map fun q => (q, o.nextSampleOf q)

/-- R124: what a sample in cycle `lt` leaves in the queue's accumulators. FULL begins afresh, and an enqueue sets it again (DESIGN
CHOICE, log entry 45). -/
def QSt.sampled (x : QSt) (lt : Nat) : QSt :=
  { x with maxDepth := 0, upTo := lt, dequeued := 0, full := false, ownerChanged := false, first := false, wasEmpty := x.depth == 0 }

/-- R125, R126, R139: send the records of one instant of a queue space, or drop them all when they do not fit the
256 KiB staging buffer; answers whether they were dropped. -/
def Otu.sendSamples (o : Otu) (inst seqReg : Nat) (rs : List (Nat × List Byte)) : Otu × Bool :=
  let size := rs.foldl (fun n r => n + r.2.length) 0
  if o.queuedBytes 4 + size > 262144 then
    (rs.foldl (fun o r => o.jobLoss r.1) (OtuR.cnt o OTU_QS_LOST 0 32 1), true)
  else
    let o := OtuR.set o seqReg ((OtuR.get o seqReg + rs.length) % 2 ^ 32)
    (rs.foldl (fun o r => o.send 4 inst 0x05 r.1 r.2) o, false)

/-- R53, R123 to R126: the die-queue samples of the earliest instant that is due, those that a forward step passed included. -/
def Otu.sampleDie (o : Otu) : Otu :=
  let ts := o.sampleTimes
  match (ts.map (·.2)).min? with
  | none => o
  | some t =>
    if !o.due t then o
    else
      let qs := (ts.filter (·.2 == t)).map (·.1)
      let skip := OtuR.flag o OTU_QS_CTRL 1
      let es := qs.map fun q =>
        let x := o.queue q
        (o.queueOwner q, if skip && x.depth == 0 && x.dequeued == 0 && x.wasEmpty then none else some (x.entry q t o.lt))
      let rs := qsRecords 0 t o.lt (OtuR.get o OTU_QS_SEQ) (o.actGrade + 8 * b2n o.trayLock) o.qsLossy es
      let o := qs.foldl (fun o q => o.setQueue q ((o.queue q).sampled o.lt)) o
      let o := { o with qsLast := t, qOld := o.qOld.filter fun x => !qs.contains x.1 }
      if OtuR.flag o OTU_QS_CTRL 0 then
        let (o, lost) := o.sendSamples 0 OTU_QS_SEQ rs
        { o with qsLossy := lost || (o.qsLossy && rs.isEmpty) }
      else o

/-- R123, R124, R139: a write of OTU_Q_q_CFG: a new PERIOD waits for the instant already scheduled; EN begins afresh. -/
def Otu.qCfgWrite (o : Otu) (q value : Nat) : Otu :=
  let o' := OtuR.write o (OTU_Q_CFG q) 4 value
  let p := OtuR.fld o (OTU_Q_CFG q) 1 10
  let p' := OtuR.fld o' (OTU_Q_CFG q) 1 10
  let was := OtuR.flag o (OTU_Q_CFG q) 0
  let now := OtuR.flag o' (OTU_Q_CFG q) 0
  let x := o.queue q
  if now && !was then
    let o := o'.setQueue q { x with maxDepth := 0, upTo := o.lt - 1, dequeued := 0, full := false, ownerChanged := false, first := true, wasEmpty := false }
    { o with qOld := Tbl.ins o.qOld q (p', nextMultiple o.clk.ft (p' * 40000)) }
  else if now && p != p' && (o.qOld.lookup q).isNone then
    { o' with qOld := Tbl.ins o'.qOld q (p, o.nextSampleOf q) }
  else o'

/-! ### Waits (R127 to R130) -/

/-- R130: send a sync record through the 32 KiB staging buffer. -/
def Otu.sendSync (o : Otu) (tag : Nat) (r : SyncRec) : Otu :=
  if o.queuedBytes 5 + 48 > 32768 then
    (OtuR.ev (OtuR.cnt o OTU_SYNC_LOST 0 32 1) OTU_SYNC_EVENTS 0).jobLoss tag
  else o.send 5 0 0x06 tag (syncBytes r)

/-- R128: send both copies of a wait's record. -/
def Otu.sendWait (o : Otu) (tag : Nat) (r : SyncRec × Option SyncRec) : Otu :=
  let o := o.sendSync tag r.1
  match r.2 with
  | some f => o.sendSync 0 f
  | none => o

/-- WAIT_BEGIN: the command's cycle is the first one blocked. The holder is the one that it names, taken once (DESIGN CHOICE,
log entry 44). A sequencer's semaphore and barrier waits are events of 04 R106. -/
def execWaitBegin (eng : Nat) (w : WaitInfo) (e : Edge) (s : State) : Host.Outcome State Fault Refusal :=
  .next (s.onOtu fun o =>
    let o := o.go e
    let o := if engKind eng = 6 && eng < 512 then
        o.tap eng (if w.kind = 1 || w.kind = 3 then 0xC5 else 0xC4) (o.seqLevel eng) (b2n (decide (w.kind < 4))) else o
    if OtuR.flag o OTU_SYNC_CTRL 0 && eng < 512 && (o.waits.lookup eng).isNone then
      let x : OpenWait := { info := w, id := o.waitId, ft := o.ft, lt := o.lt, grade := o.clk.grade, tag := (o.eng eng).tag }
      { o with waits := Tbl.ins o.waits eng x, waitId := (o.waitId + 1) % 2 ^ 32 }
    else o)

/-- R129: close the wait of an engine; `ft` stamps the first cycle no longer blocked. -/
def Otu.closeWait (o : Otu) (eng : Nat) (cancelled : Bool) : Otu :=
  match o.waits.lookup eng with
  | none => o
  | some w =>
    let o := { o with waits := Tbl.del o.waits eng }
    if o.lt - w.lt < 2 * OtuR.fld o OTU_SYNC_CTRL 1 8 then OtuR.cnt o OTU_SYNC_SHORT 0 32 1
    else
      let o := if cancelled then o.updJob w.tag fun j => { j with cancelled := true } else o
      o.sendWait w.tag (o.waitCopies w eng (8 * b2n cancelled) o.ft)

/-- WAIT_END: the command's cycle is the first one no longer blocked. -/
def execWaitEnd (eng : Nat) (cancelled : Bool) (e : Edge) (s : State) : Host.Outcome State Fault Refusal :=
  .next (s.onOtu fun o => (o.go e).closeWait eng cancelled)

/-- OPEN_REPORT: the threshold is taken in engine cycles, 2,000 per microsecond. -/
def execOpenReport (eng : Nat) (e : Edge) (s : State) : Host.Outcome State Fault Refusal :=
  .next (s.onOtu fun o =>
    let o := o.go e
    match o.waits.lookup eng with
    | some w =>
      if !w.reported && decide (o.lt - w.lt ≥ 2000 * OtuR.fld o OTU_SYNC_CTRL 16 10) then
        ({ o with waits := Tbl.ins o.waits eng { w with reported := true } }).sendWait w.tag (o.waitCopies w eng 1 absent)
      else o
    | none => o)

/-- R129: the waits of a job that ends close as cancelled. -/
def Otu.closeWaitsOf (o : Otu) (tag : Nat) : Otu :=
  ((o.waits.filter fun x => x.2.tag == tag).map (·.1)).foldl (fun o e => o.closeWait e true) o

/-! ### Hangs (R131 to R134) -/

/-- R131: whether a job has pending work. -/
def Otu.pendingWork (o : Otu) (tag : Nat) : Bool :=
  (o.engs.any fun x => x.2.tag == tag && x.2.running > 0) ||
  (o.queues.any fun x => x.2.depth > 0 && o.queueOwner x.1 == tag)

/-- HANG_DETECTED. -/
def execHangDetected (tag : Nat) (e : Edge) (s : State) : Host.Outcome State Fault Refusal :=
  .next (s.onOtu fun o =>
    let o := o.go e
    match o.job? tag with
    | none => o
    | some j =>
      if OtuR.flag o OTU_HANG_CTRL 0 && o.clk.st != 0 && !j.hang && o.pendingWork tag &&
         decide (o.clk.ft - j.lastProgress ≥ OtuR.fld o OTU_HANG_CTRL 1 14 * 4000000) then
        ((OtuR.ev o OTU_SYNC_EVENTS 1).updJob tag fun j => { j with hang := true }).hangCut tag 0 none
      else o)

/-- HANG_CUT: the job-wide freeze of `tag` at its T_h, or the cut that waits for a shadow set. -/
def execHangCut (tag : Nat) (e : Edge) (s : State) : Host.Outcome State Fault Refusal :=
  .next (s.onOtu fun o =>
    let o := o.go e
    match o.job? tag with
    | some j =>
      if o.due j.hangAt then (o.updJob tag fun j => { j with hangAt := absent }).hangCut tag 1 (some j.hangAt)
      else if o.acc.freeSet.isSome then o.hangCutWaiting else o
    | none => if o.acc.freeSet.isSome then o.hangCutWaiting else o)

end Sys2Proof.Machine
end

