-- ==== Sys2Proof/Machine/Frame.lean ====
section
/-!
DEFINITION. Machine/Frame.lean: record frames: header, fold block, RCRC and the receiver's check (11 R294 to R297).
-/
namespace Sys2Proof.Machine
open Sys2Proof

/-- R294: bytes 0 to 11 of a frame header. -/
def frameHead (rtype rflags stream tag len : Nat) : List Byte :=
  le 1 rtype ++ le 1 rflags ++ le 2 stream ++ le 2 tag ++ le 2 0 ++ le 4 len

/-- R296: the fold block. -/
def foldBlock (rank loc stream tag seq : Nat) : List Byte :=
  le 4 (rank % 2 ^ 20) ++ le 4 loc ++ le 2 stream ++ le 2 tag ++ le 4 seq

/-- R296: RCRC. -/
def frameCrc (rank loc seq rtype rflags stream tag : Nat) (body : List Byte) : Nat :=
  crc32c (foldBlock rank loc stream tag seq ++ frameHead rtype rflags stream tag body.length ++ body)

/-- R294: a frame, padded. `rflags` bit 0 says that SEQ is sent. -/
def frameBytes (rtype rflags stream tag rank loc seq : Nat) (body : List Byte) : List Byte :=
  frameHead rtype rflags stream tag body.length ++ le 4 (frameCrc rank loc seq rtype rflags stream tag body) ++
  (if bit rflags 0 then le 4 seq ++ le 4 0 else []) ++ padTo 8 body

/-- A frame as a receiver reads it. -/
structure Frame where
  rtype : Nat
  rflags : Nat
  stream : Nat
  tag : Nat
  rcrc : Nat
  /-- SEQ, with SEQ_SENT. -/
  seq : Option Nat
  body : List Byte
deriving DecidableEq, Repr

/-- R295: whether the kind, instance and record type belong together. -/
def streamOk (stream rtype : Nat) : Bool :=
  let i := stream % 256
  match stream / 256 with
  | 0x01 => i ≤ 1 && (rtype == 1 || rtype == 2)
  | 0x02 => i == 0 && [1, 3, 5, 6].contains rtype
  | 0x03 => i ≤ 127 && rtype == 4
  | 0x04 => i ≤ 1 && rtype == 5
  | 0x05 => i == 0 && rtype == 6
  | 0x06 => i == 0 && rtype == 8
  | 0x07 => i == 0 && rtype == 9
  | 0x08 => i == 0 && rtype == 0xA
  | 0x09 => i == 0 && (rtype == 0xB || rtype == 0xC)
  | 0x0A => i == 0 && (rtype == 0xD || rtype == 7)
  | 0x0B => i == 0 && (rtype == 0xE || rtype == 0xF)
  | 0x0C => i == 0 && rtype == 0x10
  | 0x0F => i ≤ 31 && rtype == 0x20
  | _ => false

/-- R297 step 1: whether a header is well formed. -/
def headOk (l : List Byte) : Bool :=
  let fl := fieldAt l 1 1
  streamOk (fieldAt l 2 2) (fieldAt l 0 1) && fl < 8 && (!bit fl 1 || bit fl 0) && fieldAt l 6 2 == 0 &&
  (let n := fieldAt l 8 4; 1 ≤ n && n ≤ 16777216) && (!bit fl 0 || fieldAt l 20 4 == 0)

/-- R294: header bytes of a frame, from its flags. -/
def headLen (l : List Byte) : Nat := if bit (fieldAt l 1 1) 0 then 24 else 16

/-- R294: bytes of the whole frame, padding included. -/
def frameLen (l : List Byte) : Nat := headLen l + (fieldAt l 8 4 + 7) / 8 * 8

/-- R294, R297: a frame read from its bytes, if its header is well formed and its bytes are all there. -/
def Frame.parse (l : List Byte) : Option Frame :=
  if l.length < 16 || l.length < headLen l || !headOk l || l.length < frameLen l then none
  else some { rtype := fieldAt l 0 1, rflags := fieldAt l 1 1, stream := fieldAt l 2 2, tag := fieldAt l 4 2,
              rcrc := fieldAt l 12 4, seq := if bit (fieldAt l 1 1) 0 then some (fieldAt l 16 4) else none,
              body := (l.drop (headLen l)).take (fieldAt l 8 4) }

/-- R296: whether RCRC checks against a fold block. -/
def Frame.crcOk (f : Frame) (rank loc seq : Nat) : Bool :=
  f.rcrc == frameCrc rank loc seq f.rtype f.rflags f.stream f.tag f.body

/-- R298: the class of a frame. -/
def Frame.cls (f : Frame) : Nat :=
  if f.stream / 256 = 0xF then kindClass (fieldAt f.body 10 2 / 256) else kindClass (f.stream / 256)

/-- What the receiver's check says. -/
inductive FrameVerdict where
  /-- Delivered; the expected sequence becomes `next`. -/
  | pass (next : Nat)
  /-- Discarded in HUNT. -/
  | hunted
  /-- R297 step 3. -/
  | fail
deriving DecidableEq, Repr

/-- R297 step 2: the check of a frame against the expected rank, location and sequence (0 when none is held). -/
def Frame.check (f : Frame) (rank loc : Nat) (expected : Option Nat) (hunt : Bool) : FrameVerdict :=
  let e := expected.getD 0
  if bit f.rflags 1 then
    let q := f.seq.getD 0
    let d := wsub 32 (q + 1) e
    if f.crcOk rank loc q && 1 ≤ d && d ≤ 2 ^ 31 then .pass ((q + 1) % 2 ^ 32)
    else if hunt then .hunted else .fail
  else if hunt then .hunted
  else if f.crcOk rank loc e && (f.seq.isNone || f.seq == some e) then .pass ((e + 1) % 2 ^ 32)
  else .fail

end Sys2Proof.Machine
end

