-- ==== Sys2Proof/Machine/Link.lean ====
section
/-!
DEFINITION. Machine/Link.lean: one end of a die-port link: replay, alive counts, credits and reassembly
(11 R288 to R297), shared by the OTU and Priord's ports.
-/
namespace Sys2Proof.Machine
open Sys2Proof

/-- R286, R291 to R293: training completes: sequences, alive counts and credits restart and the held flits are lost. -/
def LinkSt.train (l : LinkSt) (credit now : Nat) : LinkSt :=
  { tw := l.tw, idleAt := l.idleAt, out := l.out, dups := l.dups, lastPass := now
    st := 2, lanes := 3, credits := (List.range 8).filterMap fun v => if credit = 0 then none else some (v, credit) }

/-- R286, R291: the link goes DOWN (0) or retrains (1); what was in flight is lost. -/
def LinkSt.lose (l : LinkSt) (st : Nat) : LinkSt :=
  { tw := l.tw, idleAt := l.idleAt, out := l.out, dups := l.dups, st := st }

/-- R286: whether a link that loses its flits goes DOWN now: none has passed for 2 µs, or training has failed. -/
def LinkSt.dead (l : LinkSt) (now : Nat) : Bool := l.st == 1 || (l.st == 2 && decide (now ≥ l.lastPass + 2 * tickUs))

/-- R289: a NAK message. -/
def nakMsg (fseq : Nat) : List Byte := le 1 1 ++ le 2 fseq
/-- R289: a RESYNC_REQ message. -/
def resyncMsg (stream tag : Nat) : List Byte := le 1 2 ++ le 2 stream ++ le 2 tag
/-- R289: a KEY_REQ message. -/
def keyMsg (v : Nat) : List Byte := le 1 3 ++ le 1 v

/-- R289: a RETRAIN_REQ message. -/
def retrainMsg : List Byte := le 1 4

/-- R289, R291: an end that makes the link retrain tells the other with RETRAIN_REQ, its last flit before training (log entry 92). -/
def LinkSt.askRetrain (l : LinkSt) : LinkSt := (l.putCtrl retrainMsg).lose 1

/-- R290: a CTRL message waits; the same message is not queued twice. -/
def LinkSt.sendCtrl (l : LinkSt) (m : List Byte) : LinkSt := if l.ctrl.contains m then l else { l with ctrl := l.ctrl ++ [m] }

/-- What a receiver does with a DATA flit (R291, R292). -/
inductive FlitVerdict where
  /-- Accepted in order. -/
  | accept
  /-- A replay duplicate. -/
  | duplicate
  /-- An ALIVE repeat. -/
  | repeat
  /-- An ALIVE skip. -/
  | skip
  /-- Any other failure. -/
  | fail
deriving DecidableEq, Repr

/-- R291, R292: the verdict on a DATA flit. -/
def LinkSt.verdict (l : LinkSt) (f : Flit) (passed : Bool) : FlitVerdict :=
  if !passed then .fail
  else
    let behind := (l.rxSeq + 4096 - f.fseq % 4096) % 4096
    if behind = 0 then
      let last := Tbl.get (fun _ => 0) l.rxAlive f.vl
      if f.alive = (last + 1) % 256 then .accept else if f.alive = last then .repeat else .skip
    else if behind ≤ 2048 then .duplicate else .fail

/-- R294, R297: take whole frames off the bytes of a VL. Answers the frames, the bytes left, and whether a malformed
header stopped it; such a header is the last item of the frames. -/
def splitFrames : Nat → List Byte → List (List Byte) × List Byte × Bool
  | 0, l => ([], l, false)
  | fuel + 1, l =>
    if l.isEmpty then ([], [], false)
    else if l.head? = some 0 then ([], [], false)
    else if l.length < 16 || l.length < headLen l then ([], l, false)
    else if !headOk l then ([l.take (headLen l)], [], true)
    else
      let n := frameLen l
      if l.length < n then ([], l, false)
      else
        let (fs, rest, bad) := splitFrames fuel (l.drop n)
        (l.take n :: fs, rest, bad)

/-- R294, R297: an accepted payload of virtual lane `vl` joins the lane's bytes. -/
def LinkSt.assemble (l : LinkSt) (f : Flit) : LinkSt :=
  let skipping := bit l.skip f.vl
  if skipping && f.first = 31 then l
  else
    let old := Tbl.get (fun _ => []) l.part f.vl
    let bytes := if skipping then f.payload.drop (8 * f.first) else old ++ f.payload
    let (fs, rest, bad) := splitFrames (bytes.length + 1) bytes
    { l with part := Tbl.put (fun _ => []) l.part f.vl (if bad then [] else rest)
             skip := putBit l.skip f.vl bad, inbox := l.inbox ++ fs.map fun x => (f.vl, x) }

/-- R289, R291: a failure: a NAK goes out, unless the flit that it would name is awaited already. -/
def LinkSt.refuse (l : LinkSt) (now : Nat) : LinkSt :=
  if l.discarding then l else { l.sendCtrl (nakMsg l.rxSeq) with discarding := true, nakAt := now }

/-- R291, R293: the flit expected has come: FSEQ advances, and its credit goes back. -/
def LinkSt.advance (l : LinkSt) (vl : Nat) : LinkSt :=
  { l with rxSeq := (l.rxSeq + 1) % 4096, rxAny := true, discarding := false
           ret := Tbl.put (fun _ => 0) l.ret vl (Tbl.get (fun _ => 0) l.ret vl + 1) }

/-- R291 to R294: what a DATA flit leaves in the link. -/
def LinkSt.dataIn (l : LinkSt) (f : Flit) (passed : Bool) (now : Nat) : LinkSt :=
  match l.verdict f passed with
  | .accept => ({ l.advance f.vl with rxAlive := Tbl.put (fun _ => 0) l.rxAlive f.vl f.alive }).assemble f
  | .duplicate => { l with dups := satAdd 32 l.dups 1 }
  | .repeat => l.advance f.vl
  | .skip => l.refuse now
  | .fail => l.refuse now

/-- R291: what a received NAK asks of the transmitter: none for a retrain, or the link with its resends. -/
def LinkSt.nakIn (l : LinkSt) (fseq : Nat) : Option LinkSt :=
  let n := if l.nakSeq = some fseq then l.nakCount + 1 else 1
  if n ≥ 3 || !l.held.any (·.fseq == fseq) then none
  else some { l with nakSeq := some fseq, nakCount := n, resend := l.held.dropWhile fun x => x.fseq != fseq }

/-- R290, R291: whether a forced IDLE is due, 900 ns after the last one began; times in ticks. -/
def LinkSt.idleDue (l : LinkSt) (now : Nat) : Bool := decide (now ≥ l.idleAt + 3600)

/-- R291: send the next flit to be resent, with its own ALIVE. -/
def LinkSt.sendResend (l : LinkSt) : LinkSt :=
  match l.resend with
  | [] => l
  | f :: r => ({ l with resend := r }).putData f

/-- R291 to R293: send a new DATA flit of VL `v`: it takes FSEQ, ALIVE and a credit, and is held. -/
def LinkSt.sendData (l : LinkSt) (v first : Nat) (payload : List Byte) : LinkSt :=
  let alive := (Tbl.get (fun _ => 0) l.txAlive v + 1) % 256
  let f : Flit := { vl := v, alive, fseq := l.txSeq, first, payload := fit 240 payload }
  let l := { l with txSeq := (l.txSeq + 1) % 4096, txAlive := Tbl.put (fun _ => 0) l.txAlive v alive
                    credits := Tbl.put (fun _ => 0) l.credits v (Tbl.get (fun _ => 0) l.credits v - 1)
                    held := l.held ++ [f] }
  l.putData f

/-- R290: send a waiting CTRL message. -/
def LinkSt.popCtrl (l : LinkSt) : LinkSt :=
  match l.ctrl with
  | [] => l
  | m :: r => ({ l with ctrl := r }).putCtrl m

/-- A frame leaves the inbox when it is handled. -/
def LinkSt.taken (l : LinkSt) (vl : Nat) (frame : List Byte) : LinkSt := { l with inbox := l.inbox.erase (vl, frame) }

end Sys2Proof.Machine
end

