-- ==== Sys2Proof/Machine/Sched.lean ====
section
/-!
DEFINITION. Machine/Sched.lean: shapers, deficit round robin and time gates, shared by the OTU and Priord's uplinks
(11 R300 to R308). A register is read by its offset in R316's layout.
-/
namespace Sys2Proof.Machine
open Sys2Proof

/-! ### Shapers (R301) -/

/-- What a bucket of `cap` 1/256 bytes holds `dt` ticks on, at `mbps`: 1 Mbit/s is 1/125 of 1/256 byte per tick. -/
def bucketAt (v mbps cap dt : Nat) : Nat := min cap (v + mbps * dt / 125)

/-- R302: L_eff of a frame of `l` bytes under a 9-bit signed overhead. -/
def effLen (l ovh : Nat) : Nat := let v : Int := (l : Int) + toS 9 ovh; if v < 1 then 1 else v.toNat

/-- R301: the shaper registers that a frame started at `now` is charged under: in the cycle of a write, those before it. `rd` reads
CIR (0), PIR (4), BURST (8) and DRR (12) of the queue. -/
def EqSt.regs (x : EqSt) (rd : Nat → Nat) (now : Nat) : Nat → Nat :=
  match x.old with
  | some w => if w.at_ = now then fun r => if r = 0 then w.cir else if r = 4 then w.pir else if r = 8 then w.burst else rd r else rd
  | none => rd

/-- R301: whether both buckets are full at `now`: never used yet, or written in an earlier cycle and not used since. -/
def EqSt.full (x : EqSt) (now : Nat) : Bool :=
  match x.old with
  | some w => w.at_ != now || !x.filled
  | none => !x.filled

/-- The two buckets of a queue at time `now`. -/
def EqSt.buckets (x : EqSt) (rd : Nat → Nat) (now : Nat) : Nat × Nat :=
  let rd := x.regs rd now
  let cbs := getF (rd 8) 0 16 * 262144
  let pbs := getF (rd 8) 16 16 * 262144
  if !x.full now then (bucketAt x.c (rd 0) cbs (now - x.at_), bucketAt x.p (rd 4) pbs (now - x.at_)) else (cbs, pbs)

/-- R301: 2 committed-eligible, 1 excess-eligible, 0 not. -/
def EqSt.eligible (x : EqSt) (rd : Nat → Nat) (now leff : Nat) : Nat :=
  let (c, p) := x.buckets rd now
  if p < 256 * leff then 0 else if x.regs rd now 0 ≠ 0 && c ≥ 256 * leff then 2 else 1

/-- R301: charge a started frame. -/
def EqSt.charge (x : EqSt) (rd : Nat → Nat) (now leff : Nat) : EqSt :=
  let (c, p) := x.buckets rd now
  { x with c := if c ≥ 256 * leff then c - 256 * leff else c, p := p - 256 * leff, filled := true, at_ := now
           old := x.old.filter (·.at_ == now) }

/-- R301: a write to the shaper at `now` fills both buckets from the next cycle on; `rd` reads the registers before it. -/
def EqSt.refill (x : EqSt) (rd : Nat → Nat) (now : Nat) : EqSt :=
  match x.old with
  | some w => if w.at_ = now then x else { x with old := some { at_ := now, cir := rd 0, pir := rd 4, burst := rd 8 }, filled := false }
  | none => { x with old := some { at_ := now, cir := rd 0, pir := rd 4, burst := rd 8 } }

/-! ### Deficit round robin (R300) -/

/-- A candidate queue: its k, the L_eff of its head frame, its deficit and its quantum. -/
structure DrrCand where
  k : Nat
  leff : Nat
  deficit : Nat
  quantum : Nat
deriving DecidableEq, Repr

/-- Visits a candidate needs before its head frame may be sent. -/
def DrrCand.visits (c : DrrCand) : Nat := if c.leff ≤ c.deficit then 1 else max 1 (ceilDiv (c.leff - c.deficit) (max 1 c.quantum))

/-- R300: the queue served next from the pointer, and each candidate's new deficit. `visited` says that the queue at
the pointer has had its quantum for this visit. -/
def drrPick (cs : List DrrCand) (ptr : Nat) (visited : Bool) : Option (Nat × List (Nat × Nat)) :=
  match (if visited then cs.find? fun c => c.k == ptr && decide (c.leff ≤ c.deficit) else none) with
  | some c => some (c.k, [(c.k, c.deficit - c.leff)])
  | none =>
    -- the order of visits from the pointer on; a visited queue comes last
    let order := (cs.filter fun c => if visited then decide (c.k > ptr) else decide (c.k ≥ ptr)) ++
                 (cs.filter fun c => if visited then decide (c.k ≤ ptr) else decide (c.k < ptr))
    let best := (order.zipIdx).foldl (fun (b : Option (DrrCand × Nat)) c =>
      match b with
      | none => some c
      | some d => if c.1.visits < d.1.visits then some c else some d) none
    match best with
    | none => none
    | some (c, i) =>
      let n := c.visits
      some (c.k, (order.zipIdx).map fun d =>
        let v := d.1.deficit + d.1.quantum * (if d.2 ≤ i then n else n - 1)
        (d.1.k, if d.2 = i then v - d.1.leff else v))

/-! ### Gates (R305 to R307) -/

/-- The gate list in force: entries (gates, interval), BASE and CYCLE_TIME. -/
structure GateList where
  en : Bool
  entries : List (Nat × Nat)
  base : Nat
  cycle : Nat

/-- R305: the entry that holds offset `pos` of a cycle, from entry `i` that begins at `start`; the last lasts to the
cycle's end. -/
def entryAt : List (Nat × Nat) → Nat → Nat → Nat → Nat
  | [], i, _, _ => i
  | [_], i, _, _ => i
  | x :: r, i, start, pos => if pos < start + x.2 then i else entryAt r (i + 1) (start + x.2) pos

/-- R305: the current entry at time `t`. -/
def GateList.entry (g : GateList) (t : Nat) : Nat :=
  entryAt g.entries 0 0 ((((t : Int) - g.base) % (max 1 g.cycle : Int)).toNat)

/-- R305: the gates at time `t`. -/
def GateList.gates (g : GateList) (t : Nat) : Nat :=
  if g.en then (g.entries.getD (g.entry t) (0xFF, 1)).1 else 0xFF

/-- R305: offsets at which entries begin within a cycle, up to its end. -/
def entryStarts : List (Nat × Nat) → Nat → Nat → List (Nat × Nat)
  | [], _, _ => []
  | x :: r, start, cycle => if start ≥ cycle then [] else (start, x.1) :: entryStarts r (start + x.2) cycle

/-- R307: the instant at which class `c`, open at `t`, closes next; none if it never does. -/
def GateList.closes (g : GateList) (c t : Nat) : Option Nat :=
  if !g.en then none
  else
    let cyc := max 1 g.cycle
    let pos := (((t : Int) - g.base) % (cyc : Int)).toNat
    let ss := entryStarts g.entries 0 cyc
    let here := (ss.filter fun x => decide (x.1 > pos)).map fun x => (t + (x.1 - pos), x.2)
    let next := ss.map fun x => (t + (cyc - pos) + x.1, x.2)
    ((here ++ next).find? fun x => !bit x.2 c).map (·.1)

/-- R307: ticks that a frame of `leff` bytes takes at `r` Gbit/s. -/
def frameTicks (leff r : Nat) : Nat := ceilDiv (32 * leff) (max 1 r)

/-- R307: whether a frame of class `c` may start at `t`. -/
def GateList.fits (g : GateList) (c t leff r : Nat) : Bool :=
  match g.closes c t with
  | none => true
  | some e => decide (t + frameTicks leff r ≤ e)

/-- R306, R316: the OPER list of a block, read through its registers. -/
def operList (rd : Nat → Nat) (n : Nat) : GateList :=
  { en := bit (rd 0x40) 0, base := rd 0x60, cycle := rd 0x68
    entries := (List.range n).map fun i => (getF (rd (0x1000 + 8 * i)) 0 8, getF (rd (0x1000 + 8 * i)) 32 32) }

/-- R55: the list that frames started in cycle `now` obey: in the cycle of a swap, the list before it. -/
def GateSt.inForce (x : GateSt) (now : Nat) (g : GateList) : GateList :=
  match x.old with
  | some (t, base, cycle, entries) => if t = now then { g with base, cycle, entries } else g
  | none => g

/-- R55: cycle `now` swaps the list `g` for another. -/
def GateSt.swapped (x : GateSt) (now : Nat) (g : GateList) (n : Nat) : GateSt :=
  { x with operN := n, old := some (now, g.base, g.cycle, g.entries) }

/-- R306: whether a write of CHANGE_T schedules a swap. -/
def changeOk (rd : Nat → Nat) (now t : Nat) : Bool := t == absent || (decide (t ≥ rd 0x48) && decide (t > now))

/-! ### Picking a frame -/

/-- A queue with a head frame. -/
structure HeadFrame where
  /-- eq = 128 × class + k. -/
  q : Nat
  /-- The frame's bytes, as R302 counts them. -/
  len : Nat
deriving DecidableEq, Repr

/-- R300: of one class, the queue to serve: committed-eligible ones first. `elig` gives 2, 1 or 0 for a queue. -/
def pickClass (qs : List HeadFrame) (st : Nat → EqSt) (rd : Nat → Nat → Nat) (ovh : Nat) (elig : HeadFrame → Nat) (ptr : Nat) :
    Option (Nat × List (Nat × Nat)) :=
  let cand (h : HeadFrame) : DrrCand := { k := h.q % 128, leff := effLen h.len ovh, deficit := (st h.q).deficit, quantum := getF (rd h.q 12) 0 16 }
  let two := qs.filter fun h => elig h == 2
  let one := qs.filter fun h => elig h == 1
  drrPick ((if two.isEmpty then one else two).map cand) (ptr / 2) (ptr % 2 == 1)

/-- R300: over all classes from the highest, the queue to serve and the deficits of its class's candidates. -/
def pickQueue (heads : List HeadFrame) (st : Nat → EqSt) (rd : Nat → Nat → Nat) (ovh : Nat) (elig : HeadFrame → Nat)
    (ptrs : List (Nat × Nat)) : List Nat → Option (Nat × List (Nat × Nat))
  | [] => none
  | c :: r =>
    match pickClass (heads.filter fun h => h.q / 128 == c) st rd ovh elig (Tbl.get (fun _ => 0) ptrs c) with
    | some (k, ds) => some (128 * c + k, ds.map fun d => (128 * c + d.1, d.2))
    | none => pickQueue heads st rd ovh elig ptrs r

/-- The classes from the highest to the lowest. -/
def classes8 : List Nat := [7, 6, 5, 4, 3, 2, 1, 0]

/-! ### Collective windows (R308) -/

/-- R308: whether an announcement is well formed. -/
def GateWin.ok (w : GateWin) : Bool :=
  let asc := (w.wins.zip (w.wins.drop 1)).all fun p => decide (p.1.1 + p.1.2 ≤ p.2.1)
  decide (40000 ≤ w.cycle) && decide (w.cycle ≤ tickS) && decide (w.wins.length ≤ 16) && decide (w.ulMask < 64) &&
  decide (w.fbMask < 256) && asc && w.wins.all fun p => decide (p.1 + p.2 ≤ w.cycle)

end Sys2Proof.Machine
end

