-- ==== Sys2Proof/Machine/Port.lean ====
section
/-!
DEFINITION. Machine/Port.lean: the OTU's telemetry port: flit slots, fallback, relaying, gates and egress samples
(11 R286 to R316).
-/
namespace Sys2Proof.Machine
open Sys2Proof

/-! ### Frames out -/

/-- R296, R297: flags and sequence of a stream's next frame. -/
def Otu.nextSeq (o : Otu) (stream tag : Nat) : Nat × Nat :=
  let res := o.resync.contains (stream, tag)
  match o.txSeq.lookup (stream, tag) with
  | none => (0, 1 + 2 * b2n res)
  | some n => (n, 3 * b2n res)

/-- STREAM of a record. -/
def QRec.stream (r : QRec) : Nat := 256 * r.kind + r.inst

/-- R294: bytes of the frame that a record becomes. -/
def Otu.recLen (o : Otu) (r : QRec) : Nat :=
  (if bit (o.nextSeq r.stream r.tag).2 0 then 24 else 16) + (r.body.length + 7) / 8 * 8

/-- The head records of the OTU's egress queues. -/
def Otu.heads (o : Otu) : List (Nat × QRec) := o.eq.filterMap fun x => x.2.head?.map fun r => (x.1, r)

/-- R300, R314: the head record of queue `q` leaves, as a frame. -/
def Otu.startFrame (o : Otu) (q : Nat) : Otu × List Byte :=
  match o.eqGet q with
  | [] => (o, [])
  | r :: rest =>
    let (seq, fl) := o.nextSeq r.stream r.tag
    let b := frameBytes r.rtype fl r.stream r.tag r.rank (OtuR.get o OTU_PORT_LOC) seq r.body
    let txSeq := ((r.stream, r.tag), (seq + 1) % 2 ^ 32) :: o.txSeq.filter fun x => x.1 != (r.stream, r.tag)
    let x := (o.eqSt q).cover (rest.length + 1) o.now
    let x := { x with dequeued := satAdd 32 x.dequeued 1, headAt := o.now, held := false, deficit := if rest.isEmpty then 0 else x.deficit }
    let o := o.setEqSt q x
    let o := o.updJob r.tag fun j => { j with frames := j.frames + 1 }
    ({ o with eq := Tbl.put (fun _ => []) o.eq q rest, txSeq := txSeq, resync := o.resync.erase (r.stream, r.tag) }, b)

/-- The shaper registers of an egress queue. -/
def Otu.eqReg (o : Otu) (q r : Nat) : Nat := OtuR.get o (OTU_EQ_CIR q + r)

/-- R300: the chosen queue's class pointer, and the deficits of its class. -/
def Otu.drrDone (o : Otu) (q : Nat) (ds : List (Nat × Nat)) : Otu :=
  let o := ds.foldl (fun o d => o.setEqSt d.1 { o.eqSt d.1 with deficit := d.2 }) o
  { o with gate := { o.gate with ptr := Tbl.put (fun _ => 0) o.gate.ptr (q / 128) (2 * (q % 128) + 1) } }

/-- R300, R301: start the next frame of class `c` on the die port, if some queue of the class may send. -/
def Otu.startDirect (o : Otu) (c : Nat) : Option (Otu × List Byte) :=
  let ovh := OtuR.fld o OTU_PORT_OVH 0 9
  let hs := (o.heads.filter fun x => x.1 / 128 == c).map fun x => ({ q := x.1, len := o.recLen x.2 } : HeadFrame)
  let elig (h : HeadFrame) : Nat := (o.eqSt h.q).eligible (o.eqReg h.q) o.now (effLen h.len ovh)
  match pickClass hs o.eqSt o.eqReg ovh elig (Tbl.get (fun _ => 0) o.gate.ptr c) with
  | none => none
  | some (k, ds) =>
    let q := 128 * c + k
    let o := o.drrDone q (ds.map fun d => (128 * c + d.1, d.2))
    let len := effLen (((hs.find? (·.q == q)).map (·.len)).getD 0) ovh
    let o := o.setEqSt q ((o.eqSt q).charge (o.eqReg q) o.now len)
    let (o, b) := o.startFrame q
    some (((o.dctrAdd 0x60 b.length).dctrAdd 0x61 1).gchAdd 42 b.length, b)

/-- R290, R294: fill a payload of class `c` from position `acc.length`; answers FIRST, the payload, and what is left of
the last frame. -/
def Otu.fillPayload : Nat → Otu → Nat → Nat → List Byte → List Byte → Otu × Nat × List Byte × List Byte
  | 0, o, _, first, acc, part => (o, first, acc, part)
  | fuel + 1, o, c, first, acc, part =>
    if acc.length ≥ 240 then (o, first, acc, part)
    else if !part.isEmpty then
      let n := 240 - acc.length
      Otu.fillPayload fuel o c first (acc ++ part.take n) (part.drop n)
    else match o.startDirect c with
      | none => (o, first, acc, part)
      | some (o, b) => Otu.fillPayload fuel o c (if first = 31 then acc.length / 8 else first) acc b

/-- R290, R312: the highest class with a credit and a frame byte sends a DATA flit. -/
def Otu.sendDataFlit (o : Otu) : List Nat → Option Otu
  | [] => none
  | c :: r =>
    if Tbl.get (fun _ => 0) o.link.credits c = 0 || (o.fbLast.lookup c).isSome then o.sendDataFlit r
    else
      let (o', first, acc, part) := Otu.fillPayload 32 o c 31 [] (Tbl.get (fun _ => []) o.link.txPart c)
      if acc.isEmpty then o.sendDataFlit r
      else some { o' with link := { (o'.link.sendData c first acc) with txPart := Tbl.put (fun _ => []) o'.link.txPart c part } }

/-- R290: fill one flit slot of the OTU's port. -/
def Otu.flitSlot (o : Otu) : Otu :=
  let idle (o : Otu) : Otu := o.timeWordOut (o.ft * 256)
  if o.link.st ≠ 2 then o
  else if o.link.idleDue o.now then (idle o).dctrAdd 0x67 1
  else if !o.link.ctrl.isEmpty then { o with link := o.link.popCtrl }
  else if !o.link.resend.isEmpty then { o with link := o.link.sendResend }.dctrAdd 0x62 1
  else if o.link.held.length < 1024 then (o.sendDataFlit classes8).getD (idle o)
  else idle o

/-! ### Link events at the OTU -/

/-- R412, R418: the CAUSE of the fault that the OTU reports in training: a failed self-test, an invalid descriptor, or 0. -/
def Otu.faultCause (o : Otu) : Nat := if o.invalid then 2 else if OtuR.fld o OTU_SELFTEST 0 2 = 1 then 1 else 0

/-- R286, R296, R80: training tells Priord whether the OTU has come out of die reset since the last, and its fault. After it every
stream restarts at 0 and every accord reference asks for a KEY. -/
def Otu.portTrain (o : Otu) (loc credit : Nat) : Otu :=
  let o := OtuR.set o OTU_PORT_LOC (loc % 2 ^ 17)
  let was := o.fb
  let o := { o with told := some (o.fresh, o.faultCause), fresh := false, rxNext := none, rxHunt := false,
                    link := o.link.train credit o.now, txSeq := [], resync := [], fb := false
                    acc := { o.acc.keyAll with fastKey := true } }
  if was then OtuR.ev o OTU_PORT_EVENTS 7 else o

/-- R291, R289: the link retrains; this end asks the other to when the fault is found here. -/
def Otu.retrain (o : Otu) (ask : Bool) : Otu :=
  OtuR.ev { o with link := if ask then o.link.askRetrain else o.link.lose 1 } OTU_PORT_EVENTS 1

/-- R310: the first valid relay that accepts; `answers` says what each relay asked in turn says. -/
def Otu.pickRelay (o : Otu) (answers : List Bool) : Option Nat :=
  (List.range 4).find? fun i => OtuR.flag o (OTU_FB_RELAY i) 32 && answers.getD i false

/-- R310, R315: while the port is DOWN and FB_EN set, the OTU is on the fallback path through the first relay that accepts; without
one it waits. -/
def Otu.seekRelay (o : Otu) (answers : List Bool) : Otu :=
  if !OtuR.flag o OTU_FB_CTRL 0 then o
  else match o.pickRelay answers with
    | some i =>
      if o.fb then { o with relay := i }
      else ((OtuR.ev { o with fb := true, relay := i } OTU_PORT_EVENTS 6).event { code := 0x81, sev := 2, payload := le 1 i }).dctrAdd 0x69 1
    | none => if o.fb then OtuR.ev { o with fb := false } OTU_PORT_EVENTS 7 else o

/-- R286, R310: a port whose flits no longer pass goes DOWN; the OTU of one that is DOWN turns to its relays. -/
def Otu.portDown (o : Otu) (answers : List Bool) : Otu :=
  if o.link.st = 0 then o.seekRelay answers
  else if !o.link.dead o.now then o
  else
    ((OtuR.ev { o with link := o.link.lose 0 } OTU_PORT_EVENTS 0).event
      { code := 0x80, sev := 3, payload := le 1 (OtuR.fld o OTU_PORT_LOC 0 5) }).seekRelay answers

/-- R310: a write of OTU_FB_CTRL: without FB_EN the OTU leaves fallback (log entry 93). -/
def Otu.fbCtrlWrite (o : Otu) (v : Nat) : Otu :=
  let o := OtuR.write o OTU_FB_CTRL 4 v
  if o.fb && !OtuR.flag o OTU_FB_CTRL 0 then OtuR.ev { o with fb := false } OTU_PORT_EVENTS 7 else o

/-- FB_SETTLE: a class returns to the direct port. -/
def execFbSettle (cls : Nat) (e : Edge) (s : State) : Host.Outcome State Fault Refusal :=
  .next (s.onOtu fun o =>
    let o := o.go e
    match o.fbLast.lookup cls with
    | some t =>
      if o.link.st = 2 && decide (o.now ≥ t + OtuR.fld o OTU_FB_CTRL 16 8 * 4000) then { o with fbLast := Tbl.del o.fbLast cls } else o
    | none => o)

/-- R287, R288, R315: a flit reaches the OTU's port. -/
def Otu.hear (o : Otu) (x : FlitRx) : Otu :=
  let cs := o.link.codewords x.errs
  (({ o with link := o.link.hear o.now x } : Otu).dctrAdd 0x63 (corrected cs)).dctrAdd 0x64 (uncorrectable cs)

/-- R297 at the OTU, which is sent atomiser messages only, in the fleet context: a frame of virtual lane `vl` is checked with the OTU's
own rank, location and count. No request leaves the OTU: its stream hunts until the next training (log entry 94). -/
def Otu.frameIn (o : Otu) (vl : Nat) (b : List Byte) : Otu :=
  let hunt := { o with rxHunt := o.rxHunt || (o.rxNext.isSome && vl == 7) }
  match Frame.parse b with
  | none => hunt
  | some f =>
    if f.stream ≠ 0xC00 || f.tag ≠ 0 then o
    else match f.check (o.rankOf 0) (OtuR.get o OTU_PORT_LOC) o.rxNext o.rxHunt with
      | .pass next => { o with rxNext := some next, rxHunt := false, rxMsg := f.body }
      | .hunted => o
      | .fail => { o with rxHunt := true }

/-- R294, R297: the frames that have arrived whole are checked and delivered. -/
def Otu.framesIn (o : Otu) : Otu :=
  o.link.inbox.foldl (fun o x => o.frameIn x.1 x.2) { o with link := { o.link with inbox := [] } }

/-- R291, R292: a DATA flit at the OTU, with its counts and events; one that fails the link check is a failure as well. -/
def Otu.dataFlit (o : Otu) (x : FlitRx) : Otu :=
  if o.link.st ≠ 2 then o
  else
    let ok := o.link.checks x
    let o := o.hear x
    let f := flitOf x.bytes
    if ok && !flitType x.bytes 1 then o
    else
      let v := o.link.verdict f ok
      let o := ({ o with link := o.link.dataIn f ok o.now } : Otu).framesIn
      match v with
      | .repeat => (OtuR.ev o OTU_PORT_EVENTS 4).dctrAdd 0x65 1
      | .skip => (OtuR.ev o OTU_PORT_EVENTS 3).dctrAdd 0x66 1
      | .accept => o
      | .duplicate => o
      | .fail => o

/-- R288, R289: a CTRL flit at the OTU; `f` takes a message of CTYPE `k` that passes the link check. -/
def Otu.ctrlFlit (o : Otu) (k : Nat) (x : FlitRx) (f : Otu → Otu) : Otu :=
  if o.link.st ≠ 2 then o
  else
    let ok := o.link.checks x
    let o := o.hear x
    if ok && ctrlType x.bytes k then f o else o

/-- R291: a NAK at the OTU. -/
def Otu.nak (o : Otu) (fseq : Nat) : Otu :=
  match o.link.nakIn fseq with
  | some l => (OtuR.ev { o with link := l } OTU_PORT_EVENTS 2).dctrAdd 0 1
  | none => o.retrain true

/-- RESYNC_REQ: the stream's next frame carries SEQ_SENT and RESYNC. -/
def execResyncReq (bytes : List Byte) (errs : List Nat) (e : Edge) (s : State) : Host.Outcome State Fault Refusal :=
  .next (s.onOtu fun o => (o.go e).ctrlFlit 2 ⟨bytes, errs⟩ fun o =>
    let key := (fieldAt bytes 9 2, fieldAt bytes 11 2)
    let o := ((OtuR.ev o OTU_PORT_EVENTS 5).dctrAdd 0x68 1)
    if o.resync.contains key then o else { o with resync := o.resync ++ [key] })

/-- KEY_REQ: the effect of a write of OTU_ACC_KEY_REQ, and KEY_REQUESTED. -/
def execKeyReq (x : FlitRx) (e : Edge) (s : State) : Host.Outcome State Fault Refusal :=
  .next (s.onOtu fun o => (o.go e).ctrlFlit 3 x fun o =>
    let value := fieldAt x.bytes 9 1
    let o := OtuR.ev o OTU_ACC_EVENTS 5
    { o with acc := { o.acc with keyReg := o.acc.keyReg || bit value 0, fastKey := o.acc.fastKey || bit value 1 } })

/-! ### Gates and shapers of the fallback path -/

/-- A register of the OTU's gate and shaper block. -/
def Otu.gb (o : Otu) (a : Nat) : Nat := OtuR.get o (OTU_GB + a)

/-- R55, R306: the fallback gate list in force. -/
def Otu.operList (o : Otu) : GateList := o.gate.inForce o.lt (Sys2Proof.Machine.operList o.gb o.gate.operN)

/-- R305: the gates now; an OTU in NO_TIME keeps every gate closed. -/
def Otu.gatesNow (o : Otu) : Nat := if o.clk.st = 0 && o.operList.en then 0 else o.operList.gates o.clk.ft

/-- R305: the current entry and gates. -/
def Otu.gateNow (o : Otu) : Otu :=
  { o with gate := { o.gate with entry := o.operList.entry o.clk.ft, gates := o.gatesNow } }

/-- R55, R306: the swap, which frames obey from the next cycle on. -/
def Otu.gateSwap (o : Otu) : Otu :=
  let n := getF (o.gb 0x40) 1 9
  let gate := o.gate.swapped o.lt o.operList n
  let o := (List.range n).foldl (fun o i => OtuR.set o (OTU_GCL_OPER i) (OtuR.get o (OTU_GCL_ADMIN i))) o
  let o := OtuR.set (OtuR.set o OTU_GCL_OPER_BASE (OtuR.get o OTU_GCL_ADMIN_BASE)) OTU_GCL_OPER_CYCLE (OtuR.get o OTU_GCL_ADMIN_CYCLE)
  ({ OtuR.set o OTU_GCL_CHANGE_T absent with gate }).gateNow

/-- R306, R54: a write of CHANGE_T; one that has already passed is a late action as well. -/
def Otu.changeTWrite (o : Otu) (v : Nat) : Otu :=
  if changeOk o.gb (if o.clk.st = 0 then absent else o.clk.ft) v then OtuR.set o OTU_GCL_CHANGE_T v
  else
    let o := OtuR.ev o OTU_PORT_EVENTS 8
    if o.due v then o.actionLate 1 v 0 else o

/-- R301: whether bursts hold the largest frame of `q`'s class. -/
def burstOk (v maxFrame ovh : Nat) : Bool :=
  let m := effLen maxFrame ovh
  decide (getF v 0 16 * 1024 ≥ m) && decide (getF v 16 16 * 1024 ≥ m)

/-- SHAPER_WRITE at the OTU: register 0 CIR, 1 PIR, 2 BURST, 3 DRR. -/
def Otu.shaperWrite (o : Otu) (q reg v : Nat) : Otu :=
  if q ≥ 1024 || reg ≥ 4 then o
  else if reg = 2 && !burstOk v (OtuR.get o (OTU_EQ_CLASS (q / 128))) (OtuR.fld o OTU_PORT_OVH 16 9) then o
  else
    let x := (o.eqSt q).refill (o.eqReg q) o.now
    (OtuR.write o (OTU_EQ_CIR q + 4 * reg) 4 v).setEqSt q x

/-- R300, R302, R311: start a packet on the fallback path. -/
def Otu.startPacket (o : Otu) : Otu :=
  let now := o.now
  let ovh := OtuR.fld o OTU_PORT_OVH 16 9
  let r := OtuR.fld o OTU_FB_RATE 0 12
  let mask := OtuR.fld o OTU_FB_CTRL 8 8
  let maxF (c : Nat) : Nat := OtuR.get o (OTU_EQ_CLASS c)
  let open_ := o.heads.filter fun x => o.fb && bit mask (x.1 / 128) && (o.fbPart.lookup (x.1 / 128)).isNone
  let hs := (open_.map fun x => ({ q := x.1, len := min (maxF (x.1 / 128)) (o.recLen x.2) } : HeadFrame)) ++
    o.fbPart.map fun x => { q := x.2.1, len := min (maxF x.1) x.2.2.length }
  let gl := o.operList
  let fits (h : HeadFrame) : Bool := gl.fits (h.q / 128) o.clk.ft (effLen h.len ovh) r
  let elig (h : HeadFrame) : Nat :=
    if bit o.gatesNow (h.q / 128) && fits h then (o.eqSt h.q).eligible (o.eqReg h.q) now (effLen h.len ovh) else 0
  if o.clk.st = 0 || decide (now < o.gate.busyTill) || decide (now < o.gate.aggAt) then o
  else
    let kept := hs.filter fun h => bit o.gatesNow (h.q / 128) && !fits h && !(o.eqSt h.q).held
    let o := kept.foldl (fun o h => (o.setEqSt h.q { o.eqSt h.q with held := true }).dctrAdd 0x6C 1) o
    match pickQueue hs o.eqSt o.eqReg ovh elig o.gate.ptr classes8 with
    | none => o
    | some (q, ds) =>
      let c := q / 128
      let o := o.drrDone q ds
      let (o, first, b) : Otu × Bool × List Byte :=
        match o.fbPart.lookup c with
        | some (_, b) => (o, false, b)
        | none => let (o, b) := o.startFrame q; (o, true, b)
      let n := maxF c
      let pk := b.take n
      let le := effLen pk.length ovh
      let o := o.setEqSt q ((o.eqSt q).charge (o.eqReg q) now le)
      let last := decide (b.length ≤ n)
      let pkt : FbPacket := { origin := OtuR.fld o OTU_PORT_LOC 0 5, cls := c, first, last, bytes := pk }
      ({ o with fbOut := o.fbOut ++ [pkt], fbLast := Tbl.ins o.fbLast c now
                fbPart := if last then Tbl.del o.fbPart c else Tbl.ins o.fbPart c (q, b.drop n)
                gate := { o.gate with busyTill := now + frameTicks le r
                                      aggAt := now + ceilDiv (le * 32000) (max 1 (OtuR.get o OTU_FB_PIR)) } } : Otu).dctrAdd 0x6A pk.length

/-! ### Relaying (R311, R313) -/

/-- FALLBACK_PACKET_RX: a relay refuses while its own port is DOWN; a whole frame is wrapped in a relay frame. -/
def execFallbackPacketRx (p : FbPacket) (e : Edge) (s : State) : Host.Outcome State Fault Refusal :=
  .next (s.onOtu fun o =>
    let o := o.go e
    if o.link.st = 0 || p.origin ≥ 32 || p.cls ≥ 8 then o
    else
      let k := 8 * p.origin + p.cls
      let b := (if p.first then [] else Tbl.get (fun _ => []) o.relayPart k) ++ p.bytes
      if p.last then
        let o := { o with relayPart := Tbl.put (fun _ => []) o.relayPart k [] }
        let r : QRec := { rtype := 0x20, kind := 0xF, inst := p.origin, tag := 0, rank := o.rankOf 0, body := le 4 p.origin ++ zeros 4 ++ b, ft := o.now }
        (o.enqueue (128 * p.cls + 127) r).dctrAdd 0x6B (24 + b.length)
      else { o with relayPart := Tbl.put (fun _ => []) o.relayPart k b })

/-! ### Egress queue samples (R314) -/

/-- R53, R314: the samples of the OTU's egress queues at the earliest instant that is due, those that a forward step passed included. -/
def Otu.sampleEgress (o : Otu) : Otu :=
  let t := o.gate.nextSample
  if !(OtuR.flag o OTU_EQS_CTRL 0 && o.due t) then o
  else
    let period := OtuR.fld o OTU_EQS_CTRL 1 10 * 40000
    let skip := OtuR.flag o OTU_QS_CTRL 1
    let es := (List.range 1024).map fun q =>
      let x := o.eqSt q
      let n := (o.eqGet q).length
      (0, if skip && n == 0 && x.dequeued == 0 && x.wasEmpty then none
          else some (qEntryBytes q o.now n (max (x.cover n o.now).maxDepth n) x.headAt x.dequeued false false x.first))
    let rs := qsRecords 1 t o.lt (OtuR.get o OTU_EQS_SEQ) (o.clk.grade + 8 * b2n o.trayLock) o.gate.lossy es
    let o := (List.range 1024).foldl (fun o q =>
      o.setEqSt q ((o.eqSt q).sampled (o.eqGet q).length o.now)) o
    let o := { o with gate := { o.gate with nextSample := nextMultiple t period } }
    let (o, lost) := o.sendSamples 1 OTU_EQS_SEQ rs
    { o with gate := { o.gate with lossy := lost || (o.gate.lossy && rs.isEmpty) } }

end Sys2Proof.Machine
end

