-- ==== Sys2Proof/Machine/Sillage.lean ====
section
/-!
DEFINITION. Machine/Sillage.lean: the sequencer flow trace at the OTU: packets, records, staging, grants
(06 R142 to R159).
-/
namespace Sys2Proof.Machine
open Sys2Proof

/-- A stream. -/
def Otu.silSt (o : Otu) (k : Nat) : SilSt := Tbl.get (fun _ => {}) o.sil k
/-- Set it. -/
def Otu.setSil (o : Otu) (k : Nat) (x : SilSt) : Otu := { o with sil := Tbl.put (fun _ => {}) o.sil k x }
/-- A sequencer. -/
def Otu.seqSt (o : Otu) (s : Nat) : SilSeq := Tbl.get (fun _ => {}) o.silSeq s
/-- Set it. -/
def Otu.setSeq (o : Otu) (s : Nat) (x : SilSeq) : Otu := { o with silSeq := Tbl.put (fun _ => {}) o.silSeq s x }

/-- The owner of sequencer `s`. -/
def Otu.seqOwner (o : Otu) (s : Nat) : Nat := (o.eng (seqEngine s)).tag

/-- R147: whether a grant in force covers sequencer `s` at level 1 or 2, at fleet time `t`. -/
def Otu.silLiveAt (o : Otu) (t s level : Nat) : Bool :=
  o.clk.st != 0 && 1 ≤ level && level ≤ 2 && (List.range 4).any fun g =>
    let x := o.grant g
    x.valid && decide (t < x.expiry) && bit x.seqMask s && bit x.scope (level - 1) && x.tag == o.seqOwner s

/-- R142: whether sequencer `s` is traced. -/
def Otu.silOn (o : Otu) (s : Nat) : Bool := OtuR.flag o OTU_SIL_CTRL 0 && OtuR.flag o OTU_SIL_SEQ_EN s

/-! ### Records (R148, R159) -/

/-- R148: a sillage record. -/
def silRecord (k flags tag firstSync rseq dropped ftOpen rank : Nat) (payload : List Byte) : List Byte :=
  le 1 1 ++ le 1 (k % 64) ++ le 2 flags ++ le 2 tag ++ le 2 firstSync ++ le 4 rseq ++ le 2 payload.length ++ le 2 dropped ++
  le 8 ftOpen ++ le 4 rank ++ le 4 0 ++ payload

/-- R159: packets and bytes that a stream lost. -/
def Otu.silLoss (o : Otu) (k pk bytes : Nat) : Otu :=
  let x := o.silSt k
  let o := (o.setSil k { x with lostPkts := x.lostPkts + pk, lostBytes := x.lostBytes + bytes }).jobLoss (o.seqOwner (k % 64))
  OtuR.cnt (OtuR.cnt o OTU_SIL_LOST_PKTS 0 32 pk) OTU_SIL_LOST_BYTES 0 32 bytes

/-- R159: the oldest unsent sillage record: its queue and itself. -/
def Otu.silOldest (o : Otu) : Option (Nat × QRec) :=
  (o.heads.filter fun x => x.2.kind == 3).foldl (fun b x =>
    match b with
    | none => some x
    | some y => if x.2.ft < y.2.ft then some x else some y) none

/-- R159: under WRAP, discard the oldest records until `n` bytes fit. -/
def Otu.silWrap : Nat → Otu → Nat → Otu
  | 0, o, _ => o
  | fuel + 1, o, n =>
    if o.queuedBytes 3 + n ≤ 8388608 then o
    else match o.silOldest with
      | none => o
      | some (q, r) =>
        let o := { o with eq := Tbl.put (fun _ => []) o.eq q ((o.eqGet q).drop 1) }
        let o := OtuR.cnt (OtuR.ev o OTU_SIL_EVENTS 1) OTU_SIL_OVERWRITTEN 0 32 1
        let o := o.silLoss r.inst r.pk (r.body.length - 32)
        let x := o.silSt r.inst
        Otu.silWrap fuel (o.setSil r.inst { x with dropped := satAdd 16 x.dropped 1, ovfDue := true }) n

/-- R152: the loss of a job stream's record splits the span that the sequencer is in. -/
def Otu.lossSplit (o : Otu) (k : Nat) : Otu :=
  let q := o.seqSt k
  if k < 64 && q.level ≠ 0 then o.setSeq k { q with split := true, partLt := o.lt, span := q.level } else o

/-- R148, R159: close the open record of a stream. -/
def Otu.silClose (o : Otu) (k : Nat) : Otu :=
  let x := o.silSt k
  if x.buf.isEmpty then o
  else
    let flags := b2n (decide (k ≥ 64)) + 2 * b2n x.firstSync.isSome + 4 * b2n x.hasOvf + 8 * x.openFl
    let body := silRecord k flags x.tag (x.firstSync.getD 0xFFFF) x.rseq x.dropped x.openFt (if x.tag = 0 then 0 else o.rankOf x.tag) x.buf
    let o := o.setSil k { x with buf := [], pk := 0, firstSync := none, hasOvf := false, rseq := (x.rseq + 1) % 2 ^ 32 }
    let room := decide (o.queuedBytes 3 + body.length ≤ 8388608)
    if room || OtuR.flag o OTU_SIL_CTRL 1 then
      let o := if room then o else Otu.silWrap 300000 o body.length
      let y := o.silSt k
      -- records of the stream that WRAP has just discarded are counted in this record
      let body := if room then body else
        silRecord k flags x.tag (x.firstSync.getD 0xFFFF) x.rseq y.dropped x.openFt (if x.tag = 0 then 0 else o.rankOf x.tag) x.buf
      (o.setSil k { y with dropped := 0 }).enqueue (128 + k)
        { rtype := 4, kind := 3, inst := k, tag := if k < 64 then x.tag else 0, rank := o.rankOf (if k < 64 then x.tag else 0), body := body, pk := x.pk, ft := o.now }
    else
      let o := (o.setSil k { o.silSt k with lost := true }).lossSplit k
      let o := OtuR.ev (o.silLoss k x.pk x.buf.length) OTU_SIL_EVENTS 0
      o.event { code := 0x43, sev := 3, tag := x.tag, payload := le 4 x.pk ++ le 8 (2 ^ (k % 64)) }

/-- R148, R153, R155: put one packet into a stream; `counted` is false for a SYNC, `ovf` true for an OVF. -/
def Otu.silPut (o : Otu) (k : Nat) (p : List Byte) (sync ovf : Bool) : Otu :=
  let x := o.silSt k
  if x.lost then o.silLoss k 1 p.length
  else
    let o := if x.buf.length + p.length > 4064 then o.silClose k else o
    let x := o.silSt k
    if x.lost then o.silLoss k 1 p.length
    else
      let fresh := x.buf.isEmpty
      let x : SilSt := if fresh then
          { x with openFt := o.ft, openAt := o.lt, openFl := o.clk.grade + 8 * b2n o.trayLock
                   tag := o.seqOwner (k % 64) } else x
      let x : SilSt := { x with buf := x.buf ++ p, pk := x.pk + 1, pktCount := (x.pktCount + 1) % 2 ^ 32
                                firstSync := if sync && x.firstSync.isNone then some x.buf.length else x.firstSync
                                hasOvf := x.hasOvf || ovf, counted := if sync then 0 else x.counted + 1 }
      let o := o.setSil k x
      if x.buf.length ≥ 4064 then o.silClose k else o

/-! ### Packets (R149 to R154) -/

/-- R150: an OUT packet of 1 to 32 outcomes. -/
def outPacket (l : List Bool) : List Byte :=
  le 1 (0x80 + (l.length - 1)) ++ le ((l.length + 7) / 8) (maskOf ((l.zipIdx.filter (·.1)).map (·.2)))

/-- R150: a RUN packet. -/
def runPacket (b : Bool) (n : Nat) : List Byte := le 1 (0xA0 + b2n b) ++ leb n

/-- R158: a packet due at the end of this cycle, as the clock stands. -/
def Otu.dueNow (o : Otu) (reason : Nat) : EndDue := { reason, lt := o.lt, st := o.clk.st, ft := o.clk.ft, grade := o.clk.grade }

/-- R155: a SYNC falls due in a stream, at the end of this cycle and for the lowest reason of the cycle; in the job stream
inside a span it is deferred. A stream that has opened with a SYNC in this very cycle gives that one the lower reason. -/
def Otu.silAsk (o : Otu) (k reason : Nat) : Otu :=
  let x := o.silSt k
  if k < 64 && (o.seqSt k).level ≠ 0 then o.setSil k { x with waitSync := some (min reason (x.waitSync.getD reason)) }
  else if x.syncAt = some o.lt && x.counted = 0 && x.buf.length ≥ 40 then
    let n := x.buf.length - 40
    let old := fieldAt x.buf (n + 1) 1
    o.setSil k { x with buf := x.buf.take (n + 1) ++ le 1 (min reason old) ++ x.buf.drop (n + 2) }
  else o.setSil k { x with due := some (o.dueNow (min reason ((x.due.map (·.reason)).getD reason))) }

/-- R154: an OVF with the totals, which start afresh. -/
def Otu.silOvf (o : Otu) (k : Nat) : Otu :=
  let x := o.silSt k
  (o.setSil k { x with ovfDue := false, lostPkts := 0, lostBytes := 0 }).silPut k (le 1 0x50 ++ leb x.lostPkts ++ leb x.lostBytes) false true

/-- R159: the OVF that WRAP owes a stream, with the SYNC after it. -/
def Otu.ovfNow (o : Otu) (k : Nat) : Otu :=
  let x := o.silSt k
  if x.ovfDue && !x.lost then (o.silOvf k).silAsk k 4 else o

/-- R150, R158: an OUT or RUN packet; an OVF that is owed follows it (log entry 49). -/
def Otu.silOut (o : Otu) (k : Nat) (p : List Byte) : Otu := (o.silPut k p false false).ovfNow k

/-- R150: flush the outcomes of a stream. -/
def Otu.silFlush (o : Otu) (k : Nat) : Otu :=
  let x := o.silSt k
  match x.run with
  | some (b, n) => (o.setSil k { x with run := none }).silOut k (runPacket b n)
  | none => if x.pend.isEmpty then o else (o.setSil k { x with pend := [] }).silOut k (outPacket x.pend)

/-- R150, R159: any other packet: after the outcomes and an OVF that is owed. -/
def Otu.silEmit (o : Otu) (k : Nat) (p : List Byte) : Otu := ((o.silFlush k).ovfNow k).silPut k p false false

/-- R150: an outcome arrives. -/
def Otu.silOutcome (o : Otu) (k : Nat) (b : Bool) : Otu :=
  let x : SilSt := { o.silSt k with lastOut := o.lt }
  match x.run with
  | some (c, n) =>
    if b = c then
      if n + 1 ≥ ones32 then (o.setSil k { x with run := none }).silOut k (runPacket c (n + 1))
      else o.setSil k { x with run := some (c, n + 1) }
    else (o.setSil k { x with run := none, pend := [b] }).silOut k (runPacket c n)
  | none =>
    if x.pend.length < 32 then o.setSil k { x with pend := x.pend ++ [b] }
    else if x.pend.all (· == b) then o.setSil k { x with pend := [], run := some (b, 33) }
    else (o.setSil k { x with pend := [b] }).silOut k (outPacket x.pend)

/-- R151: an IND packet. -/
def Otu.silInd (o : Otu) (k target : Nat) : Otu :=
  let x := o.silSt k
  let o := o.silEmit k (le 1 0x10 ++ leb (zigzag 45 x.lit (target / 8)))
  o.setSil k { o.silSt k with lit := target / 8 }

/-- R153: a SYNC, after the outcomes and an OVF that is owed. -/
def Otu.silSync (o : Otu) (k reason : Nat) : Otu :=
  let o := o.silFlush k
  let y := o.silSt k
  let owed := y.ovfDue && !y.lost
  let o := if owed then o.silOvf k else o
  let s := k % 64
  let q := o.seqSt s
  let x := o.silSt k
  let lev := (if k < 64 then 0 else q.level + 4 * b2n (o.silLiveAt o.clk.ft s 1) + 8 * b2n (o.silLiveAt o.clk.ft s 2)) + 16 * o.clk.grade
  let jt := if (o.job? (o.seqOwner s)).isSome then o.jt else absent
  let p := le 1 0xF0 ++ le 1 (if owed then min reason 4 else reason) ++ le 1 lev ++ le 1 0 ++ le 4 x.pktCount ++ le 8 (q.nextIa % 2 ^ 48) ++
    le 8 o.ft ++ le 8 jt ++ le 8 o.lt
  (o.setSil k { x with lit := q.nextIa / 8 % 2 ^ 45, waitSync := none, due := none, syncAt := some o.lt }).silPut k p true false

/-- R158: emit the packets of a stream that are due at the end of the cycle `d` as the OTU stood there. -/
def Otu.asOf (o : Otu) (d : EndDue) (f : Otu → Otu) : Otu :=
  { f { o with lt := d.lt, clk := { o.clk with st := d.st, ft := d.ft, grade := d.grade } } with lt := o.lt, clk := o.clk }

/-- R155, R158: emit the SYNC that is due, now. -/
def Otu.silForce (o : Otu) (k : Nat) : Otu :=
  match (o.silSt k).due with
  | some d => o.asOf d fun o => o.silSync k (min d.reason (((o.silSt k).due.map (·.reason)).getD d.reason))
  | none => o

/-- R156, R158: emit the END that is due, after the SYNC, and close the record. -/
def Otu.endForce (o : Otu) (k : Nat) : Otu :=
  match (o.silSt k).endDue with
  | some d =>
    let o := o.silForce k
    (o.setSil k { o.silSt k with endDue := none }).asOf d fun o => (o.silEmit k (le 1 (0x60 + d.reason))).silClose k
  | none => o

/-- R158: the cycles before this one are over: what was due at their end goes out. -/
def Otu.silSettle (o : Otu) (k : Nat) : Otu :=
  let past (d : Option EndDue) : Bool := d.any fun d => decide (d.lt < o.lt)
  let o := if past (o.silSt k).due then o.silForce k else o
  if past (o.silSt k).endDue then o.endForce k else o

/-- Both streams of a sequencer. -/
def Otu.silSettleSeq (o : Otu) (s : Nat) : Otu := (o.silSettle s).silSettle (64 + s)

/-- Every stream. -/
def Otu.silSettleAll (o : Otu) : Otu := (o.sil.map (·.1)).foldl (fun o k => o.silSettle k) o

/-- R152: a PGAP of the current part of a span, after the flush. `resume` is none with NO_RESUME. -/
def Otu.silPgap (o : Otu) (s : Nat) (resume : Option Nat) (cycles : Nat) : Otu :=
  let q := o.seqSt s
  let x := o.silSt s
  let dep := if q.split then none else q.lastIa
  let res := if q.split || q.lastIa.isNone then none else resume
  let fl := q.span % 4 + 4 * b2n res.isNone + 8 * b2n dep.isNone
  let p := le 1 (0x20 + fl) ++ (match dep with | some a => leb (zigzag 45 x.lit (a / 8)) | none => []) ++ leb cycles ++
    (match dep, res with | some a, some r => leb (zigzag 45 (a / 8) (r / 8)) | _, _ => [])
  let lit := match res, dep with
    | some r, _ => r / 8
    | none, some a => a / 8
    | none, none => x.lit
  let o := o.silEmit s p
  o.setSil s { o.silSt s with lit := lit }

/-- R152: split the span that sequencer `s` is in: the part so far ends with NO_RESUME. -/
def Otu.silSplit (o : Otu) (s : Nat) : Otu :=
  let q := o.seqSt s
  if q.level = 0 then o
  else if q.split || q.lastIa.isNone then o.setSeq s { q with split := true }
  else
    let o := o.silPgap s none (o.lt - q.partLt)
    o.setSeq s { o.seqSt s with split := true, partLt := o.lt, span := q.level }

/-- R152, R155: a SYNC falls due; in the job stream inside a span its deferral splits the span. -/
def Otu.silDue (o : Otu) (k reason : Nat) : Otu := (if k < 64 then o.silSplit k else o).silAsk k reason

/-- R155: the SYNC after the 4,096th counted packet. -/
def Otu.silCadence (o : Otu) (k : Nat) : Otu := if (o.silSt k).counted ≥ 4096 then o.silDue k 0 else o

/-! ### Commands of the trace -/

/-- R148: a record carries packets of one job: before the first packet for another, the old one's outcomes go out in its own. -/
def Otu.silHandOver (o : Otu) (k : Nat) : Otu :=
  let owner := o.seqOwner (k % 64)
  let old := (o.silSt k).tag
  if old = owner then o
  else
    let o := o.silFlush k
    let o := (o.setSil k { o.silSt k with tag := old }).silClose k
    o.setSil k { o.silSt k with tag := owner }

/-- R142, R155: one instruction in stream `k`. -/
def Otu.silInstr (o : Otu) (k : Nat) (i : SilInstr) : Otu :=
  let o := o.silHandOver k
  let o := match i.kind with
    | 1 => o.silOutcome k i.taken
    | 2 => o.silInd k i.target
    | _ => o
  let job := match o.job? (o.seqOwner (k % 64)) with | some j => j.bseq + 1 | none => 0
  let o := if k < 64 && job != 0 && (o.silSt k).began != job then (o.setSil k { o.silSt k with began := job }).silDue k 3 else o
  o.silCadence k

/-- 04 R106: a retired instruction at the taps of its sequencer's engine. -/
def Otu.silTaps (o : Otu) (s : Nat) (i : SilInstr) : Otu :=
  let o := o.tap (seqEngine s) 0xC0 i.level 1
  let o := o.tap (seqEngine s) 0xC1 i.level (b2n (i.kind == 1))
  let o := o.tap (seqEngine s) 0xC2 i.level (b2n (i.kind == 1 && i.taken))
  o.tap (seqEngine s) 0xC3 i.level (b2n (i.kind == 2))

/-- SIL_INSTR_RETIRE: an instruction is classed by the grants of the cycle before (R147). -/
def execSilInstrRetire (seq : Nat) (i : SilInstr) (e : Edge) (s : State) : Host.Outcome State Fault Refusal :=
  .next (s.onOtu fun o =>
    let o := (o.go e).silSettleSeq seq
    if seq ≥ 64 then o
    else
      let q := o.seqSt seq
      let o := o.setSeq seq { q with nextIa := i.next % 2 ^ 48, lastIa := if i.level = 0 then some i.ia else q.lastIa
                                     lastLt := if i.level = 0 then o.lt else q.lastLt }
      let o := o.silTaps seq i
      if !o.silOn seq then o
      else if i.level = 0 then o.silInstr seq i
      else if o.silLiveAt o.ftBefore seq i.level then o.silInstr (64 + seq) i
      else o)

/-- R156: open a granted span in the privileged stream, which begins with a SYNC. -/
def Otu.privOpen (o : Otu) (s reason : Nat) : Otu :=
  let o := o.endForce (64 + s)
  (o.setSil (64 + s) { o.silSt (64 + s) with live := true }).silSync (64 + s) reason

/-- R154, R156: close the privileged stream's span with END `reason`, at the end of this cycle. -/
def Otu.privEnd (o : Otu) (s reason : Nat) : Otu :=
  let x := o.silSt (64 + s)
  if x.live then o.setSil (64 + s) { x with live := false, endDue := some (o.dueNow reason) } else o

/-- SPAN_ENTRY. -/
def execSpanEntry (seq level ia : Nat) (e : Edge) (s : State) : Host.Outcome State Fault Refusal :=
  .next (s.onOtu fun o =>
    let o := (o.go e).silSettleSeq seq
    if seq ≥ 64 || level = 0 || level > 2 then o
    else
      let q := o.seqSt seq
      let q' : SilSeq := if q.level = 0 then { q with level := level, span := level, split := false, partLt := q.lastLt, nextIa := ia }
        else { q with level := level, span := q.span ||| level, nextIa := ia }
      let o := o.setSeq seq q'
      let live := o.silOn seq && o.silLiveAt o.ftBefore seq level
      if live && !(o.silSt (64 + seq)).live then o.privOpen seq 7
      else if live then o else o.privEnd seq 2)

/-- SPAN_EXIT. -/
def execSpanExit (seq ia : Nat) (e : Edge) (s : State) : Host.Outcome State Fault Refusal :=
  .next (s.onOtu fun o =>
    let o := (o.go e).silSettleSeq seq
    let q := o.seqSt seq
    if seq ≥ 64 || q.level = 0 then o
    else
      let o := o.privEnd seq 2
      let split := q.split || q.lastIa.isNone
      let o := if o.silOn seq then o.silPgap seq (some ia) (o.lt - q.partLt - 1) else o
      let o := o.setSeq seq { o.seqSt seq with level := 0, span := 0, split := false, nextIa := ia }
      if !o.silOn seq then o
      else match (o.silSt seq).waitSync with
        | some r => o.silSync seq r
        | none => if split then o.silSync seq 3 else o.silCadence seq)

/-- OUT_FLUSH. -/
def execOutFlush (k : Nat) (e : Edge) (s : State) : Host.Outcome State Fault Refusal :=
  .next (s.onOtu fun o =>
    let o := (o.go e).silSettle k
    if k < 128 && decide (o.lt ≥ (o.silSt k).lastOut + 16 * OtuR.fld o OTU_SIL_CTRL 24 8) then (o.silFlush k).silCadence k else o)

/-- SIL_REC_TIMEOUT: 2,000 engine cycles are one microsecond. -/
def execSilRecTimeout (k : Nat) (e : Edge) (s : State) : Host.Outcome State Fault Refusal :=
  .next (s.onOtu fun o =>
    let o := (o.go e).silSettle k
    if k < 128 && decide (o.lt ≥ (o.silSt k).openAt + 2000 * OtuR.fld o OTU_SIL_CTRL 4 8) then o.silClose k else o)

/-- SIL_RESUME: a LOST stream resumes once RESUME_FREE is free: the outcomes that it holds count as lost, and OVF and SYNC follow. -/
def execSilResume (k : Nat) (e : Edge) (s : State) : Host.Outcome State Fault Refusal :=
  .next (s.onOtu fun o =>
    let o := (o.go e).silSettle k
    if k < 128 && (o.silSt k).lost && decide (o.queuedBytes 3 + OtuR.fld o OTU_SIL_CTRL 12 12 * 1024 ≤ 8388608) then
      let o := o.silFlush k
      ((o.setSil k { o.silSt k with lost := false }).silOvf k).silDue k 4
    else o)

/-- R154, R158: end the job stream of `s` with END `reason`, after the closing PGAP of a span. -/
def Otu.silEndStream (o : Otu) (s reason : Nat) : Otu :=
  let o := (o.silSettleSeq s).silSplit s
  let o := (((o.silFlush s).silForce s).silEmit s (le 1 (0x60 + reason))).silClose s
  (o.setSil s { o.silSt s with waitSync := none }).privEnd s reason

/-- R145, R155: tracing of sequencer `s` is enabled: SYNC ENABLE, in the privileged stream too inside a granted span. -/
def Otu.silBegin (o : Otu) (s : Nat) : Otu :=
  let o := o.silSettleSeq s
  let q := o.seqSt s
  let o := if q.level = 0 then o else o.setSeq s { q with split := true, partLt := o.lt, span := q.level }
  let o := o.silDue s 6
  if o.silLiveAt o.clk.ft s q.level && !(o.silSt (64 + s)).live then o.privOpen s 6 else o

/-- R175: a write of OTU_SIL_SEQ_EN. -/
def Otu.silSeqEn (o : Otu) (v : Nat) : Otu :=
  let old := OtuR.get o OTU_SIL_SEQ_EN
  let on := OtuR.flag o OTU_SIL_CTRL 0
  let o := if on then ((List.range 64).filter fun s => bit old s && !bit v s).foldl (fun o s => o.silEndStream s 1) o else o
  let o := OtuR.set o OTU_SIL_SEQ_EN (v % 2 ^ 64)
  if on then ((List.range 64).filter fun s => !bit old s && bit v s).foldl (fun o s => o.silBegin s) o else o

/-- SIL_SEQ_EN_WRITE. -/
def execSilSeqEnWrite (value : Nat) (e : Edge) (s : State) : Host.Outcome State Fault Refusal :=
  .next (s.onOtu fun o => (o.go e).silSeqEn value)

/-- SYNC_REQ: in both streams; the privileged one while a granted span is open. -/
def execSyncReq (value : Nat) (e : Edge) (s : State) : Host.Outcome State Fault Refusal :=
  .next (s.onOtu fun o =>
    let o := o.go e
    ((List.range 64).filter fun s => bit value s && o.silOn s).foldl (fun o s =>
      let o := (o.silSettleSeq s).silDue s 5
      if (o.silSt (64 + s)).live then o.silDue (64 + s) 5 else o) o)

/-! ### Grants (R147, R155, R156) -/

/-- R155, R156: the privileged streams of the sequencers in `mask` after a change of grants, or of owners; `live` is the
liveness that the change leaves, and `sync` says that a stream which stays open shows the change. -/
def Otu.privChange (o : Otu) (mask : Nat) (sync : Bool) (live : Nat → Bool) : Otu :=
  (setBits 64 mask).foldl (fun o s =>
    if (o.seqSt s).level = 0 || !o.silOn s then o
    else
      let o := o.silSettleSeq s
      let was := (o.silSt (64 + s)).live
      if live s then (if !was then o.privOpen s 2 else if sync then o.silAsk (64 + s) 2 else o)
      else if was then o.privEnd s 3 else o) o

/-- The grants as they are from the next cycle on. -/
def Otu.grantsNext (o : Otu) : List Grant := (List.range 4).map fun g => (Tbl.get (fun _ => ⟨{}, {}, 0⟩) o.grants g).cur

/-- R147: liveness for sequencer `s` at its level, under a list of grants. -/
def Otu.silLiveIn (o : Otu) (l : List Grant) (s : Nat) : Bool :=
  let lv := (o.seqSt s).level
  l.any fun x => x.valid && decide (o.clk.ft < x.expiry) && bit x.seqMask s && 1 ≤ lv && bit x.scope (lv - 1) && x.tag == o.seqOwner s

/-- R103, R105: the selections of an engine whose admitting grant has just ended lapse, at the end of this cycle. -/
def Otu.pmcLapse (o : Otu) (next : List Grant) : Otu :=
  (o.engs.map (·.1)).foldl (fun o e =>
    let x := o.eng e
    let needs (key : Nat) : Bool :=
      let v := OtuR.get o (OTU_ENG_EVSEL e (key / 2))
      if key % 2 = 0 then bit v 38 else decide (getF v 0 16 ≥ 0x8000)
    let ends (p : Nat × Admit) : Bool :=
      p.2.lapsed.isNone && !(o.clk.st != 0 && p.2.liveIn o.clk.ft (o.grant p.2.g) && p.2.liveIn o.clk.ft (next.getD p.2.g {}))
    if x.admits.any ends then
      let hit := x.admits.any fun p => ends p && needs p.1
      let o := o.setEng e { x with admits := x.admits.map fun p => if ends p then (p.1, { p.2 with lapsed := some o.lt }) else p }
      if hit then OtuR.ev o (OTU_ENG_EVENTS e) 2 else o
    else o) o

/-- R147, R156: after a change of entry `g`, which covered and covers the sequencers in `mask`. -/
def Otu.grantChanged (o : Otu) (mask : Nat) : Otu :=
  let l := o.grantsNext
  let o := OtuR.ev o OTU_SIL_EVENTS 2
  (o.privChange mask true fun s => o.silLiveIn l s).pmcLapse l

/-- R147, R156: sequencers change owner, and with it the grants that cover them. -/
def Otu.ownersChanged (o : Otu) : Otu :=
  let l := o.grantsNext
  o.privChange (2 ^ 64 - 1) false fun s => o.clk.st != 0 && o.silLiveIn l s

/-- GRANT_WRITE. -/
def execGrantWrite (g : Nat) (x : GrantReq) (e : Edge) (s : State) : Host.Outcome State Fault Refusal :=
  .next (s.onOtu fun o =>
    let o := o.go e
    if g ≥ 4 then o
    else if x.die ≠ OtuR.get o OTU_DIE_UID || o.clk.st = 0 || decide (x.expiry ≤ o.clk.ft) then
      (OtuR.ev o OTU_SIL_EVENTS 3).event { code := 0x44, sev := 3, payload := le 4 x.id }
    else
      let d : Delayed Grant := Tbl.get (fun _ => ⟨{}, {}, 0⟩) o.grants g
      let n : Grant := { id := x.id, scope := x.scope % 32, tag := x.tag, die := x.die, expiry := x.expiry, seqMask := x.seqMask, valid := true }
      ({ o with grants := Tbl.put (fun _ => ⟨{}, {}, 0⟩) o.grants g (d.write o.lt n) }).grantChanged (d.cur.seqMask ||| x.seqMask))

/-- GRANT_REVOKE. -/
def execGrantRevoke (g : Nat) (e : Edge) (s : State) : Host.Outcome State Fault Refusal :=
  .next (s.onOtu fun o =>
    let o := o.go e
    let d : Delayed Grant := Tbl.get (fun _ => ⟨{}, {}, 0⟩) o.grants g
    if g < 4 && d.cur.valid then
      ({ o with grants := Tbl.put (fun _ => ⟨{}, {}, 0⟩) o.grants g (d.write o.lt { d.cur with valid := false }) }).grantChanged d.cur.seqMask
    else o)

/-- GRANT_EXPIRED. -/
def execGrantExpired (g : Nat) (e : Edge) (s : State) : Host.Outcome State Fault Refusal :=
  .next (s.onOtu fun o =>
    let o := o.go e
    let d : Delayed Grant := Tbl.get (fun _ => ⟨{}, {}, 0⟩) o.grants g
    if g < 4 && d.cur.valid && !d.cur.ended && o.due d.cur.expiry then
      (OtuR.ev { o with grants := Tbl.put (fun _ => ⟨{}, {}, 0⟩) o.grants g { d with cur := { d.cur with ended := true } } } OTU_SIL_EVENTS 4).grantChanged d.cur.seqMask
    else o)

/-! ### Rest and power (R157) -/

/-- R154, R157: the sequencer leaves a state other than ACTIVE: PWR_EXIT, and a SYNC. -/
def Otu.pwrExit (o : Otu) (k old : Nat) : Otu := (o.silEmit k (le 1 (0x40 + old))).silDue k 1

/-- R154, R157, R158: the sequencer enters a state other than ACTIVE: the closing PGAP of a span, the SYNC that is due, and
PWR_ENTER, which closes the record. -/
def Otu.pwrEnter (o : Otu) (k new ft : Nat) : Otu :=
  let o := if k < 64 then o.silSplit k else o
  (((o.silFlush k).silForce k).silEmit k (le 1 (0x30 + new) ++ le 8 ft)).silClose k

/-- R157: the sequencer goes from one state to another. -/
def Otu.silPower (o : Otu) (s old new : Nat) : Otu :=
  if old = new then o
  else
    let o := o.silSettleSeq s
    let o := if old = 0 then o.setSeq s { o.seqSt s with offFt := o.ft } else o
    if !o.silOn s then o
    else
      let ks := [s] ++ (if (o.silSt (64 + s)).live then [64 + s] else [])
      ks.foldl (fun o k =>
        let o := if old = 0 then o else o.pwrExit k old
        if new = 0 then o else o.pwrEnter k new (o.seqSt s).offFt) o

/-- R154, R158: at a job's end, the streams of its sequencers end. -/
def Otu.silJobEnd (o : Otu) (tag : Nat) : Otu :=
  ((List.range 64).filter fun s => o.seqOwner s == tag && o.silOn s).foldl (fun o s => o.silEndStream s 0) o

end Sys2Proof.Machine
end

