-- ==== Sys2Proof/Machine/Canary.lean ====
section
/-!
DEFINITION. Machine/Canary.lean: numeric sentinels, first NaNs, canaries and mirrors at the OTU (07 R177 to R198).
-/
namespace Sys2Proof.Machine
open Sys2Proof

/-! ### Sentinels (R177 to R179) -/

/-- Exponent and mantissa widths of an element format of R181; MX formats by their element's format; none for INT8. -/
def OutElem.layout (x : OutElem) : Option (Nat × Nat) :=
  match x.format with
  | 0 => some (4, 3)
  | 1 => some (5, 2)
  | 2 => some (2, 1)
  | 3 => some (if x.e5m2 then (5, 2) else (4, 3))
  | 4 => some (8, 7)
  | 5 => some (8, 23)
  | _ => none

/-- R177: the class of an element: 0 NaN, 1 infinity, 2 saturation, 3 subnormal. -/
def OutElem.cls (x : OutElem) : Option Nat :=
  if (x.format = 2 || x.format = 3) && x.scale = 0xFF then some 0
  else match x.layout with
    | none => if x.clamped && x.format = 6 then some 2 else none
    | some (ew, mw) =>
      let m := getF x.bits 0 mw
      let ex := getF x.bits mw ew
      let top := ex == 2 ^ ew - 1
      let nan := if ew = 2 then false else if ew = 4 then top && m == 7 else top && m != 0
      let inf := ew ≥ 5 && top && m == 0
      if nan then some 0 else if inf then some 1 else if x.clamped then some 2
      else if ex = 0 && m ≠ 0 then some 3 else none

/-- R178: the position of an engine kind among the die counters of a class. -/
def sentinelKind (k : Nat) : Option Nat :=
  match k with
  | 0 => some 0 | 1 => some 1 | 4 => some 2 | 3 => some 3
  | _ => none

/-- DRAIN_OUTPUT: the die counter and the engine's class count the same elements (R178). -/
def execDrainOutput (eng : Nat) (x : OutElem) (e : Edge) (s : State) : Host.Outcome State Fault Refusal :=
  .next (s.onOtu fun o =>
    let o := o.go e
    match (if eng < 512 && OtuR.flag o OTU_NUM_CTRL 0 then sentinelKind (engKind eng) else none), x.cls with
    | some k, some c =>
      let o := (o.dctrAdd (0x20 + 4 * c + k) 1).tap eng (0xE0 + c) (o.eng eng).level 1
      let o := if c = 0 && x.origin then o.dctrAdd 0x32 1 else o
      if c = 0 then OtuR.ev o OTU_NUM_EVENTS 0 else if c = 1 then OtuR.ev o OTU_NUM_EVENTS 1 else o
    | _, _ => o)

/-- R181: the first-NaN record. -/
def firstNanBytes (kind flags tag eng ft step rank : Nat) (x : FirstNan) : List Byte :=
  le 1 1 ++ le 1 kind ++ le 2 flags ++ le 2 tag ++ le 2 eng ++ le 8 ft ++ le 8 step ++ le 4 rank ++ le 4 x.tensor ++
  le 4 x.tile ++ le 2 x.row ++ le 2 (if x.creStage then 0 else x.col) ++ le 4 x.element ++ le 1 x.format ++ le 1 0 ++
  le 2 x.raw ++ le 8 x.provA ++ le 8 x.provB

/-- R180: first-NaN records that wait before the telemetry port, counted by their fleet copies. -/
def Otu.firstNansQueued (o : Otu) : Nat :=
  ((o.eqGet (o.eqOf 7 0 0)).filter fun r => r.kind == 7 && r.tag == 0).length

/-- FIRST_NAN: the engine's latch takes the element if it is armed for the step. -/
def execFirstNan (eng : Nat) (x : FirstNan) (e : Edge) (s : State) : Host.Outcome State Fault Refusal :=
  .next (s.onOtu fun o =>
    let o := o.go e
    let y := o.eng eng
    let (gen, step) := o.step.inForce o.lt
    if !(eng < 512 && (sentinelKind (engKind eng)).isSome && OtuR.flag o OTU_NUM_CTRL 1 && y.nanGen ≠ some gen) then o
    else
      let o := o.setEng eng { y with nanGen := some gen }
      let o := OtuR.set (OtuR.ev o OTU_NUM_EVENTS 2) OTU_NUM_LAST_FT o.ft
      let rank := o.rankOf y.tag
      let flags := b2n x.origin + 2 * b2n x.creStage + 4 * b2n (step == absent) + 8 * o.clk.grade + 64 * b2n o.trayLock +
        128 * (x.provAKind % 4) + 512 * (x.provBKind % 4)
      let body := firstNanBytes (engKind eng) flags y.tag eng o.ft step rank x
      let o := o.event { code := 0x50, sev := 3, tag := y.tag, rank := some rank,
                         payload := le 4 x.tensor ++ le 4 x.tile ++ le 4 x.element }
      if !OtuR.flag o OTU_NUM_CTRL 2 then o
      else if o.firstNansQueued ≥ 64 then
        OtuR.ev (OtuR.cnt (o.dctrAdd 0x31 1) OTU_NUM_FIRST_LOST 0 32 1) OTU_NUM_EVENTS 3
      else
        let o := (o.dctrAdd 0x30 1).send 7 0 9 0 body
        if y.tag = 0 then o else o.send 7 0 9 y.tag body)

/-! ### Error reports (R183) -/

/-- CORRECTED_ERROR: counted at the die, and an event record. -/
def execCorrectedError (part : Part) (x : ErrReport) (e : Edge) (s : State) : Host.Outcome State Fault Refusal :=
  let r : EvReq := { code := 0x91, sev := 2, tag := x.tag, path := x.path,
                     payload := le 2 x.code ++ le 2 x.syndrome ++ le 1 x.bits }
  match part with
  | .otu => .next (s.onOtu fun o => ((o.go e).dctrAdd 3 1).event r)
  | .prd => .next (s.onPrd fun p => (p.go e.ft).event r)

/-! ### The library and what may start (R186 to R189) -/

/-- The fields of library descriptor `n`. -/
def Otu.lib (o : Otu) (n i : Nat) : Nat := OtuR.get o (OTU_CAN_LIB n i)

/-- LENGTH of descriptor `n`. -/
def Otu.libLen (o : Otu) (n : Nat) : Nat := getF (o.lib n 1) 0 32

/-- R186: whether descriptor `n` is valid. -/
def Otu.libValid (o : Otu) (n : Nat) : Bool :=
  let w := o.lib n 0
  getF w 0 8 == 1 && getF w 8 8 ≤ 5 && bit w 16 && decide (16 ≤ o.libLen n) && decide (o.libLen n ≤ 65535)

/-- R198 LIB_COUNT. -/
def Otu.libCount (o : Otu) : Nat := ((List.range 256).filter o.libValid).length

/-- EXPECT of descriptor `n`. -/
def Otu.libExpect (o : Otu) (n : Nat) : Nat := o.lib n 4 + 2 ^ 64 * o.lib n 5

/-- The cluster whose candidate engine `e` may run (R192). -/
def mirrorCluster (e : Nat) : Nat := if engKind e = 4 then (e / 16) ^^^ 1 else e / 16

/-- R192: the mirror candidate that is ready for engine `e`. -/
def Otu.candFor (o : Otu) (e : Nat) : Option Cand :=
  let c := mirrorCluster e
  if !OtuR.flag o OTU_CAN_CTRL 8 || o.engs.any (fun x => x.2.canary.any fun r => r.mirror && r.idx == c) then none
  else match (o.mir c).cand with
    | some x =>
      let third := match x.tie with | some t => t.eng ≠ e | none => true
      if engKind x.eng = engKind e && x.eng ≠ e && third && (o.eng e).tag = x.tag && x.tag ≠ 0 then some x else none
    | none => none

/-- R188, R189: whether the budget and the abort window allow a canary of length `l` on the engine. -/
def Otu.canAllowed (o : Otu) (e l : Nat) : Bool × Bool :=
  let x := o.eng e
  (OtuR.fld o OTU_CAN_CTRL 10 6 ≠ 0 && decide (x.bucket ≥ 10000 * l), decide (x.aborts < OtuR.fld o OTU_CAN_CTRL 16 10))

/-- R187: the conditions on the engine itself, the canary's length aside. -/
def Otu.canIdle (o : Otu) (e : Nat) (drained : Bool) : Bool :=
  let x := o.eng e
  let q := o.queue e
  let k := engKind e
  OtuR.flag o OTU_CAN_CTRL 0 && decide (k < 6) && OtuR.flag o OTU_CAN_CTRL (k + 1) && x.st.inForce o.lt == 0 &&
  q.depth == 0 && x.running == 0 && drained && x.canary.isNone &&
  (match o.job? x.tag with | some j => !j.noCanary | none => true)

/-- The library entries in round-robin order for a kind. -/
def Otu.libOrder (o : Otu) (k : Nat) : List Nat :=
  let p := Tbl.get (fun _ => 0) o.canPtr k
  (List.range 256).map fun i => (p + i) % 256

/-- R187: what the OTU would run on the engine, in its order of preference: a canary and its length. -/
def Otu.canChoices (o : Otu) (e pred : Nat) : List (CanRun × Nat) :=
  let margin := OtuR.fld o OTU_CAN_TIMING 0 16
  let fits (l : Nat) : Bool := decide (pred ≥ l + margin)
  let m := match o.candFor e with
    | some x => if fits x.len then [({ mirror := true, idx := mirrorCluster e, ft := o.ft }, x.len)] else []
    | none => []
  m ++ ((o.libOrder (engKind e)).filter fun n => o.libValid n && getF (o.lib n 0) 8 8 == engKind e && fits (o.libLen n)).map
    fun n => ({ mirror := false, idx := n, ft := o.ft }, o.libLen n)

/-- R192: whether a sibling of lower engine ID would take the mirror candidate that `e` may run. -/
def Otu.lowerSibling (o : Otu) (e : Nat) (sib : List SibIdle) : Bool :=
  sib.any fun x => x.eng < e && engKind x.eng == engKind e && mirrorCluster x.eng == mirrorCluster e && o.canIdle x.eng x.drained &&
    (match o.candFor x.eng with
     | some k => decide (x.predIdle ≥ k.len + OtuR.fld o OTU_CAN_TIMING 0 16) && (o.canAllowed x.eng k.len).1 && (o.canAllowed x.eng k.len).2
     | none => false)

/-- CANARY_START: none where a job command has arrived in this very cycle (R187). Of several idle siblings, the lowest
engine ID runs a mirror (R192). -/
def execCanaryStart (eng predIdle : Nat) (x : IdleFact) (e : Edge) (s : State) : Host.Outcome State Fault Refusal :=
  .next (s.onOtu fun o =>
    let o := (o.go e).settleMarks
    if !(eng < 512 && o.canIdle eng x.drained) || (o.eng eng).arrived = some o.lt then o
    else
      let lower := o.lowerSibling eng x.sib
      let cs := (o.canChoices eng predIdle).filter fun c => !(c.1.mirror && lower)
      match cs.find? fun c => (o.canAllowed eng c.2).1 && (o.canAllowed eng c.2).2 with
      | some c => (o.setEng eng { o.eng eng with canary := some { c.1 with lt := o.lt } }).dctrAdd 0x40 1
      | none =>
        match cs with
        | [] => o
        | c :: _ =>
          let a := o.canAllowed eng c.2
          let o := o.dctrAdd 0x49 1
          let o := if a.1 then o else OtuR.ev o OTU_CAN_EVENTS 3
          if a.2 then o else OtuR.ev o OTU_CAN_EVENTS 4)

/-- R187: CAN_STARTED without the canary of this cycle that does not start. -/
def Otu.unstart (o : Otu) : Otu :=
  let w := o.dctrGet 0x40
  { o with dctr := Tbl.put (fun _ => 0) o.dctr 0x40 ((getF w 0 48 + 2 ^ 48 - 1) % 2 ^ 48 + (if bit w 63 then 2 ^ 63 else 0)) }

/-- CANARY_ABORT: a job command arrives, at the head of the queue and decoded. While a canary occupies the engine it counts as an
abort, in its final cycle too; in the canary's first cycle the command wins, and no canary starts (R187). -/
def execCanaryAbort (eng : Nat) (final : Bool) (e : Edge) (s : State) : Host.Outcome State Fault Refusal :=
  .next (s.onOtu fun o =>
    let o := (o.go e).settleMarks
    let x := { o.eng eng with arrived := some o.lt }
    match x.canary with
    | none => if eng < 512 then o.setEng eng x else o
    | some r =>
      if r.lt = o.lt then (o.setEng eng { x with canary := none }).unstart
      else
        let n := min 1023 (x.aborts + 1)
        let x := { x with aborts := n, abort := some (o.lt, final) }
        let o := o.setEng eng (if final then x else { x with canary := none, canLast := some o.lt })
        let o := (o.dctrAdd 0x42 1).tap eng 0xE5 0 1
        if n ≥ OtuR.fld o OTU_CAN_CTRL 16 10 then OtuR.ev o OTU_CAN_EVENTS 4 else o)

/-- ABORT_WINDOW: CYCLE has entered a new window of 2^20 cycles. -/
def execAbortWindow (eng : Nat) (e : Edge) (s : State) : Host.Outcome State Fault Refusal :=
  .next (s.onOtu fun o =>
    let o := o.go e
    let w := OtuR.get o (OTU_ENG_CTR eng 0) / 2 ^ 20
    if eng < 512 && (o.eng eng).canWin ≠ w then o.setEng eng { o.eng eng with canWin := w, aborts := 0 } else o)

/-! ### Mismatch records (R193 to R195) -/

/-- R193: CMD_SIG over the last 16 job commands. -/
def cmdSig (l : List Nat) : Nat :=
  crc64 ((List.replicate (16 - l.length) 0 ++ l).flatMap fun x => le 4 x)

/-- R193: the 32 bytes of a conditioning vector. -/
def Cond.bytes (c : Cond) : List Byte :=
  le 2 c.r.temp ++ le 2 c.r.droop ++ le 2 c.r.vdd ++ le 2 c.r.clock ++ le 1 c.r.throttle ++ le 1 (b2n c.r.stretched) ++
  le 2 0 ++ le 8 c.sig ++ le 8 c.ft ++ le 4 0

/-- R195: what a job's context sees of it. -/
def Cond.forJob (c : Cond) : Cond := { c with r := {} }

/-- R194: a mismatch record. -/
structure Mismatch where
  mirror : Bool
  flags : Nat
  tag : Nat
  eng : Nat
  ref : Nat
  verdict : Nat
  tie : Option Nat
  rank : Nat
  refId : Nat
  ft : Nat
  expect : Nat
  observed : Nat
  test : Cond
  refc : Option Cond

/-- R194: its 128 bytes. -/
def Mismatch.bytes (x : Mismatch) (forJob : Bool) : List Byte :=
  let v (c : Cond) : List Byte := (if forJob then c.forJob else c).bytes
  le 1 1 ++ le 1 (b2n x.mirror) ++ le 2 x.flags ++ le 2 x.tag ++ le 2 x.eng ++ le 2 x.ref ++ le 1 x.verdict ++
  le 1 (match x.tie with | some c => c % 16 | none => 0xFF) ++ le 4 x.rank ++ le 4 x.refId ++
  le 4 (match x.tie with | some c => c / 16 | none => 0) ++ le 8 x.ft ++ le 16 x.expect ++ le 16 x.observed ++
  v x.test ++ (match x.refc with | some c => v c | none => zeros 32)

/-- R190, R195: write a mismatch record: to the fleet context, for a mirror to its job's too, with its event. -/
def Otu.mismatch (o : Otu) (x : Mismatch) : Otu :=
  let o := (o.send 8 0 0xA 0 (x.bytes false))
  let o := if x.mirror && (o.job? x.tag).isSome then o.send 8 0 0xA x.tag (x.bytes true) else o
  let o := OtuR.cnt (OtuR.ev o OTU_CAN_EVENTS 0) OTU_CAN_MISMATCHES 0 32 1
  let o := if x.verdict = 1 || x.verdict = 3 then OtuR.ev o OTU_CAN_EVENTS 1 else o
  let o := if x.verdict = 2 || x.verdict = 3 then OtuR.ev o OTU_CAN_EVENTS 2 else o
  o.event { code := 0x51, sev := if x.verdict ≥ 2 then 4 else 3, tag := x.tag, rank := if x.tag = 0 then none else some x.rank,
            payload := le 1 x.verdict ++ le 1 (b2n x.mirror) ++ zeros 2 ++ le 4 x.refId }

/-- R194 FLAGS. -/
def Otu.mmFlags (o : Otu) (tie : Bool) : Nat := b2n tie + 2 * o.clk.grade + 16 * b2n o.trayLock

/-- R192: the verdict on a mirror candidate whose run on B disagreed. -/
def Otu.mirrorVerdict (o : Otu) (c : Cand) (b : TieSt) (verdict : Nat) (third : Option Nat) : Otu :=
  o.mismatch { mirror := true, flags := o.mmFlags third.isSome, tag := c.tag, eng := b.eng, ref := c.eng, verdict,
               tie := third, rank := o.rankOf c.tag, refId := c.seq, ft := o.ft, expect := c.fp, observed := b.fp,
               test := b.cond, refc := some c.cond }

/-- R185, R205, R206: the output fingerprint of drained tiles at the positions that `pos` gives them for rank `rank`. -/
def outputFp (rank : Nat) (pos : OutTile → Nat × Nat) (out : List OutTile) : Nat :=
  out.foldl (fun v x =>
    let d := tileData x.format x.elems x.scales
    v ^^^ tileContribution d 0 (some d.length) (pos x).1 (pos x).2 rank) 0

/-- R186: a known-answer canary's output, in its descriptor's FORMAT, at rank 0, tensor ID 0xFFFF_FFFF and tile index 0. -/
def Otu.canaryFp (o : Otu) (n : Nat) (out : List OutTile) : Nat :=
  outputFp 0 (fun _ => (0, 0xFFFF_FFFF)) (out.map fun x => { x with format := getF (o.lib n 1) 32 8 })

/-- R191, R192: a command's output at its own tiles. -/
def Otu.mirrorFp (o : Otu) (tag : Nat) (out : List OutTile) : Nat := outputFp (o.rankOf tag) (fun x => (x.tile, x.tensor)) out

/-- CANARY_COMPLETE: the canary's final output `out` is at the drain tap. -/
def execCanaryComplete (eng : Nat) (out : List OutTile) (c : CondRead) (e : Edge) (s : State) : Host.Outcome State Fault Refusal :=
  .next (s.onOtu fun o =>
    let o := (o.go e).settleMarks
    let x := o.eng eng
    match x.canary with
    | none => o
    | some r =>
      let cond : Cond := { r := c, sig := cmdSig x.sigs, ft := r.ft }
      let o := (o.setEng eng { x with canary := none, canLast := some o.lt }).dctrAdd 0x41 1
      if !r.mirror then
        let o := { o with canPtr := Tbl.put (fun _ => 0) o.canPtr (engKind eng) ((r.idx + 1) % 256) }
        let fp := o.canaryFp r.idx out
        if fp = o.libExpect r.idx then o
        else
          (o.dctrAdd 0x46 1).mismatch
            { mirror := false, flags := o.mmFlags false, tag := 0, eng, ref := 0x1FF, verdict := 1, tie := none,
              rank := o.rankOf 0, refId := getF (o.lib r.idx 0) 32 16, ft := o.ft, expect := o.libExpect r.idx,
              observed := fp, test := cond, refc := none }
      else
        let o := o.tap eng 0xE6 0 1
        let m := o.mir r.idx
        match m.cand with
        | none => o
        | some k =>
          let fp := o.mirrorFp k.tag out
          let freed (o : Otu) : Otu := o.setMir r.idx { o.mir r.idx with cand := none }
          match k.tie with
          | none =>
            let o := o.dctrAdd 0x45 1
            if fp = k.fp then freed o
            else
              let b : TieSt := { eng, fp, cond, at_ := o.ft }
              let o := o.dctrAdd 0x47 1
              if OtuR.flag o OTU_CAN_CTRL 9 then o.setMir r.idx { m with cand := some { k with tie := some b } }
              else freed (o.mirrorVerdict k b 0 none)
          | some b =>
            let v := if fp = k.fp then 1 else if fp = b.fp then 2 else 3
            freed ((o.dctrAdd 0x48 1).mirrorVerdict k b v (some eng)))

/-- TIEBREAK_WAIT: 10 ms of fleet time have passed with no third sibling run. -/
def execTiebreakWait (cluster : Nat) (e : Edge) (s : State) : Host.Outcome State Fault Refusal :=
  .next (s.onOtu fun o =>
    let o := (o.go e).settleMarks
    let m := o.mir cluster
    match m.cand with
    | some k =>
      (match k.tie with
       | some b =>
         if o.clk.st ≠ 0 && decide (o.clk.ft ≥ b.at_ + 40000000) &&
            !o.engs.any (fun x => x.2.canary.any fun r => r.mirror && r.idx == cluster) then
           (o.mirrorVerdict k b 0 none).setMir cluster { m with cand := none }
         else o
       | none => o)
    | none => o)

/-- MIRROR_CAPTURE: an eligible command of the cluster drains, and every MIRROR_EVERY-th is taken, with its operands. -/
def execMirrorCapture (eng cmdSeq len : Nat) (operands : List Byte) (out : List OutTile) (c : CondRead) (ftStart : Nat) (e : Edge) (s : State) :
    Host.Outcome State Fault Refusal :=
  .next (s.onOtu fun o =>
    let o := (o.go e).settleMarks
    let x := o.eng eng
    let k := engKind eng
    let ok := match o.job? x.tag with | some j => !j.noMirror | none => false
    if !(eng < 512 && ok && (k = 0 || k = 1 || k = 4) && operands.length ≤ 65536 && OtuR.flag o OTU_CAN_CTRL 8) then o
    else
      let m := o.mir (eng / 16)
      if m.count + 1 < OtuR.fld o OTU_CAN_TIMING 16 16 then o.setMir (eng / 16) { m with count := m.count + 1 }
      else
        let cand : Cand := { eng, seq := cmdSeq % 2 ^ 32, tag := x.tag, len, fp := o.mirrorFp x.tag out, bytes := operands
                             cond := { r := c, sig := cmdSig x.sigs, ft := ftStart } }
        o.setMir (eng / 16) { count := 0, cand := if m.cand.isSome then m.cand else some cand })

/-! ### The commands that a canary or a sentinel feels -/

/-- CMD_START: a job command starts. -/
def execCmdStart (eng : Nat) (c : CmdFact) (e : Edge) (s : State) : Host.Outcome State Fault Refusal :=
  .next (s.onOtu fun o =>
    let o := o.go e
    if eng < 512 then
      let o := (o.cmdStart eng).tap eng 0x06 c.level 1
      let x := o.eng eng
      let l := x.sigs ++ [c.sig % 2 ^ 32]
      o.setEng eng { x with level := c.level, sigs := l.drop (l.length - 16) }
    else o)

/-- STEP_MARK: STEP_BEGIN names the step in progress, STEP_END ends it; the mark is progress of its job (R69, R131); a
new step number arms the first-NaN latches (R180) and makes mirror candidates stale (R191), both in the cycle after. Of several
sequencers the last mark counts (DESIGN CHOICE, log entry 28). -/
def execStepMark (seq kind stepNo tokens : Nat) (e : Edge) (s : State) : Host.Outcome State Fault Refusal :=
  .next (s.onOtu fun o =>
    let o := (o.go e).settleMarks
    if seq < 64 && kind < 2 then
      let tag := (o.eng (seqEngine seq)).tag
      let n := if kind = 0 then stepNo % 2 ^ 64 else absent
      let o := o.tap (seqEngine seq) 0xC6 (o.seqLevel (seqEngine seq)) 1
      let o := o.addMark { stepNo := stepNo % 2 ^ 64, ft := o.ft, tokens := tokens % 2 ^ 32, seq, kind, jt := o.jt, lt := o.lt, tag }
      let o := ({ o with acc := { o.acc with stepNo := n } }).progress tag
      if o.step.cur.2 = n then o
      else { o with step := o.step.write o.lt (o.step.cur.1 + 1, n), staleDue := o.staleDue ++ [(o.lt, tag)] }
    else o)

/-- R413: a cluster all of whose engines are fenced is contained: its mirror candidate is discarded. -/
def Otu.clusterFenced (o : Otu) (cl : Nat) : Otu :=
  if (List.range 16).all fun i => (o.eng (16 * cl + i)).st.cur == 3 then o.setMir cl { o.mir cl with cand := none } else o

/-- ENGINE_STATE_CHANGE (04 R67): a sequencer's sillage shows it; a canary that runs stops at no cost to a job (R187); an entry into
REST is an event of this cycle, the last ACTIVE one (R97, R106); fencing the last engine of a cluster contains the cluster (R413). -/
def execEngineStateChange (eng st : Nat) (e : Edge) (s : State) : Host.Outcome State Fault Refusal :=
  .next (s.onOtu fun o =>
    let o := o.go e
    if eng ≥ 512 || st ≥ 4 then o
    else
      let old := (o.eng eng).st.cur
      let o := if st = 1 && old = 0 then o.tap eng 0x0B (o.eng eng).level 1 else o
      let o := (o.engineState eng st).clusterFenced (eng / 16)
      let x := o.eng eng
      let o := if st ≠ 0 && x.canary.isSome then (o.setEng eng { x with canary := none, canLast := some o.lt }).dctrAdd 0x42 1 else o
      if engKind eng = 6 then o.silPower (2 * (eng / 16) + (eng % 16 - 14)) old st else o)

end Sys2Proof.Machine
end

