-- ==== Sys2Proof/Machine/Job.lean ====
section
/-!
DEFINITION. Machine/Job.lean: the atomiser at the OTU, and a job's start and end at the die (02 R57, 09 R240 to R250,
15 R416 to R421, 17 R452).
-/
namespace Sys2Proof.Machine
open Sys2Proof

/-! ### Answers (R240, R241) -/

/-- Send an upward atomiser message. -/
def Otu.atSend (o : Otu) (type : Nat) (h : AtHdr) (payload : List Byte) : Otu :=
  o.send 0xC 0 0x10 0 (atBytes type (atAnswer h) (OtuR.get o OTU_PORT_LOC / 32 % 4096 + 4096) payload)

/-- The OTU's DONE for status `st` of rank `rank`. -/
def otuDone (rank st : Nat) (applied : Bool) : DoneMsg :=
  { applied := b2n applied, notApplied := b2n !applied, statuses := if st = 0 then [] else [(rank, st)] }

/-- R240, R241: acknowledge a message, apply it unless it is a duplicate, and answer DONE. `f` applies it and answers its
status and whether every entry was applied. -/
def Otu.atomiser (o : Otu) (h : AtHdr) (rank : Nat) (f : Otu → Otu × Nat × Bool) : Otu :=
  let o := o.atSend 0x80 h []
  let m := bmapOf o.bmaps h.tag
  if m.seen h.bseq then
    match o.answers.find? (·.1 == h.bseq) with
    | some (_, st, ap) => if m.holds h.bseq then o.atSend 0x81 h (doneBytes (otuDone rank st ap)) else o.atSend 0x81 h (doneBytes {})
    | none => o.atSend 0x81 h (doneBytes {})
  else
    let (o, st, ap) := f o
    let maps := Tbl.ins o.bmaps h.tag (m.add h.bseq)
    let keep := o.answers.filter fun a => maps.any fun x => x.2.holds a.1
    ({ o with bmaps := maps, answers := (h.bseq, st, ap) :: keep }).atSend 0x81 h (doneBytes (otuDone rank st ap))

/-! ### Windows (R452) -/

/-- The tenant window that would be bound: the first that no job has. -/
def Otu.freeWindow (o : Otu) : Option Nat := (List.range 64).find? fun w => !bit (OtuR.get o (OTU_TW_BIND w)) 16

/-- R452: at the end of the cycle, an unbound window's snapshot buffer and page registers go. -/
def Otu.clearWindow (o : Otu) (w : Nat) : Otu :=
  let o := { o with winGone := Tbl.ins o.winGone w o.lt }
  (o.setWinReg (2 * w) (OTU_TW_ENG_PAGE w) 0).setWinReg (2 * w + 1) (OTU_TW_Q_PAGE w) 0

/-- R452: a write of OTU_TW_BIND_w. -/
def Otu.bindWrite (o : Otu) (w v : Nat) : Otu :=
  let tag := v % 2 ^ 16
  if w ≥ 64 then o
  else if bit v 16 then
    if tag = 0 || ((List.range 64).any fun x => x ≠ w && o.boundTag x == some tag) then OtuR.ev o OTU_GLB_EVENTS 0
    else o.setWinReg (128 + w) (OTU_TW_BIND w) (v % 2 ^ 17)
  else (o.setWinReg (128 + w) (OTU_TW_BIND w) (v % 2 ^ 17)).clearWindow w

/-! ### Collective windows (11 R308, R309) -/

/-- R305, R309: the list that closes the classes of `mask` during windows, from offset `pos` of a cycle. -/
def gateEntries (mask cycle : Nat) : Nat → List (Nat × Nat) → List (Nat × Nat)
  | pos, [] => if pos < cycle then [(0xFF, cycle - pos)] else []
  | pos, (o, n) :: r =>
    (if pos < o then [(0xFF, o - pos)] else []) ++ (if n = 0 then [] else [(0xFF - mask % 256, n)]) ++ gateEntries mask cycle (o + n) r

/-- R306, R309: the fallback list of the die's owning job goes into ADMIN and swaps at `t`. -/
def Otu.gatesIn (o : Otu) (w : GateWin) (t : Nat) : Otu × Bool :=
  if !w.ok then (o, false)
  else
    let es := gateEntries w.fbMask w.cycle 0 w.wins
    let o := es.zipIdx.foldl (fun o x => OtuR.set o (OTU_GCL_ADMIN x.2) (x.1.1 + 2 ^ 32 * x.1.2)) o
    let o := OtuR.set (OtuR.set o OTU_GCL_ADMIN_BASE w.start) OTU_GCL_ADMIN_CYCLE w.cycle
    let o := OtuR.set o OTU_GCL_CTRL (1 + 2 * es.length)
    let at_ := max t w.start
    let o := o.changeTWrite at_
    (o, OtuR.get o OTU_GCL_CHANGE_T == at_)

/-! ### CONFIG (R238) -/

/-- R238: one entry of a CONFIG of context `tag`, with its instant: whether the OTU applied it. -/
def Otu.cfgEntry (o : Otu) (tag t : Nat) (x : CfgEntry) : Otu × Bool :=
  match x with
  | .accordSwitch ts n =>
    if tag ≠ 0 then (o, false)
    else
      let o := if OtuR.get o OTU_ACC_SWITCH_T = absent then OtuR.write o OTU_ACC_SWITCH_INTERVAL 4 n else o
      if OtuR.fld o OTU_ACC_SWITCH_INTERVAL 0 14 ≠ n then (o, false)
      else let o := o.switchWrite ts; (o, OtuR.get o OTU_ACC_SWITCH_T == ts)
  | .itemTable _ => (o, true)
  | .canary a b => (o.updJob tag fun j => { j with noCanary := a, noMirror := b }, (o.job? tag).isSome)
  | .gates w => if (o.job? tag).isSome then o.gatesIn w t else (o, false)
  | .other _ => (o, false)

/-- R240: every entry in turn; applied only if each was. -/
def Otu.cfgEntries (o : Otu) (tag t : Nat) (l : List CfgEntry) : Otu × Bool :=
  l.foldl (fun p x => let q := p.1.cfgEntry tag t x; (q.1, p.2 && q.2)) (o, true)

/-- R54, R63, R244: a CONFIG at the OTU. -/
def Otu.configIn (o : Otu) (h : AtHdr) (l : List CfgEntry) : Otu :=
  o.atomiser h (o.rankOf h.tag) fun o => let (o, ok) := o.cfgEntries h.tag h.tAct l; (o, 0, ok)

/-! ### The job-end record (R250, R420) -/

/-- R250: a record of stream JOB, to the job's context and to the fleet context. -/
def Otu.sendJobRec (o : Otu) (rtype tag : Nat) (body : List Byte) : Otu := (o.send 0xB 0 rtype tag body).send 0xB 0 rtype 0 body

/-- R116, R124: an engine's owner changes, and with it that of its command queue. -/
def Otu.setOwner (o : Otu) (e tag : Nat) : Otu :=
  let q := o.queue e
  let old := (o.eng e).tag
  (o.setEng e { o.eng e with tag := tag }).setQueue e { q with ownerChanged := q.ownerChanged || old != tag }

/-- R420: whether a record of the job has still to leave the die: queued, latched for a cut, in an open sillage record, or
owed to a result mark. -/
def Otu.jobHolds (o : Otu) (tag : Nat) : Bool :=
  let holds (x : Option Shadow) : Bool := x.any fun sh => sh.ctxs.any (·.1 == tag)
  o.queuedTag tag || holds o.acc.a || holds o.acc.b || o.acc.hangPending.any (·.1 == tag) ||
  o.sil.any (fun x => o.seqOwner (x.1 % 64) == tag && (!x.2.buf.isEmpty || x.2.due.isSome || x.2.endDue.isSome)) || o.resMark.any (·.tag == tag)

/-- R250, R420: the job-end record goes out, and the job's engines, queues and window are released, once every record of the job has
left the die. -/
def Otu.jobEndRecord (o : Otu) (tag : Nat) : Otu :=
  match o.job? tag with
  | none => o
  | some j =>
    let o := if j.ended then (o.closeWaitsOf tag).silSettleAll else o
    let j := (o.job? tag).getD j
    if !j.ended || o.jobHolds tag then o
    else
      let jt := if o.clk.st = 0 then absent else wsub 64 o.clk.ft j.s
      let body := le 1 1 ++ le 1 j.cause ++ le 2 (o.clk.grade + 8 * b2n o.trayLock + 16 * b2n j.cancelled + 32 * b2n j.loss) ++
        le 2 tag ++ le 1 (j.window.getD 0) ++ le 1 0 ++ le 8 o.ft ++ le 8 jt ++ le 8 o.lt ++ le 4 j.rank ++ le 4 0 ++
        le 8 j.lastAcc ++ le 8 j.frames ++ le 8 0
      let o := o.sendJobRec 0x0F tag body
      let o := o.event { code := 0xA1, sev := 1, tag := tag, rank := some j.rank, payload := le 8 o.ft }
      let mine := (o.engs.filter fun x => x.2.tag == tag).map (·.1)
      let o := mine.foldl (fun o x => (o.setOwner x 0).releaseEngine x) o
      let o := o.ownersChanged
      let qs := (o.queues.filter fun x => x.1 ≥ 512 && x.2.owner == tag).map (·.1)
      let o := qs.foldl (fun o q => o.setQueue q { o.queue q with owner := 0, ownerChanged := true }) o
      let o := match j.window with | some w => (o.setWinReg (128 + w) (OTU_TW_BIND w) 0).clearWindow w | none => o
      let o := { o with jobs := o.jobs.filter fun x => x.tag != tag }
      OtuR.setFld (OtuR.set o OTU_TIME_JOB_START absent) OTU_GCL_CTRL 0 1 0

/-! ### START and RETRACT (R245 to R248) -/

/-- The rank that a START's port map gives this die. -/
def Otu.mapRank (o : Otu) (m : StartMsg) : Option Nat :=
  (m.ports.find? fun p => p.1 % 2 ^ 17 == OtuR.get o OTU_PORT_LOC % 2 ^ 17).map (·.2)

/-- R57, R246: the OTU's status for a START. -/
def Otu.startStatus (o : Otu) (h : AtHdr) (m : StartMsg) : Nat :=
  if o.retracted.contains h.bseq then 0x0B
  else if !o.jobs.isEmpty || o.armed.isSome then 0x01
  else if o.clk.st = 0 then 0x03
  else if o.actGrade > 1 && !(m.single && o.trayLock) then 0x02
  else if decide (h.tAct ≤ o.clk.ft) then 0x04
  else if o.freeWindow.isNone then 0x0C
  else 0

/-- START at the OTU: arm S, or answer why not. A START whose port map does not name this die concerns nothing here. A job-end record
that is due comes first (R421). -/
def Otu.startIn (o : Otu) (h : AtHdr) (m : StartMsg) : Otu :=
  let o := o.jobs.foldl (fun o j => o.jobEndRecord j.tag) o
  match o.mapRank m with
  | none => o.atomiser h 0 fun o => (o, 0, false)
  | some rank =>
    o.atomiser h rank fun o =>
      let st := o.startStatus h m
      if st = 0 then
        let flag (f : CfgEntry → Option Bool) : Bool := m.config.foldl (fun b x => (f x).getD b) false
        let a : Armed :=
          { bseq := h.bseq, tag := h.tag, rank, s := h.tAct, nRanks := m.nRanks, audit := m.audit, subst := m.subst
            noCanary := flag fun x => match x with | .canary a _ => some a | _ => none
            noMirror := flag fun x => match x with | .canary _ b => some b | _ => none }
        let o := { o with armed := some a }
        let o := m.config.foldl (fun o x => match x with | .gates w => (o.gatesIn w h.tAct).1 | _ => o) o
        (o, 0, true)
      else
        let o := if st = 0x0B then { o with retracted := o.retracted.filter (· != h.bseq) } else o
        let o := if st = 0x04 then o.actionLate 2 h.tAct h.tag else o
        (o, st, false)

/-- R248, R241: RETRACT at the OTU: disarm, or answer RETRACT_LATE, or keep the number of a START that has not come. -/
def Otu.retractIn (o : Otu) (h : AtHdr) : Otu :=
  let rank := match o.armed with
    | some a => if a.bseq = h.ref then a.rank else o.rankOf h.tag
    | none => o.rankOf h.tag
  o.atomiser h rank fun o =>
    if o.armed.any (fun a => a.bseq == h.ref && !o.due a.s) then ({ o with armed := none }, 0, true)
    else if o.armed.any (·.bseq == h.ref) || o.jobs.any (fun j => j.bseq == h.ref) then (o, 0x09, false)
    else if (bmapOf o.bmaps h.tag).seen h.ref then (o, 0, true)
    else ({ o with retracted := h.ref :: o.retracted }, 0, true)

/-! ### The job's end at the die (R250) -/

/-- R180: no step is in progress any more, from the next cycle on; a job that starts or ends leaves none behind (DESIGN CHOICE, log
entry 28). -/
def Otu.stepEnd (o : Otu) : Otu := { o with step := o.step.write o.lt (o.step.cur.1 + 1, absent), acc := { o.acc with stepNo := absent } }

/-- R250: the job ends at the die: its sillage ends, its waits close, its mirror candidates go. -/
def Otu.endJob (o : Otu) (tag cause : Nat) : Otu :=
  match o.job? tag with
  | none => o
  | some j =>
    if !j.open_ then o
    else
      let o := (((o.silJobEnd tag).closeWaitsOf tag).staleMirrors tag).stepEnd
      o.updJob tag fun j => { j with open_ := false, ended := true, cause := cause }

/-- DIE_JOB_END. -/
def execDieJobEnd (tag cause : Nat) (e : Edge) (s : State) : Host.Outcome State Fault Refusal :=
  .next (s.onOtu fun o => let o := o.go e; o.endJob tag (if cause = 0 then 0 else 2))

/-- R248, R249, R421: JOB_FAULT at the OTU; in the cycle of S, the start wins. -/
def Otu.faultIn (o : Otu) (h : AtHdr) : Otu :=
  o.atomiser h (o.rankOf h.tag) fun o =>
    match o.armed with
    | some a =>
      if a.tag = h.tag then
        (if o.due a.s then { o with armed := some { a with fault := true } } else { o with armed := none }, 0, true)
      else (o, 0, true)
    | none => (o.endJob h.tag 1, 0, true)

/-- R134, R244: HANG_FREEZE at the OTU: a hang cut at T_h, or at once when it is late. -/
def Otu.hangIn (o : Otu) (h : AtHdr) (id : Nat) : Otu :=
  o.atomiser h (o.rankOf h.tag) fun o =>
    match o.job? h.tag with
    | some _ =>
      if o.clk.st = 0 || decide (h.tAct ≤ o.clk.ft) then ((o.actionLate 4 h.tAct h.tag).hangCut h.tag 1 (some id), 0, true)
      else (o.updJob h.tag fun j => { j with hangAt := h.tAct }, 0, true)
    | none => (o, 0, false)

/-! ### Start (R57, R250) -/

/-- R250: queues that a job owns. -/
def Otu.queuesOf (o : Otu) (tag : Nat) : Nat :=
  (o.engs.filter fun x => x.2.tag == tag).length + (o.queues.filter fun x => x.1 ≥ 512 && x.2.owner == tag).length

/-- START_BARRIER: a cut of this edge comes first (R55), and then, at S, the job opens: the die's engines are its own, its window is bound, its streams begin at sequence
0, its digests open, and the job-start record goes out. -/
def execStartBarrier (engs : List Nat) (imgs : List ProgImage) (ucs : List Microcode) (e : Edge) (s : State) :
    Host.Outcome State Fault Refusal :=
  .next (s.onOtu fun o =>
    let o := o.go e
    match o.armed with
    | none => o
    | some a =>
      if !o.due a.s then o
      else
        let o := o.fastCutIfDue.cutIfDue.silSettleAll
        let w := o.freeWindow
        let j : JobSt := { tag := a.tag, rank := a.rank, s := a.s, open_ := true, window := w, lastProgress := o.ft, bseq := a.bseq
                           nRanks := a.nRanks, subst := a.subst, noCanary := a.noCanary, noMirror := a.noMirror }
        let o := { o with armed := none, jobs := o.jobs ++ [j], txSeq := o.txSeq.filter fun x => x.1.2 != a.tag
                          acc := { o.acc with refs := o.acc.refs.filter fun r => r.tag != a.tag } }
        let o := match w with | some w => o.setWinReg (128 + w) (OTU_TW_BIND w) (a.tag + 2 ^ 16) | none => o
        let o := (engs.filter (· < 512)).foldl (fun o x => o.setOwner x a.tag) o
        let o := o.ownersChanged
        let o := OtuR.set o OTU_TIME_JOB_START a.s
        let o := o.stepEnd
        let o := o.digestStart imgs ucs
        let body := le 1 1 ++ le 1 (o.actGrade + 8 * b2n o.trayLock + 16 * b2n a.audit + 32 * b2n a.subst) ++ le 2 0 ++
          le 2 a.tag ++ le 1 (w.getD 0) ++ le 1 0 ++ le 8 a.bseq ++ le 8 a.s ++ le 8 o.ft ++ le 8 o.lt ++ le 4 a.rank ++
          le 4 a.nRanks ++ le 2 (o.engs.filter fun x => x.2.tag == a.tag).length ++ le 2 (o.queuesOf a.tag) ++ zeros 12
        let o := o.sendJobRec 0x0E a.tag body
        let o := o.event { code := 0xA0, sev := 1, tag := a.tag, rank := some a.rank, payload := le 8 a.s ++ le 1 o.actGrade }
        if a.fault then o.endJob a.tag 1 else o)

/-- JOB_END_RECORD. -/
def execJobEndRecord (tag : Nat) (e : Edge) (s : State) : Host.Outcome State Fault Refusal :=
  .next (s.onOtu fun o => (o.go e).jobEndRecord tag)

end Sys2Proof.Machine
end

