-- ==== Sys2Proof/Machine/Gates.lean ====
section
/-!
DEFINITION. Machine/Gates.lean: the gate lists of Priord's uplinks, and how they follow the windows of the jobs that the
tray serves (11 R305 to R309).
-/
namespace Sys2Proof.Machine
open Sys2Proof

/-- A register of uplink `u`'s block. -/
def Prd.ub (o : Prd) (u a : Nat) : Nat := PrdR.get o (PRD_UL u + a)

/-- R55, R306: the gate list of uplink `u` in force. -/
def Prd.operList (o : Prd) (u : Nat) : GateList :=
  (o.uplink u).gate.inForce o.ft (Sys2Proof.Machine.operList (o.ub u) (o.uplink u).gate.operN)

/-- R305: the current entry and gates of uplink `u`. -/
def Prd.gateNow (o : Prd) (u : Nat) : Prd :=
  let g := o.operList u
  let x := o.uplink u
  o.setUplink u { x with gate := { x.gate with entry := g.entry o.ft, gates := g.gates o.ft } }

/-- R55, R306: the swap, which frames obey from the next cycle on. -/
def Prd.gateSwap (o : Prd) (u : Nat) : Prd :=
  let b := PRD_UL u
  let n := getF (o.ub u 0x40) 1 9
  let gate := (o.uplink u).gate.swapped o.ft (o.operList u) n
  let o := (List.range n).foldl (fun o i => PrdR.set o (b + 0x1000 + 8 * i) (PrdR.get o (b + 0x800 + 8 * i))) o
  let o := PrdR.set (PrdR.set o (b + 0x60) (PrdR.get o (b + 0x48))) (b + 0x68) (PrdR.get o (b + 0x50))
  let o := PrdR.set o (b + 0x58) absent
  (o.setUplink u { o.uplink u with gate }).gateNow u

/-- R306, R54: a write of CHANGE_T; one that has already passed is a late action as well. -/
def Prd.changeTWrite (o : Prd) (u v : Nat) : Prd :=
  if changeOk (o.ub u) o.ft v then PrdR.set o (PRD_UL u + 0x58) v
  else
    let o := PrdR.ev o (PRD_UL_EVENTS u) 1
    if v ≤ o.ft then o.actionLate 1 v 0 else o

/-! ### Merged lists (R309) -/

/-- A job's windows as offsets from `base` in a cycle of `m` ticks: the classes closed, where they close, and for how long;
one that passes the end of the cycle is cut in two. -/
def CtxWin.spans (w : CtxWin) (base m : Nat) : List (Nat × Nat × Nat) :=
  w.wins.flatMap fun p => (List.range (m / max 1 w.cycle)).flatMap fun k =>
    let at_ := ((((w.start + p.1 + k * w.cycle : Nat) : Int) - base) % (max 1 m : Int)).toNat
    if p.2 = 0 then []
    else if at_ + p.2 ≤ m then [(w.ulMask, at_, p.2)]
    else [(w.ulMask, at_, m - at_), (w.ulMask, 0, at_ + p.2 - m)]

/-- The entries between rising instants of a cycle that ends at `m`. -/
def entriesBetween (mask : Nat → Nat) (m : Nat) : List Nat → List (Nat × Nat)
  | [] => []
  | [a] => if a < m then [(0xFF - mask a, m - a)] else []
  | a :: b :: r => if a < b then (0xFF - mask a, b - a) :: entriesBetween mask m (b :: r) else entriesBetween mask m (b :: r)

/-- Entries whose gates are equal are one. -/
def joinEntries (l : List (Nat × Nat)) : List (Nat × Nat) :=
  (l.foldl (fun (a : List (Nat × Nat)) x => match a with
    | y :: r => if y.1 = x.1 then (y.1, y.2 + x.2) :: r else x :: a
    | [] => [x]) []).reverse

/-- R309: the merged cycle and entries of the windows of several jobs, over cycles that begin at `base`. -/
def mergeWins (ws : List CtxWin) (base : Nat) : Nat × List (Nat × Nat) :=
  let m := ws.foldl (fun m w => Nat.lcm m (max 1 w.cycle)) 1
  if m > tickS then (m, [])
  else
    let ss := ws.flatMap fun w => w.spans base m
    let mask (t : Nat) : Nat := ss.foldl (fun k s => if s.2.1 ≤ t && t < s.2.1 + s.2.2 then k ||| s.1 else k) 0
    let cuts := sortBy id (0 :: ss.flatMap fun s => [s.2.1, s.2.1 + s.2.2])
    (m, joinEntries (entriesBetween mask m cuts))

/-- R309: whether a merged list may stand. -/
def winsOk (ws : List CtxWin) (base : Nat) : Bool :=
  let (m, es) := mergeWins ws base
  decide (m ≤ tickS) && decide (es.length ≤ 256)

/-- R309: the windows of every job that this tray serves. -/
def Prd.servedWins (o : Prd) : List CtxWin :=
  (o.ctx.filter fun x => x.2.st ≠ 0 && !x.2.served.isEmpty).filterMap (·.2.win)

/-- Where the merged cycles begin: the least CYCLE_START, reduced to the first cycle. -/
def winsBase (ws : List CtxWin) : Nat :=
  match ws with
  | [] => 0
  | w :: r => let s := r.foldl (fun m x => min m x.start) w.start; s % (mergeWins [w] 0).1

/-- R306, R309: write the merged list into every uplink's ADMIN copy, to swap at `t`. -/
def Prd.writeGates (o : Prd) (t : Nat) : Prd :=
  let ws := o.servedWins
  let base := winsBase ws
  let (m, es) := if ws.isEmpty then (1, [(0xFF, 1)]) else mergeWins ws base
  (List.range 4).foldl (fun o u =>
    let b := PRD_UL u
    let o := es.zipIdx.foldl (fun o x => PrdR.set o (b + 0x800 + 8 * x.2) (x.1.1 + 2 ^ 32 * x.1.2)) o
    let o := PrdR.set (PrdR.set o (b + 0x48) base) (b + 0x50) m
    (PrdR.set o (b + 0x40) (1 + 2 * es.length)).changeTWrite u t) o

/-- R308, R309, R408: whether the tray can follow a job's windows beside those of the others; a refusal sets GATES_REFUSED. -/
def Prd.gatesFit (o : Prd) (c : Nat) (w : GateWin) : Bool :=
  let others := (o.ctx.filter fun x => x.1 ≠ c && x.2.st ≠ 0 && !x.2.served.isEmpty).filterMap (·.2.win)
  let ws := others ++ [{ start := w.start, cycle := w.cycle, ulMask := w.ulMask, wins := w.wins }]
  !o.safe && w.ok && winsOk ws (winsBase ws)

/-- R309: the entry is refused on every uplink. -/
def Prd.gatesRefused (o : Prd) : Prd := (List.range 4).foldl (fun o u => PrdR.ev o (PRD_UL_EVENTS u) 3) o

end Sys2Proof.Machine
end

