-- ==== Sys2Proof/Machine/RingBase.lean ====
section
/-!
DEFINITION. Machine/RingBase.lean: rings, descriptors and operations in flight, as the rest of Priord needs them
(14 R361 to R379, R397, R398).
-/
namespace Sys2Proof.Machine
open Sys2Proof

/-! ### Ring configuration (R400) -/

/-- TYPE. -/
def RingCfg.type (c : RingCfg) : Nat := getF c.cfg 0 3
/-- ORIGIN: 0 PCIE, 1 REMOTE, 2 FIRMWARE. -/
def RingCfg.origin (c : RingCfg) : Nat := getF c.cfg 3 2
/-- The ring's entries. -/
def RingCfg.size (c : RingCfg) : Nat := 2 ^ getF c.cfg 5 5
/-- CTX. -/
def RingCfg.slot (c : RingCfg) : Nat := getF c.cfg 10 6
/-- ENABLE. -/
def RingCfg.enabled (c : RingCfg) : Bool := bit c.cfg 16

/-- Ring `k`'s configuration. -/
def Prd.ring (o : Prd) (k : Nat) : RingCfg := Tbl.get (fun _ => {}) o.rings.cfg k
/-- Set it. -/
def Prd.setRing (o : Prd) (k : Nat) (c : RingCfg) : Prd :=
  { o with rings := { o.rings with cfg := Tbl.put (fun _ => {}) o.rings.cfg k c } }

/-- The fleet time of a ring's last change of STATE. -/
def Prd.ringMoved (o : Prd) (k : Nat) : Nat := Tbl.get (fun _ => 0) o.rings.moved k
/-- R365: STATE of a ring: 0 DISABLED, 1 ACTIVE, 2 DRAINING, 3 ERROR. A ring that drains is DISABLED from the cycle after its last
completion. -/
def Prd.ringState (o : Prd) (k : Nat) : Nat :=
  let v := PrdR.fld o (PRD_RING_STATE k) 0 2
  if v = 2 && !o.rings.ops.any (·.ring == k) && decide (o.ringMoved k < o.ft) then 0 else v
/-- A change of a ring's STATE happens now. -/
def Prd.ringMove (o : Prd) (k : Nat) : Prd := { o with rings := { o.rings with moved := Tbl.put (fun _ => 0) o.rings.moved k o.ft } }
/-- Set it. -/
def Prd.setRingState (o : Prd) (k v : Nat) : Prd := (PrdR.setFld o (PRD_RING_STATE k) 0 2 v).ringMove k

/-- R362: rings 0 to 255 are privileged. -/
def privRing (k : Nat) : Bool := k < 256

/-! ### Descriptors (R367, R374) -/

/-- OPC. -/
def dOpc (d : List Byte) : Nat := fieldAt d 0 1
/-- DFLAGS. -/
def dFlags (d : List Byte) : Nat := fieldAt d 1 1
/-- TAG. -/
def dTag (d : List Byte) : Nat := fieldAt d 2 2
/-- JOB_TAG. -/
def dJob (d : List Byte) : Nat := fieldAt d 4 2
/-- LEVEL. -/
def dLevel (d : List Byte) : Nat := fieldAt d 6 1
/-- FIRST. -/
def dFirst (d : List Byte) : Nat := fieldAt d 8 8
/-- LAST. -/
def dLast (d : List Byte) : Nat := fieldAt d 16 8
/-- RANK_LO. -/
def dLo (d : List Byte) : Nat := fieldAt d 24 4
/-- RANK_HI. -/
def dHi (d : List Byte) : Nat := fieldAt d 28 4
/-- RCLASS. -/
def dRcls (d : List Byte) : Nat := fieldAt d 32 1
/-- KEY. -/
def dKey (d : List Byte) : Nat := fieldAt d 40 8
/-- BUF_ADDR. -/
def dBuf (d : List Byte) : Nat := fieldAt d 48 8
/-- BUF_LEN. -/
def dLen (d : List Byte) : Nat := fieldAt d 56 4
/-- QFLAGS. -/
def dQf (d : List Byte) : Nat := fieldAt d 60 4

/-- R375, R397, R398: whether a record answers a record selector on ring `k`. The fleet context of a privileged ring
takes every record (log entry 61). -/
def HRec.answers (r : HRec) (k : Nat) (d : List Byte) : Bool :=
  r.rcls == dRcls d && r.rcls ≠ 0 && (dKey d == absent || r.key == absent || r.key == dKey d) &&
  decide (dFirst d ≤ r.stamp) && decide (r.stamp ≤ dLast d) && decide (dLo d ≤ r.rank) && decide (r.rank ≤ dHi d) &&
  (if privRing k then dJob d == 0 || r.tag == dJob d
   else r.tag == dJob d && r.tag ≠ 0 && !r.priv && !r.orphan && !(r.rcls == 1 && decide (r.key ≥ 0x8000)))

/-! ### Operations in flight (R371, R372) -/

/-- Whether an operation is finished and waits for its completion slot. -/
def OpWait.isDone : OpWait → Bool
  | .done _ => true
  | _ => false

/-- Whether an operation is the one fetched on ring `k` at DESC_HEAD count `idx`. -/
def Op.is (p : Op) (k idx : Nat) : Bool := p.ring == k && p.idx == idx

/-- Change an operation. -/
def Prd.setOp (o : Prd) (k idx : Nat) (f : Op → Op) : Prd :=
  { o with rings := { o.rings with ops := updFirst (fun p => p.is k idx) f o.rings.ops } }

/-- R372: an operation finishes: its completion waits for a slot, in the order of completion. -/
def Prd.finish (o : Prd) (k idx : Nat) (c : Cmpl) : Prd :=
  let fins := o.rings.fins + 1
  let o := o.setOp k idx fun p => { p with wait := .done c, fin := fins }
  { o with rings := { o.rings with fins } }

/-- R364, R365: a ring is disabled: its operations in flight complete with `status`, and it drains. -/
def Prd.drainRing (o : Prd) (k status : Nat) : Prd :=
  let c := o.ring k
  let mine := o.rings.ops.filter (·.ring == k)
  let o := o.setRing k { c with cfg := clrBit c.cfg 16 }
  let o := mine.foldl (fun (o : Prd) p =>
    let o := o.setOp k p.idx fun p => { p with last := true }
    if p.wait.isDone then o else o.finish k p.idx { status := status }) o
  o.setRingState k (if mine.isEmpty then 0 else 2)

/-- R364: a job context closes: every tenant ring bound to its slot is disabled. -/
def Prd.closeRings (o : Prd) (slot : Nat) : Prd :=
  (o.rings.cfg.filter fun x => !privRing x.1 && x.2.slot == slot).foldl (fun (o : Prd) x =>
    let o := PrdR.ev o (PRD_RING_K_EVENTS x.1) 1
    if x.2.enabled then o.drainRing x.1 0x0E else o) o

/-! ### What subscriptions take (R379) -/

/-- Give an item to the subscriptions that `want` it. -/
def Prd.subGive (o : Prd) (want : Op → Bool) (x : SubItem) : Prd :=
  if o.rings.ops.isEmpty then o
  else
    let put (p : Op) : Op := match p.wait with
      | .sub s => if want p then { p with wait := .sub { s with due := s.due ++ [x] } } else p
      | _ => p
    { o with rings := { o.rings with ops := o.rings.ops.map put } }

/-- R379: a record is written into heart notes. -/
def Prd.subRecord (o : Prd) (r : HRec) : Prd :=
  o.subGive (fun p => dOpc p.desc == 0x12 && r.answers p.ring p.desc) (.record r)

/-- R379: accord `no` of a context closes at a level in the codes of R92; `top` when that is the context's top node. -/
def Prd.subClosed (o : Prd) (tag kind code no : Nat) (top : Bool) : Prd :=
  o.subGive (fun p => dOpc p.desc == 0x11 && dJob p.desc == tag && bit (dQf p.desc) 2 == (kind == 1) &&
    (dLevel p.desc == code || (top && dLevel p.desc == 0xFF))) (.accord code no)

end Sys2Proof.Machine
end

