-- ==== Sys2Proof/Machine/Heart.lean ====
section
/-!
DEFINITION. Machine/Heart.lean: heart notes and flacons at Priord (06 R162 to R174).
-/
namespace Sys2Proof.Machine
open Sys2Proof

/-! ### Records -/

/-- R375: RCLASS and KEY of a record, from its RTYPE, stream instance and bytes. -/
def recClass (rtype inst : Nat) (b : List Byte) : Nat × Nat :=
  match rtype with
  | 0x0D => (1, fieldAt b 2 2)
  | 0x09 => (8, absent)
  | 0x0A => (9, absent)
  | 0x0B => (0xA, fieldAt b 8 4)
  | 0x0C => (0xB, fieldAt b 8 8)
  | 0x04 => (0xC, inst)
  | 0x05 => (0xD, fieldAt b 1 1)
  | 0x06 => (0xE, absent)
  | 0x08 => (0xF, absent)
  | 0x07 => (0x10, fieldAt b 0 2)
  | _ => (0, absent)

/-- The fleet-time stamp of a record, all ones where it has none (R163). -/
def recStamp (rtype : Nat) (b : List Byte) : Nat :=
  match rtype with
  | 0x01 => fieldAt b 16 8
  | 0x02 => fieldAt b 24 8
  | 0x03 => fieldAt b 8 8
  | 0x04 => fieldAt b 16 8
  | 0x05 => fieldAt b 8 8
  | 0x06 => fieldAt b 24 8
  | 0x07 => fieldAt b 16 8
  | 0x08 => fieldAt b 8 8
  | 0x09 => fieldAt b 8 8
  | 0x0A => fieldAt b 24 8
  | 0x0C => fieldAt b 32 8
  | 0x0D => fieldAt b 16 8
  | 0x0E => fieldAt b 24 8
  | 0x0F => fieldAt b 8 8
  | _ => absent

/-- R174: streams and records that only privileged rings reach: the privileged sillage stream. -/
def recPriv (stream : Nat) : Bool := stream / 256 == 3 && decide (stream % 256 ≥ 64)

/-- Bytes that a record takes in a segment: the model's 16-byte mark and the padded record (log entry 50). -/
def HRec.size (r : HRec) : Nat := 16 + (r.body.length + 7) / 8 * 8

/-! ### Flacons -/

/-- Set flacon slot `n`. -/
def Prd.setFlacon (o : Prd) (n : Nat) (f : Flacon) : Prd := { o with hnr := { o.hnr with flc := Tbl.put (fun _ => {}) o.hnr.flc n f } }

/-! ### The ring -/

/-- Put a record at the end of the open segment. -/
def Hnr.append (h : Hnr) (r : HRec) : Hnr :=
  let s := h.open_
  { h with open_ := { s with ftMin := min s.ftMin r.stamp, ftMax := max s.ftMax r.stamp, used := s.used + r.size, recs := s.recs ++ [r] } }

/-- R171: the stamp up to which a flacon is complete when the segments `left` of its window stay outside it. -/
def Flacon.completeTo (f : Flacon) (left : List Seg) : Nat :=
  (left.filter f.meets).foldl (fun m s => min m (s.ftMin - 1)) f.hi

/-- R169, R171: flacon `n` takes a segment, or its capture stops for want of a reserve segment; answers whether the
segment was taken. `later` are the other segments of its window. -/
def Prd.transfer (o : Prd) (n : Nat) (s : Seg) (later : List Seg) : Prd × Bool :=
  let f := o.flacon n
  if o.hnr.free = 0 then
    let f := { f with st := 4, flags := setBit f.flags 0, end_ := f.completeTo (s :: later ++ [o.hnr.open_]) }
    let o := PrdR.ev (PrdR.ev (PrdR.ev (o.setFlacon n f) PRD_HNR_EVENTS 1) PRD_FLC_EVENTS 1) PRD_FLC_EVENTS 2
    (o.event { code := 0x40, sev := 1, tag := f.tag, payload := le 8 f.freezeT ++ le 2 f.flags }, false)
  else
    let o := o.setFlacon n { f with segs := f.segs ++ [s] }
    ({ o with hnr := { o.hnr with free := o.hnr.free - 1 } }, true)

/-- R169: the flacon that a closed segment goes to: of those whose window it meets, the one with the least FREEZE_T (log
entry 50). -/
def Prd.taker (o : Prd) (s : Seg) : Option Nat :=
  ((List.range 4).filter fun n => (o.flacon n).takes && (o.flacon n).meets s).foldl
    (fun b n => match b with
      | none => some n
      | some m => if (o.flacon n).freezeT < (o.flacon m).freezeT then some n else some m) none

/-- R169: a closed segment goes to a flacon, or stays in the ring. A flacon that ran out of reserve passes it on. -/
def Prd.placeSeg (o : Prd) (s : Seg) : Nat → Prd
  | 0 => { o with hnr := { o.hnr with ring := o.hnr.ring ++ [s] } }
  | fuel + 1 =>
    match o.taker s with
    | none => { o with hnr := { o.hnr with ring := o.hnr.ring ++ [s] } }
    | some n =>
      let (o, ok) := o.transfer n s o.hnr.ring
      if ok then o else Prd.placeSeg o s fuel

/-- R28: whether a record is that of a closed accord. -/
def HRec.isAcc (r : HRec) (a : AccNode) : Bool :=
  match r.closed with
  | some (l, k) => k == a.kind && r.tag == a.tag && r.key == a.no && (l - 1 == a.level)
  | none => false

/-- R28: whether the ring or a flacon holds a record of a closed accord. -/
def Hnr.holdsAcc (h : Hnr) (a : AccNode) : Bool :=
  let here (s : Seg) : Bool := s.recs.any (·.isAcc a)
  here h.open_ || h.ring.any here || h.flc.any fun x => x.2.segs.any here

/-- R28: whether a closed accord can still be answered when the segments `gone` are given up. -/
def Hnr.answersAcc (h : Hnr) (gone : List Seg) (a : AccNode) : Bool :=
  a.st = 0 || a.hold || !(gone.any fun s => s.recs.any (·.isAcc a)) || h.holdsAcc a

/-- R28: closed accords whose records stood in segments that are given up, and stand nowhere else, can no longer be
answered. -/
def Prd.forget (o : Prd) (gone : List Seg) : Prd := { o with accs := o.accs.filter (o.hnr.answersAcc gone) }

/-- The greatest FT_MAX that a reclaim has removed, this cycle's among them. -/
def Hnr.lostNow (h : Hnr) : Nat := max h.lost (maxOf Seg.ftMax 0 h.gone)

/-- R169, R170: a reclaim. The closed accords in it go with it (R28); a freeze of the same cycle still takes the segment. -/
def Prd.reclaim (o : Prd) (slot : Nat) : Prd :=
  match o.hnr.ring.find? (·.slot == slot) with
  | none => o
  | some s =>
    let h := o.hnr
    let h := if h.goneAt = o.ft then h else { h with lost := h.lostNow, goneAt := o.ft, gone := [] }
    let h := { h with ring := h.ring.filter (·.slot != slot), gone := h.gone ++ [s] }
    let away := (if o.hnr.goneAt = o.ft then o.goneAccs else []) ++ o.accs.filter fun a => !h.answersAcc [s] a
    ({ o with hnr := h, goneAccs := away } : Prd).forget [s]

/-- R163: close the open segment and open the next slot. -/
def Prd.closeSeg (o : Prd) : Prd :=
  let s := o.hnr.open_
  let next := (s.slot + 1) % max 1 o.hnr.slots
  let o := (if s.recs = [] then o else o.placeSeg s 4).reclaim next
  { o with hnr := { o.hnr with open_ := { slot := next } } }

/-- A descriptor record, written at a change of a flacon's state (R375; log entry 50). -/
def Prd.descRec (o : Prd) (f : Flacon) : HRec :=
  { rcls := 7, key := f.freezeT, tag := if f.scope = 2 then f.tag else 0, rank := f.trigRank, ft := f.freezeT,
    priv := f.scope ≠ 2, at_ := o.ft, body := f.bytes }

/-- R163: a record at the end of the open segment, which closes when the record does not fit. -/
def Prd.hnrAdd (o : Prd) (r : HRec) : Prd :=
  let o := if o.hnr.open_.used + r.size > 8388608 then o.closeSeg else o
  { o with hnr := o.hnr.append r }.subRecord r

/-- The descriptors of the slots whose state differs from what `before` had; a segment that closes for them may change a
state again, at most once per slot. -/
def Prd.descFrom (o : Prd) (before : Prd) : Nat → Prd
  | 0 => o
  | fuel + 1 =>
    let changed := (List.range 4).filter fun n => (o.flacon n).st ≠ (before.flacon n).st && (o.flacon n).st ≠ 0
    if changed = [] then o
    else Prd.descFrom (changed.foldl (fun a n => a.hnrAdd (a.descRec (o.flacon n))) o) o fuel

/-- The descriptors of the slots whose state differs from what `before` had. -/
def Prd.descChanges (o : Prd) (before : Prd) : Prd := o.descFrom before 5

/-- R162, R163: write a record into heart notes, from PHASE TIME on (R409) and until HBM is no longer written (R426). -/
def Prd.hnrPut (o : Prd) (r : HRec) : Prd :=
  if o.mramProt || o.phase < 2 then o
  else
  let r := { r with at_ := o.ft }
  let o1 := (o.hnrAdd r).descChanges o
  { o1 with ingest := o1.ingest + r.size }

/-- R26: a closed accord goes into heart notes: at its LEVEL of R92, its summary, missing-rank list and fragments. -/
def Prd.hnrClosed (o : Prd) (a : AccNode) (level : Nat) (body : List Byte) : Prd :=
  o.hnrPut { key := a.no, tag := a.tag, ft := a.t, closed := some (level, a.kind), body }

/-- A record of Priord's own: `rtype` 0, of class `rcls`. -/
def Prd.hnrOwn (o : Prd) (rcls key tag rank ft : Nat) (body : List Byte) : Prd :=
  o.hnrPut { rcls := rcls, key, tag, rank, ft, body }

/-! ### Freezes (R165 to R172) -/

/-- R169: flacon `n` takes those of `l` that its window meets, oldest first, until its capture stops; answers the ones
left. -/
def Prd.takeSegs (o : Prd) (n : Nat) : List Seg → Prd × List Seg
  | [] => (o, [])
  | s :: l =>
    let (o, ok) := if (o.flacon n).takes && (o.flacon n).meets s then o.transfer n s l else (o, false)
    let (o, keep) := Prd.takeSegs o n l
    (o, if ok then keep else s :: keep)

/-- R169, R170: a flacon takes the segments that this cycle reclaimed, then those of the ring. Closed accords that a
reclaimed segment holds can be answered again. -/
def Prd.takeRing (o : Prd) (n : Nat) : Prd :=
  let gone := if o.hnr.goneAt = o.ft then o.hnr.gone else []
  let (o, keep) := o.takeSegs n (gone ++ o.hnr.ring)
  let left := keep.filter gone.contains
  let o := { o with hnr := { o.hnr with ring := keep.filter (!gone.contains ·), gone := if gone = [] then o.hnr.gone else left } }
  let (back, away) := o.goneAccs.partition o.hnr.holdsAcc
  if gone = [] then o else { o with accs := o.accs ++ back, goneAccs := away }

/-- R169: data of the window that was reclaimed before capture starts marks HEAD_LOST. -/
def Prd.headLost (o : Prd) (n : Nat) : Prd :=
  let f := o.flacon n
  if o.hnr.lostNow ≠ 0 && decide (o.hnr.lostNow ≥ f.lo) then
    PrdR.ev (o.setFlacon n { f with flags := setBit f.flags 1 }) PRD_FLC_EVENTS 3
  else o

/-- R169: capture starts. -/
def Prd.captureStart (o : Prd) (n : Nat) : Prd := (o.setFlacon n { o.flacon n with st := 3 }).headLost n

/-- R166, R167, R170: a freeze takes slot `n`: ARMED before T, or at once CAPTURING, after it has taken what a reclaim of
this cycle removed. -/
def Prd.takeSlot (o : Prd) (n : Nat) (f : Flacon) : Prd :=
  if o.ft < f.freezeT then (PrdR.ev (o.setFlacon n { f with st := 2 }) PRD_FLC_EVENTS 0).takeRing n
  else
    let o := (o.setFlacon n { f with st := 3 }).takeRing n
    if (o.flacon n).st = 3 then o.captureStart n else o.headLost n

/-- The first FREE slot. -/
def Prd.freeSlot (o : Prd) : Option Nat := (List.range 4).find? fun n => (o.flacon n).st == 0

/-- R166: a freeze is refused. -/
def Prd.refuseFreeze (o : Prd) (f : Flacon) : Prd :=
  (PrdR.ev o PRD_FLC_EVENTS 4).event { code := 0x41, sev := 3, tag := f.tag, payload := le 8 f.freezeT }

/-- R166, R167, R176: Priord accepts a freeze, with the SETTLE of the acceptance and LATE where T has passed; it queues it,
or refuses it. -/
def Prd.acceptFreeze (o : Prd) (f : Flacon) : Prd :=
  let late := decide (f.freezeT ≤ o.ft)
  let f := { f with settle := PrdR.get o PRD_FLC_SETTLE, flags := if late then setBit f.flags 2 else f.flags }
  let mark (o : Prd) : Prd := if late then PrdR.ev o PRD_FLC_EVENTS 7 else o
  match o.freeSlot with
  | some n => ((mark o).takeSlot n f).descChanges o
  | none =>
    if PrdR.flag o PRD_FLC_CTRL 0 && o.hnr.queue.length < 4 then
      PrdR.ev (mark { o with hnr := { o.hnr with queue := o.hnr.queue ++ [{ f with st := 1 }] } }) PRD_FLC_EVENTS 5
    else o.refuseFreeze f

/-- R172, R166: slot `n` is released; the oldest queued freeze takes it. -/
def Prd.releaseSlot (o : Prd) (n : Nat) : Prd :=
  let f := o.flacon n
  let o := o.setFlacon n {}
  let o := ({ o with hnr := { o.hnr with free := o.hnr.free + f.segs.length } } : Prd).forget f.segs
  let o := { o with tree := { o.tree with freezes := o.tree.freezes.filter fun x => !(x.freezeT == f.freezeT && x.tag == f.tag) } }
  match o.hnr.queue with
  | [] => o
  | q :: rest =>
    let o' := { o with hnr := { o.hnr with queue := rest } }
    (o'.takeSlot n { q with flags := setBit q.flags 3 }).descChanges o

/-- R172: a release that names the flacon's FREEZE_T; answers whether it matched. A release in ARMED or CAPTURING is
discarded, since a slot leaves them only as R168 says. -/
def Prd.flcRelease (o : Prd) (n v : Nat) : Prd × Bool :=
  let f := o.flacon n
  if n < 4 && f.st = 4 && f.freezeT = v then (o.releaseSlot n, true) else (o, false)

/-- FLC_RELEASE. -/
def execFlcRelease (n value t : Nat) (s : State) : Host.Outcome State Fault Refusal :=
  .next (s.onPrd fun o => ((o.go t).flcRelease n (value % 2 ^ 64)).1)

/-- FREEZE_FIRE: T is reached (R167). -/
def execFreezeFire (n t : Nat) (s : State) : Host.Outcome State Fault Refusal :=
  .next (s.onPrd fun o =>
    let o := o.go t
    let f := o.flacon n
    if n < 4 && f.st = 2 && o.ft ≥ f.freezeT then (o.captureStart n).descChanges o else o)

/-- R169: the open segment closes early, and the flacon is HELD. -/
def Prd.captureEnd (o : Prd) (n : Nat) : Prd :=
  let o1 := o.closeSeg
  let f := o1.flacon n
  if f.st = 3 then
    let f := { f with st := 4, end_ := f.hi }
    (PrdR.ev (o1.setFlacon n f) PRD_FLC_EVENTS 1).event { code := 0x40, sev := 1, tag := f.tag, payload := le 8 f.freezeT ++ le 2 f.flags }
  else o1

/-- CAPTURE_END. -/
def execCaptureEnd (n t : Nat) (s : State) : Host.Outcome State Fault Refusal :=
  .next (s.onPrd fun o =>
    let o := o.go t
    let f := o.flacon n
    if n < 4 && f.st = 3 && o.ft ≥ f.hi + f.settle * tickUs then (o.captureEnd n).descChanges o else o)

/-! ### Triggers (R164, R165) -/

/-- R165: attach a trigger to a flacon or an issued freeze of the same scope and job. -/
def Flacon.covers (f : Flacon) (x : Trigger) : Bool :=
  f.st != 0 && f.scope == x.scope && f.tag == (if x.scope = 3 then 0 else x.tag) && decide (f.lo ≤ x.tTrig && x.tTrig ≤ f.hi)

/-- The flacon that a trigger asks for, with instant T = now + FREEZE_LEAD. -/
def Prd.newFlacon (o : Prd) (x : Trigger) : Flacon :=
  { tag := if x.scope = 3 then 0 else x.tag, scope := x.scope, source := x.source
    freezeT := o.ft + PrdR.fld o PRD_FLC_CTRL 8 16 * tickUs, tTrig := x.tTrig
    pre := PrdR.get o PRD_FLC_PRE, post := PrdR.get o PRD_FLC_POST, trigRank := x.rank }

/-- The event of an attached trigger. -/
def Prd.attachEvent (o : Prd) (f : Flacon) (x : Trigger) : Prd :=
  (PrdR.ev o PRD_FLC_EVENTS 6).event { code := 0x42, sev := 1, tag := f.tag, payload := le 8 f.freezeT ++ le 1 x.source }

/-- R165: this Priord decides a TRAY-scope trigger. Answers 0 accepted, 1 attached, 2 refused (R380). -/
def Prd.trayTrigger (o : Prd) (x : Trigger) : Prd × Nat :=
  match (List.range 4).find? fun n => (o.flacon n).covers x with
  | some n =>
    let f := o.flacon n
    ((o.setFlacon n { f with attached := satAdd 16 f.attached 1 }).attachEvent f x, 1)
  | none =>
    if o.hnr.queue.any (·.covers x) then
      let f := (o.hnr.queue.find? (·.covers x)).getD {}
      (({ o with hnr := { o.hnr with queue := updFirst (·.covers x) (fun f => { f with attached := satAdd 16 f.attached 1 }) o.hnr.queue } }).attachEvent f x, 1)
    else if o.clk.st = 0 then (o.refuseFreeze (o.newFlacon x), 2)
    else
      let o' := o.acceptFreeze (o.newFlacon x)
      (o', if PrdR.flag o PRD_FLC_CTRL 0 && o.hnr.queue.length < 4 || o.freeSlot.isSome then 0 else 2)

/-- R164: the scope of a source: 0 disabled. -/
def Prd.srcScope (o : Prd) (k : Nat) : Nat := PrdR.fld o PRD_FLC_SRC_SCOPE (2 * k) 2

end Sys2Proof.Machine
end

