-- ==== Sys2Proof/Machine/SoftFloat.lean ====
section
/-!
DEFINITION. Machine/SoftFloat.lean: IEEE 754-2019 binary arithmetic on bit patterns, roundTiesToEven, subnormals kept
(09 R225, 10 R257). `ew` and `mw` are the widths of the exponent and of the mantissa.
-/
namespace Sys2Proof.Machine
open Sys2Proof

/-- A value: a NaN, or a sign with an infinity, or a sign with m × 2^e. -/
inductive FVal where
  | nan
  | inf (s : Bool)
  | fin (s : Bool) (m : Nat) (e : Int)
deriving DecidableEq, Repr

/-- The value of a bit pattern. -/
def fVal (ew mw v : Nat) : FVal :=
  let s := bit v (ew + mw)
  let x := getF v mw ew
  let m := getF v 0 mw
  let qmin : Int := 2 - 2 ^ (ew - 1) - mw
  if x = 2 ^ ew - 1 then (if m = 0 then .inf s else .nan)
  else if x = 0 then .fin s m qmin
  else .fin s (2 ^ mw + m) (qmin + (x - 1))

/-- The canonical NaN. -/
def fNan (ew mw : Nat) : Nat := (2 ^ ew - 1) * 2 ^ mw + 2 ^ (mw - 1)

/-- An infinity. -/
def fInf (ew mw : Nat) (s : Bool) : Nat := (2 ^ ew - 1) * 2 ^ mw + b2n s * 2 ^ (ew + mw)

/-- `m` shifted right by `k`, rounded to nearest, ties to even; `sticky` says that more lies below. -/
def rneShift (m k : Nat) (sticky : Bool) : Nat :=
  if k = 0 then m
  else
    let q := m >>> k
    let r := m % 2 ^ k
    let half := 2 ^ (k - 1)
    if r > half || (r = half && (sticky || q % 2 = 1)) then q + 1 else q

/-- The bit pattern nearest to m × 2^e (a little more, with `sticky`), ties to even. -/
def fPack (ew mw : Nat) (s : Bool) (m : Nat) (e : Int) (sticky : Bool) : Nat :=
  let sg := b2n s * 2 ^ (ew + mw)
  if m = 0 then sg
  else
    let qmin : Int := 2 - 2 ^ (ew - 1) - mw
    let q : Int := max (e + Nat.log2 m - mw) qmin
    let sig := if e ≥ q then m * 2 ^ (e - q).toNat else rneShift m (q - e).toNat sticky
    let bits := (q - qmin).toNat * 2 ^ mw + sig
    let top := (2 ^ ew - 1) * 2 ^ mw
    sg + (if bits ≥ top then top else bits)

/-- The sum; +0 for −0 + +0 and for an exact cancellation. -/
def fAdd (ew mw a b : Nat) : Nat :=
  match fVal ew mw a, fVal ew mw b with
  | .nan, _ => fNan ew mw
  | _, .nan => fNan ew mw
  | .inf s, .inf t => if s = t then fInf ew mw s else fNan ew mw
  | .inf s, .fin _ _ _ => fInf ew mw s
  | .fin _ _ _, .inf t => fInf ew mw t
  | .fin s m e, .fin t n d =>
    let k := min e d
    let x : Int := (if s then -1 else 1) * ((m * 2 ^ (e - k).toNat : Nat) : Int)
    let y : Int := (if t then -1 else 1) * ((n * 2 ^ (d - k).toNat : Nat) : Int)
    let z := x + y
    if z = 0 then b2n (m = 0 && n = 0 && s && t) * 2 ^ (ew + mw)
    else fPack ew mw (decide (z < 0)) z.natAbs k false

/-- The negation. -/
def fNeg (ew mw a : Nat) : Nat := a ^^^ 2 ^ (ew + mw)

/-- The difference. -/
def fSub (ew mw a b : Nat) : Nat := fAdd ew mw a (fNeg ew mw b)

/-- The product. -/
def fMul (ew mw a b : Nat) : Nat :=
  match fVal ew mw a, fVal ew mw b with
  | .nan, _ => fNan ew mw
  | _, .nan => fNan ew mw
  | .inf s, .inf t => fInf ew mw (s != t)
  | .inf s, .fin t n _ => if n = 0 then fNan ew mw else fInf ew mw (s != t)
  | .fin s m _, .inf t => if m = 0 then fNan ew mw else fInf ew mw (s != t)
  | .fin s m e, .fin t n d => fPack ew mw (s != t) (m * n) (e + d) false

/-- The quotient. -/
def fDiv (ew mw a b : Nat) : Nat :=
  match fVal ew mw a, fVal ew mw b with
  | .nan, _ => fNan ew mw
  | _, .nan => fNan ew mw
  | .inf _, .inf _ => fNan ew mw
  | .inf s, .fin t _ _ => fInf ew mw (s != t)
  | .fin s _ _, .inf t => b2n (s != t) * 2 ^ (ew + mw)
  | .fin s m e, .fin t n d =>
    if n = 0 then (if m = 0 then fNan ew mw else fInf ew mw (s != t))
    else
      let k := mw + 4 + Nat.log2 n
      let q := (m * 2 ^ k) / n
      fPack ew mw (s != t) (2 * q + b2n ((m * 2 ^ k) % n ≠ 0)) (e - d - k - 1) false

/-- a × b + c with one rounding. -/
def fFma (ew mw a b c : Nat) : Nat :=
  match fVal ew mw a, fVal ew mw b, fVal ew mw c with
  | .fin s m e, .fin t n d, .fin u p f =>
    let k := min (e + d) f
    let x : Int := (if s != t then -1 else 1) * ((m * n * 2 ^ (e + d - k).toNat : Nat) : Int)
    let y : Int := (if u then -1 else 1) * ((p * 2 ^ (f - k).toNat : Nat) : Int)
    let z := x + y
    if z = 0 then b2n (m * n = 0 && p = 0 && (s != t) && u) * 2 ^ (ew + mw)
    else fPack ew mw (decide (z < 0)) z.natAbs k false
  | _, _, _ => fAdd ew mw (fMul ew mw a b) c

/-- The integer square root by bits: `k` bits still to find. -/
def isqrtGo (n : Nat) : Nat → Nat → Nat
  | 0, r => r
  | k + 1, r => let c := r + 2 ^ k; isqrtGo n k (if c * c ≤ n then c else r)

/-- The integer square root. -/
def isqrt (n : Nat) : Nat := isqrtGo n (Nat.log2 n / 2 + 1) 0

/-- The square root. -/
def fSqrt (ew mw a : Nat) : Nat :=
  match fVal ew mw a with
  | .nan => fNan ew mw
  | .inf s => if s then fNan ew mw else a
  | .fin s m e =>
    if m = 0 then a
    else if s then fNan ew mw
    else
      let k : Nat := 2 * (mw + 4)
      let odd := decide (e % 2 ≠ 0)
      let n := (if odd then 2 * m else m) * 2 ^ k
      let e' := if odd then e - 1 else e
      let r := isqrt n
      fPack ew mw false (2 * r + b2n (r * r ≠ n)) (e' / 2 - (k / 2 : Nat) - 1) false

/-- A pattern's place in numeric order, −0 below +0; for patterns that are not NaN. -/
def fKey (ew mw v : Nat) : Int :=
  let n := ew + mw
  if bit v n then -((v % 2 ^ n : Nat) : Int) - 1 else ((v % 2 ^ n : Nat) : Int)

/-- Whether a pattern is a NaN. -/
def fIsNan (ew mw v : Nat) : Bool := fVal ew mw v == .nan

/-- a < b in value; false if either is a NaN. -/
def fLt (ew mw a b : Nat) : Bool :=
  let z (v : Nat) : Bool := v % 2 ^ (ew + mw) == 0
  !fIsNan ew mw a && !fIsNan ew mw b && !(z a && z b) && decide (fKey ew mw a < fKey ew mw b)

/-- An unsigned integer converted. -/
def fOfNat (ew mw n : Nat) : Nat := fPack ew mw false n 0 false

/-- An integer converted. -/
def fOfInt (ew mw : Nat) (n : Int) : Nat := fPack ew mw (decide (n < 0)) n.natAbs 0 false

/-- A pattern of one format converted to another. -/
def fConv (ew mw ew' mw' v : Nat) : Nat :=
  match fVal ew mw v with
  | .nan => fNan ew' mw'
  | .inf s => fInf ew' mw' s
  | .fin s m e => fPack ew' mw' s m e false

/-- R225: binary64 addition, every NaN the canonical one. -/
def add64 (a b : Nat) : Nat := fAdd 11 52 a b

end Sys2Proof.Machine
end

