-- ==== Sys2Proof/Machine/Reduce.lean ====
section
/-!
DEFINITION. Machine/Reduce.lean: reduction items, their canonical tree, fragments and partials (09 R220 to R235).
-/
namespace Sys2Proof.Machine
open Sys2Proof

/-! ### The canonical tree (R220) -/

/-- The least H with 2^H ≥ n. -/
def treeHeight (n : Nat) : Nat := if n ≤ 1 then 0 else Nat.log2 (n - 1) + 1

/-- R220: node (h, i), from leaves in ascending order of index; a leaf that is not listed is EMPTY. -/
def treeEval {α : Type} (combine : α → α → α) : Nat → Nat → List (Nat × α) → Option α
  | 0, i, l => l.lookup i
  | h + 1, i, l =>
    if l.isEmpty then none
    else
      let mid := (2 * i + 1) * 2 ^ h
      match treeEval combine h (2 * i) (l.filter fun x => decide (x.1 < mid)),
            treeEval combine h (2 * i + 1) (l.filter fun x => decide (mid ≤ x.1)) with
      | some a, some b => some (combine a b)
      | some a, none => some a
      | none, b => b

/-! ### Item descriptors (R224, R227) -/

/-- R227: whether a descriptor keeps the pairings and sets nothing reserved. -/
def ItemDesc.ok (d : ItemDesc) : Bool :=
  !d.rsvd && 1 ≤ d.op && d.op ≤ 0xB && d.src ≤ 4 && d.kindMask < 128 && d.flags < 2 &&
  (if d.op = 0xA then decide (1 ≤ d.k && d.k ≤ 64) else d.k == 0) &&
  (match d.src with
   | 0 => d.op != 0xB && decide (d.index < 256)
   | 1 => d.op != 0xB && decide (d.index < 32)
   | 2 => d.op != 0xB && d.index == 0
   | 3 => d.op == 0xB && d.index == 0
   | _ => [2, 3, 4, 5, 0xA].contains d.op && d.index == 0)

/-- R227: a table that Priord does not refuse. -/
def itemsOk (l : List ItemDesc) : Bool := decide (l.length ≤ 256) && l.all ItemDesc.ok

/-- R227: the 16 bytes of a descriptor. -/
def ItemDesc.bytes (d : ItemDesc) : List Byte :=
  le 1 d.op ++ le 1 d.src ++ le 1 d.kindMask ++ le 1 d.flags ++ le 2 d.index ++ le 1 d.k ++ le 1 0 ++ le 8 0

/-- R227: a descriptor read from its 16 bytes. -/
def ItemDesc.ofBytes (l : List Byte) : ItemDesc :=
  { op := fieldAt l 0 1, src := fieldAt l 1 1, kindMask := fieldAt l 2 1, flags := fieldAt l 3 1, index := fieldAt l 4 2,
    k := fieldAt l 6 1, rsvd := fieldAt l 7 1 ≠ 0 || fieldAt l 8 8 ≠ 0 }

/-! ### Values (R224 to R226) -/

/-- R225: every NaN is the canonical one. -/
def canonNaN (v : Nat) : Nat := if fIsNan 11 52 v then 0x7FF8_0000_0000_0000 else v

/-- R224: the bin of a value in HISTOGRAM. -/
def histBin (v : Nat) : Nat := if v = 0 then 0 else min 63 (1 + Nat.log2 v)

/-- R224: the bucket of a value in SKETCH. -/
def sketchBucket (v : Nat) : Nat :=
  if v < 32 then v
  else let e := Nat.log2 v; 32 + 32 * (e - 5) + (v >>> (e - 5)) % 32

/-- R224: the order of values: NOSE_SCORE compares numerically. -/
def ItemDesc.key (d : ItemDesc) (v : Nat) : Int := if d.src = 4 then fKey 11 52 v else v

/-- R224: whether (value, rank, engine) `a` comes before `b` where the greater value comes first. -/
def ItemDesc.before (d : ItemDesc) (a b : Nat × Nat × Nat) : Bool :=
  if d.key a.1 = d.key b.1 then decide (a.2.1 < b.2.1 || (a.2.1 = b.2.1 && a.2.2 ≤ b.2.2)) else decide (d.key a.1 > d.key b.1)

/-- Two lists sorted by `before`, merged. -/
def mergeBy {α : Type} (before : α → α → Bool) : Nat → List α → List α → List α
  | 0, _, _ => []
  | _, [], b => b
  | _, a, [] => a
  | f + 1, x :: a, y :: b => if before x y then x :: mergeBy before f a (y :: b) else y :: mergeBy before f (x :: a) b

/-- R224: bin-wise sum of two sparse rows. -/
def addBins (a b : List (Nat × Nat)) : List (Nat × Nat) := (both a b).map fun x => (x.1, (x.2.1 + x.2.2) % 2 ^ 32)

/-- Tuples compared as sequences of unsigned integers. -/
def tupleLe : List Nat → List Nat → Bool
  | a :: x, b :: y => if a = b then tupleLe x y else decide (a < b)
  | _, _ => true

/-- R224: the two least of both; equal keys are one record. -/
def firstTwo (a b : List (List Nat × List Byte)) : List (List Nat × List Byte) :=
  let m := mergeBy (fun x y => tupleLe x.1 y.1) (a.length + b.length) a b
  (m.foldl (fun (l : List (List Nat × List Byte)) x => if l.any (·.1 == x.1) then l else l ++ [x]) []).take 2

/-- R224: combine, of two values that are not EMPTY. -/
def ItemDesc.combineVal (d : ItemDesc) : ItemVal → ItemVal → ItemVal
  | .sum a oa, .sum b ob => .sum ((a + b) % 2 ^ 80) (oa || ob || decide (a + b ≥ 2 ^ 80))
  | .fp a, .fp b => .fp (canonNaN (add64 a b))
  | .pick v r e, .pick v' r' e' =>
    let first := if d.op = 4 then d.before (v, r, e) (v', r', e')
      else if d.key v = d.key v' then d.before (v, r, e) (v', r', e') else decide (d.key v < d.key v')
    if first then .pick v r e else .pick v' r' e'
  | .word a, .word b => if d.op = 6 then .word (a ||| b) else if d.op = 7 then .word (a &&& b) else .word ((a + b) % 2 ^ 64)
  | .bins a, .bins b => .bins (addBins a b)
  | .top a, .top b => .top ((mergeBy d.before (a.length + b.length) a b).take d.k)
  | .first a, .first b => .first (firstTwo a b)
  | a, _ => a

/-- R221, R226: combine, EMPTY included; the element counts add. -/
def ItemDesc.combine (d : ItemDesc) (a b : ItemRes) : ItemRes :=
  { nElem := (a.nElem + b.nElem) % 2 ^ 32, noBase := satAdd 16 a.noBase b.noBase
    unordered := sortBy id (a.unordered ++ b.unordered)
    val := match a.val, b.val with
      | some x, some y => some (d.combineVal x y)
      | some x, none => some x
      | none, y => y }

/-- R224, R227: the value of one element. -/
def ItemDesc.leafVal (d : ItemDesc) (v rank eng : Nat) : ItemVal :=
  match d.op with
  | 1 => .sum v false
  | 2 => .fp (canonNaN (if d.src = 4 then v else fOfNat 11 52 v))
  | 3 => .pick v rank eng
  | 4 => .pick v rank eng
  | 5 => .word (if bit d.flags 0 then 1 else b2n (if d.src = 4 then v % 2 ^ 63 != 0 else v != 0))
  | 8 => .bins [(histBin v, 1)]
  | 9 => .bins [(sketchBucket v, 1)]
  | 0xA => .top [(v, rank, eng)]
  | _ => .word v

/-- One element; NaN scores are EMPTY (R227). -/
def ItemDesc.leaf (d : ItemDesc) (v rank eng : Nat) : ItemRes :=
  if d.src = 4 && fIsNan 11 52 v then {} else { nElem := 1, val := some (d.leafVal v rank eng) }

/-- R226: the body of a value: `n` bytes for EMPTY. -/
def ItemDesc.bodyBytes (d : ItemDesc) : Option ItemVal → List Byte
  | some (.sum v _) => le 16 v
  | some (.fp v) => le 8 v
  | some (.pick v r e) => le 8 v ++ le 4 r ++ le 2 e ++ le 2 0
  | some (.word v) => le 8 v
  | some (.bins l) => (List.range (if d.op = 8 then 64 else 2048)).flatMap fun b => le 4 ((l.lookup b).getD 0)
  | some (.top l) =>
    l.flatMap (fun x => le 8 x.1 ++ le 4 x.2.1 ++ le 2 x.2.2 ++ le 2 0) ++ List.replicate (16 * (d.k - l.length)) 0xFF
  | some (.first l) =>
    l.flatMap (fun x => x.1.flatMap (le 8) ++ fit 64 x.2) ++ List.replicate (96 * (2 - l.length)) 0xFF
  | none => zeros (match d.op with | 1 => 16 | 3 => 16 | 4 => 16 | 8 => 256 | 9 => 8192 | 0xA => 16 * d.k | 0xB => 192 | _ => 8)

/-- R226: an item value. -/
def ItemDesc.resBytes (d : ItemDesc) (r : ItemRes) : List Byte :=
  let ovf := match r.val with | some (.sum _ o) => o | _ => false
  le 4 r.nElem ++ le 2 r.noBase ++ le 1 (b2n r.val.isNone + 2 * b2n ovf) ++ le 1 0 ++ d.bodyBytes r.val

/-! ### Elements of a rank (R222, R227, R228) -/

/-- R228: the delta of counter index `i`. -/
def counterDelta (old new : Image) (i : Nat) : Nat :=
  let g (m : Image) := wordVal i (Tbl.get (fun _ => 0) m.ctr i)
  wsub (idxWidth i) (g new) (g old)

/-- R222: the engines that an item selects in a context, from the headers of the contribution. -/
def ItemDesc.engines (d : ItemDesc) (tag : Nat) (m : Image) : List Nat :=
  (List.range 512).filter fun e => bit d.kindMask (engKind e) && (tag == 0 || (hdrGet m.hdr e).tag == tag)

/-- R227: ENG_STATE's input. -/
def engStateInput (m : Image) (e : Nat) : Nat :=
  2 ^ (hdrGet m.hdr e).st +
  256 * b2n ((List.range 32).any fun c => wordSticky (256 + 32 * e + c) (Tbl.get (fun _ => 0) m.ctr (256 + 32 * e + c)))

/-- R222: the value of an inner tree over engines. -/
def ItemDesc.inner (d : ItemDesc) (l : List (Nat × ItemRes)) : ItemRes := (treeEval d.combine 9 0 l).getD {}

/-- R182: whether a first-NaN record is ranked: its grade at FT is 0 or 1. -/
def nanRanked (b : List Byte) : Bool := decide (getF (fieldAt b 2 2) 3 3 ≤ 1)

/-- R227: a first-NaN record as an element of FIRST: its key (FT, RANK, ENGINE, TILE_INDEX × 2^32 + ELEMENT) and itself. -/
def firstEntry (b : List Byte) : Option (List Nat × List Byte) :=
  if nanRanked b then
    some ([fieldAt b 8 8, fieldAt b 24 4, fieldAt b 6 2 % 512, fieldAt b 40 4 + 2 ^ 32 * fieldAt b 32 4], b)
  else none

/-- R182: the grade bounds in ticks of the pair of grades. -/
def gradeBound (a b : Nat) : Nat := if a = 0 && b = 0 then 20 else if a = 1 && b = 1 then 200 else 110

/-- R182: whether a FIRST value is AMBIGUOUS. -/
def firstAmbiguous (l : List (List Nat × List Byte)) : Bool :=
  match l with
  | [a, b] =>
    let g (x : List Nat × List Byte) := getF (fieldAt x.2 2 2) 3 3
    decide (fieldAt b.2 8 8 - fieldAt a.2 8 8 ≤ gradeBound (g a) (g b))
  | _ => false

/-- R182: UNORDERED of a FIRST result: its records at grade 2 to 4, which it lists by rank. -/
def ItemRes.unorderedCount (r : ItemRes) : Nat := r.unordered.length

/-- R182: AMBIGUOUS of a FIRST result. R226 gives it and UNORDERED no place in the bytes of an item value (log entry 91). -/
def ItemRes.ambiguous (r : ItemRes) : Bool := match r.val with | some (.first l) => firstAmbiguous l | _ => false

/-- R227, R228: the value of an item at the leaf of a rank that contributed. `nans` are the rank's first-NaN records of
the accord interval, `score` its scores per engine (0x1FF for the DIE stream), widened to binary64. -/
def ItemDesc.rankVal (d : ItemDesc) (tag rank : Nat) (m : Image) (base : Option Image) (nans : List (List Byte))
    (score : Nat → Option Nat) : ItemRes :=
  match d.src with
  | 0 =>
    match base with
    | none => { noBase := 1 }
    | some b => d.leaf (counterDelta b m d.index) rank 0x1FF
  | 1 =>
    let es := d.engines tag m
    match base with
    | none => { noBase := min 0xFFFF es.length }
    | some b => d.inner (es.map fun e => (e, d.leaf (counterDelta b m (256 + 32 * e + d.index)) rank e))
  | 2 => d.inner ((d.engines tag m).map fun e => (e, d.leaf (engStateInput m e) rank e))
  | 3 =>
    let l := nans.filterMap firstEntry
    { nElem := l.length, unordered := (nans.filter fun b => !nanRanked b).map fun b => fieldAt b 24 4 % 2 ^ 20
      val := if l.isEmpty then none else some (.first (l.foldl (fun a x => firstTwo a [x]) [])) }
  | _ =>
    if d.kindMask = 0 then ((score 0x1FF).map fun v => d.leaf v rank 0x1FF).getD {}
    else d.inner ((d.engines tag m).filterMap fun e => (score e).map fun v => (e, d.leaf v rank e))

/-! ### Fragments (R233, R235) -/

/-- The item values of two nodes, combined in child order. -/
def combineItems : List ItemDesc → List ItemRes → List ItemRes → List ItemRes
  | d :: ds, a :: x, b :: y => d.combine a b :: combineItems ds x y
  | _, _, _ => []

/-- R221, R233: two fragments' values. -/
def combineFrag (items : List ItemDesc) : Option (List ItemRes) → Option (List ItemRes) → Option (List ItemRes)
  | some a, some b => some (combineItems items a b)
  | some a, none => some a
  | none, b => b

/-- Fragments in ascending (HEIGHT, INDEX). -/
def sortFrags (l : List Frag) : List Frag := sortBy (fun f => f.h * 2 ^ 32 + f.i) l

/-- R233: the merges of one height. -/
def mergeHeight (items : List ItemDesc) (n h : Nat) (l : List Frag) : List Frag :=
  l.flatMap fun f =>
    if f.h ≠ h then [f]
    else
      let sib := f.i ^^^ 1
      match l.find? fun g => g.h == h && g.i == sib with
      | some g => if f.i < sib then [⟨h + 1, f.i / 2, combineFrag items f.vals g.vals⟩] else []
      | none => if sib * 2 ^ h ≥ n then [⟨h + 1, f.i / 2, f.vals⟩] else [f]

/-- R233: the merge rule, applied until nothing changes. -/
def mergeFrags (items : List ItemDesc) (n : Nat) (l : List Frag) : List Frag :=
  sortFrags ((List.range (treeHeight n)).foldl (fun l h => mergeHeight items n h l) l)

/-- R235: a fragment's bytes. -/
def Frag.bytes (items : List ItemDesc) (f : Frag) : List Byte :=
  le 1 f.h ++ le 1 (b2n f.vals.isNone) ++ le 2 0 ++ le 4 f.i ++
  match f.vals with
  | none => []
  | some l => (items.zip l).flatMap fun x => x.1.resBytes x.2

/-- R92: a missing-rank list. -/
def missBytes (l : List (Nat × Nat)) : List Byte := l.flatMap fun x => le 4 (x.1 + 2 ^ 24 * x.2)

/-- R235: a partial. -/
def Partial.bytes (items : List ItemDesc) (p : Partial) : List Byte :=
  let body := summaryBytes p.summary ++ missBytes p.missing ++ (sortFrags p.frags).flatMap (Frag.bytes items)
  let a := le 1 1 ++ le 1 p.level ++ le 2 p.tag ++ le 2 items.length ++ le 2 p.frags.length ++ le 8 p.no ++ le 4 p.from_ ++
    le 4 p.treeEpoch ++ le 4 p.itemEpoch ++ le 4 (64 + body.length)
  a ++ le 4 (crc32c (a ++ le 4 0 ++ zeros 28 ++ body)) ++ zeros 28 ++ body

end Sys2Proof.Machine
end

