-- ==== Sys2Proof/Machine/Ctx.lean ====
section
/-!
DEFINITION. Machine/Ctx.lean: job contexts at Priord and what an atomiser message does at a node itself
(01 R23, 09 R227 to R248, 15 R417 to R421).
-/
namespace Sys2Proof.Machine
open Sys2Proof

/-! ### Messages as bytes (R238, R245, R308) -/

/-- R238, R308: a CONFIG entry. The widths of the interval and of CANARY's two permissions are the model's (log entry 51). -/
def CfgEntry.bytes (x : CfgEntry) : List Byte :=
  let e (k : Nat) (b : List Byte) : List Byte := le 2 k ++ le 2 b.length ++ padTo 8 b
  match x with
  | .accordSwitch ts n => e 1 (le 8 ts ++ le 4 n)
  | .itemTable l => e 2 (l.flatMap ItemDesc.bytes)
  | .canary a b => e 3 (le 1 (b2n a) ++ le 1 (b2n b) ++ zeros 6)
  | .gates w => e 4 (le 8 w.start ++ le 8 w.cycle ++ le 1 w.wins.length ++ le 1 w.ulMask ++ le 1 w.fbMask ++ zeros 5 ++
      w.wins.flatMap fun p => le 4 p.1 ++ le 4 p.2)
  | .other k => e k []

/-- R245: the START payload. -/
def StartMsg.bytes (m : StartMsg) : List Byte :=
  let cfg := m.config.flatMap CfgEntry.bytes
  le 4 m.nRanks ++ le 4 m.homes.length ++ le 2 m.items.length ++ le 2 (b2n m.audit) ++ le 4 0 ++ m.homes.flatMap (le 4) ++
  m.items.flatMap ItemDesc.bytes ++ le 4 cfg.length ++ cfg ++
  m.ports.flatMap fun p => le 4 (p.1 % 2 ^ 17) ++ le 4 (p.2 % 2 ^ 20)

/-- R238: the payload of a downward message. -/
def BcastBody.payload (b : BcastBody) : List Byte :=
  match b.kind with
  | 1 => (b.start.map StartMsg.bytes).getD []
  | 3 => b.config.flatMap CfgEntry.bytes
  | 4 => (b.freeze.map fun x => le 8 x.freezeT ++ le 8 x.tTrig ++ le 4 x.pre ++ le 4 x.post ++ le 1 x.source ++ zeros 3 ++ le 4 x.trigRank).getD []
  | 5 => le 8 b.hangId
  | 6 => (b.fault.map fun x => le 4 x.rank ++ le 4 x.code ++ le 8 x.ft).getD []
  | 7 => le 4 b.hangId ++ (List.range 4096).flatMap fun i => le 1 (roleByte b.roles i)
  | _ => []

/-! ### Tables (R227, R229, R245) -/

/-- R229: the home tray of an entry. -/
def homeTray (e : Nat) : Nat := e % 4096

/-- R229: the block that a rank belongs to, and its home. -/
def homeOf (homes : List Nat) (rank : Nat) : Option Nat := (homes[rank / 32]?).map homeTray

/-- No element twice. -/
def nodupB (l : List Nat) : Bool :=
  match l with
  | [] => true
  | x :: r => !r.contains x && nodupB r

/-- R405: whether a tray is POPULATED in the image's ROLES. -/
def Prd.trayPopulated (o : Prd) (i : Nat) : Bool := bit (roleByte o.cfg.roles i) 0

/-- R229: the rank-home table of a START. -/
def Prd.homesOk (o : Prd) (n : Nat) (homes : List Nat) : Bool :=
  decide (1 ≤ n && n ≤ 131072) && homes.length == ceilDiv n 32 &&
  homes.all (fun e => bit e 31 && o.trayPopulated (homeTray e)) && nodupB (homes.map homeTray)

/-- R245: a whole port map. -/
def Prd.portsOk (o : Prd) (n : Nat) (ports : List (Nat × Nat)) : Bool :=
  sortBy id (ports.map (·.2)) == List.range n && nodupB (ports.map (·.1)) && ports.all fun p => o.trayPopulated (p.1 / 32)

/-- R245: the entries of a port map that break its rules where the rest is not known. -/
def Prd.badPorts (o : Prd) (n : Nat) (ports : List (Nat × Nat)) : List (Nat × Nat) :=
  ports.filter fun p => decide (p.2 ≥ n) || !o.trayPopulated (p.1 / 32) ||
    (ports.filter fun q => q.1 == p.1).length ≥ 2 || (ports.filter fun q => q.2 == p.2).length ≥ 2

/-! ### Contexts -/

/-- Whether a slot's context takes its records (R419). -/
def Ctx.live (x : Ctx) : Bool := x.st != 0

/-- The first FREE job slot, or, for a node that neither serves nor homes a rank of the job, a table of its own (log entry
53). -/
def Prd.freeCtx (o : Prd) (inside : Bool) : Option Nat :=
  if inside then (List.range 33).find? fun c => c ≠ 0 && (o.slot c).st == 0
  else (List.range 1024).map (64 + ·) |>.find? fun c => (o.slot c).st == 0

/-- R84: the ranks of a job that this tray homes. -/
def Ctx.homed (x : Ctx) (tray : Nat) : List Nat :=
  (x.homes.zipIdx.filter fun e => homeTray e.1 == tray).flatMap fun e =>
    (List.range 32).filterMap fun j => if 32 * e.2 + j < x.nRanks then some (32 * e.2 + j) else none

/-- The rank that die port `n` holds for a job tag (R23), or the fleet rank (R223). -/
def Prd.portRank (o : Prd) (n tag : Nat) : Option Nat :=
  if tag = 0 then some (o.location n) else (o.port n).ranks.lookup tag

/-- R23: a port takes a job's (JOB_TAG, rank); it keeps one pair, the last. -/
def Prd.setPortRank (o : Prd) (n tag rank : Nat) : Prd := o.setPort n { o.port n with ranks := [(tag, rank)] }

/-- The ranks for which this node answers START: those it serves, or those it homes where it serves none. -/
def Prd.answerRanks (o : Prd) (m : StartMsg) : List Nat :=
  let mine := (m.ports.filter fun p => p.1 / 32 == o.tray).map (·.2)
  if mine.isEmpty then Ctx.homed { nRanks := m.nRanks, homes := m.homes } o.tray else mine

/-- R240: every rank of a list with one status. -/
def allStatus (l : List Nat) (st : Nat) : DoneMsg := { notApplied := 0, statuses := l.map fun r => (r, st) }

/-- What a node does itself with a message: its state, what it adds to DONE, and the die ports that must have it. -/
abbrev Applied := Prd × DoneMsg × List Nat

/-- R211: the level of a job's top node. -/
def topLevel (homes : List Nat) : Nat :=
  let ts := homes.map homeTray
  let same (k : Nat) : Bool := match ts with | [] => true | x :: r => r.all fun y => y / k == x / k
  if same 1 then 0 else if same 8 then 1 else if same 128 then 2 else 3

/-- R211, R234: the level of a context's top node. -/
def Prd.topOf (o : Prd) (tag : Nat) : Nat :=
  if tag = 0 then 3 else ((o.slotOf tag).map fun c => topLevel (o.slot c).homes).getD 0

/-- R245, R246, R417: START at a node that serves or homes ranks of the job, or holds a role above its homes. -/
def Prd.applyStart (o : Prd) (h : AtHdr) (m : StartMsg) : Applied :=
  let own := m.ports.filter fun p => p.1 / 32 == o.tray
  let mine := o.answerRanks m
  let inside := !mine.isEmpty
  let fail (st : Nat) : Applied := (o, { allStatus mine st with notApplied := own.length }, [])
  if o.tree.retracted.contains h.bseq then
    let (o', d, p) := fail 0x0B
    ({ o' with tree := { o.tree with retracted := o.tree.retracted.filter (· != h.bseq) } }, d, p)
  else if inside && (!itemsOk m.items || !o.homesOk m.nRanks m.homes) then fail 0x0A
  else if inside && !(o.badPorts m.nRanks own).isEmpty then
    (o, { allStatus ((o.badPorts m.nRanks own).map (·.2)) 0x0A with notApplied := own.length }, [])
  else
    let o := match o.slotOf h.tag with | some c => if c ≥ 64 then o.setSlot c {} else o | none => o
    match o.slotOf h.tag with
    | some c => fail (if (o.slot c).st ≤ 2 then 0x07 else 0x01)
    | none =>
      match o.freeCtx inside with
      | none => fail 0x05
      | some c =>
        if o.clk.st ≠ 0 && decide (h.tAct ≤ o.ft) then
          let (o', d, p) := fail 0x04
          (PrdR.ev (o'.actionLate 2 h.tAct h.tag) PRD_ATM_EVENTS 5, d, p)
        else
          let g := m.config.foldl (fun (w : Option GateWin) x => match x with | .gates g => some g | _ => w) none
          let fit := g.any fun g => !g.wins.isEmpty && o.gatesFit c g
          let win := if fit then g.map fun g => { start := g.start, cycle := g.cycle, ulMask := g.ulMask, wins := g.wins : CtxWin } else none
          let x : Ctx :=
            { st := 1, tag := h.tag, s := h.tAct, bseq := h.bseq, nRanks := m.nRanks, homes := m.homes, items := m.items
              audit := m.audit, served := own.map fun p => (p.1 % 32, p.2), trays := (m.ports.map (·.1 / 32)).eraseDups
              spare := (own.filter fun p => bit (o.portCfg (p.1 % 32)) 1).map (·.2), win }
          let o := own.foldl (fun o p => o.setPortRank (p.1 % 32) h.tag p.2) (o.setSlot c x)
          let o := match g with
            | some g => if g.wins.isEmpty || own.isEmpty then o else if fit then o.writeGates (max h.tAct g.start) else o.gatesRefused
            | none => o
          let absentPorts := own.filter fun p => !o.populated (p.1 % 32)
          (o, { allStatus (absentPorts.map (·.2)) 0x06 with notApplied := absentPorts.length },
           (own.filter fun p => o.populated (p.1 % 32)).map (·.1 % 32))

/-- The ports of a job's context: those that it serves (R239). -/
def Prd.ctxPorts (o : Prd) (tag : Nat) : List Nat :=
  if tag = 0 then (List.range 32).filter o.populated
  else match o.slotOf tag with
    | some c => ((o.slot c).served.map (·.1)).filter o.populated
    | none => []

/-- R419: a slot returns to FREE; what the node kept of the context goes with it,
and so do its rings (14 R364). -/
def Prd.endCtx (o : Prd) (c : Nat) : Prd :=
  let tag := (o.slot c).tag
  let had := (o.slot c).win.isSome
  let o := o.setSlot c {}
  let o := if had then o.writeGates (o.ft + 1) else o
  let nose := { o.nose with
    streams := o.nose.streams.filter (·.tag != tag), scores := o.nose.scores.filter (·.tag != tag)
    persist := o.nose.persist.filter fun p => p.1.head? != some tag }
  { o with refs := o.refs.filter (·.tag != tag), nans := o.nans.filter (·.1 != tag), orders := o.orders.filter (·.tag != tag), nose }.closeRings c

/-- R248, R241, R419: RETRACT at a node: the START that it names is undone, or, where it has not come, its number is kept. -/
def Prd.applyRetract (o : Prd) (h : AtHdr) : Applied :=
  let ports := o.ctxPorts h.tag
  let early (o : Prd) : Prd := if (bmapOf o.tree.bmaps h.tag).seen h.ref then o
    else { o with tree := { o.tree with retracted := h.ref :: o.tree.retracted } }
  match o.slotOf h.tag with
  | some c =>
    let x := o.slot c
    if c ≠ 0 && x.bseq = h.ref then (if x.st = 1 then o.endCtx c else o, {}, ports) else (early o, {}, ports)
  | none => (early o, {}, [])

/-- R249, R419, R421: JOB_FAULT at a node. A context of which it serves and homes no rank awaits no job-end record, and goes
to HOLD at once. -/
def Prd.applyFault (o : Prd) (h : AtHdr) : Applied :=
  let ports := o.ctxPorts h.tag
  match o.slotOf h.tag with
  | some c =>
    let x := o.slot c
    let o := if c = 0 then o else if x.st = 1 then o.endCtx c
      else if x.st = 2 then o.setSlot c { x with st := if c ≥ 64 then 4 else 3, since := o.ft } else o
    (o, {}, if h.tag = 0 then [] else ports)
  | none => (o, {}, [])

/-- R62, R63: the accord schedule takes a switch at T_s. -/
def Prd.armSwitch (o : Prd) (ts n : Nat) : Prd × Bool :=
  if decide (ts > o.ft) && 1 ≤ n && n ≤ 10000 && ts % (o.accInt * 400000) == 0 && ts % (n * 400000) == 0 then
    ({ o with accSwitch := some (ts, n) }, true)
  else (o, false)

/-- R228, R238, R308: an entry of a CONFIG at a node: whether it was applied. -/
def Prd.applyEntry (o : Prd) (h : AtHdr) (x : CfgEntry) : Prd × Bool :=
  match x with
  | .accordSwitch ts n => if h.tag = 0 then o.armSwitch ts n else (o, false)
  | .itemTable l =>
    match o.slotOf h.tag with
    | some c =>
      if !itemsOk l then (o, false)
      else if decide (h.tAct ≤ o.ft) then (PrdR.ev (o.actionLate 5 h.tAct h.tag) PRD_ATM_EVENTS 5, false)
      else (o.setSlot c { o.slot c with nextItems := sortBy (·.1) ((o.slot c).nextItems ++ [(h.tAct, l)]) }, true)
    | none => (o, true)
  | .gates w =>
    match o.slotOf h.tag with
    | some c =>
      if c = 0 then (o, false)
      else if (o.slot c).served.isEmpty then (o, true)
      else if !o.gatesFit c w then (o.gatesRefused, false)
      else
        let at_ := max h.tAct w.start
        let win := if w.wins.isEmpty then none else some { start := w.start, cycle := w.cycle, ulMask := w.ulMask, wins := w.wins : CtxWin }
        if at_ ≤ o.ft then ((List.range 4).foldl (fun o u => o.changeTWrite u at_) o, false)
        else ((o.setSlot c { o.slot c with win }).writeGates at_, true)
    | none => (o, true)
  | .canary _ _ => (o, true)
  | .other _ => (o, false)

/-- R238: whether an entry concerns the OTUs: any but ITEM_TABLE. -/
def CfgEntry.concernsOtu (x : CfgEntry) : Bool := match x with | .itemTable _ => false | _ => true

/-- R227, R240: whether an entry that a node fails makes the OTUs of the context count as not applied: an ACCORD_SWITCH is refused
by each OTU itself. -/
def CfgEntry.nodeOnly (x : CfgEntry) : Bool := match x with | .accordSwitch _ _ => false | _ => true

/-- R238: the entries of a CONFIG at a node, and whether it applied those that it answers for. -/
def Prd.applyEntries (o : Prd) (h : AtHdr) (l : List CfgEntry) : Prd × Bool :=
  l.foldl (fun (a : Prd × Bool) x => let (o, k) := a.1.applyEntry h x; (o, a.2 && (k || !x.nodeOnly))) (o, true)

/-- R238, R240: CONFIG at a node: it goes to the OTUs where an entry concerns them. Where none does, they count with the
node (DEDUCED from R240's ITEM_TABLE; log entry 46). -/
def Prd.applyConfig (o : Prd) (h : AtHdr) (l : List CfgEntry) : Applied :=
  let (o, ok) := o.applyEntries h l
  let ports := o.ctxPorts h.tag
  if l.any CfgEntry.concernsOtu then (o, {}, ports)
  else (o, if ok then { applied := ports.length } else { notApplied := ports.length }, [])

/-- R166, R167, R173: FREEZE at a node. -/
def Prd.applyFreeze (o : Prd) (h : AtHdr) (x : FreezeMsg) : Applied :=
  let homed := h.scope = 3 || (match o.slotOf h.tag with | some c => !((o.slot c).homed o.tray).isEmpty | none => false)
  if homed then
    let f : Flacon := { tag := if h.scope = 3 then 0 else h.tag, scope := h.scope, source := x.source, freezeT := x.freezeT
                        tTrig := x.tTrig, pre := x.pre, post := x.post, trigRank := x.trigRank }
    -- R165: triggers that the root attached before the freeze came down to its own tray
    let mine := o.tree.freezes.find? fun g => g.freezeT == f.freezeT && g.tag == f.tag
    let f := { f with attached := (mine.map (·.attached)).getD 0 }
    let o := if decide (h.tAct ≤ o.ft) then PrdR.ev (o.actionLate 3 h.tAct h.tag) PRD_ATM_EVENTS 5 else o
    (o.acceptFreeze f, {}, [])
  else (o, {}, [])

/-- R136: the ranks of a job homed in the subtree of this Priord's node at `level`. -/
def Prd.subtreeRanks (o : Prd) (x : Ctx) (level : Nat) : List Nat :=
  let inside (t : Nat) : Bool := match level with
    | 0 => t == o.tray | 1 => t / 8 == o.tray / 8 | 2 => t / 128 == o.tray / 128 | _ => true
  (List.range x.nRanks).filter fun r => ((homeOf x.homes r).map inside).getD false

/-- R134, R136: HANG_FREEZE at a node: each role that it holds awaits the notices of its subtree. -/
def Prd.applyHang (o : Prd) (h : AtHdr) (id : Nat) : Applied :=
  match o.slotOf h.tag with
  | none => (o, {}, [])
  | some c =>
    let x := o.slot c
    let new := ((List.range 4).filter fun l => o.holds o.tree.roles l).map fun l =>
      ({ id, tag := h.tag, node := l, t := h.tAct, expect := o.subtreeRanks x l } : HangSt)
    let new := new.filter fun g => !g.expect.isEmpty && !o.hangs.any fun y => y.id == id && y.node == g.node
    ({ o with hangs := (new ++ o.hangs).take 128 }, {}, o.ctxPorts h.tag)

/-! ### The end of a context (R419) -/

/-- R419: whether every rank that this tray serves or homes has its job-end record. -/
def Prd.allEnded (o : Prd) (x : Ctx) : Bool :=
  (x.served.map (·.2) ++ x.homed o.tray).all fun r => (x.ended.lookup r).isSome

/-- R419: a job-end record of a rank. -/
def Prd.jobEndIn (o : Prd) (tag rank ftEnd : Nat) : Prd :=
  match o.slotOf tag with
  | none => o
  | some c =>
    let x := o.slot c
    if c = 0 || x.st < 2 || (x.ended.lookup rank).isSome then o
    else
      let x := { x with ended := x.ended ++ [(rank, ftEnd)] }
      let x := if x.st = 2 then { x with st := 3, since := o.ft } else x
      let x := if x.st = 3 && o.allEnded x then { x with st := 4, since := o.ft } else x
      o.setSlot c x

/-- DRAIN_LIMIT. -/
def execDrainLimit (c t : Nat) (s : State) : Host.Outcome State Fault Refusal :=
  .next (s.onPrd fun o =>
    let o := o.go t
    let x := o.slot c
    if c ≠ 0 && x.st = 3 && o.ft ≥ x.since + PrdR.fld o PRD_CTX_CFG 0 16 * 400000 then
      let left := ((x.served.map (·.2) ++ x.homed o.tray).eraseDups).filter fun r => (x.ended.lookup r).isNone
      PrdR.cnt (o.setSlot c { x with st := 4, since := o.ft }) PRD_CTX_UNDRAINED 0 32 left.length
    else o)

/-- CTX_HOLD: a record of the cycle in which it passes still goes to the context, so the slot is FREE from the next cycle (R421). -/
def execCtxHold (c t : Nat) (s : State) : Host.Outcome State Fault Refusal :=
  .next (s.onPrd fun o =>
    let o := o.go t
    let x := o.slot c
    if c ≠ 0 && x.st = 4 && o.ft > x.since + PrdR.fld o PRD_CTX_CFG 16 16 * 400000 then o.endCtx c else o)

end Sys2Proof.Machine
end

