-- ==== Sys2Proof/Machine/Tree.lean ====
section
/-!
DEFINITION. Machine/Tree.lean: the fleet tree and the atomiser at a Priord (01 R17 to R20, 09 R237 to R249, 15 R410, R417).
-/
namespace Sys2Proof.Machine
open Sys2Proof

/-! ### Roles (R17, R18, R242) -/

/-- R405: bits of a roles byte: 0 POPULATED, 1 RACK_NODE, 2 POD_NODE, 3 HALL_ROOT, 4 STANDBY_ROOT. -/
def roleBit (r : Roles) (i k : Nat) : Bool := bit (roleByte r i) k

/-- The tray that holds a role: level 1 in rack `unit`, 2 in pod `unit`, 3 or 4 in the hall. -/
def roleHolder (r : Roles) (k unit : Nat) : Option Nat :=
  (r.find? fun x => bit x.2 k && (if k = 1 then x.1 / 8 == unit else if k = 2 then x.1 / 128 == unit else true)).map (·.1)

/-- Set or clear a role. -/
def setRole (r : Roles) (i k : Nat) (b : Bool) : Roles := Tbl.put (fun _ => 0) r i (putBit (roleByte r i) k b)

/-- R242: the assignments that the atomiser uses: those of the last TREE message. -/
def Prd.atRoles (o : Prd) : Roles := o.tree.next.getD o.tree.roles

/-- The highest level that this Priord holds: 0 tray to 3 hall. -/
def Prd.topRole (o : Prd) (r : Roles) : Nat := if o.holds r 3 then 3 else if o.holds r 2 then 2 else if o.holds r 1 then 1 else 0

/-- Whether this Priord is the hall root. -/
def Prd.isRoot (o : Prd) : Bool := roleBit o.atRoles o.tray 3

/-- R16: the parent of this Priord's node of level `l`. -/
def Prd.parentAt (o : Prd) (r : Roles) (l : Nat) : Option Nat :=
  match l with
  | 0 => roleHolder r 1 (o.tray / 8)
  | 1 => roleHolder r 2 (o.tray / 128)
  | 2 => roleHolder r 3 0
  | _ => none

/-- R251: the parent of its highest role. -/
def Prd.parent (o : Prd) : Option Nat := o.parentAt o.atRoles (o.topRole o.atRoles)

/-- Whether tray `t` lies in the subtree of child `c` of level `l`. -/
def inChild (l c t : Nat) : Bool := match l with | 0 => t == c | 1 => t / 8 == c / 8 | _ => t / 128 == c / 128

/-- R16: the child Priords, with their levels. -/
def Prd.childTrays (o : Prd) (r : Roles) : List (Nat × Nat) :=
  let trays := if o.holds r 1 then (r.filter fun x => bit x.2 0 && x.1 / 8 == o.tray / 8 && x.1 != o.tray).map fun x => (0, x.1) else []
  let racks := if o.holds r 2 then (r.filter fun x => bit x.2 1 && x.1 / 128 == o.tray / 128 && x.1 / 8 != o.tray / 8).map fun x => (1, x.1) else []
  let pods := if o.holds r 3 then (r.filter fun x => bit x.2 2 && x.1 / 128 != o.tray / 128).map fun x => (2, x.1) else []
  trays ++ racks ++ pods

/-- The level of a child Priord. -/
def Prd.childLevel (o : Prd) (c : Nat) : Nat := ((o.childTrays o.atRoles).find? fun x => x.2 == c).map (·.1) |>.getD 0

/-- R211, R242: the tray that holds the role of a job's top node under the tree in force. -/
def Prd.topHolder (o : Prd) (tag : Nat) : Option Nat :=
  ((o.slotOf tag).bind fun c => (o.slot c).homes.head?).bind fun e =>
    let t := homeTray e
    match o.topOf tag with
    | 0 => some t
    | 1 => roleHolder o.atRoles 1 (t / 8)
    | 2 => roleHolder o.atRoles 2 (t / 128)
    | _ => roleHolder o.atRoles 3 0

/-- R242: the roles without the trays in `failed`: the tree does without the node that is lost. -/
def moveRoles (r : Roles) (failed : List Nat) (lost : Nat) : Roles :=
  let had := roleByte r lost
  let ok (i : Nat) : Bool := !failed.contains i
  let r := Tbl.put (fun _ => 0) r lost 0
  let r := if bit had 1 then
      match (r.filter fun x => bit x.2 0 && x.1 / 8 == lost / 8 && ok x.1).head? with
      | some x => setRole r x.1 1 true
      | none => r
    else r
  let r := if bit had 2 then
      match (r.filter fun x => bit x.2 1 && x.1 / 128 == lost / 128 && ok x.1).head? with
      | some x => setRole r x.1 2 true
      | none => r
    else r
  if bit had 4 then
    let root := (roleHolder r 3 0).getD 0
    match (r.filter fun x => bit x.2 2 && x.1 / 128 != root / 128 && ok x.1).head? with
    | some x => setRole r x.1 4 true
    | none => r
  else r

/-- R410: the roles with `back` in the tree again, and those that the image gives it restored to it, the root's apart. -/
def restoreRoles (image r : Roles) (back : Nat) : Roles :=
  let want := roleByte image back
  let take (r : Roles) (k unit : Nat) : Roles :=
    if bit want k then setRole (match roleHolder r k unit with | some h => setRole r h k false | none => r) back k true else r
  take (take (setRole r back 0 (bit want 0)) 1 (back / 8)) 2 (back / 128)

/-! ### Broadcasts (R239 to R241) -/

/-- R239: the trays of a message's scope that this node knows, or none when it must go to every child. -/
def Prd.scopeTrays (o : Prd) (b : BcastBody) : Option (List Nat) :=
  match b.start with
  | some m => some (m.homes.map homeTray ++ m.ports.map (·.1 / 32))
  | none =>
    if b.hdr.scope = 3 then none
    else (o.slotOf b.hdr.tag).map fun c => (o.slot c).homes.map homeTray ++ (o.slot c).trays

/-- R239: the children that a message goes to. -/
def Prd.bcastTrays (o : Prd) (b : BcastBody) : List (Nat × Nat) :=
  (o.childTrays o.atRoles).filter fun x => (o.scopeTrays b).all fun l => l.any fun t => inChild x.1 x.2 t

/-- R239: a START pruned to a subtree. -/
def BcastBody.pruned (b : BcastBody) (inside : Nat → Bool) : BcastBody :=
  { b with start := b.start.map fun m => { m with ports := m.ports.filter fun p => inside p.1 } }

/-- Uplink class 7 and the context's queue (R298, R299). -/
def Prd.send7 (o : Prd) (dst tag : Nat) (body : List Byte) : Prd := o.send dst 7 ((o.slotOf tag).getD 0) body

/-- R240: send a message to one child. -/
def Prd.sendChild (o : Prd) (b : BcastBody) (c : Child) : Prd :=
  let h := { b.hdr with treeEpoch := o.tree.epoch }
  match c with
  | .tray i =>
    let l := o.childLevel i
    o.send7 i h.tag (atBytes b.kind h o.tray (b.pruned fun loc => inChild l i (loc / 32)).payload)
  | .port n => o.sendDown n (atBytes b.kind h o.tray (b.pruned fun loc => loc == o.location n).payload)

/-- R240: HOP_ACK or DONE to the sender. -/
def Prd.answer (o : Prd) (dst : Option Nat) (type : Nat) (h : AtHdr) (payload : List Byte) : Prd :=
  match dst with
  | some p => o.send7 p h.tag (atBytes type { atAnswer h with treeEpoch := o.tree.epoch } o.tray payload)
  | none => o

/-- Two DONEs added. -/
def DoneMsg.add (a b : DoneMsg) : DoneMsg :=
  { applied := a.applied + b.applied, notApplied := a.notApplied + b.notApplied, failed := a.failed ++ b.failed
    statuses := a.statuses ++ b.statuses }

/-- R227, R240: what a child adds: an OTU of a node that failed an entry did not apply the message. -/
def Bcast.share (b : Bcast) (c : ChildSt) : DoneMsg :=
  let d := c.done.getD {}
  match c.child with
  | .port _ => if b.spoiled then { d with applied := 0, notApplied := d.applied + d.notApplied } else d
  | .tray _ => d

/-- R240: what a node's DONE says so far. -/
def Bcast.total (b : Bcast) : DoneMsg := b.children.foldl (fun d c => d.add (b.share c)) b.own

/-- R240: whether every child has answered DONE or has failed. -/
def Bcast.complete (b : Bcast) : Bool := b.children.all fun c => c.done.isSome || c.failed

/-- The broadcast of a BSEQ. -/
def Prd.bcast? (o : Prd) (bseq : Nat) : Option Bcast := o.tree.bcasts.find? (·.body.hdr.bseq == bseq)

/-- Replace it. -/
def Prd.setBcast (o : Prd) (bseq : Nat) (f : Bcast → Bcast) : Prd :=
  { o with tree := { o.tree with bcasts := updFirst (·.body.hdr.bseq == bseq) f o.tree.bcasts } }

/-- R241: whether the children to which a duplicate went again have all answered or failed. -/
def Bcast.ready (b : Bcast) (w : DupWait) : Bool :=
  b.children.all fun c => !w.kids.contains c.child || c.done.isSome || c.failed

/-- R240, R241: send DONE once every child has answered or failed; a duplicate's once those have to which it went again. -/
def Prd.closeBcast (o : Prd) (bseq : Nat) : Prd :=
  match o.bcast? bseq with
  | none => o
  | some b =>
    let d := b.total
    let first := b.complete && !b.gone
    let o := if first then (o.setBcast bseq fun b => { b with closed := some d, gone := true }).answer b.sender 0x81 b.body.hdr (doneBytes d)
      else o
    let (now, later) := b.dups.partition b.ready
    now.foldl (fun o w => o.answer w.sender 0x81 b.body.hdr (doneBytes d)) (o.setBcast bseq fun b => { b with dups := later })

/-- R90, R236: the partial that an accord of this node sent, or would send. -/
def AccNode.partial_ (a : AccNode) (from_ epoch : Nat) : Partial :=
  { level := a.level + 1, tag := a.tag, no := a.no, from_, treeEpoch := epoch, itemEpoch := a.epoch, summary := a.sum
    missing := a.miss, frags := a.frags }

/-- R236, R410: send an accord's partial to a parent. -/
def Prd.sendPartial (o : Prd) (a : AccNode) (dst : Nat) : Prd :=
  if o.tree.joined then o.send dst 6 ((o.slotOf a.tag).getD 0) ((a.partial_ o.tray o.tree.epoch).bytes a.items) else o

/-- R236: after a change of the tree, partials already sent go to the new parent too. -/
def Prd.resendPartials (o : Prd) : Prd :=
  let todo := o.accs.filter fun a => match a.sentTo, o.parentAt o.atRoles a.level with
    | some p, some q => p != q
    | _, _ => false
  let o := todo.foldl (fun o a => match o.parentAt o.atRoles a.level with | some q => o.sendPartial a q | none => o) o
  { o with accs := o.accs.map fun a => if a.sentTo.isSome then { a with sentTo := o.parentAt o.atRoles a.level } else a }

/-- R409: on the first TREE message PHASE becomes RUNNING. -/
def Prd.treeJoined (o : Prd) : Prd :=
  if o.phase = 3 then
    PrdR.set (PrdR.ev (PrdR.setFld o PRD_BOOT_STATUS 0 3 4) PRD_BOOT_EVENTS 1) PRD_BOOT_RUN_FT o.ft
  else o

/-- R242: the nodes that a tree does without: populated in the image, and not in the roles. -/
def Prd.leftOut (o : Prd) (r : Roles) : List Nat := (o.cfg.roles.filter fun x => bit x.2 0 && !roleBit r x.1 0).map (·.1)

/-- R211: whether this Priord still assembles a result: one whose job's top role has moved on is the new holder's. -/
def Prd.keepsResult (o : Prd) (x : ResAsm) : Bool :=
  x.done || (if x.known then o.topHolder x.tag == some o.tray else o.topRole o.atRoles ≠ 0)

/-- R242: TREE at a node; the epoch stands in `hangId`. -/
def Prd.applyTree (o : Prd) (b : BcastBody) : Applied :=
  let root := o.isRoot
  let lost := if root then (o.tree.failed.head?).getD ones32 else ones32
  let o := { o with tree := { o.tree with
    next := some b.roles, epoch := b.hangId, joined := true, failed := if root then o.tree.failed else o.leftOut b.roles } }
  let o := { o with results := o.results.filter o.keepsResult }
  let o := (PrdR.ev o.treeJoined PRD_TREE_EVENTS 1).event { code := 0x22, sev := 3, payload := le 4 b.hangId ++ le 4 lost }
  (o.resendPartials, {}, [])

/-- What a message does at this node itself (R238). -/
def Prd.applyHere (o : Prd) (b : BcastBody) : Applied :=
  match b.kind with
  | 1 => match b.start with | some m => o.applyStart b.hdr m | none => (o, {}, [])
  | 2 => o.applyRetract b.hdr
  | 3 => o.applyConfig b.hdr b.config
  | 4 => match b.freeze with | some x => o.applyFreeze b.hdr x | none => (o, {}, [])
  | 5 => o.applyHang b.hdr b.hangId
  | 6 => o.applyFault b.hdr
  | 7 => o.applyTree b
  | _ => (o, {}, [])

/-- R240, R246: what a child that missed a limit, or failed before the message came, adds to DONE. -/
def Prd.missed (o : Prd) (b : BcastBody) (c : Child) : DoneMsg :=
  let listed := b.kind = 1 || b.kind = 2
  match c with
  | .port n =>
    { notApplied := 1, statuses := if listed then (o.port n).ranks.filterMap fun x => if x.1 == b.hdr.tag then some (x.2, 0x06) else none else [] }
  | .tray i =>
    let l := o.childLevel i
    { failed := [i], statuses := match b.start with
        | some m => (m.ports.filter fun p => inChild l i (p.1 / 32)).map fun p => (p.2, 0x08)
        | none => [] }

/-- R242, R246: the trays of a message's scope that the tree does without and whose nearest node above, as the tree stands, is
this one: no other node answers for them. -/
def Prd.deadTrays (o : Prd) (b : BcastBody) : List Nat :=
  let r := o.atRoles
  let mine (t : Nat) : Bool := match roleHolder r 1 (t / 8) with
    | some h => h == o.tray
    | none => match roleHolder r 2 (t / 128) with
      | some h => h == o.tray
      | none => o.holds r 3
  o.tree.failed.filter fun t => !roleBit r t 0 && mine t && (o.scopeTrays b).all (·.contains t)

/-- R249: which jobs have had the JOB_FAULT of their running instance, as every node sees the broadcasts. -/
def Tree.seeFault (x : Tree) (b : BcastBody) : Tree :=
  if b.kind = 1 then { x with faulted := x.faulted.filter (· != b.hdr.tag) }
  else if b.kind = 6 && !x.faulted.contains b.hdr.tag then { x with faulted := b.hdr.tag :: x.faulted }
  else x

/-- R227: whether a CONFIG holds an entry that this node answers for and fails. -/
def Prd.spoils (o : Prd) (b : BcastBody) : Bool := b.kind == 3 && !(o.applyEntries b.hdr b.config).2

/-- R240: a message that is new here: applied, kept, and sent on. -/
def Prd.bcastNew (o : Prd) (b : BcastBody) (sender : Option Nat) : Prd :=
  let trays := if b.kind = 7 then [] else o.bcastTrays b
  let spoiled := o.spoils b
  let (o, own, ports) := o.applyHere b
  -- R242: a TREE message goes down the tree that it names
  let trays := if b.kind = 7 then o.bcastTrays b else trays
  let maps := Tbl.ins o.tree.bmaps b.hdr.tag ((bmapOf o.tree.bmaps b.hdr.tag).add b.hdr.bseq)
  let live := o.tree.bcasts.filter fun x => maps.any fun m => m.2.holds x.body.hdr.bseq
  let (dead, alive) := trays.partition fun x => o.tree.failed.contains x.2
  let kids : List ChildSt := alive.map (fun x => { child := .tray x.2, sent := o.ft }) ++
    ports.map (fun n => { child := .port n, sent := o.ft }) ++
    (dead.map (·.2) ++ o.deadTrays b).eraseDups.map fun i =>
      { child := .tray i, sent := o.ft, failed := true, done := some (o.missed b (.tray i)) }
  let bc : Bcast := { body := b, sender, children := kids, own, at_ := o.ft, spoiled }
  let o := { o with tree := { o.tree.seeFault b with bmaps := maps, bcasts := bc :: live, rootEpoch := max o.tree.rootEpoch (b.hdr.bseq / 2 ^ 48) } }
  let o := PrdR.set o PRD_ATM_LAST_BSEQ (max (PrdR.get o PRD_ATM_LAST_BSEQ) b.hdr.bseq)
  let o := (alive.map (Child.tray ·.2) ++ ports.map Child.port).foldl (fun o c => o.sendChild b c) o
  o.closeBcast b.hdr.bseq

/-- R241: a duplicate: forwarded to the children that have not acknowledged it, those that roles have since brought
included, and answered once they have. -/
def Prd.bcastDup (o : Prd) (b : BcastBody) (sender : Option Nat) : Prd :=
  let o := PrdR.cnt o PRD_ATM_DUPS 0 32 1
  match o.bcast? b.hdr.bseq with
  | none => (PrdR.ev o PRD_ATM_EVENTS 6).answer sender 0x81 b.hdr (doneBytes {})
  | some bc =>
    let known := bc.children.map (·.child)
    let fresh := ((o.bcastTrays b).filter fun x => !known.contains (.tray x.2) && !o.tree.failed.contains x.2).map fun x => Child.tray x.2
    let again := (bc.children.filter fun c => !c.ack && !c.failed).map (·.child)
    let kids := bc.children.map (fun c => if again.contains c.child then { c with sent := o.ft } else c) ++
      fresh.map fun c => { child := c, sent := o.ft }
    -- of two copies of one cycle the one of the current tree is the one applied, and the other the duplicate
    let swap := bc.at_ = o.ft && bc.body.hdr.treeEpoch ≠ o.tree.epoch && b.hdr.treeEpoch = o.tree.epoch && !bc.gone
    let dup : DupWait := { sender := if swap then bc.sender else sender, kids := again ++ fresh }
    let o := o.setBcast b.hdr.bseq fun x => { x with
      children := kids, dups := x.dups ++ [dup], sender := if swap then sender else x.sender, body := { x.body with hdr := b.hdr } }
    ((again ++ fresh).foldl (fun o c => o.sendChild b c) o).closeBcast b.hdr.bseq

/-- R240, R241: a downward message arrives at a node. -/
def Prd.bcastIn (o : Prd) (b : BcastBody) : Prd :=
  let sender := some b.hdr.from_
  let o := o.answer sender 0x80 b.hdr []
  if (bmapOf o.tree.bmaps b.hdr.tag).seen b.hdr.bseq then o.bcastDup b sender else o.bcastNew b sender

/-! ### Issuing (R237, R244) -/

/-- A root issues a broadcast: its BSEQ, and the state. -/
def Prd.issue (o : Prd) (kind tag scope tAct ref : Nat) (f : BcastBody → BcastBody) : Prd × Nat :=
  let count := o.tree.count + 1
  let bseq := o.tree.rootEpoch % 2 ^ 16 * 2 ^ 48 + count % 2 ^ 48
  let h : AtHdr := { tag, scope, bseq, tAct, ref, treeEpoch := o.tree.epoch, from_ := o.tray }
  ({ o with tree := { o.tree with count } }.bcastNew (f { kind, hdr := h }) none, bseq)

/-- R242: re-issue a broadcast to every child whose DONE the root lacks. -/
def Prd.reissue (o : Prd) (b : Bcast) : Prd :=
  let body := { b.body with hdr := { b.body.hdr with reissue := true, issue := min 255 (b.body.hdr.issue + 1) } }
  let known := b.children.map (·.child)
  let fresh := ((o.bcastTrays body).filter fun x => !known.contains (.tray x.2) && !o.tree.failed.contains x.2).map fun x => Child.tray x.2
  let again := (b.children.filter fun c => c.done.isNone && !c.failed).map (·.child)
  let kids := b.children.map (fun c => if again.contains c.child then { c with sent := o.ft, ack := false } else c) ++
    fresh.map fun c => { child := c, sent := o.ft }
  let o := o.setBcast body.hdr.bseq fun x => { x with body, children := kids }
  let o := PrdR.ev o PRD_ATM_EVENTS 2
  ((again ++ fresh).foldl (fun o c => o.sendChild body c) o).closeBcast body.hdr.bseq

/-- R252: broadcasts outstanding at this root. -/
def Prd.outstanding (o : Prd) : List Bcast := o.tree.bcasts.filter fun b => b.sender.isNone && b.closed.isNone

/-- R242: issue TREE with the next epoch. -/
def Prd.issueTree (o : Prd) (roles : Roles) : Prd :=
  let epoch := o.tree.epoch + 1
  (o.issue 7 0 3 absent 0 fun b => { b with roles, hangId := epoch }).1

/-- R242: the root learns that a Priord has failed. -/
def Prd.hopFail (o : Prd) (tray : Nat) : Prd :=
  if !o.isRoot || tray = o.tray || o.tree.failed.contains tray then o
  else
    let failed := tray :: o.tree.failed
    let old := o.outstanding
    let o := ({ o with tree := { o.tree with failed } }).issueTree (moveRoles o.atRoles failed tray)
    old.foldl (fun o b => match o.bcast? b.body.hdr.bseq with | some b => o.reissue b | none => o) o

/-- R238: a request to the hall root and the standby root: kind 0 FREEZE_REQ, 1 HANG_PROBE, 2 FAULT_NOTICE, 3 HOP_FAIL, then
its fields (log entry 51). -/
def Prd.request (o : Prd) (kind tag : Nat) (fields : List Byte) : Prd :=
  let dst := ([3, 4].filterMap fun k => roleHolder o.atRoles k 0).filter (· != o.tray)
  let h : AtHdr := { tag, scope := if tag = 0 then 3 else 2, from_ := o.tray, treeEpoch := o.tree.epoch }
  dst.foldl (fun o i => o.send7 i tag (atBytes 0x82 h o.tray (le 1 kind ++ zeros 3 ++ fields))) o

/-! ### START requests at the root (R247) -/

/-- R246: the statuses that end a request. -/
def statusFinal (st : Nat) : Bool := [0x06, 0x07, 0x08, 0x0A].contains st

/-- R417: a START with a kept tag records each rank whose location changed. -/
def Prd.substitutions (o : Prd) (tag : Nat) (ports : List (Nat × Nat)) : Prd :=
  let o := match o.tree.maps.find? (·.1 == tag) with
    | none => o
    | some (_, old) => ports.foldl (fun (o : Prd) (p : Nat × Nat) =>
        match old.find? (fun (q : Nat × Nat) => q.2 == p.2) with
        | some q => if q.1 = p.1 then o
            else o.event { code := 0xA2, sev := 2, tag, rank := some p.2, phys := p.1, payload := le 4 q.1 }
        | none => o) o
  { o with tree := { o.tree with maps := ((tag, ports) :: o.tree.maps.filter (·.1 != tag)).take 1024 } }

/-- R252: the fields of PRD_ATM_CFG. -/
def Prd.atmCfg (o : Prd) (lo w : Nat) : Nat := PrdR.fld o PRD_ATM_CFG lo w

/-- Replace a request. -/
def Prd.setReq (o : Prd) (tag : Nat) (f : StartReq → StartReq) : Prd :=
  { o with tree := { o.tree with reqs := updFirst (fun r => r.tag == tag && r.result.isNone) f o.tree.reqs } }

/-- R244, R247: issue the START of a request, with S START_LEAD ahead. -/
def Prd.issueStart (o : Prd) (r : StartReq) : Prd :=
  let s := o.ft + o.atmCfg 0 16 * tickUs
  let o := o.substitutions r.tag r.msg.ports
  let o := { o with tree := { o.tree with faulted := o.tree.faulted.filter (· != r.tag) } }
  let (o, bseq) := o.issue 1 r.tag 2 s 0 fun b => { b with start := some r.msg }
  o.setReq r.tag fun x => { x with bseq, s, retract := 0, wait := none, statuses := [] }

/-- R247, R248: retract the START of a request. -/
def Prd.issueRetract (o : Prd) (r : StartReq) : Prd :=
  let (o, bseq) := (PrdR.ev o PRD_ATM_EVENTS 3).issue 2 r.tag 2 absent r.bseq id
  o.setReq r.tag fun x => { x with retract := bseq, retracts := x.retracts + 1 }

/-- R248, R249: JOB_FAULT, once for each start of the job. -/
def Prd.jobFault (o : Prd) (tag : Nat) (x : FaultRef) : Prd :=
  if o.tree.faulted.contains tag then o
  else ({ o with tree := { o.tree with faulted := tag :: o.tree.faulted } }.issue 6 tag 2 absent 0 fun b => { b with fault := some x }).1

/-- R247: every rank's final status: the last one answered, OK where none was. -/
def StartReq.final (r : StartReq) (sts : List (Nat × Nat)) : List (Nat × Nat) :=
  (List.range r.msg.nRanks).map fun k => (k, (sts.reverse.lookup k).getD 0)

/-- START_FAILED. -/
def Prd.startFailed (o : Prd) (r : StartReq) (sts : List (Nat × Nat)) : Prd :=
  PrdR.ev (o.setReq r.tag fun x => { x with result := some 1, statuses := r.final sts }) PRD_ATM_EVENTS 4

/-- R247: what the root does next for one request. -/
def Prd.reqWork (o : Prd) (r : StartReq) : Prd :=
  if r.result.isSome || r.wait.isSome then o
  else if r.retract = 0 then
    match o.bcast? r.bseq with
    | none => o
    | some b =>
      if b.total.statuses.any fun x => x.2 != 0 then o.issueRetract r
      else if b.closed.isSome && o.ft ≥ r.s then o.setReq r.tag fun x => { x with result := some 0 }
      else o
  else
    match o.bcast? r.retract with
    | none => o
    | some b =>
      match b.closed with
      | none => o
      | some d =>
        let sts := ((o.bcast? r.bseq).map fun b => b.total.statuses).getD []
        if d.statuses.any fun x => x.2 == 0x09 then
          let o := (PrdR.ev o PRD_ATM_EVENTS 7).jobFault r.tag { rank := ((d.statuses.find? fun x => x.2 == 0x09).map (·.1)).getD 0, code := 0x09, ft := o.ft }
          o.startFailed r (sts ++ d.statuses)
        else if sts.any (fun x => statusFinal x.2) || r.retracts ≥ o.atmCfg 16 8 then o.startFailed r sts
        else o.setReq r.tag fun x => { x with wait := some o.ft, statuses := sts }

/-- R244: an ACCORD_SWITCH that OTUs refused is issued again, for the first instant at least START_LEAD ahead at which both
intervals cut; while the number that refuse falls (log entry 64). -/
def Prd.switchWork (o : Prd) (x : SwitchTry) : Prd :=
  match (o.bcast? x.bseq).bind (·.closed) with
  | none => o
  | some d =>
    let o := { o with tree := { o.tree with switches := o.tree.switches.filter (· != x) } }
    if d.notApplied = 0 || x.refused.any (· ≤ d.notApplied) then o
    else
      let unit := max 1 (Nat.lcm x.old x.n) * 400000
      let ts := (o.ft + o.atmCfg 0 16 * tickUs + unit - 1) / unit * unit
      let (o, bseq) := o.issue 3 0 3 ts 0 fun b => { b with config := [.accordSwitch ts x.n] }
      { o with tree := { o.tree with switches := { x with bseq, refused := some d.notApplied } :: o.tree.switches } }

/-- The root's work after any answer: a request passes through at most three stages at once. -/
def Prd.rootWork (o : Prd) : Prd :=
  let o := o.tree.switches.foldl Prd.switchWork o
  if o.tree.reqs.all (·.result.isSome) then o
  else (List.range 3).foldl (fun o _ => o.tree.reqs.foldl (fun o r => o.reqWork r) o) o

/-! ### Commands -/

/-- START, RETRACT, CONFIG, FREEZE, HANG_FREEZE, JOB_FAULT and TREE at a node: answered from TREE_WAIT on (R409), and never with
failed straps (R408). -/
def Prd.messageIn (o : Prd) (b : BcastBody) : Prd :=
  if o.phase < 3 || (o.safe && !o.strapsOk) then o else (o.bcastIn b).rootWork

/-- FREEZE. -/
def execFreeze (h : AtHdr) (x : FreezeMsg) (t : Nat) (s : State) : Host.Outcome State Fault Refusal :=
  .next (s.onPrd fun o => (o.go t).messageIn { kind := 4, hdr := h, freeze := some x })

/-- TREE. -/
def execTree (h : AtHdr) (epoch : Nat) (roles : Roles) (t : Nat) (s : State) : Host.Outcome State Fault Refusal :=
  .next (s.onPrd fun o => (o.go t).messageIn { kind := 7, hdr := h, hangId := epoch, roles := roles })

/-- R410: the newest TREE message. -/
def Prd.lastTree (o : Prd) : Option Bcast := o.tree.bcasts.find? (·.body.kind == 7)

/-- R410: a failed node that acknowledges is readmitted. -/
def Prd.readmit (o : Prd) (i : Nat) : Prd :=
  let old := o.outstanding
  let o := ({ o with tree := { o.tree with failed := o.tree.failed.filter (· != i) } }).issueTree (restoreRoles o.cfg.roles o.atRoles i)
  old.foldl (fun o b => match o.bcast? b.body.hdr.bseq with | some b => o.reissue b | none => o) o

/-- HOP_ACK. -/
def execHopAck (c : Child) (bseq t : Nat) (s : State) : Host.Outcome State Fault Refusal :=
  .next (s.onPrd fun o =>
    let o := o.go t
    let o := o.setBcast bseq fun b => { b with children := updFirst (·.child == c) (fun k => { k with ack := true }) b.children }
    match c with
    | .tray i =>
      if o.isRoot && o.tree.failed.contains i && o.lastTree.any (·.body.hdr.bseq == bseq) then o.readmit i else o
    | .port _ => o)

/-- DONE. -/
def execDone (c : Child) (bseq : Nat) (d : DoneMsg) (t : Nat) (s : State) : Host.Outcome State Fault Refusal :=
  .next (s.onPrd fun o =>
    let o := o.go t
    let put (k : ChildSt) : ChildSt := if k.failed then k else { k with done := some d }
    let o := o.setBcast bseq fun b => { b with children := updFirst (·.child == c) put b.children }
    (o.closeBcast bseq).rootWork)

/-- R240: a child misses a limit. -/
def Prd.failChild (o : Prd) (bseq : Nat) (c : Child) (ev : Nat) : Prd :=
  match o.bcast? bseq with
  | none => o
  | some b =>
    let d := o.missed b.body c
    let o := PrdR.ev o PRD_ATM_EVENTS ev
    let put (k : ChildSt) : ChildSt := { k with failed := true, done := some d }
    let o := o.setBcast bseq fun b => { b with children := updFirst (·.child == c) put b.children }
    let o := match c with
      | .port _ => o
      | .tray i =>
        let o := PrdR.ev o PRD_TREE_EVENTS 0
        if o.isRoot then o.hopFail i
        else ({ o with tree := { o.tree with failed := if o.tree.failed.contains i then o.tree.failed else i :: o.tree.failed } }).request 3 0 (le 4 i)
    (o.closeBcast bseq).rootWork

/-- The child of a broadcast, if it has not failed. -/
def Prd.waiting (o : Prd) (bseq : Nat) (c : Child) : Option ChildSt :=
  (o.bcast? bseq).bind fun b => b.children.find? fun k => k.child == c && !k.failed

/-- HOP_ACK_TIMEOUT: 50 µs after the send. -/
def execHopAckTimeout (c : Child) (bseq t : Nat) (s : State) : Host.Outcome State Fault Refusal :=
  .next (s.onPrd fun o =>
    let o := o.go t
    match o.waiting bseq c with
    | some k => if !k.ack && o.ft ≥ k.sent + PrdR.fld o PRD_ATM_TIMEOUTS 0 8 * tickUs then o.failChild bseq c 0 else o
    | none => o)

/-- DONE_TIMEOUT: the limit of the child's level after the send. -/
def execDoneTimeout (c : Child) (bseq t : Nat) (s : State) : Host.Outcome State Fault Refusal :=
  .next (s.onPrd fun o =>
    let o := o.go t
    let lim := match c with
      | .port _ => PrdR.fld o PRD_ATM_TIMEOUTS 8 8
      | .tray i => PrdR.fld o PRD_ATM_TIMEOUTS (16 + 8 * o.childLevel i) 8
    match o.waiting bseq c with
    | some k => if k.done.isNone && o.ft ≥ k.sent + lim * tickUs then o.failChild bseq c 1 else o
    | none => o)

/-- HOP_FAIL. -/
def execHopFail (tray t : Nat) (s : State) : Host.Outcome State Fault Refusal :=
  .next (s.onPrd fun o => ((o.go t).hopFail tray).rootWork)

/-- FAULT_NOTICE: acted on once for each start of the job (R249). -/
def execFaultNotice (tag : Nat) (x : FaultRef) (t : Nat) (s : State) : Host.Outcome State Fault Refusal :=
  .next (s.onPrd fun o =>
    let o := o.go t
    if o.isRoot then (o.jobFault tag x).rootWork else o)

/-- R249: a tray node's fault notice, or, at the root itself, JOB_FAULT at once. -/
def Prd.notice (o : Prd) (tag : Nat) (x : FaultRef) : Prd :=
  if o.isRoot then o.jobFault tag x
  else o.request 2 tag (le 4 x.rank ++ le 4 x.code ++ le 8 x.ft)

/-- HEARTBEAT_TX: every 10 µs, to the standby root. -/
def execHeartbeatTx (t : Nat) (s : State) : Host.Outcome State Fault Refusal :=
  .next (s.onPrd fun o =>
    let o := o.go t
    if o.isRoot && o.ft ≥ o.tree.hbSent + 10 * tickUs then
      let o := { o with tree := { o.tree with hbSent := o.ft } }
      match roleHolder o.atRoles 4 0 with
      | some i =>
        let list := o.outstanding.flatMap fun b => atBytes b.body.kind b.body.hdr o.tray b.body.payload
        o.send7 i 0 (atBytes 0x83 { scope := 3, treeEpoch := o.tree.epoch } o.tray (le 8 o.tree.rootEpoch ++ list))
      | none => o
    else o)

/-- HEARTBEAT, at the standby root. -/
def execHeartbeat (l : List BcastBody) (rootEpoch t : Nat) (s : State) : Host.Outcome State Fault Refusal :=
  .next (s.onPrd fun o =>
    let o := o.go t
    if roleBit o.atRoles o.tray 4 then { o with tree := { o.tree with held := l, hbAt := o.ft, rootEpoch := max o.tree.rootEpoch rootEpoch } }
    else o)

/-- R243: the roles after a takeover by tray `me`. -/
def takeoverRoles (r : Roles) (failed : List Nat) (me : Nat) : Roles :=
  let old := roleHolder r 3 0
  let r := match old with | some h => moveRoles (setRole r h 3 false) failed h | none => r
  let r := setRole (setRole r me 3 true) me 4 false
  match (r.filter fun x => bit x.2 2 && x.1 / 128 != me / 128 && !failed.contains x.1).head? with
  | some x => setRole r x.1 4 true
  | none => r

/-- R243, R247: the start requests that the outstanding broadcasts of a lost root show, the RETRACT of one included; what they
answer to at that root is gone with it. -/
def heldReqs (l : List BcastBody) : List StartReq :=
  l.filterMap fun b => b.start.map fun m =>
    let back := (l.find? fun y => y.kind == 2 && y.hdr.ref == b.hdr.bseq).map (·.hdr.bseq)
    { tag := b.hdr.tag, msg := m, bseq := b.hdr.bseq, s := b.hdr.tAct, retract := back.getD 0, retracts := back.toList.length }

/-- ROOT_TAKEOVER: no HEARTBEAT for 50 µs. -/
def execRootTakeover (t : Nat) (s : State) : Host.Outcome State Fault Refusal :=
  .next (s.onPrd fun o =>
    let o := o.go t
    if roleBit o.atRoles o.tray 4 && !o.isRoot && o.ft ≥ o.tree.hbAt + 50 * tickUs then
      let old := (roleHolder o.atRoles 3 0).toList
      let failed := old ++ o.tree.failed
      let roles := takeoverRoles o.atRoles failed o.tray
      let held := o.tree.held
      let o := { o with tree := { o.tree with
        rootEpoch := o.tree.rootEpoch + 1, count := 0, tookOver := true, failed, held := [], next := some roles
        reqs := heldReqs held } }
      let o := (PrdR.ev o PRD_TREE_EVENTS 2).event { code := 0x23, sev := 4, payload := le 2 o.tree.rootEpoch }
      let o := o.issueTree roles
      Prd.rootWork <| held.foldl (fun o b =>
        match o.bcast? b.hdr.bseq with
        | some x => (o.setBcast b.hdr.bseq fun y => { y with sender := none, gone := false, closed := none }).reissue { x with sender := none }
        | none =>
          let b := { b with hdr := { b.hdr with reissue := true, issue := min 255 (b.hdr.issue + 1), from_ := o.tray } }
          (PrdR.ev o PRD_ATM_EVENTS 2).bcastNew b none) o
    else o)

/-- RETRACT_DEADLINE: 200 µs before S. -/
def execRetractDeadline (tag t : Nat) (s : State) : Host.Outcome State Fault Refusal :=
  .next (s.onPrd fun o =>
    let o := o.go t
    match o.tree.reqs.find? fun r => r.tag == tag && r.result.isNone with
    | some r =>
      if o.isRoot && r.retract = 0 && r.wait.isNone && o.ft + 200 * tickUs ≥ r.s && (o.bcast? r.bseq).any (·.closed.isNone) then
        (o.issueRetract r).rootWork
      else o
    | none => o)

/-- RESCHED_WAIT. -/
def execReschedWait (tag t : Nat) (s : State) : Host.Outcome State Fault Refusal :=
  .next (s.onPrd fun o =>
    let o := o.go t
    match o.tree.reqs.find? fun r => r.tag == tag && r.result.isNone with
    | some r =>
      match r.wait with
      | some w => if o.isRoot && o.ft ≥ w + o.atmCfg 24 8 * 100 * tickUs then (o.issueStart r).rootWork else o
      | none => o
    | none => o)

/-- TREE_PROBE: every 100 ms, the current TREE message to each failed node. At a cold start, the configured hall root
issues TREE with epoch 1 once it is at grade 0 or 1. -/
def execTreeProbe (t : Nat) (s : State) : Host.Outcome State Fault Refusal :=
  .next (s.onPrd fun o =>
    let o := o.go t
    if !o.isRoot then o
    else if !o.tree.joined then (if o.clk.grade ≤ 1 then o.issueTree o.atRoles else o)
    else if o.ft ≥ o.tree.probeAt + 400_000_000 then
      let o := { o with tree := { o.tree with probeAt := o.ft } }
      match o.lastTree with
      | some b => o.tree.failed.foldl (fun o i => o.sendChild { b.body with hdr := { b.body.hdr with reissue := true } } (.tray i)) o
      | none => o
    else o)

/-! ### Triggers and freezes at the root (R165) -/

/-- FREEZE_REQ at the root. Answers 0 accepted, 1 attached, 2 refused. The count of attached triggers stands in the root's
record of the freeze, and in its own slot or queue entry of it where it has one (log entry 55). -/
def Prd.rootTrigger (o : Prd) (x : Trigger) : Prd × Nat :=
  match o.tree.freezes.find? (·.covers x) with
  | some f =>
    let same (g : Flacon) : Bool := g.freezeT == f.freezeT && g.tag == f.tag && g.st != 0
    let more (g : Flacon) : Flacon := if same g then { g with attached := satAdd 16 g.attached 1 } else g
    let h := { o.hnr with flc := o.hnr.flc.map fun y => (y.1, more y.2), queue := o.hnr.queue.map more }
    let o := { o with hnr := h, tree := { o.tree with freezes := o.tree.freezes.map more } }
    (o.attachEvent f x, 1)
  | none =>
    let f := o.newFlacon x
    if o.clk.st = 0 then (o.refuseFreeze f, 2)
    else
      let o := { o with tree := { o.tree with freezes := ({ f with st := 2 } :: o.tree.freezes).take 64 } }
      let m : FreezeMsg := { freezeT := f.freezeT, tTrig := f.tTrig, pre := f.pre, post := f.post, source := f.source, trigRank := f.trigRank }
      ((o.issue 4 f.tag f.scope f.freezeT 0 fun b => { b with freeze := some m }).1, 0)

/-- FREEZE_REQ. -/
def execFreezeReq (x : Trigger) (t : Nat) (s : State) : Host.Outcome State Fault Refusal :=
  .next (s.onPrd fun o => let o := o.go t; if o.isRoot && (x.scope = 2 || x.scope = 3) then (o.rootTrigger x).1 else o)

/-- R165: a trigger goes to its decider. Answers as above; a request sent to the root counts as accepted here. -/
def Prd.trigger (o : Prd) (x : Trigger) : Prd × Nat :=
  if x.scope = 0 then (o, 2)
  else if x.scope = 1 then o.trayTrigger x
  else if o.isRoot then o.rootTrigger x
  else (o.request 0 x.tag (le 1 x.source ++ le 1 x.scope ++ le 2 x.tag ++ le 4 x.rank ++ le 8 x.tTrig), 0)

/-- R164: a trigger of source `k`, with the scope that PRD_FLC_SRC_SCOPE gives it. A JOB scope without a job is TRAY. -/
def Prd.triggerOf (o : Prd) (k tag tTrig rank : Nat) : Prd :=
  let sc := o.srcScope k
  (o.trigger { source := k, scope := if sc = 2 && tag = 0 then 1 else sc, tag, tTrig, rank }).1

/-- FLC_SW_TRIG. -/
def execFlcSwTrig (value t : Nat) (s : State) : Host.Outcome State Fault Refusal :=
  .next (s.onPrd fun o =>
    let o := o.go t
    (o.trigger { source := 0, scope := getF value 0 2, tag := getF value 16 16, tTrig := o.ft, rank := getF value 32 20 }).1)

end Sys2Proof.Machine
end

