-- ==== Sys2Proof/Machine/Uplink.lean ====
section
/-!
DEFINITION. Machine/Uplink.lean: forwarding envelopes and Priord's uplinks: link state, schedulers, gates and egress
samples (09 R231, 11 R300 to R318).
-/
namespace Sys2Proof.Machine
open Sys2Proof

/-! ### Forwarding envelopes (R231) -/

/-- R231: the envelope of a forwarded input. -/
def fwdBytes (rtype tag rank from_ fseq : Nat) (body : List Byte) : List Byte :=
  let a := le 1 1 ++ le 1 rtype ++ le 2 tag ++ le 4 (rank % 2 ^ 20) ++ le 4 (from_ % 4096) ++ le 4 body.length ++ le 8 fseq
  a ++ le 4 (crc32c (a ++ body)) ++ le 4 0 ++ body

/-- R231, R410: send an envelope to a tray; none before a TREE message has been applied. -/
def Prd.forward (o : Prd) (dst rtype tag rank : Nat) (body : List Byte) : Prd :=
  if !o.tree.joined then o
  else
    let q := Tbl.get (fun _ => 0) o.tree.fwdTx dst
    let o := { o with tree := { o.tree with fwdTx := Tbl.put (fun _ => 0) o.tree.fwdTx dst ((q + 1) % 2 ^ 64) } }
    PrdR.cnt (o.send dst 6 ((o.slotOf tag).getD 0) (fwdBytes rtype tag rank o.tray q body)) PRD_FWD_SENT 0 32 1

/-- R229: the home tray of a rank of a context; the fleet ranks of a tray are its own. -/
def Prd.homeTrayOf (o : Prd) (tag rank : Nat) : Option Nat :=
  if tag = 0 then some (rank / 32)
  else (o.slotOf tag).bind fun c => homeOf (o.slot c).homes rank

/-- R231: whether an input from this tray's own port goes to another tray's home. -/
def Prd.awayHome (o : Prd) (src : RecSrc) (tag rank : Nat) : Option Nat :=
  match src with
  | .fwd _ => none
  | .port _ => (o.homeTrayOf tag rank).filter (· != o.tray)

/-! ### Uplinks (R318) -/

/-- UPLINK_DOWN: LINK_UP clears and a LINK_DOWN record follows (R326: ports 32 to 35 are the uplinks). -/
def Prd.uplinkDown (o : Prd) (u : Nat) : Prd :=
  if u < 4 && PrdR.flag o (PRD_UL_STATUS u) 0 then
    let o := PrdR.ev (PrdR.setFld o (PRD_UL_STATUS u) 0 1 0) (PRD_UL_EVENTS u) 0
    (o.event { code := 0x80, sev := 3, payload := le 1 (32 + u) }).bmca
  else o

/-- UPLINK_DOWN. -/
def execUplinkDown (u t : Nat) (s : State) : Host.Outcome State Fault Refusal :=
  .next (s.onPrd fun o => (o.go t).uplinkDown u)

/-- UPLINK_UP: the uplink of a powered cage carries traffic again (R439, R448). -/
def execUplinkUp (u t : Nat) (s : State) : Host.Outcome State Fault Refusal :=
  .next (s.onPrd fun o =>
    let o := o.go t
    if u < 4 && PrdR.flag o PRD_PWR_OSFP_CTRL u && !o.squelched then (PrdR.setFld o (PRD_UL_STATUS u) 0 1 1).bmca else o)

/-! ### Schedulers -/

/-- The shaper registers of queue `q` of uplink `u`, by offset. -/
def Prd.eqReg (o : Prd) (u q r : Nat) : Nat := o.ub u (0x4000 + 0x10 * q + r)

/-- R301, R316: SHAPER_WRITE on an uplink: register 0 CIR, 1 PIR, 2 BURST, 3 DRR. -/
def Prd.shaperWrite (o : Prd) (u q reg v : Nat) : Prd :=
  if u ≥ 4 || q ≥ 1024 || reg ≥ 4 then o
  else
    let m := effLen (o.ub u (0x2000 + 4 * (q / 128))) (getF (o.ub u 8) 0 9)
    if reg = 2 && !(decide (getF v 0 16 * 1024 ≥ m) && decide (getF v 16 16 * 1024 ≥ m)) then o
    else
      let x := o.uplink u
      let y := (Tbl.get (fun _ => {}) x.qs q : EqSt).refill (o.eqReg u q) o.ft
      (PrdR.write o (PRD_UL u + 0x4000 + 0x10 * q + 4 * reg) 4 v).setUplink u { x with qs := Tbl.put (fun _ => {}) x.qs q y }

/-- SHAPER_WRITE. -/
def execShaperWrite (g : GateSel) (eq reg value : Nat) (e : Edge) (s : State) : Host.Outcome State Fault Refusal :=
  match g with
  | .otu => .next (s.onOtu fun o => (o.go e).shaperWrite eq reg (value % 2 ^ 32))
  | .uplink u => .next (s.onPrd fun o => (o.go e.ft).shaperWrite u eq reg (value % 2 ^ 32))

/-- GATE_ENTRY_BEGIN. -/
def execGateEntryBegin (g : GateSel) (e : Edge) (s : State) : Host.Outcome State Fault Refusal :=
  match g with
  | .otu => .next (s.onOtu fun o => (o.go e).gateNow)
  | .uplink u => .next (s.onPrd fun o => if u < 4 then (o.go e.ft).gateNow u else o.go e.ft)

/-- GATE_CHANGE: the swap at CHANGE_T. -/
def execGateChange (g : GateSel) (e : Edge) (s : State) : Host.Outcome State Fault Refusal :=
  match g with
  | .otu => .next (s.onOtu fun o =>
      let o := o.go e
      if o.due (OtuR.get o OTU_GCL_CHANGE_T) then o.gateSwap else o)
  | .uplink u => .next (s.onPrd fun o =>
      let o := o.go e.ft
      let t := o.ub u 0x58
      if u < 4 && t ≠ absent && decide (t ≤ o.ft) then o.gateSwap u else o)

/-- CHANGE_T_WRITE. -/
def execChangeTWrite (g : GateSel) (value : Nat) (e : Edge) (s : State) : Host.Outcome State Fault Refusal :=
  match g with
  | .otu => .next (s.onOtu fun o => (o.go e).changeTWrite (value % 2 ^ 64))
  | .uplink u => .next (s.onPrd fun o => if u < 4 then (o.go e.ft).changeTWrite u (value % 2 ^ 64) else o.go e.ft)

/-- R300, R301, R307: the next frame of uplink `u` starts; a frame counts with the bytes of the message that it carries (log entry 59). -/
def Prd.startUplink (o : Prd) (u : Nat) : Prd :=
  let x := o.uplink u
  let ovh := getF (o.ub u 8) 0 9
  let r := o.ub u 0xC
  let st (q : Nat) : EqSt := Tbl.get (fun _ => {}) x.qs q
  let hs := x.q.filterMap fun y => y.2.head?.map fun m => ({ q := y.1, len := m.body.length } : HeadFrame)
  let gl := o.operList u
  let elig (h : HeadFrame) : Nat :=
    if bit (gl.gates o.ft) (h.q / 128) && gl.fits (h.q / 128) o.ft (effLen h.len ovh) r then
      (st h.q).eligible (o.eqReg u h.q) o.ft (effLen h.len ovh) else 0
  if u ≥ 4 || !PrdR.flag o (PRD_UL_STATUS u) 0 || decide (o.ft < x.gate.busyTill) then o
  else
    match pickQueue hs st (o.eqReg u) ovh elig x.gate.ptr classes8 with
    | none => o
    | some (q, ds) =>
      match Tbl.get (fun _ => []) x.q q with
      | [] => o
      | m :: rest =>
        let leff := effLen m.body.length ovh
        let qs := ds.foldl (fun qs d => Tbl.put (fun _ => {}) qs d.1 { (Tbl.get (fun _ => {}) qs d.1 : EqSt) with deficit := d.2 }) x.qs
        let y : EqSt := ((Tbl.get (fun _ => {}) qs q : EqSt).cover (rest.length + 1) o.ft).charge (o.eqReg u q) o.ft leff
        let y := { y with dequeued := satAdd 32 y.dequeued 1, headAt := o.ft, deficit := if rest.isEmpty then 0 else y.deficit }
        o.setUplink u
          { x with q := Tbl.put (fun _ => []) x.q q rest
                   qs := Tbl.put (fun _ => {}) qs q y
                   gate := { x.gate with busyTill := o.ft + frameTicks leff r
                                         ptr := Tbl.put (fun _ => 0) x.gate.ptr (q / 128) (2 * (q % 128) + 1) }
                   last := some m }

/-- EGRESS_FRAME_START. -/
def execEgressFrameStart (g : GateSel) (e : Edge) (s : State) : Host.Outcome State Fault Refusal :=
  match g with
  | .otu => .next (s.onOtu fun o => (o.go e).startPacket)
  | .uplink u => .next (s.onPrd fun o => (o.go e.ft).startUplink u)

/-! ### Egress samples (R314) -/

/-- R53, R314: the samples of uplink `u`'s queues at the earliest instant that is due, those that a forward step passed included; the
first one since power-up is at the last multiple of PERIOD. -/
def Prd.sampleUplink (o : Prd) (u : Nat) : Prd :=
  let ctl := o.ub u 0x8000
  let period := max 1 (getF ctl 1 10) * 40000
  let x := o.uplink u
  let t := if x.gate.nextSample = absent then o.ft / period * period else x.gate.nextSample
  if u ≥ 4 || !bit ctl 0 || decide (o.ft < t) || t = 0 then o
  else
    let es := (List.range 1024).map fun q =>
      let y : EqSt := Tbl.get (fun _ => {}) x.qs q
      (0, some (le 2 (1024 * u + q) ++
        (let n := (Tbl.get (fun _ => []) x.q q).length
         qEntryBytes 0 o.ft n (max (y.cover n o.ft).maxDepth n) y.headAt y.dequeued false false y.first).drop 2))
    let rs := qsRecords 2 t absent x.sampleNext o.clk.grade false es
    let qs := (List.range 1024).foldl (fun qs q =>
      Tbl.put (fun _ => {}) qs q ((Tbl.get (fun _ => {}) qs q : EqSt).sampled (Tbl.get (fun _ => []) x.q q).length o.ft)) x.qs
    let o := o.setUplink u { x with qs := qs, sampleNext := (x.sampleNext + rs.length) % 2 ^ 32, gate := { x.gate with nextSample := nextMultiple t period } }
    rs.foldl (fun o r => o.hnrPut { rcls := 0xD, key := 2, ft := t, priv := true, rtype := 0x05, stream := 0x400 + 2, body := r.2 }) o

/-- QUEUE_SAMPLE. -/
def execQueueSample (sp : QSpace) (e : Edge) (s : State) : Host.Outcome State Fault Refusal :=
  match sp with
  | .die => .next (s.onOtu fun o => (o.go e).sampleDie)
  | .otuEgress => .next (s.onOtu fun o => (o.go e).sampleEgress)
  | .uplink u => .next (s.onPrd fun o => (o.go e.ft).sampleUplink u)

end Sys2Proof.Machine
end

