-- ==== Sys2Proof/Machine/Module.lean ====
section
/-!
DEFINITION. Machine/Module.lean: power, clocks, thermal limits, the test multiplexer and the TAP (16 R431 to R449).
-/
namespace Sys2Proof.Machine
open Sys2Proof

/-! ### Power (R431 to R436) -/

/-- R434: PWR_FAIL asserts once; several causes run one shutdown. Before power good there is nothing to shut down. -/
def Prd.pwrFail (o : Prd) : Prd :=
  if o.pw.on = 2 && o.pw.fail.isNone then
    PrdR.ev (PrdR.ev { o with pw := { o.pw with fail := some o.ft } } PRD_PWR_STATUS 1) PRD_PWR_EVENTS 0
  else o

/-- R426, R436: the in-flight queue commits to the end, at most 64 records. -/
def Prd.drainEv (o : Prd) : Prd :=
  (List.range 64).foldl (fun o _ => { o with evr := { o.evr with lastFt := 0 } }.commitEv true) o

/-- What a loss of reset or power leaves: MRAM, the NOR, and, through a reset, HBM. The recorder's session follows when
start-up chooses its bank (R337). -/
def Prd.volatileLost (o : Prd) (on : Nat) : Prd :=
  let n : Prd := { jnl := o.jnl, jnlBank := o.jnlBank, free := o.free, hbm := if on = 2 then o.hbm else []
                   pw := { on, inReset := true, why := if on = 2 then 1 else 0, tripLast := o.pw.tripLast, nor := o.pw.nor } }
  let n := PrdR.set n PRD_RCV_EPOCH (PrdR.get o PRD_RCV_EPOCH)
  let n := if o.pw.tripLast then PrdR.ev n PRD_PWR_EVENTS 6 else n
  let keep (n : Prd) (a : Nat) : Prd := PrdR.set n a (PrdR.get o a)
  if on = 2 then keep (keep (keep n PRD_PWR_STATUS) PRD_CLK_STATUS) PRD_PWR_HOLDUP else n

/-- MODULE_POWER_ON: the rails come up in order; nothing else has power yet. -/
def execModulePowerOn (t : Nat) (s : State) : Host.Outcome State Fault Refusal :=
  .next (s.onPrd fun o =>
    let o := o.go t
    if o.pw.on = 0 then { o with pw := { o.pw with on := 1, inReset := true } } else o)

/-- POWER_GOOD: the input is within range, the PLLs have locked, and each cage that holds a module and has its EN bit set
is powered. -/
def execPowerGood (osfp t : Nat) (s : State) : Host.Outcome State Fault Refusal :=
  .next (s.onPrd fun o =>
    let o := o.go t
    if o.pw.on = 0 || o.pw.fail.isSome then o
    else
      let here := osfp % 16
      let o := PrdR.setFld { o with pw := { o.pw with on := 2 } } PRD_PWR_STATUS 0 1 1
      let o := PrdR.setFld (PrdR.setFld o PRD_PWR_STATUS 3 4 here) PRD_PWR_STATUS 7 4 (here &&& PrdR.get o PRD_PWR_OSFP_CTRL)
      PrdR.setFld o PRD_CLK_STATUS 0 4 (if o.pw.ocxoFail then 0xE else 0xF))

/-- PWR_FAIL: the hot-swap controller reports its fault; otherwise the input has left its range. -/
def execPwrFail (hotswap : Bool) (t : Nat) (s : State) : Host.Outcome State Fault Refusal :=
  .next (s.onPrd fun o =>
    let o := o.go t
    (if hotswap then PrdR.ev o PRD_PWR_STATUS 2 else PrdR.setFld o PRD_PWR_STATUS 0 1 0).pwrFail)

/-- MRAM_WRITE_PROTECT: 20 µs after PWR_FAIL the in-flight queue has committed, and neither MRAM nor HBM is written from
then on (R426). -/
def execMramWriteProtect (t : Nat) (s : State) : Host.Outcome State Fault Refusal :=
  .next (s.onPrd fun o =>
    let o := o.go t
    match o.pw.fail with
    | some f => if o.ft ≥ f + 20 * tickUs && !o.mramProt then { o.drainEv with mramProt := true } else o
    | none => o)

/-- RAIL_FAULT. -/
def execRailFault (t : Nat) (s : State) : Host.Outcome State Fault Refusal :=
  .next (s.onPrd fun o => (PrdR.ev (o.go t) PRD_PWR_EVENTS 1).pwrFail)

/-- HOLDUP_END: the rails fall, 2 ms after PWR_FAIL at the earliest. -/
def execHoldupEnd (t : Nat) (s : State) : Host.Outcome State Fault Refusal :=
  .next (s.onPrd fun o =>
    let o := o.go t
    match o.pw.fail with
    | some f => if o.ft ≥ f + 2000 * tickUs then (if o.mramProt then o else o.drainEv).volatileLost 0 else o
    | none => o)

/-- PRD_RESET: honoured from power good and before PWR_FAIL, once the last journal write has completed (R436). -/
def execPrdReset (t : Nat) (s : State) : Host.Outcome State Fault Refusal :=
  .next (s.onPrd fun o =>
    let o := o.go t
    if o.pw.on = 2 && o.pw.fail.isNone then o.drainEv.volatileLost 2 else o)

/-! ### Thermal limits (R439) -/

/-- R448: the register that shows a sensor. -/
def thermReg (sensor : Nat) : Option Nat :=
  match sensor with
  | 0 => some PRD_THERM_HOTSPOT
  | 1 => some (PRD_THERM_HBM 0)
  | 2 => some (PRD_THERM_HBM 1)
  | 3 => some PRD_THERM_OCXO
  | 4 => some PRD_THERM_INLET
  | _ => none

/-- R439: a sensor's threshold in °C: level 0 warning, 1 throttle, 2 trip. -/
def Prd.thermLimit (o : Prd) (level sensor : Nat) : Option Nat :=
  match level, sensor with
  | 0, 0 => some (PrdR.fld o PRD_THERM_CFG 0 8)
  | 0, 1 => some 85
  | 0, 2 => some 85
  | 0, 3 => some 75
  | 0, 4 => some 40
  | 1, 0 => some 105
  | 1, 1 => some 95
  | 1, 2 => some 95
  | 2, 0 => some 115
  | 2, 1 => some 105
  | 2, 2 => some 105
  | _, _ => none

/-- R439: the sensors past a threshold after a reading: past it at the threshold, and no longer 3 °C below it. -/
def thermMask (mask sensor limit : Nat) (temp : Int) : Nat :=
  if temp ≥ 16 * (limit : Int) then setBit mask sensor
  else if temp ≤ 16 * ((limit : Int) - 3) then clrBit mask sensor else mask

/-- A reading is shown. -/
def Prd.thermRead (o : Prd) (sensor : Nat) (temp : Int) : Prd :=
  match thermReg sensor with
  | some a => PrdR.set o a (ofS 16 temp)
  | none => o

/-- An action is under way while any sensor concerned holds it; its event bit follows. -/
def Prd.thermEvent (o : Prd) (old new k : Nat) : Prd :=
  if new = 0 then PrdR.setFld o PRD_PWR_EVENTS k 1 0
  else if new &&& (2 ^ 32 - 1 - old) ≠ 0 then PrdR.ev o PRD_PWR_EVENTS k else o

/-- THERM_WARN. -/
def execThermWarn (sensor : Nat) (temp : Int) (t : Nat) (s : State) : Host.Outcome State Fault Refusal :=
  .next (s.onPrd fun o =>
    let o := (o.go t).thermRead sensor temp
    match o.thermLimit 0 sensor with
    | some lim =>
      let m := thermMask o.pw.warn sensor lim temp
      { o.thermEvent o.pw.warn m 4 with pw := { o.pw with warn := m } }
    | none => o)

/-- THERM_THROTTLE: the half issue rate changes timing only. -/
def execThermThrottle (sensor : Nat) (temp : Int) (t : Nat) (s : State) : Host.Outcome State Fault Refusal :=
  .next (s.onPrd fun o =>
    let o := (o.go t).thermRead sensor temp
    match o.thermLimit 1 sensor with
    | some lim =>
      let m := thermMask o.pw.throttle sensor lim temp
      { o.thermEvent o.pw.throttle m 5 with pw := { o.pw with throttle := m } }
    | none => o)

/-- THERM_TRIP: the shutdown runs, and MRAM keeps THERM_TRIP_LAST. -/
def execThermTrip (sensor : Nat) (temp : Int) (t : Nat) (s : State) : Host.Outcome State Fault Refusal :=
  .next (s.onPrd fun o =>
    let o := (o.go t).thermRead sensor temp
    match o.thermLimit 2 sensor with
    | some lim =>
      if temp ≥ 16 * (lim : Int) then
        (PrdR.ev { o with pw := { o.pw with tripLast := o.pw.tripLast || !o.mramProt } } PRD_PWR_EVENTS 6).pwrFail
      else o
    | none => o)

/-! ### Cages (R439, R448) -/

/-- A cage is switched off and its uplink goes DOWN. -/
def Prd.cageOff (o : Prd) (u : Nat) : Prd := (PrdR.setFld o PRD_PWR_STATUS (7 + u) 1 0).uplinkDown u

/-- OSFP_OVERCURRENT. -/
def execOsfpOvercurrent (u t : Nat) (s : State) : Host.Outcome State Fault Refusal :=
  .next (s.onPrd fun o =>
    let o := o.go t
    if u < 4 then (PrdR.ev o PRD_PWR_EVENTS 2).cageOff u else o)

/-- R448: a write of PRD_PWR_OSFP_CTRL: a cleared bit switches its cage off, a bit newly set powers the module in it. -/
def Prd.osfpCtrlWrite (o : Prd) (v : Nat) : Prd :=
  let old := PrdR.get o PRD_PWR_OSFP_CTRL
  let o := PrdR.write o PRD_PWR_OSFP_CTRL 4 v
  (List.range 4).foldl (fun o u =>
    if bit old u && !bit v u then o.cageOff u
    else if !bit old u && bit v u && PrdR.flag o PRD_PWR_STATUS (3 + u) then PrdR.setFld o PRD_PWR_STATUS (7 + u) 1 1
    else o) o

/-- OSFP_CTRL_WRITE. -/
def execOsfpCtrlWrite (value t : Nat) (s : State) : Host.Outcome State Fault Refusal :=
  .next (s.onPrd fun o => (o.go t).osfpCtrlWrite (value % 2 ^ 32))

/-! ### Clocks (R437, R438) -/

/-- OCXO_FAIL: HOLDOVER, and grade 3 at best whatever the age. -/
def execOcxoFail (t : Nat) (s : State) : Host.Outcome State Fault Refusal :=
  .next (s.onPrd fun o =>
    let o := PrdR.setFld (PrdR.ev (o.go t) PRD_PWR_EVENTS 7) PRD_CLK_STATUS 0 1 0
    let was := o.clk.st
    let c := o.clk.lose
    let o := { o with clk := { c with own := max 3 c.own }, pw := { o.pw with ocxoFail := true } }
    (if was = 2 then PrdR.ev o PRD_TIME_EVENTS 1 else o).regrade)

/-- OCXO_RETURN: the grade stays until the next accepted measurement. -/
def execOcxoReturn (t : Nat) (s : State) : Host.Outcome State Fault Refusal :=
  .next (s.onPrd fun o =>
    let o := o.go t
    PrdR.setFld (PrdR.setFld { o with pw := { o.pw with ocxoFail := false } } PRD_PWR_EVENTS 7 1 0) PRD_CLK_STATUS 0 1 1)

/-- OCXO_WARM. -/
def execOcxoWarm (t : Nat) (s : State) : Host.Outcome State Fault Refusal :=
  .next (s.onPrd fun o => PrdR.ev (o.go t) PRD_CLK_STATUS 4)

/-- PLL_UNLOCK. -/
def execPllUnlock (t : Nat) (s : State) : Host.Outcome State Fault Refusal :=
  .next (s.onPrd fun o => (PrdR.setFld (PrdR.ev (o.go t) PRD_PWR_EVENTS 8) PRD_CLK_STATUS 2 1 0).pwrFail)

/-! ### The test multiplexer and the TAP (R444 to R449) -/

/-- R444: whether the grant is live: valid, for this chip, with TESTMUX in its scope, and before its expiry. -/
def Prd.tmuxGrantLive (o : Prd) : Bool :=
  PrdR.flag o PRD_TMUX_GRANT_CTRL 8 && PrdR.flag o PRD_TMUX_GRANT_CTRL 3 &&
  PrdR.get o PRD_TMUX_GRANT_UID == PrdR.get o PRD_UID && decide (o.ft < PrdR.get o PRD_TMUX_GRANT_EXPIRY)

/-- R444: whether the multiplexer is live. -/
def Prd.tmuxLive (o : Prd) : Bool := o.tmuxGrantLive && PrdR.flag o PRD_TMUX_CTRL 0

/-- The two LIVE bits follow, and the pins from the next cycle. -/
def Prd.tmuxRefresh (o : Prd) : Prd :=
  let o := PrdR.setFld (PrdR.setFld o PRD_TMUX_GRANT_CTRL 9 1 (b2n o.tmuxGrantLive)) PRD_TMUX_CTRL 1 1 (b2n o.tmuxLive)
  if o.pw.pinLive.cur = o.tmuxLive then o else { o with pw := { o.pw with pinLive := o.pw.pinLive.write o.ft o.tmuxLive } }

/-- R444: a write of PRD_TMUX_CTRL counts only while PHASE is IMAGE. -/
def Prd.tmuxCfgWrite (o : Prd) (v : Nat) : Prd :=
  if o.phase = 0 then (PrdR.write o PRD_TMUX_CTRL 4 v).tmuxRefresh else o

/-- TMUX_CFG_WRITE: at the OTU only the descriptor's REG_WRITES set CFG_EN (R446), so a command is discarded. -/
def execTmuxCfgWrite (at_ : Part) (value : Nat) (e : Edge) (s : State) : Host.Outcome State Fault Refusal :=
  match at_ with
  | .otu => .next (s.onOtu fun o => o.go e)
  | .prd => .next (s.onPrd fun o => (o.go e.ft).tmuxCfgWrite (value % 2 ^ 32))

/-- TMUX_GRANT_WRITE. -/
def execTmuxGrantWrite (id scope uid expiry : Nat) (valid : Bool) (t : Nat) (s : State) : Host.Outcome State Fault Refusal :=
  .next (s.onPrd fun o =>
    let o := PrdR.set (PrdR.set (o.go t) PRD_TMUX_GRANT_ID (id % 2 ^ 32)) PRD_TMUX_GRANT_CTRL (scope % 256 + 256 * b2n valid)
    (PrdR.set (PrdR.set o PRD_TMUX_GRANT_UID (uid % 2 ^ 64)) PRD_TMUX_GRANT_EXPIRY (expiry % 2 ^ 64)).tmuxRefresh)

/-- TMUX_GRANT_EXPIRED. -/
def execTmuxGrantExpired (t : Nat) (s : State) : Host.Outcome State Fault Refusal :=
  .next (s.onPrd fun o => (o.go t).tmuxRefresh)

/-- R445: the sources of Priord's multiplexer. -/
def prdSource (v : Nat) : Bool :=
  v == 0 || (0x100 ≤ v && v ≤ 0x103) || (0x200 ≤ v && v < 0x220) || (0x300 ≤ v && v < 0x320) || (0x400 ≤ v && v < 0x420) ||
  v == 0x500 || v == 0x501

/-- R446: the sources of the OTU's. -/
def otuSource (v : Nat) : Bool :=
  v == 0 || v == 0x100 || v == 0x101 || (0x200 ≤ v && v < 0x400) || (0x400 ≤ v && v < 0x440)

/-- R446: a write of OTU_TMUX_SEL_k. -/
def Otu.tmuxSelWrite (o : Otu) (k v : Nat) : Otu :=
  if k < 8 && otuSource (getF v 0 12) then OtuR.write o (OTU_TMUX_SEL k) 4 v else o

/-- R445: a write of PRD_TMUX_SEL_k. -/
def Prd.tmuxSelWrite (o : Prd) (k v : Nat) : Prd :=
  if k < 16 && prdSource (getF v 0 12) then PrdR.write o (PRD_TMUX_SEL k) 4 v else o

/-- TMUX_SEL_WRITE. -/
def execTmuxSelWrite (at_ : Part) (k value : Nat) (e : Edge) (s : State) : Host.Outcome State Fault Refusal :=
  match at_ with
  | .otu => .next (s.onOtu fun o => (o.go e).tmuxSelWrite k (value % 2 ^ 32))
  | .prd => .next (s.onPrd fun o => (o.go e.ft).tmuxSelWrite k (value % 2 ^ 32))

/-- R447: the instructions that drive pins. -/
def TapIr.drives (i : TapIr) : Bool :=
  match i with
  | .extest => true
  | .extestPulse => true
  | .extestTrain => true
  | _ => false

/-- TAP_INSTRUCTION: outside reset the TAP loads BYPASS in place of an instruction that drives pins. -/
def execTapInstruction (ir : TapIr) (t : Nat) (s : State) : Host.Outcome State Fault Refusal :=
  .next (s.onPrd fun o =>
    let o := o.go t
    let refuse := ir.drives && !o.pw.inReset
    { o with pw := { o.pw with tap := if refuse then .bypass else ir, tapRefused := refuse } })

end Sys2Proof.Machine
end

