-- ==== Sys2Proof/Machine/HangGraph.lean ====
section
/-!
DEFINITION. Machine/HangGraph.lean: hang notices, probes and the wait-for graph at Priord (05 R134 to R138).
-/
namespace Sys2Proof.Machine
open Sys2Proof

/-! ### Nodes and edges (R135) -/

/-- R135: an engine node; engine 0x1FF stands for any engine of the rank. -/
def engNode (rank eng : Nat) : Nat := rank % 2 ^ 20 + eng % 2 ^ 9 * 2 ^ 20
/-- R135: an object node. -/
def objNode (rank kind : Nat) : Nat := rank % 2 ^ 20 + (1 + kind) * 2 ^ 29
/-- The rank of a node. -/
def nodeRank (n : Nat) : Nat := n % 2 ^ 20
/-- Whether a node stands for any engine of its rank. -/
def nodeAny (n : Nat) : Bool := n / 2 ^ 29 == 0 && n / 2 ^ 20 % 2 ^ 9 == 0x1FF

/-- R135, R138: the edge of an OPEN record of rank `rank`, at T_h. -/
def syncEdge (rank tH : Nat) (b : List Byte) : Edge16 :=
  let fl := fieldAt b 2 2
  let h := fieldAt b 16 4
  let dst := if bit fl 2 then engNode h (h / 2 ^ 20) else if bit fl 1 then engNode h 0x1FF else objNode (fieldAt b 12 4) (fieldAt b 1 1)
  { from_ := engNode rank (fieldAt b 6 2), dst, kind := fieldAt b 1 1
    flags := 4 * b2n (nodeRank dst != rank % 2 ^ 20) + 8 * b2n (nodeAny dst)
    age := min ones32 ((tH - fieldAt b 24 8) / tickUs), object := fieldAt b 8 4 }

/-- R135: the successors of a node; an any-engine node leads to every node of its rank that waits. -/
def succs (es : List Edge16) (n : Nat) : List Nat :=
  sortBy id ((es.filter (·.from_ == n)).map (·.dst) ++
    (if nodeAny n then (es.filter fun e => nodeRank e.from_ == nodeRank n && !nodeAny e.from_).map (·.from_) else [])).eraseDups

/-- The nodes of a graph, ascending. -/
def graphNodes (es : List Edge16) : List Nat := sortBy id (es.flatMap fun e => [e.from_, e.dst]).eraseDups

/-- The nodes that a worklist reaches by `next`, in depth-first order, within `ok`. -/
def reachGo (next : Nat → List Nat) (ok : Nat → Bool) : Nat → List Nat → List Nat → List Nat
  | 0, _, seen => seen
  | _, [], seen => seen
  | f + 1, n :: r, seen =>
    if seen.contains n || !ok n then reachGo next ok f r seen
    else reachGo next ok f (next n ++ r) (seen ++ [n])

/-- Steps enough to visit every node and edge. -/
def reachFuel (es : List Edge16) : Nat := (2 * es.length + 2) * (2 * es.length + 2) + 1

/-- The nodes reached from `n` by at least one edge. -/
def reachFrom (es : List Edge16) (n : Nat) : List Nat := reachGo (succs es) (fun _ => true) (reachFuel es) (succs es n) []

/-- R137: whether a node lies in a cycle. -/
def inCycle (es : List Edge16) (n : Nat) : Bool := (reachFrom es n).contains n

/-- The strongly connected component of a node. -/
def sccOf (es : List Edge16) (n : Nat) : List Nat := (graphNodes es).filter fun m => m == n || ((reachFrom es n).contains m && (reachFrom es m).contains n)

/-- R137: a cycle's nodes in edge order from its lowest node: depth first, lowest successor first (log entry 60). -/
def cycleOrder (es : List Edge16) (c : List Nat) : List Nat :=
  match c with
  | [] => []
  | n :: _ => reachGo (succs es) c.contains (reachFuel es) [n] []

/-- R137: the cycles, each once, in order of their lowest nodes. -/
def cyclesOf (es : List Edge16) : List (List Nat) :=
  ((graphNodes es).filter fun n => inCycle es n && (sccOf es n).head? == some n).map fun n => cycleOrder es (sccOf es n)

/-- R137: the roots: an incoming edge, no outgoing edge, in no cycle. -/
def rootsOf (es : List Edge16) : List Nat := (graphNodes es).filter fun n => es.any (·.dst == n) && (succs es n).isEmpty

/-- R137: an edge's flags with IN_CYCLE and BEHIND_CYCLE. -/
def markEdge (es : List Edge16) (e : Edge16) : Edge16 :=
  let inC := inCycle es e.from_ && (sccOf es e.from_).contains e.dst
  let behind := inCycle es e.dst || (reachFrom es e.dst).any (inCycle es)
  { e with flags := e.flags + b2n inC + 2 * b2n (!inC && behind) }

/-- R136: the nodes joined to `n` by an edge, in either direction, an any-engine node's own edges included (R135). -/
def neighbours (es : List Edge16) (n : Nat) : List Nat := succs es n ++ (graphNodes es).filter fun m => (succs es m).contains n

/-- R136: the nodes of the weakly connected component of `n`. -/
def weakComp (es : List Edge16) (n : Nat) : List Nat := reachGo (neighbours es) (fun _ => true) (2 * reachFuel es) [n] []

/-! ### The report (R138) -/

/-- R137: an engine's state at T_h as its rank's hang accord shows it: RUNNING where it has been busy or stalled since the last
regular accord that gave its counters, IDLE where it has not (DEDUCED, log entry 48). An any-engine node runs if some engine of
its rank does. Of a rank whose hang accord did not arrive no record tells it, and the value is free. -/
def HangSt.engState (g : HangSt) (n : Nat) : Nat :=
  let mine := g.states.filter fun x => nodeRank x.1 == nodeRank n
  if mine.isEmpty then (if Config.engineRuns g.id n then 0 else 1)
  else if nodeAny n then (if mine.any (·.2 == 0) then 0 else if mine.any (·.2 == 1) then 1 else 2)
  else (g.states.lookup n).getD 1

/-- R137: the state of a root at T_h. -/
def HangSt.rootState (g : HangSt) (missing : List Nat) (n : Nat) : Nat :=
  if n ≥ 2 ^ 29 then 4 else if missing.contains (nodeRank n) then 3 else g.engState n

/-- R138: the report on a set of edges. -/
def HangSt.report (g : HangSt) (now : Nat) (missing : List Nat) (es : List Edge16) : List Byte :=
  let marked := sortBy (fun e => e.from_ * 2 ^ 32 + e.dst) (es.map (markEdge es))
  let cycles := cyclesOf es
  let roots := rootsOf es
  let miss := sortBy (fun r : Nat => r) missing
  le 1 1 ++ le 1 (g.node + 1) ++ le 2 (b2n !miss.isEmpty) ++ le 2 g.tag ++ le 2 0 ++ le 8 g.id ++ le 8 now ++
  le 4 marked.length ++ le 4 cycles.length ++ le 4 roots.length ++ le 4 miss.length ++ zeros 24 ++
  marked.flatMap (fun e => le 4 e.from_ ++ le 4 e.dst ++ le 1 e.kind ++ le 1 e.flags ++ le 2 0 ++ le 4 e.age) ++
  cycles.flatMap (fun c => le 4 c.length ++ c.flatMap (le 4)) ++
  roots.flatMap (fun n => le 4 n ++ le 1 (g.rootState missing n) ++ zeros 3) ++ miss.flatMap (le 4)

/-- R136, R138: this node reports the components that lie in its subtree. -/
def Prd.hangReport (o : Prd) (g : HangSt) (missing : List Nat) (es : List Edge16) : Prd :=
  let o := o.hnrOwn 5 g.id g.tag 0 g.t (g.report o.ft missing es)
  let o := o.event { code := 0x31, sev := 4, tag := g.tag, payload := le 8 g.id ++ le 4 (cyclesOf es).length ++ le 4 (rootsOf es).length }
  let o := PrdR.set (PrdR.ev o PRD_HANG_EVENTS 1) PRD_HANG_LAST_ID g.id
  let o := if missing.isEmpty then o else PrdR.ev o PRD_HANG_EVENTS 2
  o.triggerOf 3 g.tag g.t 0

/-- R136: the bytes of a component on an uplink: the spec gives no layout, so this one is the model's (log entry 60). -/
def HangComp.bytes (c : HangComp) : List Byte :=
  le 8 c.hangId ++ le 2 c.tag ++ le 2 0 ++ le 4 c.child ++ le 4 c.edges.length ++ le 4 c.ranks.length ++ le 4 c.missing.length ++
  le 4 c.states.length ++ c.edges.flatMap (fun e => le 4 e.from_ ++ le 4 e.dst ++ le 1 e.kind ++ le 1 e.flags ++ le 2 0 ++ le 4 e.age ++ le 4 e.object) ++
  c.ranks.flatMap (le 4) ++ c.missing.flatMap (le 4) ++ c.states.flatMap fun x => le 4 x.1 ++ le 4 x.2

/-- Replace a hang graph. -/
def Prd.setHang (o : Prd) (id level : Nat) (f : HangSt → HangSt) : Prd :=
  { o with hangs := updFirst (fun g => g.id == id && g.node == level) f o.hangs }

/-- The hang graph of a HANG_ID at a level. -/
def Prd.hang? (o : Prd) (id level : Nat) : Option HangSt := o.hangs.find? fun g => g.id == id && g.node == level

/-- A forwarded component joins a node's graph. -/
def HangSt.take (g : HangSt) (c : HangComp) : HangSt :=
  { g with edges := g.edges ++ c.edges.filter (fun e => !g.edges.contains e), ranks := (g.ranks ++ c.ranks).eraseDups
           missing := (g.missing ++ c.missing).eraseDups, states := g.states ++ c.states }

/-- R136: ranks of the subtree whose notices a node still lacks. -/
def HangSt.lacks (g : HangSt) : List Nat := g.expect.filter fun r => !g.ranks.contains r && !g.missing.contains r

/-- R133, R136: ranks whose notice, hang accord and announced open records are all held. -/
def HangSt.complete (g : HangSt) : HangSt :=
  let done := (g.owed.filter fun x => x.2 = 0 && g.seen.contains x.1).map (·.1)
  { g with ranks := g.ranks ++ done, owed := g.owed.filter fun x => !done.contains x.1 }

/-- R136: analyse what lies in the subtree and forward the rest, level by level as long as this Priord is its own parent.
`late` says that the deadline has passed at the first level. -/
def Prd.hangClose (o : Prd) (id : Nat) (late : Bool) : Nat → Nat → Prd
  | 0, _ => o
  | fuel + 1, level =>
    match o.hang? id level with
    | none => o
    | some g =>
      if g.done || !(late || g.lacks.isEmpty) then o
      else
        let missing := (g.missing ++ g.lacks.filter fun r => (g.owed.lookup r).isNone).eraseDups
        let inside (e : Edge16) : Bool := level == 3 ||
          ((weakComp g.edges e.from_).all fun n => g.expect.contains (nodeRank n))
        let (mine, rest) := g.edges.partition inside
        let o := o.setHang id level fun g => { g with done := true }
        let o := if mine.isEmpty then o else o.hangReport g missing mine
        if level = 3 then o
        else
          let c : HangComp := { hangId := id, tag := g.tag, child := o.tray, edges := rest, ranks := g.ranks, missing, states := g.states }
          let o := if rest.isEmpty then o else PrdR.ev o PRD_HANG_EVENTS 3
          match o.parentAt o.tree.roles level with
          | none => o
          | some p =>
            if p = o.tray then ((o.setHang id (level + 1) fun g => g.take c).hangClose id false fuel (level + 1))
            else if o.tree.joined then o.send p 6 ((o.slotOf g.tag).getD 0) c.bytes
            else o

/-! ### Commands -/

/-- R134, R141: the root's answer to a hang probe; the holdoff is fixed as the freeze is issued. -/
def Prd.hangProbe (o : Prd) (tag : Nat) : Prd :=
  if !o.isRoot || ((o.tree.probes.lookup tag).any fun t => decide (o.ft < t)) then o
  else
    let tH := o.ft + PrdR.fld o PRD_HANG_CFG 0 16 * tickUs
    let o := { o with tree := { o.tree with probes := Tbl.ins o.tree.probes tag (tH + PrdR.fld o PRD_HANG_CFG 16 16 * 1000 * tickUs) } }
    (o.issue 5 tag 2 tH 0 fun b => { b with hangId := tH }).1

/-- HANG_PROBE. -/
def execHangProbe (tag t : Nat) (s : State) : Host.Outcome State Fault Refusal :=
  .next (s.onPrd fun o => ((o.go t).hangProbe tag).rootWork)

/-- R21, R133, R134: a hang notice, unless its rank is malformed: a SELF notice of a die of this tray asks the root for a freeze; a JOB_WIDE one announces its
rank's open records. -/
def Prd.hangNotice (o : Prd) (src : RecSrc) (n : HangNotice) : Prd :=
  if n.rank ≥ 2 ^ 17 then o else match o.awayHome src n.tag n.rank with
  | some dst =>
    let o := o.forward dst 5 n.tag n.rank (hangNoticeBytes n)
    if n.cause = 0 then (PrdR.ev o PRD_HANG_EVENTS 0).hangProbe n.tag |>.request 1 n.tag (le 8 n.tCut) else o
  | none =>
    if n.cause = 0 then
      match src with
      | .port _ => (PrdR.ev o PRD_HANG_EVENTS 0).hangProbe n.tag |>.request 1 n.tag (le 8 n.tCut)
      | .fwd _ => o
    else
      let o := o.setHang n.hangId 0 fun g =>
        if g.ranks.contains n.rank || g.tag ≠ n.tag then g
        else HangSt.complete { g with owed := (n.rank, n.nOpen) :: g.owed.filter (·.1 != n.rank) }
      o.hangClose n.hangId false 4 0

/-- HANG_NOTICE_RX. -/
def execHangNoticeRx (src : RecSrc) (n : HangNotice) (t : Nat) (s : State) : Host.Outcome State Fault Refusal :=
  .next (s.onPrd fun o => ((o.go t).hangNotice src n).rootWork)

/-- R135, R231: a sync record with HANG_TABLE goes to the graph whose notice announced it. -/
def Prd.hangSync (o : Prd) (src : RecSrc) (tag rank : Nat) (b : List Byte) : Prd :=
  if rank ≥ 2 ^ 17 || !bit (fieldAt b 2 2) 4 then o
  else match o.awayHome src tag rank with
    | some dst => o.forward dst 6 tag rank b
    | none =>
      match o.hangs.find? fun g => g.node == 0 && g.tag == tag && (g.owed.lookup rank).any (decide <| 0 < ·) with
      | none => o
      | some g =>
        let o := o.setHang g.id 0 fun g =>
          HangSt.complete { g with edges := g.edges ++ [syncEdge rank g.t b]
                                   owed := g.owed.map fun x => if x.1 = rank then (rank, x.2 - 1) else x }
        o.hangClose g.id false 4 0

/-- R137: the state of engine `e` of a hang accord's image `m`, `base` the image of the last regular accord of its rank. -/
def hangState (base m : Image) (e : Nat) (h : EngHdr) : Nat :=
  let moved (c : Nat) : Bool :=
    Tbl.get (fun _ => 0) m.ctr (256 + 32 * e + c) != Tbl.get (fun _ => 0) base.ctr (256 + 32 * e + c)
  if h.st ≠ 0 then 2 else if moved 13 || moved 14 then 0 else 1

/-- R133, R137: a hang accord of rank `rank` shows the states of its engines, and completes what its notice announced. -/
def Prd.hangAccord (o : Prd) (tag rank : Nat) (base m : Image) : Prd :=
  match o.hangs.find? fun g => g.node == 0 && g.tag == tag && !g.done with
  | none => o
  | some g =>
    let o := o.setHang g.id 0 fun g =>
      HangSt.complete { g with states := g.states ++ (m.hdr.filter fun x => x.2.tag == tag).map fun x => (engNode rank x.1, hangState base m x.1 x.2)
                               seen := rank :: g.seen }
    o.hangClose g.id false 4 0

/-- HANG_COMPONENT_RX: from a child, to this node's level above it. -/
def execHangComponentRx (c : HangComp) (t : Nat) (s : State) : Host.Outcome State Fault Refusal :=
  .next (s.onPrd fun o =>
    let o := o.go t
    match (o.childTrays o.tree.roles).find? fun x => x.2 == c.child with
    | none => o
    | some (l, _) =>
      let o := o.setHang c.hangId (l + 1) fun g => if g.done || g.tag ≠ c.tag then g else g.take c
      (o.hangClose c.hangId false 4 (l + 1)).rootWork)

/-- HANG_GRAPH_DEADLINE: T_h + 1 ms at the tray, and one more at each level. -/
def execHangGraphDeadline (level hangId t : Nat) (s : State) : Host.Outcome State Fault Refusal :=
  .next (s.onPrd fun o =>
    let o := o.go t
    match o.hang? hangId level with
    | none => o
    | some g =>
      if o.ft ≥ g.t + PrdR.fld o PRD_HANG_DEADLINES (8 * level) 8 * 1000 * tickUs then (o.hangClose hangId true 4 level).rootWork else o)

end Sys2Proof.Machine
end

