-- ==== Sys2Proof/Machine/NoseImg.lean ====
section
/-!
DEFINITION. Machine/NoseImg.lean: the Nose's number formats, its operators and its model images (10 R255 to R266, R270,
R272, R276, R277).
-/
namespace Sys2Proof.Machine
open Sys2Proof

/-! ### Formats (R255, R256) -/

/-- R255: exponent width, mantissa width and the code of the greatest finite value of a floating format. -/
def fmtShape (f : Nat) : Nat × Nat × Nat :=
  match f with
  | 0 => (4, 3, 0x7E)
  | 1 => (5, 2, 0x7B)
  | 2 => (2, 1, 7)
  | 3 => (4, 3, 0x7E)
  | 4 => (8, 7, 0x7F7F)
  | _ => (8, 23, 0x7F7F_FFFF)

/-- R255: element bits of a format. -/
def fmtBits (f : Nat) : Nat := match f with | 2 => 4 | 4 => 16 | 5 => 32 | _ => 8

/-- R255: an MX format. -/
def isMx (f : Nat) : Bool := f == 2 || f == 3

/-- R256: the canonical NaN. -/
def fmtNaN (f : Nat) : Nat := match f with | 0 => 0x7F | 1 => 0x7F | 3 => 0x7F | 4 => 0x7FC0 | 5 => 0x7FC0_0000 | _ => 0

/-- R255: the value of an element, with its block's scale exponent `sc` (none for a NaN scale). -/
def elemVal (f v : Nat) (sc : Option Int) : FVal :=
  match sc with
  | none => .nan
  | some k =>
    let scale (x : FVal) : FVal := match x with | .fin s m e => .fin s m (e + k) | y => y
    match f with
    | 6 => let i := toS 8 v; .fin (decide (i < 0)) i.natAbs 0
    | 1 => scale (fVal 5 2 v)
    | 4 => scale (fVal 8 7 v)
    | 5 => scale (fVal 8 23 v)
    | _ =>
      let (ew, mw, _) := fmtShape f
      let s := bit v (ew + mw)
      let x := getF v mw ew
      let m := getF v 0 mw
      let qmin : Int := 2 - 2 ^ (ew - 1) - mw
      if f ≠ 2 && v % 128 = 127 then .nan
      else if x = 0 then scale (.fin s m qmin)
      else scale (.fin s (2 ^ mw + m) (qmin + (x - 1)))

/-- R256: a value converted into a format; `sat` is SAT. -/
def toFmt (f : Nat) (sat : Bool) (x : FVal) : Nat :=
  if f = 6 then
    match x with
    | .nan => 0
    | .inf s => if s then 0x81 else 127
    | .fin s m e =>
      let n := if e ≥ 0 then m * 2 ^ e.toNat else rneShift m (-e).toNat false
      let n := min n 127
      ofS 8 (if s then -(n : Int) else n)
  else
    let (ew, mw, top) := fmtShape f
    let excess (s : Bool) : Nat :=
      if sat || f = 2 then top + b2n s * 2 ^ (ew + mw)
      else if f = 0 || f = 3 then fmtNaN f
      else fInf ew mw s
    match x with
    | .nan => fmtNaN f
    | .inf s => excess s
    | .fin s m e =>
      if m = 0 then b2n s * 2 ^ (ew + mw)
      else
        let qmin : Int := 2 - 2 ^ (ew - 1) - mw
        let q : Int := max (e + Nat.log2 m - mw) qmin
        let sig := if e ≥ q then m * 2 ^ (e - q).toNat else rneShift m (q - e).toNat false
        let code := (q - qmin).toNat * 2 ^ mw + sig
        if code > top then excess s else b2n s * 2 ^ (ew + mw) + code

/-- A buffer (R262): its format, its elements' bits, and for an MX format its blocks' scale bytes. -/
structure NBuf where
  fmt : Nat := 5
  els : List Nat := []
  scales : List Nat := []
deriving DecidableEq, Repr

/-- The scale exponent of element `i`. -/
def NBuf.scaleOf (b : NBuf) (i : Nat) : Option Int :=
  if isMx b.fmt then (let s := b.scales.getD (i / 32) 127; if s = 255 then none else some ((s : Int) - 127)) else some 0

/-- The values of a buffer. -/
def NBuf.vals (b : NBuf) : List FVal := b.els.zipIdx.map fun x => elemVal b.fmt x.1 (b.scaleOf x.2)

/-- Lists of at most `n` elements. -/
def blocksOf {α : Type} (n : Nat) : Nat → List α → List (List α)
  | 0, _ => []
  | f + 1, l => if l.isEmpty then [] else l.take n :: blocksOf n f (l.drop n)

/-- R256: values converted into a buffer of a format; an MX block takes the scale exponent that `scale` gives it, and a NaN
sets an MXFP4 block's scale to 0xFF. -/
def toBuf (f : Nat) (sat : Bool) (scale : List FVal → Int) (l : List FVal) : NBuf :=
  if isMx f then
    let bs := (blocksOf 32 l.length l).map fun b =>
      let k := scale b
      let shifted := b.map fun x => match x with | .fin s m e => FVal.fin s m (e - k) | y => y
      (shifted.map (toFmt f sat), if f = 2 && b.any (· == .nan) then 255 else (k + 127).toNat)
    { fmt := f, els := bs.flatMap (·.1), scales := bs.map (·.2) }
  else { fmt := f, els := l.map (toFmt f sat) }

/-- R262: AUTO's scale exponent of a block. -/
def autoScale (f : Nat) (b : List FVal) : Int :=
  let emax : Int := if f = 2 then 2 else 8
  let lg (x : FVal) : Option Int := match x with
    | .fin _ m e => if m = 0 then none else some (e + Nat.log2 m)
    | .inf _ => some 1024
    | .nan => none
  match b.filterMap lg with
  | [] => 0
  | x :: r => max (-8) (min 8 (r.foldl max x - emax))

/-! ### Image layout (R260 to R264) -/

/-- R261: a section table entry. -/
structure Sect where
  type : Nat
  flags : Nat
  expert : Nat
  off : Nat
  len : Nat
  crc : Nat
  rsvd : Nat
deriving DecidableEq, Repr

/-- The sections of an image. -/
def imgSects (img : List Byte) : List Sect :=
  (List.range (fieldAt img 8 2)).map fun i =>
    let e := img.drop (128 + 32 * i)
    { type := fieldAt e 0 2, flags := fieldAt e 2 2, expert := fieldAt e 4 1, off := fieldAt e 8 8, len := fieldAt e 16 8
      crc := fieldAt e 24 4, rsvd := fieldAt e 5 3 + fieldAt e 28 4 }

/-- The bytes of a section. -/
def Sect.bytes (img : List Byte) (s : Sect) : List Byte := (img.drop s.off).take s.len

/-- The first section of a type. -/
def imgSect (img : List Byte) (type : Nat) : Option Sect := (imgSects img).find? (·.type == type)

/-- Its bytes, none where the image has no such section. -/
def sectBytes (img : List Byte) (type : Nat) : List Byte := ((imgSect img type).map (·.bytes img)).getD []

/-- R260: fields of the header. -/
def nFeat (img : List Byte) : Nat := fieldAt img 10 2
def nExpert (img : List Byte) : Nat := fieldAt img 12 1
def topK (img : List Byte) : Nat := fieldAt img 13 1
def nClass (img : List Byte) : Nat := fieldAt img 14 1
def attrMode (img : List Byte) : Nat := fieldAt img 15 1
def imgKinds (img : List Byte) : Nat := fieldAt img 16 1
def gateTable (img : List Byte) : Nat := fieldAt img 18 2

/-- The bytes of section `i`, if it is of type `t`. -/
def secAt (img : List Byte) (t i : Nat) : Option (List Byte) :=
  ((imgSects img)[i]?).bind fun s => if s.type = t then some (s.bytes img) else none

/-- R262: an operator. -/
structure NOp where
  opc : Nat
  fin : Nat
  fout : Nat
  dst : Nat
  a : Nat
  b : Nat
  p0 : Nat
  p1 : Nat
deriving DecidableEq, Repr

/-- R262: the operators of a program, END included; none where it does not end with END. -/
def readProg : Nat → List Byte → Option (List NOp)
  | 0, _ => none
  | f + 1, l =>
    if l.length < 16 then none
    else
      let op : NOp := { opc := fieldAt l 0 1, fin := fieldAt l 1 1 % 16, fout := fieldAt l 1 1 / 16, dst := fieldAt l 2 2
                        a := fieldAt l 4 2, b := fieldAt l 6 2, p0 := fieldAt l 8 4, p1 := fieldAt l 12 4 }
      if op.opc = 0x0F then (if l.length = 16 then some [op] else none)
      else (readProg f (l.drop 16)).map (op :: ·)

/-- R262: a program section. -/
def progOf (b : List Byte) : Option (List NOp) := readProg (b.length / 16 + 1) b

/-- R263: header of a tensor. -/
structure Tensor where
  fmt : Nat
  sparse : Bool
  rows : Nat
  cols : Nat
  data : List Byte
  rsvd : Nat
deriving DecidableEq, Repr

/-- R263: a WEIGHTS section read. -/
def tensorOf (b : List Byte) : Tensor :=
  { fmt := fieldAt b 0 1, sparse := bit (fieldAt b 1 1) 0, rows := fieldAt b 4 4, cols := fieldAt b 8 4, data := b.drop 16
    rsvd := fieldAt b 1 1 / 2 + fieldAt b 2 2 + fieldAt b 12 4 }

/-- R263: stored elements of a row. -/
def Tensor.stored (t : Tensor) : Nat := if t.sparse then t.cols / 2 else t.cols
/-- R263: bytes of a row's elements. -/
def Tensor.elBytes (t : Tensor) : Nat := (t.stored * fmtBits t.fmt + 7) / 8
/-- R263: bytes of a row's scales. -/
def Tensor.scBytes (t : Tensor) : Nat := if isMx t.fmt then t.cols / 32 else 0
/-- R263: bytes of a row. -/
def Tensor.rowBytes (t : Tensor) : Nat := t.elBytes + t.scBytes + (if t.sparse then (t.cols / 4 + 1) / 2 else 0)

/-- R263: a row: dense column and bits of each stored element, and its scales. -/
def Tensor.row (t : Tensor) (r : Nat) : List (Nat × Nat) × List Nat :=
  let b := (t.data.drop (r * t.rowBytes)).take t.rowBytes
  let w := fmtBits t.fmt
  let el (k : Nat) : Nat := if w = 4 then getF (fieldAt b (k / 2) 1) (4 * (k % 2)) 4 else fieldAt b (k * (w / 8)) (w / 8)
  let meta_ := b.drop (t.elBytes + t.scBytes)
  let col (k : Nat) : Nat :=
    if t.sparse then
      let g := k / 2
      let n := getF (fieldAt meta_ (g / 2) 1) (4 * (g % 2)) 4
      4 * g + (if k % 2 = 0 then n % 4 else n / 4)
    else k
  ((List.range t.stored).map fun k => (col k, el k), (List.range t.scBytes).map fun k => fieldAt b (t.elBytes + k) 1)

/-! ### Arithmetic (R257 to R259) -/

/-- The exact sum of values, each at the weight 2^−192 or above. -/
def exactSum (l : List FVal) : FVal :=
  if l.any (· == .nan) then .nan
  else
    let infs := l.filterMap fun x => match x with | .inf s => some s | _ => none
    match infs with
    | s :: r => if r.all (· == s) then .inf s else .nan
    | [] =>
      let v : Int := l.foldl (fun (a : Int) x => match x with
        | .fin s m e => let n : Int := ((m * 2 ^ (e + 192).toNat : Nat) : Int); if s then a - n else a + n
        | _ => a) 0
      .fin (decide (v < 0)) v.natAbs (-192)

/-- The exact product of two values. -/
def exactMul : FVal → FVal → FVal
  | .fin s m e, .fin t n d => .fin (s != t) (m * n) (e + d)
  | .inf s, .fin t n _ => if n = 0 then .nan else .inf (s != t)
  | .fin s m _, .inf t => if m = 0 then .nan else .inf (s != t)
  | .inf s, .inf t => .inf (s != t)
  | _, _ => .nan

/-- A value times 2^k. -/
def FVal.shift (k : Int) : FVal → FVal
  | .fin s m e => .fin s m (e + k)
  | x => x

/-- R257, R258: one output of a MATVEC. -/
def dotRow (x : NBuf) (t : Tensor) (r : Nat) (bias : Option Nat) : FVal :=
  let (els, scs) := t.row r
  if t.fmt = 4 then
    let acc := els.foldl (fun acc p => fAdd 8 23 acc (fMul 8 23 (fConv 8 7 8 23 (x.els.getD p.1 0)) (fConv 8 7 8 23 p.2))) (bias.getD 0)
    fVal 8 23 acc
  else
    let w : NBuf := { fmt := t.fmt, scales := scs }
    let terms := els.map fun p => exactMul (elemVal x.fmt (x.els.getD p.1 0) (x.scaleOf p.1)) (elemVal t.fmt p.2 (w.scaleOf p.1))
    exactSum (terms ++ bias.toList.map (fVal 8 23))

/-- A program's results. -/
structure NOut where
  logits : List Nat := []
  score : List Nat := []
  cls : List Nat := []
  attr : List Nat := []
deriving DecidableEq, Repr

/-- The buffers of an evaluation. -/
abbrev NEnv := List (Nat × NBuf)

/-- A buffer. -/
def bufOf (env : NEnv) (k : Nat) : NBuf := (env.lookup k).getD {}

/-- R264: entry `x` of a table with entries of format `fo`. -/
def tableEntry (tb : List Byte) (fo x : Nat) : Nat :=
  if fo = 2 then getF (fieldAt tb (8 + x / 2) 1) (4 * (x % 2)) 4 else let n := fmtBits fo / 8; fieldAt tb (8 + n * x) n

/-- R262: one operator. -/
def runOp (img : List Byte) (op : NOp) (env : NEnv) (out : NOut) : NEnv × NOut :=
  let a := bufOf env op.a
  let put (b : NBuf) : NEnv × NOut := ((op.dst, b) :: env.filter (·.1 != op.dst), out)
  let plain (f : Nat) (sat : Bool) (l : List FVal) : NBuf := toBuf f sat (fun _ => 0) l
  match op.opc with
  | 1 =>
    let k := -toS 8 (getF op.p0 0 8)
    put (toBuf op.fout (bit op.p0 9) (if bit op.p0 8 then autoScale op.fout else fun _ => 0) (a.vals.map (FVal.shift k)))
  | 2 =>
    let t := tensorOf ((secAt img 5 op.b).getD [])
    let bias (r : Nat) : Option Nat :=
      if getF op.p1 0 16 = 0xFFFF then none else some (fieldAt ((secAt img 5 (getF op.p1 0 16)).getD []) (16 + 4 * r) 4)
    put (plain op.fout (bit op.p1 24) ((List.range (getF op.p0 0 16)).map fun r => (dotRow a t r (bias r)).shift (toS 8 (getF op.p1 16 8))))
  | 3 =>
    let tb := (secAt img 6 op.b).getD []
    let fo := fieldAt tb 1 1
    put { fmt := fo, els := a.els.map (tableEntry tb fo), scales := if isMx fo then List.replicate (ceilDiv a.els.length 32) 127 else [] }
  | 4 => put { fmt := 5, els := (a.els.zip (bufOf env op.b).els).map fun p => fAdd 8 23 p.1 p.2 }
  | 5 => put { fmt := 5, els := (a.els.zip (bufOf env op.b).els).map fun p => fMul 8 23 p.1 p.2 }
  | 6 => put (plain 5 false (a.vals.map (FVal.shift (toS 32 op.p0))))
  | 7 => put (plain op.fout (bit op.p0 9) a.vals)
  | 8 =>
    (env, match op.p0 with
      | 0 => { out with logits := a.els }
      | 1 => { out with score := a.els }
      | 2 => { out with cls := a.els }
      | _ => { out with attr := a.els })
  | _ => (env, out)

/-- R262: a program run on a feature vector in FP32. -/
def runProg (img : List Byte) (prog : List NOp) (x : List Nat) : NOut :=
  (prog.foldl (fun s op => runOp img op s.1 s.2) ([(0, { fmt := 5, els := x })], ({} : NOut))).2

/-! ### The gate and the experts (R276, R277) -/

/-- R276: whether expert `i` with logit `a` is chosen before `j` with `b`. -/
def logitBefore (x y : Nat × Nat) : Bool :=
  if fIsNan 8 23 x.2 then fIsNan 8 23 y.2 && decide (x.1 ≤ y.1)
  else if fIsNan 8 23 y.2 then true
  else if fLt 8 23 y.2 x.2 then true else if fLt 8 23 x.2 y.2 then false else decide (x.1 ≤ y.1)

/-- Insertion sort by a total order. -/
def sortOrd {α : Type} (before : α → α → Bool) (l : List α) : List α :=
  let rec ins (x : α) : List α → List α
    | [] => [x]
    | y :: r => if before x y then x :: y :: r else y :: ins x r
  l.foldr ins []

/-- What a fired stream gets. -/
structure NVerdict where
  score : Nat := 0
  cls : Nat := 0
  denZero : Bool := false
  experts : List Nat := []
  attr : List Nat := []
deriving DecidableEq, Repr

/-- The expert program `e` of an image. -/
def expertProg (img : List Byte) (e : Nat) : List NOp :=
  match (imgSects img).find? fun s => s.type == 4 && s.expert == e with
  | some s => (progOf (s.bytes img)).getD []
  | none => []

/-- R276, R277: the gate and the chosen experts on a feature vector. `attr` of the verdict is filled in EXPERT mode. -/
def runExperts (img : List Byte) (x : List Nat) : NVerdict :=
  let logits := (runProg img ((progOf (sectBytes img 3)).getD []) x).logits
  let ranked := sortOrd logitBefore (logits.zipIdx.map fun p => (p.2, p.1))
  let top := (ranked.head?.map (·.2)).getD 0
  let table := (secAt img 6 (gateTable img)).getD []
  let gw (l : Nat) : Nat :=
    let d := toFmt 4 false (fVal 8 23 (fSub 8 23 l top))
    fConv 8 7 8 23 (fieldAt table (8 + 2 * d) 2)
  let es := sortBy (·.1) ((ranked.take (topK img)).map fun p => (p.1, gw p.2, runProg img (expertProg img p.1) x))
  let sum (f : NOut → Nat) : Nat := es.foldl (fun a e => fAdd 8 23 a (fMul 8 23 e.2.1 (f e.2.2))) 0
  let num := sum fun o => o.score.headD 0
  let den := es.foldl (fun a e => fAdd 8 23 a e.2.1) 0
  let zero := den % 2 ^ 31 = 0
  let cls := (List.range (nClass img)).map fun j => sum fun o => o.cls.getD j 0
  let best := (cls.zipIdx.foldl (fun (b : Option (Nat × Nat)) p => match b with
    | none => some (p.1, p.2)
    | some q => if fLt 8 23 q.1 p.1 then some (p.1, p.2) else some q) none)
  let attr := if attrMode img = 1 then
      (List.range (nFeat img)).map fun i => fDiv 8 23 ((sum fun o => o.attr.getD i 0) % 2 ^ 31) den
    else []
  { score := if zero then 0 else fDiv 8 23 num den, cls := (best.map (·.2)).getD 0, denZero := zero
    experts := es.map (·.1), attr }

/-! ### The checks of a load (R265) -/

/-- R260: the header's own fields. -/
def headerOk (img : List Byte) (len : Nat) : Bool :=
  len ≥ 128 && img.length == len && img.take 4 == [0x55, 0x4E, 0x4F, 0x53] && fieldAt img 4 2 == 1 && fieldAt img 6 2 / 256 == 1 &&
  fieldAt img 24 8 == len && 1 ≤ nFeat img && nFeat img ≤ 256 && 1 ≤ nExpert img && nExpert img ≤ 64 && 1 ≤ topK img &&
  topK img ≤ min 8 (nExpert img) && 1 ≤ nClass img && nClass img ≤ 16 && attrMode img ≤ 1 && imgKinds img < 16 &&
  fieldAt img 17 1 == 0 && fieldAt img 20 4 ≤ 1_000_000 && (img.drop 48).take 80 == zeros 80

/-- R261: whether sections keep apart. -/
def apart : List Sect → Bool
  | [] => true
  | s :: r => r.all (fun t => decide (s.off + s.len ≤ t.off) || decide (t.off + t.len ≤ s.off)) && apart r

/-- R261: the sections. -/
def sectionsOk (img : List Byte) : Bool :=
  let ss := imgSects img
  let n (t : Nat) : Nat := (ss.filter (·.type == t)).length
  let lenOf (t : Nat) : Nat := (sectBytes img t).length
  1 ≤ ss.length && ss.length ≤ 4096 && 128 + 32 * ss.length ≤ img.length &&
  ss.all (fun s => 1 ≤ s.type && s.type ≤ 0xA && s.flags == 0 && s.rsvd == 0 && s.off % 64 == 0 &&
    128 + 32 * ss.length ≤ s.off && s.off + s.len ≤ img.length &&
    (if s.type = 4 then decide (s.expert < nExpert img)
     else if s.type = 5 || s.type = 6 then decide (s.expert < nExpert img) || s.expert == 0xFF else s.expert == 0xFF)) &&
  apart ss && n 1 == 1 && n 2 == 1 && n 3 == 1 && n 7 == 1 && n 8 ≤ 1 && n 9 ≤ 1 && n 0xA ≤ 1 &&
  (List.range (nExpert img)).all (fun e => (ss.filter fun s => s.type == 4 && s.expert == e).length == 1) &&
  lenOf 1 == 16 * nFeat img && lenOf 2 == 32 * nFeat img && lenOf 7 == 8 * nClass img && lenOf 8 % 16 == 0 && lenOf 8 ≤ 128 &&
  (ss.filter fun s => s.type == 5 || s.type == 6).foldl (fun a s => a + s.len) 0 == fieldAt img 32 8

/-- R261: the CRCs of the sections. -/
def crcsOk (img : List Byte) : Bool := (imgSects img).all fun s => crc32c (s.bytes img) == s.crc

/-- R265: a fan-in beyond the limits of the fifth check, which alone judges it. -/
def Tensor.beyond (t : Tensor) : Bool := decide (t.cols > 16384) || (t.sparse && t.cols % 4 != 0)

/-- R263: a tensor's own form. -/
def Tensor.ok (t : Tensor) : Bool :=
  t.fmt ≤ 6 && t.rsvd == 0 && (t.beyond || t.data.length == t.rows * t.rowBytes)

/-- R264, R263: bytes of `n` table entries of a format; two MXFP4 entries share a byte, the even-indexed one below. -/
def tableBytes (f n : Nat) : Nat := ceilDiv (n * fmtBits f) 8

/-- R264: a table's own form. -/
def tableOk (b : List Byte) : Bool :=
  let fi := fieldAt b 0 1
  let fo := fieldAt b 1 1
  let n := if fi = 4 then 65536 else 256
  [0, 1, 3, 4, 6].contains fi && fo ≤ 6 && fieldAt b 2 2 == 0 && fieldAt b 4 4 == n && b.length == 8 + tableBytes fo n

/-- What is known of the buffers while a program is checked: format and length. -/
abbrev Shapes := List (Nat × Nat × Nat)

/-- R262, R265: one operator against the shapes of the buffers; the shape that it writes. -/
def opShape (img : List Byte) (gate : Bool) (env : Shapes) (op : NOp) : Option (Option (Nat × Nat)) :=
  let wr (f n : Nat) : Option (Option (Nat × Nat)) :=
    if 1 ≤ op.dst && op.dst ≤ 1023 && n ≤ 4096 then some (some (f, n)) else none
  match op.opc, env.lookup op.a with
  | 0x0F, _ => some none
  | _, none => none
  | opc, some (fa, na) =>
    if op.fin > 6 || op.fout > 6 then none
    else match opc with
    | 1 => if fa = 5 && (!bit op.p0 8 || isMx op.fout) && op.p0 < 1024 then wr op.fout na else none
    | 2 =>
      (match secAt img 5 op.b with
       | none => none
       | some wb =>
         let t := tensorOf wb
         let bi := getF op.p1 0 16
         let biasOk := bi == 0xFFFF || (match secAt img 5 bi with
           | some bb => let b := tensorOf bb; b.fmt == 5 && b.cols == 1 && b.rows == t.rows
           | none => false)
         if t.ok && t.rows = getF op.p0 0 16 && t.cols = getF op.p0 16 16 && (t.beyond || na = t.cols) && biasOk && op.p1 < 2 ^ 25 then
           wr op.fout t.rows else none)
    | 3 =>
      (match secAt img 6 op.b with
       | some tb => if tableOk tb && fieldAt tb 0 1 = fa then wr (fieldAt tb 1 1) na else none
       | none => none)
    | 4 | 5 => (match env.lookup op.b with | some (fb, nb) => if fa = 5 && fb = 5 && na = nb then wr 5 na else none | none => none)
    | 6 => if fa = 5 then wr 5 na else none
    | 7 => if op.p0 = 0 || op.p0 = 512 then wr op.fout na else none
    | 8 =>
      let want : Nat := if gate then (if op.p0 = 0 then nExpert img else 5000)
        else if op.p0 = 1 then 1 else if op.p0 = 2 then nClass img else if op.p0 = 3 then nFeat img else 5000
      if fa = 5 && na = want then some none else none
    | _ => none

/-- R262, R265: a whole program. -/
def progShapes (img : List Byte) (gate : Bool) (prog : List NOp) : Option Shapes :=
  prog.foldl (fun e op => e.bind fun env => (opShape img gate env op).map fun w => match w with
    | some (f, n) => (op.dst, f, n) :: env.filter (·.1 != op.dst)
    | none => env) (some [(0, 5, nFeat img)])

/-- R262: the programs of an image, each with whether it is the gate's. -/
def imgProgs (img : List Byte) : List (Bool × List Byte) :=
  (imgSects img).filterMap fun s => if s.type = 3 then some (true, s.bytes img) else if s.type = 4 then some (false, s.bytes img) else none

/-- R265: opcodes, format codes, outputs, buffers and section references. -/
def programsOk (img : List Byte) : Bool :=
  (imgProgs img).all (fun p => match progOf p.2 with
    | none => false
    | some prog =>
      let outs (k : Nat) : Nat := (prog.filter fun op => op.opc == 8 && op.p0 == k).length
      (progShapes img p.1 prog).isSome &&
      (if p.1 then outs 0 == 1 && outs 1 + outs 2 + outs 3 == 0
       else outs 0 == 0 && outs 1 == 1 && outs 2 == 1 && (attrMode img == 0 || outs 3 == 1))) &&
  (match secAt img 6 (gateTable img) with
   | some tb => tableOk tb && fieldAt tb 0 1 == 4 && fieldAt tb 1 1 == 4
   | none => false)

/-- R265: a bias value is zero, or below 2^40 in magnitude and a multiple of 2^−40. -/
def biasOk (v : Nat) : Bool :=
  match fVal 8 23 v with
  | .fin _ m e => m == 0 || ((decide (e ≥ -40) || m % 2 ^ (-40 - e).toNat == 0) && decide (e + Nat.log2 m < 40))
  | _ => false

/-- R258: operand families. -/
def familyOk (x w : Nat) : Bool := if x = 4 || w = 4 then x == w else if x = 6 || w = 6 then x == w else x ≤ 3 && w ≤ 3

/-- R265: the limits of a MATVEC, with the format of its operand. -/
def matLimits (img : List Byte) (env : Shapes) (op : NOp) : Bool :=
  if op.opc ≠ 2 then true
  else
    let t := tensorOf ((secAt img 5 op.b).getD [])
    let fa := ((env.lookup op.a).map (·.1)).getD 7
    let bi := getF op.p1 0 16
    let bias := if bi = 0xFFFF then [] else (secAt img 5 bi).getD []
    !t.beyond && (!(isMx t.fmt || isMx fa) || t.cols % 32 == 0) && familyOk fa t.fmt && !(t.sparse && t.fmt == 4) &&
    (!isMx t.fmt || (List.range t.rows).all fun r => (t.row r).2.all fun s => 0x77 ≤ s && s ≤ 0x87) &&
    (bias.isEmpty || (List.range t.rows).all fun r => biasOk (fieldAt bias (16 + 4 * r) 4))

/-- R268, R270: a feature descriptor. -/
def featureOk (b : List Byte) : Bool :=
  let k := fieldAt b 0 1
  let a := fieldAt b 2 2
  k ≤ 7 && fieldAt b 1 1 < 2 && fieldAt b 6 1 < 128 && fieldAt b 8 8 == 0 &&
  (if k = 5 then decide (a ≤ 3) else if k = 6 then decide (a ≤ 63) else if k = 3 || k = 4 then decide (a < 32 && (k = 3 || fieldAt b 4 2 < 32))
   else if k = 7 then true else decide (a < 256))

/-- R272: a positive FP32, +Inf among them. -/
def posF (v : Nat) : Bool := fLt 8 23 0 v
/-- R272: an FP32 ≥ 0, −0 among them. -/
def nonnegF (v : Nat) : Bool := !fIsNan 8 23 v && !fLt 8 23 v 0

/-- R272: a detector configuration. -/
def detectorOk (b : List Byte) : Bool :=
  fieldAt b 0 1 < 32 && 1 ≤ fieldAt b 1 1 && fieldAt b 1 1 ≤ 16 && 1 ≤ fieldAt b 2 1 && fieldAt b 2 1 ≤ 64 &&
  3 ≤ fieldAt b 3 1 && fieldAt b 3 1 ≤ 8 && [4, 12, 16, 20, 24].all (fun o => posF (fieldAt b o 4)) && nonnegF (fieldAt b 28 4)

/-- R265: the limits. -/
def limitsOk (img : List Byte) : Bool :=
  (imgProgs img).all (fun p =>
    let prog := (progOf p.2).getD []
    (prog.foldl (fun (s : Shapes × Bool) op =>
      let ok := s.2 && matLimits img s.1 op
      (match opShape img p.1 s.1 op with
       | some (some (f, n)) => (op.dst, f, n) :: s.1.filter (·.1 != op.dst)
       | _ => s.1, ok)) ([(0, 5, nFeat img)], true)).2) &&
  (List.range (nFeat img)).all fun i => featureOk ((sectBytes img 1).drop (16 * i)) && detectorOk ((sectBytes img 2).drop (32 * i))

/-- R266: bytes of the WEIGHTS and TABLE sections of expert `e`, 0xFF for the shared ones. -/
def ownBytes (img : List Byte) (e : Nat) : Nat :=
  ((imgSects img).filter fun s => (s.type == 5 || s.type == 6) && s.expert == e).foldl (fun a s => a + s.len) 0

/-- R266: resident experts of a streamed image. -/
def residentExperts (img : List Byte) : Nat :=
  ((List.range (nExpert img)).foldl (fun (s : Nat × Nat × Bool) e =>
    let (total, r, go) := s
    if go && total + ownBytes img e ≤ 58720256 then (total + ownBytes img e, r + 1, true) else (total, r, false))
    (ownBytes img 0xFF, 0, true)).2.1

/-- What a load's check gives: the model, or a refusal code with NEEDED and AVAILABLE (R265, R266, R285). -/
inductive LoadCheck where
  | ok (m : NoseModel)
  | refused (code needed available : Nat)
deriving DecidableEq, Repr

/-- R265, R266: the checks in the order of the table; `sigOk` is the security block's answer, where it is asked. -/
def checkImage (img : List Byte) (len digest : Nat) (signed sigOk : Bool) : LoadCheck :=
  let w := fieldAt img 32 8
  if !headerOk img len then .refused 5 0 0
  else if !sectionsOk img then .refused 6 0 0
  else if !crcsOk img then .refused 7 0 0
  else if !programsOk img then .refused 8 0 0
  else if !limitsOk img then .refused 9 0 0
  else if w > 100663296 then .refused 3 w 100663296
  else
    let r := if w ≤ 67108864 then nExpert img else residentExperts img
    let tail := (List.range (nExpert img)).drop r
    let big := maxOf (ownBytes img) 0 tail
    if w > 67108864 && ownBytes img 0xFF > 58720256 then .refused 4 (ownBytes img 0xFF) 58720256
    else if w > 67108864 && big > 4194304 then .refused 4 big 4194304
    else if signed && !((imgSect img 0xA).isSome && sigOk) then .refused 12 0 0
    else .ok { image := img, digest, mode := if w ≤ 67108864 then 1 else 2, resident := r
               streamed := if w ≤ 67108864 then 0 else tail.foldl (fun a e => a + ownBytes img e) 0 }

/-- R267: the stride at an interval in 100 µs units: 2 × W_s / (B_s × I), rounded up, at least 1. -/
def NoseModel.stride (m : NoseModel) (interval : Nat) : Nat := max 1 (ceilDiv (2 * m.streamed * 10000) (256_000_000_000 * max 1 interval))

end Sys2Proof.Machine
end

