-- ==== Sys2Proof/Machine/NoseOps.lean ====
section
/-!
DEFINITION. Machine/NoseOps.lean: what closure asks of the Nose: due accords, evaluation records and peer-lag (10 R267,
R275, R280, R281).
-/
namespace Sys2Proof.Machine
open Sys2Proof

/-- R281: the 32-byte evaluation record. -/
def evalBytes (status tag streams no fired done : Nat) : List Byte :=
  le 1 1 ++ le 1 status ++ le 2 tag ++ le 4 streams ++ le 8 no ++ le 4 fired ++ le 4 0 ++ le 8 done

/-- R281: write an evaluation record. -/
def Prd.evalRec (o : Prd) (status tag streams no fired done : Nat) : Prd :=
  o.hnrOwn 4 absent tag 0 done (evalBytes status tag streams no fired done)

/-- R267: the stride in force. -/
def Prd.noseStride (o : Prd) : Nat := match o.nose.model with | some m => m.stride o.accInt | none => 1

/-- R285: whether the Nose evaluates accords: EN, and a model. -/
def Prd.noseOn (o : Prd) : Bool := PrdR.flag o PRD_NOSE_CTRL 0 && o.nose.model.isSome

/-- R281: the accords that wait, in order of closure, and of slots among those that closed in one instant. -/
def Prd.noseQueue (o : Prd) (c no : Nat) : Prd :=
  let at_ (x : Nat × Nat) : Nat :=
    ((o.accs.find? fun a => a.level == 0 && a.kind == 0 && a.no == x.2 && a.tag == (if x.1 = 0 then 0 else (o.slot x.1).tag)).map (·.closeT)).getD 0
  { o with nose := { o.nose with waiting := sortBy (fun x => at_ x * 64 + x.1) (o.nose.waiting ++ [(c, no)]) } }

/-- R267, R268, R281: accord `no` of slot `c` closes tray-locally: it waits for the Nose, or is skipped. Answers whether it
waits. -/
def Prd.noseDue (o : Prd) (c no : Nat) : Prd × Bool :=
  let tag := if c = 0 then 0 else (o.slot c).tag
  let skip (o : Prd) (st : Nat) : Prd × Bool := (o.evalRec st tag 0 no 0 absent, false)
  if c > 32 || !bit (PrdR.get o PRD_NOSE_CTX_EN) c || no / max 1 o.accInt % o.noseStride ≠ 0 then (o, false)
  else if o.nose.copying then skip o 2
  else if !o.noseOn then skip o 3
  else if o.nose.waiting.length ≥ 4 then skip (PrdR.ev (PrdR.cnt o PRD_NOSE_OVERRUNS 0 32 1) PRD_NOSE_EVENTS 2) 1
  else (o.noseQueue c no, true)

/-! ### Sketches (R224, R272) -/

/-- R224: the least value of a sketch bucket. -/
def bucketLo (b : Nat) : Nat := if b < 32 then b else (32 + (b - 32) % 32) * 2 ^ ((b - 32) / 32)
/-- R224: its greatest value. -/
def bucketHi (b : Nat) : Nat := if b < 32 then b else (33 + (b - 32) % 32) * 2 ^ ((b - 32) / 32) - 1
/-- R272: its midpoint. -/
def bucketMid (b : Nat) : Nat := bucketLo b + (bucketHi b - bucketLo b) / 2

/-- R224: the bucket of the element at ascending position `k`, from 1, of a sketch with rising buckets. -/
def sketchAt : List (Nat × Nat) → Nat → Option Nat
  | [], _ => none
  | (b, n) :: r, k => if k ≤ n then some b else sketchAt r (k - n)

/-- R272: the midpoint of the bucket that holds quantile 0.5. -/
def sketchMid (l : List (Nat × Nat)) : Option Nat :=
  let n := l.foldl (fun a x => a + x.2) 0
  if n = 0 then none else (sketchAt l ((n + 1) / 2)).map bucketMid

/-! ### Peer-lag (R275) -/

/-- R275: a PEER entry. -/
structure PeerEntry where
  topk : Nat
  sketch : Nat
  levels : Nat
  persist : Nat
  ratio : Nat
deriving DecidableEq, Repr

/-- R275: the entries of an image; a PERSIST of 0 counts as the default 2 (log entry 62). -/
def peerEntries (img : List Byte) : List PeerEntry :=
  let b := sectBytes img 8
  (List.range (b.length / 16)).map fun i =>
    let p := fieldAt b (16 * i + 5) 1
    { topk := fieldAt b (16 * i) 2, sketch := fieldAt b (16 * i + 2) 2, levels := fieldAt b (16 * i + 4) 1
      persist := if p = 0 then 2 else p, ratio := fieldAt b (16 * i + 8) 8 }

/-- R275: the values of item `k` in every fragment, combined. -/
def fragItem (items : List ItemDesc) (frags : List Frag) (k : Nat) : ItemRes :=
  match items[k]? with
  | none => {}
  | some d => frags.foldl (fun a f => d.combine a ((f.vals.bind fun l => l[k]?).getD {})) {}

/-- R275: the TOPK entries of an entry's pair at or above the ratio, with their position, and the median. -/
def PeerEntry.excess (e : PeerEntry) (items : List ItemDesc) (frags : List Frag) : List (Nat × Nat × Nat × Nat) × Nat :=
  match items[e.topk]?, items[e.sketch]? with
  | some t, some k =>
    if t.op = 0xA && k.op = 9 && t.src = k.src && t.index = k.index then
      match (fragItem items frags e.topk).val, (fragItem items frags e.sketch).val with
      | some (.top l), some (.bins b) =>
        (match sketchMid b with
         | some m =>
           let bound := fMul 11 52 e.ratio (fOfNat 11 52 m)
           ((l.zipIdx.filter fun x => !fLt 11 52 (fOfNat 11 52 x.1.1) bound).map fun x => (x.2 + 1, x.1), m)
         | none => ([], 0))
      | _, _ => ([], 0)
    else ([], 0)
  | _, _ => ([], 0)

/-- R280: the straggler record. -/
def stragglerBytes (level pos persist tag eng no rank entry value median : Nat) : List Byte :=
  le 1 1 ++ le 1 level ++ le 1 pos ++ le 1 persist ++ le 2 tag ++ le 2 eng ++ le 8 no ++ le 4 rank ++ le 4 entry ++
  le 8 value ++ le 8 median ++ le 8 (fDiv 11 52 (fOfNat 11 52 value) (fOfNat 11 52 median))

/-- The persistence counts of peer-lag, by tag, level, entry, rank and engine. -/
abbrev Persist := List (List Nat × Nat)

/-- R275: peer-lag at a closure of level `level` (0 tray, 1 rack, 2 pod): the straggler records, each with its rank, and the counts
after. -/
def peerStep (img : List Byte) (level tag no : Nat) (items : List ItemDesc) (frags : List Frag) (ps : Persist) :
    List (Nat × List Byte) × Persist :=
  if level > 2 then ([], ps)
  else (peerEntries img).zipIdx.foldl (fun (acc : List (Nat × List Byte) × Persist) (x : PeerEntry × Nat) =>
    let (e, i) := x
    if !bit e.levels level then acc
    else
      let (excess, med) := e.excess items frags
      let key (y : Nat × Nat × Nat × Nat) : List Nat := [tag, level, i, y.2.2.1, y.2.2.2]
      let counted := excess.map fun y => (key y, min 255 ((acc.2.lookup (key y)).getD 0 + 1))
      let hits := (excess.zip counted).filterMap fun y =>
        if y.2.2 = e.persist then
          let (pos, v, rank, eng) := y.1
          some (rank, stragglerBytes (level + 1) pos y.2.2 tag eng no rank i v med)
        else none
      (acc.1 ++ hits, counted ++ acc.2.filter fun p => p.1.take 3 != [tag, level, i])) ([], ps)

/-- R275, R279, R280: peer-lag at the closure of an accord. -/
def Prd.peerLag (o : Prd) (level tag no : Nat) (items : List ItemDesc) (frags : List Frag) : Prd :=
  match o.nose.model with
  | none => o
  | some m =>
    let on := PrdR.flag o PRD_NOSE_CTRL 0 && (match o.slotOf tag with | some c => decide (c > 32) || bit (PrdR.get o PRD_NOSE_CTX_EN) c | none => false)
    if !on then o
    else
      let (hits, persist) := peerStep m.image level tag no items frags o.nose.persist
      hits.foldl (fun (o : Prd) y =>
        (PrdR.ev (o.hnrOwn 3 absent tag y.1 absent y.2) PRD_NOSE_EVENTS 4).triggerOf 5 tag (no * 400000) y.1)
        { o with nose := { o.nose with persist } }

end Sys2Proof.Machine
end

