-- ==== Sys2Proof/Machine/Closure.lean ====
section
/-!
DEFINITION. Machine/Closure.lean: the closure of accords at a node of the fleet tree (03 R84 to R92, 09 R228, R231 to R236).
-/
namespace Sys2Proof.Machine
open Sys2Proof

/-! ### Nodes and blocks (R211, R229, R234) -/

/-- Trays below a node of level `l`. -/
def span (l : Nat) : Nat := match l with | 0 => 1 | 1 => 8 | 2 => 128 | _ => 4096

/-- The leaves of a context's tree (R220, R223). -/
def Prd.leavesOf (o : Prd) (tag : Nat) : Nat :=
  if tag = 0 then 131072 else ((o.slotOf tag).map fun c => (o.slot c).nRanks).getD 0

/-- R233: the height of a context's tree. -/
def Prd.heightOf (o : Prd) (tag : Nat) : Nat := treeHeight (o.leavesOf tag)

/-- R229, R234: the blocks below this Priord's node of level `l`, each with its home tray. -/
def Prd.blocksAt (o : Prd) (tag l : Nat) : List (Nat × Nat) :=
  let inside (t : Nat) : Bool := t / span l == o.tray / span l
  if tag = 0 then
    if l = 0 then [(o.tray, o.tray)]
    else (o.cfg.roles.filter fun x => bit x.2 0 && inside x.1).map fun x => (x.1, x.1)
  else match o.slotOf tag with
    | none => []
    | some c => ((o.slot c).homes.zipIdx.map fun e => (e.2, homeTray e.1)).filter fun p => inside p.2

/-- R234: the ranks of a block: those of the job, or all 32 fleet ranks of a tray. -/
def Prd.blockRanks (o : Prd) (tag b : Nat) : List Nat :=
  ((List.range 32).map (32 * b + ·)).filter fun r => decide (r < o.leavesOf tag)

/-- R87, R94: the deadline of a level in ticks. -/
def Prd.deadline (o : Prd) (l : Nat) : Nat := PrdR.fld o PRD_ACC_DEADLINES (8 * l) 8 * tickUs

/-! ### Accords at a node -/

/-- Whether an accord is the one named. -/
def AccNode.is (a : AccNode) (tag kind no level : Nat) : Bool := a.tag == tag && a.kind == kind && a.no == no && a.level == level

/-- The accord of a context at a level. -/
def Prd.acc? (o : Prd) (tag kind no level : Nat) : Option AccNode := o.accs.find? (·.is tag kind no level)

/-- Change it. -/
def Prd.setAcc (o : Prd) (tag kind no level : Nat) (f : AccNode → AccNode) : Prd :=
  { o with accs := updFirst (·.is tag kind no level) f o.accs }

/-- Whether a rank has contributed. -/
def AccNode.has (a : AccNode) (r : Nat) : Bool := a.contribs.any (·.rank == r)
/-- Whether a rank is declared absent. -/
def AccNode.gapped (a : AccNode) (r : Nat) : Bool := a.gaps.any (·.1 == r)
/-- R92: the expected ranks with neither. -/
def AccNode.missing (a : AccNode) : List Nat := a.expected.filter fun r => !a.has r && !a.gapped r
/-- R234: the children that owe blocks: trays in a rack, racks in a pod, pods in the hall. -/
def AccNode.units (a : AccNode) : List Nat := (a.owed.map (·.2)).eraseDups
/-- The child that a partial comes from. -/
def AccNode.unitOf (a : AccNode) (p : Partial) : Nat := p.from_ / span (a.level - 1)
/-- The first partial of each child that has delivered. -/
def AccNode.delivered (a : AccNode) : List Partial := a.units.filterMap fun u => a.parts.find? fun p => a.unitOf p == u

/-- R82, R86, R87: the closure state that an open accord reaches, none while it stays open. `late` says that its deadline has
passed; a fast accord closes then and no sooner. -/
def AccNode.verdict (a : AccNode) (late : Bool) : Option Nat :=
  if a.level = 0 then
    if a.kind = 1 && !late then none
    else if a.expected.all a.has then some 1
    else if a.missing.isEmpty then some 2
    else if late then some 3 else none
  else
    let ps := a.delivered
    if ps.length = a.units.length then
      if ps.all (·.summary.state == 1) then some 1
      else if ps.any (·.summary.state == 3) then some 3 else some 2
    else if late then some 3 else none

/-- R92: entries of a missing-rank list ascend by rank. -/
def sortMiss (l : List (Nat × Nat)) : List (Nat × Nat) := sortBy (·.1) l

/-! ### Tray closure (R91, R234) -/

/-- R91: the contributions that the tray partial excludes. -/
def Prd.excluded (o : Prd) (a : AccNode) : List Contrib :=
  if a.kind ≠ 0 || (a.tag ≠ 0 && o.topOf a.tag == 0) then [] else a.contribs.filter fun c => decide (c.grade ≥ 2)

/-- R278: the score of a stream of an accord in binary64. -/
def Prd.scoreOf (o : Prd) (tag no rank eng : Nat) : Option Nat :=
  let id := if eng = 0x1FF then rank + 2 ^ 32 else rank + eng * 2 ^ 20
  (o.nose.scores.find? fun x => x.tag == tag && x.no == no && x.id == id).map fun x => fConv 8 23 11 52 x.v

/-- R227: a rank's first-NaN records of an accord interval: those stamped up to the cut's edge, later than the edge of
the cut before. -/
def Prd.nansOf (o : Prd) (a : AccNode) (rank : Nat) : List (List Byte) :=
  let from_ := if a.prev = absent then 0 else a.prev * 400000 + 2
  (o.nans.filter fun x => x.1 == a.tag && x.2.1 == rank && decide (from_ ≤ fieldAt x.2.2 8 8 && fieldAt x.2.2 8 8 < a.t + 2)).map (·.2.2)

/-- R222, R227: the leaf of a contribution: a value for each item. -/
def Prd.leafOf (o : Prd) (a : AccNode) (c : Contrib) : List ItemRes :=
  a.items.map fun d => d.rankVal a.tag c.rank c.image c.base (o.nansOf a c.rank) (o.scoreOf a.tag a.no c.rank)

/-- R234: the fragments of the blocks that this tray homes. -/
def Prd.trayFrags (o : Prd) (a : AccNode) : List Frag :=
  let ex := (o.excluded a).map (·.rank)
  let leaves := sortBy (·.1) ((a.contribs.filter fun c => !ex.contains c.rank).map fun c => (c.rank, o.leafOf a c))
  let h := min 5 (o.heightOf a.tag)
  (o.blocksAt a.tag 0).map fun b =>
    let mine := leaves.filter fun x => x.1 / 32 == b.1
    ⟨h, b.1, treeEval (combineItems a.items) h b.1 mine⟩

/-- R91, R92: a tray accord closes: the tray-local result and the partial's summary. -/
def Prd.closeTray (o : Prd) (a : AccNode) (st : Nat) (late : Bool) : Prd :=
  let gaps := a.gaps.map fun g => (g.1, g.2.1)
  let miss := a.missing.map fun r => (r, 0x40)
  let ex := o.excluded a
  let loc : Summary :=
    { level := 0, state := st, kind := a.kind, tag := a.tag, no := a.no, tClose := o.ft, expected := a.expected.length
      contributed := a.contribs.length, gapped := gaps.length, missing := miss.length, listLen := gaps.length + miss.length }
  let sum : Summary :=
    { loc with level := 1, state := if ex.isEmpty then st else max st 2, contributed := a.contribs.length - ex.length
               excluded := ex.length, listLen := loc.listLen + ex.length }
  let o := o.setAcc a.tag a.kind a.no 0 fun a =>
    { a with st := st, closeT := o.ft, local_ := loc, localMiss := sortMiss (gaps ++ miss), sum
             miss := sortMiss (gaps ++ miss ++ ex.map fun c => (c.rank, 0x41)) }
  let o := if late && st == 3 then PrdR.ev o PRD_ACC_EVENTS 0 else o
  let o := if ex.isEmpty then o else PrdR.cnt (PrdR.ev o PRD_ACC_EVENTS 3) PRD_ACC_EXCLUDED 0 32 ex.length
  let o := if a.tag = 0 && a.kind = 0 then PrdR.set o (PRD_ACC_LAST_CLOSED 0) a.no else o
  let o := o.hnrClosed a 0 (summaryBytes loc ++ missBytes (sortMiss (gaps ++ miss)))
  o.subClosed a.tag a.kind 0 a.no (a.kind == 1)

/-- R26, R284: what heart notes keep of a closed accord above the tray-local level: its partial, and after it the item table that
its fragments follow, so that a replay can read it (log entry 50). -/
def Prd.resultNote (o : Prd) (a : AccNode) : List Byte := (a.partial_ o.tray o.tree.epoch).bytes a.items ++ a.items.flatMap ItemDesc.bytes

/-- R234: the tray's fragments become final. -/
def Prd.finishTray (o : Prd) (tag no : Nat) : Prd :=
  match o.acc? tag 0 no 0 with
  | none => o
  | some a =>
    let frags := o.trayFrags a
    let o := o.setAcc tag 0 no 0 fun a => { a with frags, hold := false }
    let o := { o with nans := o.nans.filter fun x => x.1 != tag || decide (fieldAt x.2.2 8 8 ≥ a.t + 2) }
    let o := o.hnrClosed a 1 (o.resultNote { a with frags })
    (o.subClosed tag 0 1 no (decide (tag ≠ 0) && o.topOf tag == 0)).peerLag 0 tag no a.items frags

/-! ### Rack, pod and hall closure (R234, R236) -/

/-- R233: whether a fragment covers a block. -/
def Frag.covers (f : Frag) (h b : Nat) : Bool := b / 2 ^ (f.h - h) == f.i
/-- Whether two fragments share a leaf. -/
def Frag.meets (f g : Frag) : Bool := if f.h ≤ g.h then f.i / 2 ^ (g.h - f.h) == g.i else g.i / 2 ^ (f.h - g.h) == f.i

/-- R234: the blocks below a node that need an EMPTY fragment: owed ones that no child delivered, and, in the fleet context,
those of the trays that are not POPULATED. -/
def Prd.emptyBlocks (o : Prd) (a : AccNode) : List Nat :=
  let h := min 5 (o.heightOf a.tag)
  let all := if a.tag = 0 then (List.range (span a.level)).map (o.tray / span a.level * span a.level + ·) else a.owed.map (·.1)
  all.filter fun b => !a.frags.any (·.covers h b)

/-- R92, R234: a node closes on its children's partials. DEADLINE_CLOSE says that its own deadline closed it, not that a child's
partial is DEADLINE (log entry 38). -/
def Prd.closeNode (o : Prd) (a : AccNode) (st : Nat) (late : Bool) : Prd :=
  let ps := a.delivered
  let got := ps.map a.unitOf
  let lost := ((a.owed.filter fun x => !got.contains x.2).flatMap fun x => o.blockRanks a.tag x.1).map fun r => (r, 0x42)
  let add (f : Summary → Nat) : Nat := ps.foldl (fun n p => n + f p.summary) 0
  let miss := sortMiss (ps.flatMap (·.missing) ++ lost)
  let sum : Summary :=
    { level := a.level + 1, state := st, kind := a.kind, tag := a.tag, no := a.no, tClose := o.ft
      expected := add (·.expected) + lost.length, contributed := add (·.contributed), gapped := add (·.gapped)
      excluded := add (·.excluded), missing := add (·.missing) + lost.length, listLen := miss.length }
  let h := min 5 (o.heightOf a.tag)
  let frags := mergeFrags a.items (o.leavesOf a.tag) (a.frags ++ (o.emptyBlocks a).map fun b => ⟨h, b, none⟩)
  let o := o.setAcc a.tag a.kind a.no a.level fun a => { a with st := st, closeT := o.ft, sum, miss, frags }
  let o := o.hnrClosed a (a.level + 1) (o.resultNote { a with sum, miss, frags })
  let o := if late then PrdR.ev o PRD_ACC_EVENTS 0 else o
  let o := if a.tag = 0 then PrdR.set o (PRD_ACC_LAST_CLOSED a.level) a.no else o
  (o.subClosed a.tag a.kind (a.level + 1) a.no (a.level == o.topOf a.tag)).peerLag a.level a.tag a.no a.items frags

/-! ### Moving up (R233 to R236) -/

/-- R236: a node takes a partial, and those of its fragments that share no leaf with one it holds. -/
def AccNode.take (a : AccNode) (p : Partial) : AccNode :=
  { a with parts := a.parts ++ [p], frags := a.frags ++ p.frags.filter fun f => !a.frags.any (·.meets f) }

/-- R87: close an open accord if it can close. -/
def Prd.close? (o : Prd) (tag kind no level : Nat) (late : Bool) : Option Prd :=
  match o.acc? tag kind no level with
  | none => none
  | some a =>
    if a.st ≠ 0 || (o.slotOf tag).isNone then none
    else match a.verdict late with
      | none => none
      | some st =>
        if level ≠ 0 then some (o.closeNode a st late)
        else
          let o := o.closeTray a st late
          if kind ≠ 0 then some o
          else
            let (o, waits) := o.noseDue ((o.slotOf tag).getD 0) no
            if waits && a.items.any (·.src == 4) then some (o.setAcc tag 0 no 0 fun a => { a with hold := true })
            else some (o.finishTray tag no)

/-- R90: a late contribution to an accord of this node, or a late partial of level `level`. -/
def Prd.lateIn (o : Prd) (tag rank no level t : Nat) (body : List Byte) : Prd :=
  let o := o.hnrPut { rcls := 0x11, key := no, tag, rank, ft := t, late := true, rtype := 1, body }
  (PrdR.cnt (PrdR.ev o PRD_ACC_EVENTS 1) PRD_ACC_LATE 0 32 1).event
    { code := 0x20, sev := 2, tag, rank := if level = 0 then some rank else none, payload := le 8 no ++ le 1 level }

/-- R29, R236: a partial reaches the accord of its level at this node, and goes into heart notes (R26): the first of each sender,
of the accord's own item table, from a child that owes blocks, while the accord is open and its deadline lies ahead; a later one
is late. Answers whether it was taken. -/
def Prd.partialTo (o : Prd) (p : Partial) : Prd × Bool :=
  match o.acc? p.tag 0 p.no p.level with
  | none => (o, false)
  | some a =>
    if a.parts.any (·.from_ == p.from_) || a.lateFrom.contains p.from_ || p.itemEpoch ≠ a.epoch || !a.units.contains (a.unitOf p) then
      (o, false)
    else if a.st ≠ 0 || decide (o.ft ≥ a.t + o.deadline a.level) then
      ((o.setAcc p.tag 0 p.no p.level fun a => { a with lateFrom := p.from_ :: a.lateFrom }).lateIn p.tag 0 p.no p.level a.t (p.bytes a.items),
        false)
    else
      ((o.setAcc p.tag 0 p.no p.level fun a => a.take p).hnrPut { key := absent, tag := p.tag, ft := a.t, body := p.bytes a.items }, true)

/-- R234: a closed accord goes up from level `level`, through the levels that this Priord holds itself, to another node. -/
def Prd.rise (tag no : Nat) : Nat → Nat → Prd → Prd
  | 0, _, o => o
  | fuel + 1, level, o =>
    match o.acc? tag 0 no level with
    | none => o
    | some a =>
      if a.st = 0 || a.hold || decide (level ≥ o.topOf tag) then o
      else match o.parentAt o.tree.roles level with
        | none => o
        | some p =>
          if p = o.tray then
            let r := o.partialTo (a.partial_ o.tray o.tree.epoch)
            if r.2 then
              match r.1.close? tag 0 no (level + 1) false with
              | some o => Prd.rise tag no fuel (level + 1) o
              | none => r.1
            else r.1
          else (o.sendPartial a p).setAcc tag 0 no level fun a => { a with sentTo := some p }

/-- R87, R234: close an accord if it can, and send it up. -/
def Prd.settle (o : Prd) (tag kind no level : Nat) (late : Bool) : Prd :=
  match o.close? tag kind no level late with
  | none => o
  | some o => if kind = 0 then Prd.rise tag no 4 level o else o

/-- R281, R234: the scores of a held accord are there: its partial goes up. -/
def Prd.releaseHold (o : Prd) (tag no : Nat) : Prd :=
  match o.acc? tag 0 no 0 with
  | some a => if a.hold then Prd.rise tag no 4 0 (o.finishTray tag no) else o
  | none => o

/-! ### Gap records (R89) -/

/-- R88, R89: a gap for a rank of an open accord; the first of contribution and gap stands. `ft` is the instant of a
declaration of this Priord's own. -/
def Prd.applyGap (o : Prd) (tag kind no rank reason ft : Nat) : Prd :=
  match o.acc? tag kind no 0 with
  | none => o
  | some a =>
    if a.st ≠ 0 || !a.expected.contains rank || a.has rank || a.gapped rank || decide (o.ft ≥ a.t + o.deadline 0) then o
    else (o.setAcc tag kind no 0 fun a => { a with gaps := a.gaps ++ [(rank, reason, ft)] }).settle tag kind no 0 false

/-- R89: the accords of a gap record: COUNT consecutive ones from ACCORD_NO, of those that this node has opened. -/
def Prd.gapCovers (o : Prd) (g : GapRec) (a : AccNode) : Bool :=
  a.level == 0 && a.tag == g.tag && a.kind == g.kind && decide (g.no ≤ a.no) &&
  decide ((o.accs.filter fun b => b.level == 0 && b.tag == g.tag && b.kind == g.kind && decide (g.no ≤ b.no && b.no < a.no)).length < g.count)

/-- R89: this Priord declares the rank of the die on port `n` absent. -/
def Prd.issueGap (o : Prd) (n tag rank kind no reason : Nat) : Prd :=
  let g : GapRec := { reason, origin := 1, kind, tag, no, rank, count := 1, ftDecl := o.ft }
  let o := o.hnrPut { rcls := 0, key := absent, tag, rank, ft := o.ft, rtype := 2, stream := 0x100, body := gapBytes g }
  let o := PrdR.cnt (PrdR.ev o PRD_ACC_EVENTS 4) PRD_ACC_GAPS 0 32 1
  match o.awayHome (.port n) tag rank with
  | some dst => o.forward dst 1 tag rank (gapBytes g)
  | none => o.applyGap tag kind no rank reason o.ft

/-- R419: whether a rank of a context is still expected in an accord cut at `t`. -/
def Ctx.awaits (x : Ctx) (t rank : Nat) : Bool :=
  !(x.st == 3 && (match x.ended.lookup rank with | some e => decide (e < t) | none => false))

/-- The contexts and ranks that the die on port `n` serves in an accord cut at `t`. -/
def Prd.servedBy (o : Prd) (n t : Nat) : List (Nat × Nat) :=
  (if o.populated n then [(0, o.location n)] else []) ++
  (o.ctx.filter fun (x : Nat × Ctx) => x.1 ≠ 0 && (x.2.st == 2 || x.2.st == 3) && decide (x.2.s ≤ t)).flatMap fun (x : Nat × Ctx) =>
    (x.2.served.filter fun p => p.1 == n && x.2.awaits t p.2).map fun p => (x.2.tag, p.2)

/-- R89: declare the die on port `n` absent in every accord still open without its contribution. An accord that another
tray homes is open there while its deadline lies ahead. -/
def Prd.declareOpen (o : Prd) (n reason : Nat) : Prd :=
  (o.servedBy n (if o.accPrev = absent then 0 else o.accPrev * 400000)).foldl (fun (o : Prd) (x : Nat × Nat) =>
    match o.awayHome (.port n) x.1 x.2 with
    | some _ =>
      if o.accPrev ≠ absent && decide (o.ft < o.accPrev * 400000 + o.deadline 0) then o.issueGap n x.1 x.2 0 o.accPrev reason else o
    | none =>
      (o.accs.filter fun a => a.level == 0 && a.st == 0 && a.tag == x.1 && a.expected.contains x.2 && !a.has x.2 && !a.gapped x.2).foldl
        (fun (o : Prd) a => o.issueGap n x.1 x.2 a.kind a.no reason) o) o

/-- R89: the reason for which the die on port `n` is absent from every accord that opens, if there is one. -/
def Prd.standing (o : Prd) (n : Nat) : Option Nat :=
  let p := o.port n
  if p.withdrawn then some 3
  else if p.failedOtu.isSome then some 4
  else if p.link.st = 0 then (if bit (o.portCfg n) 2 then none else some 2)
  else if p.noTime then some 1 else none

/-- R89: the gaps of the dies with a standing reason in an accord that opens. -/
def Prd.standingGaps (o : Prd) (kind no t : Nat) : Prd :=
  (List.range 32).foldl (fun (o : Prd) n =>
    match o.standing n with
    | none => o
    | some reason => (o.servedBy n t).foldl (fun (o : Prd) (x : Nat × Nat) => o.issueGap n x.1 x.2 kind no reason) o) o

/-- R89: a gap record reaches the rank home, or the serving tray sends it there. It counts for the accords opened so far
and for those that open later. A malformed one declares nothing. -/
def Prd.gapIn (o : Prd) (src : RecSrc) (g : GapRec) : Prd :=
  if !g.ok then o else match o.awayHome src g.tag g.rank with
  | some dst => o.forward dst 1 g.tag g.rank (gapBytes g)
  | none =>
    -- a die's own gap in the fleet context bears rank 0: its fleet rank is its location (R223)
    let g := match src with | .port n => if g.tag = 0 then { g with rank := o.location n } else g | .fwd _ => g
    let o := (o.accs.filter (o.gapCovers g)).foldl (fun (o : Prd) a => o.applyGap a.tag a.kind a.no g.rank g.reason absent) o
    let seen := (o.accs.filter (o.gapCovers g)).length
    if seen < g.count then { o with gapRuns := (g :: o.gapRuns).take 4096 } else o

/-! ### Opening (R84, R87, R228) -/

/-- R84, R419: the ranks expected at the tray in an accord cut at `t`. -/
def Prd.expectedAt (o : Prd) (c t : Nat) : List Nat :=
  if c = 0 then ((List.range 32).filter o.populated).map o.location
  else
    ((o.slot c).homed o.tray).filter ((o.slot c).awaits t)

/-- R87: open an accord of slot `c` at one level of this node. -/
def Prd.openAt (o : Prd) (c kind no t prev level : Nat) : Prd :=
  let x := o.slot c
  let tag := if c = 0 then 0 else x.tag
  let blocks := o.blocksAt tag level
  if !o.holds o.tree.roles level || decide (level > o.topOf tag) || blocks.isEmpty || (o.acc? tag kind no level).isSome then o
  else
    let a : AccNode :=
      { level, tag, kind, no, t, prev, epoch := x.itemEpoch, items := if kind = 0 && !o.safe then x.items else []
        expected := if level = 0 then o.expectedAt c t else []
        owed := if level = 0 then [] else blocks.map fun b => (b.1, b.2 / span (level - 1)) }
    { o with accs := a :: o.accs }

/-- R419: the slots whose contexts open an accord cut at `t`. -/
def Prd.openSlots (o : Prd) (t : Nat) : List Nat :=
  0 :: (o.ctx.filter fun (x : Nat × Ctx) => x.1 ≠ 0 && (x.2.st == 2 || x.2.st == 3) && decide (x.2.s ≤ t)).map (·.1)

/-- R228, R242: what takes effect from the accord cut at `t`: a new tree and new item tables. -/
def Prd.takeEffect (o : Prd) (t : Nat) : Prd :=
  let swap (x : Nat × Ctx) : Nat × Ctx :=
    let (due, later) := x.2.nextItems.partition fun y => decide (y.1 ≤ t)
    (x.1, { x.2 with items := ((due.getLast?).map (·.2)).getD x.2.items, itemEpoch := x.2.itemEpoch + due.length, nextItems := later })
  { o with tree := { o.tree with roles := o.tree.next.getD o.tree.roles, next := none }, ctx := o.ctx.map swap }

/-- R87: open accord `no` cut at `t` in every context that takes it, with the gaps that stand. -/
def Prd.openAccord (o : Prd) (kind no t prev : Nat) : Prd :=
  let cs := o.openSlots t
  let o := cs.foldl (fun (o : Prd) c =>
    (if kind = 0 then [0, 1, 2, 3] else [0]).foldl (fun (o : Prd) l => o.openAt c kind no t prev l) o) o
  let o := o.standingGaps kind no t
  let o := o.gapRuns.foldl (fun (o : Prd) g =>
    (o.accs.filter fun a => a.no == no && o.gapCovers g a).foldl (fun (o : Prd) a => o.applyGap a.tag a.kind a.no g.rank g.reason absent) o) o
  let live (g : GapRec) : Bool := decide ((o.accs.filter (o.gapCovers g)).length < g.count)
  let o := { o with gapRuns := o.gapRuns.filter live }
  cs.foldl (fun (o : Prd) c =>
    let tag := if c = 0 then 0 else (o.slot c).tag
    (if kind = 0 then [0, 1, 2, 3] else [0]).foldl (fun (o : Prd) l => o.settle tag kind no l false) o) o

/-- R62, R63, R83: the regular cut instant that is due: after a forward step the pending one first, and then the first
multiple of the interval after the new time. -/
def Prd.openRegular (o : Prd) : Prd :=
  let i := o.accInt * 400000
  if o.accInt = 0 || (o.accNext ≠ absent && decide (o.ft < o.accNext && o.accNext ≤ o.ft + i)) then o
  else
    let t := if decide (o.accNext ≤ o.ft) then o.accNext else o.ft / i * i
    let sw := o.accSwitch.filter fun x => decide (x.1 ≤ o.ft)
    let i' := match sw with | some (_, n) => n * 400000 | none => i
    let next := if t + i' ≤ o.ft then (o.ft / i' + 1) * i' else t + i'
    let o := { o with accInt := i' / 400000, accSwitch := if sw.isSome then none else o.accSwitch, accNext := next }
    let o := (o.takeEffect t).openAccord 0 (t / 400000) t o.accPrev
    { o with accPrev := t / 400000 }.pulse 0x100 t

/-- ACCORD_OPEN. -/
def execAccordOpen (fast : Bool) (t : Nat) (s : State) : Host.Outcome State Fault Refusal :=
  .next (s.onPrd fun o =>
    let o := o.go t
    if fast then (o.openAccord 1 (o.ft / 40000) (o.ft / 40000 * 40000) absent).pulse 0x101 (o.ft / 40000 * 40000) else o.openRegular)

/-! ### Contributions (R84, R85, R88, R90) -/

/-- R85: the reference of a rank, context and kind. -/
def Prd.accRef (o : Prd) (tag rank kind : Nat) : AccRef :=
  (o.refs.find? fun r => r.tag == tag && r.rank == rank && r.kind == kind).getD { tag, rank, kind, no := absent }

/-- Replace it. -/
def Prd.setRef (o : Prd) (r : AccRef) : Prd :=
  { o with refs := r :: o.refs.filter fun x => !(x.tag == r.tag && x.rank == r.rank && x.kind == r.kind) }

/-- R85, R232: ask the OTU for a KEY record. -/
def Prd.requestKey (o : Prd) (src : RecSrc) (tag rank kind : Nat) : Prd :=
  match src with
  | .port n => o.setPort n { o.port n with link := (o.port n).link.sendCtrl (keyMsg (if kind = 1 then 2 else 1)) }
  | .fwd t => o.forward (((o.slotOf tag).bind fun c => (o.slot c).from_.lookup rank).getD t) 0x80 tag rank []

/-- R85: a record is discarded: KEY request, loss, and a gap where its accord is known and open. -/
def Prd.discardRecord (o : Prd) (src : RecSrc) (tag rank : Nat) (body : List Byte) : Prd :=
  let h := accHdrOf body
  let o := PrdR.cnt (PrdR.ev o PRD_ACC_EVENTS 2) PRD_ACC_LOSS 0 32 1
  let o := o.requestKey src tag rank (if accHdrRead body then h.kind else 0)
  let n := match src with | .port n => n | .fwd _ => 32
  match (if accHdrRead body then o.acc? tag h.kind h.no 0 else none) with
  | some a =>
    if a.st = 0 && a.expected.contains rank && !a.has rank && !a.gapped rank then
      (o.event { code := 0x21, sev := 3, tag, rank := some rank, payload := le 8 h.no ++ le 2 (0x100 + h.kind % 256) }).issueGap n tag rank h.kind h.no 5
    else o
  | none => o

/-- R88: whether an open accord takes a rank's contribution now; a gap that this Priord has declared in this very instant
gives way. -/
def Prd.takes (o : Prd) (a : AccNode) (rank : Nat) : Bool :=
  a.st == 0 && a.expected.contains rank && !a.has rank && decide (o.ft < a.t + o.deadline 0) &&
  !a.gaps.any fun g => g.1 == rank && g.2.2 != o.ft

/-- R83: the open accords between a STEPPED record's and number `hi` that a rank has neither contributed to nor been declared
absent from: the step passed over them. -/
def Prd.passedOver (o : Prd) (tag rank kind hi : Nat) : List AccNode :=
  let r := o.accRef tag rank kind
  if r.stepped.isNone then []
  else o.accs.filter fun b => b.level == 0 && b.tag == tag && b.kind == kind && b.st == 0 && decide (r.no < b.no && b.no < hi) &&
    b.expected.contains rank && !b.has rank && !b.gapped rank

/-- R83: the ranks of an accord at its deadline that are absent because their die's forward step passed over it: their STEPPED
record came after its instant, and no record of a later accord has come (log entry 39). -/
def Prd.stepGaps (o : Prd) (tag kind no : Nat) : Prd :=
  match o.acc? tag kind no 0 with
  | none => o
  | some a =>
    let passed (r : Nat) : Bool := let x := o.accRef tag r kind; decide (x.no < no) && x.stepped.any fun t => decide (a.t ≤ t)
    (a.missing.filter passed).foldl (fun (o : Prd) r =>
      let o := PrdR.cnt (PrdR.ev o PRD_ACC_EVENTS 4) PRD_ACC_GAPS 0 32 1
      let o := o.hnrPut { tag, rank := r, ft := o.ft, rtype := 2, stream := 0x100,
                          body := gapBytes { reason := 7, origin := 1, kind, tag, no, rank := r, count := 1, ftDecl := o.ft } }
      o.setAcc tag kind no 0 fun a => { a with gaps := a.gaps ++ [(r, 7, o.ft)] }) o

/-- R83, R84, R88, R90: an accepted record of a rank: a contribution, a gap if it is STEPPED, or late. -/
def Prd.contribute (o : Prd) (src : RecSrc) (tag rank : Nat) (h : AccHdr) (image : Image) (body : List Byte) : Prd :=
  let n := match src with | .port n => n | .fwd _ => 32
  let late (o : Prd) : Prd :=
    let o := o.lateIn tag rank h.no 0 h.tCut body
    match src with
    | .fwd _ => if (o.acc? tag h.kind h.no 0).all (·.st != 0) then PrdR.cnt (PrdR.ev o PRD_TREE_EVENTS 3) PRD_FWD_LATE 0 32 1 else o
    | .port _ => o
  match o.acc? tag h.kind h.no 0 with
  | none => if h.tCut ≤ o.ft then late o else o
  | some a =>
    if !o.takes a rank then late o
    else if bit h.flags 6 then o.issueGap n tag rank h.kind h.no 7
    else
      let r := o.accRef tag rank 0
      let base := if h.kind = 0 && r.last ≠ absent && r.last = a.prev then some r.lastImage else none
      let c : Contrib := { rank, grade := getF h.flags 1 3, interval := h.interval, image := if h.kind = 2 then {} else image, base }
      let o := if h.kind = 0 then o.setRef { r with last := h.no, lastImage := image } else o
      let o := o.setAcc tag h.kind h.no 0 fun a => { a with contribs := a.contribs ++ [c], gaps := a.gaps.filter (·.1 != rank) }
      o.settle tag h.kind h.no 0 false

/-- R81: the counters of a fast record, from its selection and its values. -/
def fastImage (sel vals : List (Nat × Nat)) : Image :=
  { ctr := (sel.filter fun x => bit x.2 15).foldl (fun t x => Tbl.put (fun _ => 0) t (getF x.2 0 15) (Tbl.get (fun _ => 0) vals x.1)) [] }

/-- R85: an accord record that has passed its record check. -/
def Prd.accordIn (o : Prd) (src : RecSrc) (tag rank : Nat) (body : List Byte) : Prd :=
  match o.awayHome src tag rank with
  | some dst => o.forward dst 0 tag rank body
  | none =>
    let h := accHdrOf body
    -- R419: a record of no context, or from before its context's S, is no more than a heart note
    if (match o.slotOf tag with | some c => c ≠ 0 && accHdrOk body && decide (h.tCut < (o.slot c).s) | none => true) then o
    else
      let r := o.accRef tag rank h.kind
      let decoded : Option (Image × List (Nat × Nat) × List (Nat × Nat)) :=
        if !accHdrOk body || !(bit h.flags 0 || (r.no ≠ absent && r.no = h.prevNo)) then none
        else if h.kind = 1 then (decodeFast r.sel r.vals body).map fun x => (fastImage x.2.1 x.2.2, x.2.1, x.2.2)
        else (decodeAccord r.image body).map fun x => (x.2, [], [])
      match decoded with
      | none => o.discardRecord src tag rank body
      | some (image, sel, vals) =>
        let n := match src with | .port n => n | .fwd _ => 32
        let o := (o.passedOver tag rank h.kind h.no).foldl (fun (o : Prd) b => o.issueGap n tag rank b.kind b.no 7) o
        let o := o.setRef { o.accRef tag rank h.kind with no := h.no, image, sel, vals, stepped := if bit h.flags 6 then some o.ft else none }
        let o := match src with
          | .port n => if h.kind = 0 then
              PrdR.set (o.setPort n { o.port n with lastNo := h.no }) (PRD_ACC_DP_LAST n) h.no else o
          | .fwd _ => o
        if h.kind = 2 then o.hangAccord tag rank (o.accRef tag rank 0).image image else o.contribute src tag rank h image body

/-! ### Partials (R236) -/

/-- R236: a child's partial; one that lists a rank of 131,072 or more is malformed (R21). -/
def Prd.partialIn (o : Prd) (p : Partial) : Prd :=
  if !p.crcOk || p.level = 0 || p.level > 3 || p.missing.any (fun x => decide (x.1 ≥ 2 ^ 17)) then o
  else
    let r := o.partialTo p
    if r.2 then r.1.settle p.tag 0 p.no p.level false else r.1

/-! ### Commands -/

/-- ACCORD_RECORD_RX. -/
def execAccordRecordRx (src : RecSrc) (tag rank : Nat) (body : List Byte) (t : Nat) (s : State) : Host.Outcome State Fault Refusal :=
  .next (s.onPrd fun o => (o.go t).accordIn src tag rank body)

/-- GAP_RECORD_RX. -/
def execGapRecordRx (src : RecSrc) (g : GapRec) (t : Nat) (s : State) : Host.Outcome State Fault Refusal :=
  .next (s.onPrd fun o => (o.go t).gapIn src g)

/-- CLOSURE_DEADLINE: T + the level's deadline is reached with the accord open. -/
def execClosureDeadline (level ctx kind no t : Nat) (s : State) : Host.Outcome State Fault Refusal :=
  .next (s.onPrd fun o =>
    let o := o.go t
    let tag := if ctx = 0 then 0 else (o.slot ctx).tag
    match o.acc? tag kind no level with
    | some a =>
      if o.ft ≥ a.t + o.deadline level then
        (if level = 0 && a.st = 0 then o.stepGaps tag kind no else o).settle tag kind no level true
      else o
    | none => o)

/-- PARTIAL_RX. -/
def execPartialRx (p : Partial) (t : Nat) (s : State) : Host.Outcome State Fault Refusal :=
  .next (s.onPrd fun o => (o.go t).partialIn p)

end Sys2Proof.Machine
end

