-- ==== Sys2Proof/Machine/EventRec.lean ====
section
/-!
DEFINITION. Machine/EventRec.lean: the commands of the event recorder, journal and blotter, fatal faults, and the OTU's
resets (07 R184, 12 R319 to R339).
-/
namespace Sys2Proof.Machine
open Sys2Proof

/-- EVENT_REQUEST. -/
def execEventRequest (part : Part) (r : EvReq) (e : Edge) (s : State) : Host.Outcome State Fault Refusal :=
  match part with
  | .otu => .next (s.onOtu fun o => (o.go e).event r)
  | .prd => .next (s.onPrd fun o => (o.go e.ft).event r)

/-- R329, R331: a record that Priord's own sources gave its recorder is in heart notes with the others once it is
committed (log entry 65). A record adopted from a die stands there already (R330). -/
def Prd.noteOwnEv (o before : Prd) : Prd :=
  (o.evr.slots.filter fun x => !before.evr.slots.contains x && !x.2.fromDie).foldl
    (fun o x => o.hnrOwn 1 x.2.code x.2.tag (x.2.rank % 2 ^ 20) x.2.ft x.2.bytes) o

/-- EVENT_COMMIT. -/
def execEventCommit (part : Part) (mramOk : Bool) (e : Edge) (s : State) : Host.Outcome State Fault Refusal :=
  match part with
  | .otu => .next (s.onOtu fun o => (o.go e).commitEv)
  | .prd => .next (s.onPrd fun o => let o := o.go e.ft; (o.commitEv mramOk).noteOwnEv o)

/-- R164, R249, R324: a fault record of severity 6 asks for a flacon, and, if it names a job, goes to both roots. -/
def Prd.fatal (o : Prd) (tag rank ft code : Nat) : Prd :=
  let o := o.triggerOf 6 tag ft rank
  if tag = 0 then o else o.notice tag { rank := rank, code, ft }

/-- R370, R348: an uncorrected error in a memory of Priord's own, reported with event code 0x0090: FAULT_CODE 0, and a syndrome that
no rule gives (log entry 96). -/
def Prd.memError (o : Prd) : Prd :=
  let r : EvReq := { code := 0x90, sev := 6, payload := le 2 0 ++ le 2 (Config.syndrome o.free % 2 ^ 16) }
  (({ o with free := o.free + 1 } : Prd).event r).fatal 0 0 o.ft 0

/-- UNCORRECTED_ERROR: a fatal-fault event record, at either part. -/
def execUncorrectedError (part : Part) (x : ErrReport) (e : Edge) (s : State) : Host.Outcome State Fault Refusal :=
  let r : EvReq := { code := 0x90, sev := 6, tag := x.tag, path := x.path, payload := le 2 x.code ++ le 2 x.syndrome }
  match part with
  | .otu => .next (s.onOtu fun o => (o.go e).event r)
  | .prd => .next (s.onPrd fun p => let p := p.go e.ft; (p.event r).fatal x.tag 0 p.ft x.code)

/-- EVENT_RECORD_RX: heart notes whatever its severity, then adoption, and the fatal-fault trigger. -/
def execEventRecordRx (n : Nat) (r : EvRec) (t : Nat) (s : State) : Host.Outcome State Fault Refusal :=
  .next (s.onPrd fun o =>
    let o := o.go t
    let rank := if bit r.rank 20 then r.rank % 2 ^ 20 else (o.portRank n r.tag).getD 0
    let o := o.hnrPut { rcls := 1, key := r.code, tag := r.tag, rank, ft := r.ft, rtype := 0x0D, stream := 0xA00, loc := o.location n,
                         body := r.bytes }
    let o := o.adopt n r
    if r.sev = 6 then o.fatal r.tag rank r.ft (fieldAt r.payload 0 2) else o)

/-- R334: a clear at the OTU; a commit of its own cycle goes into the session that it closes. -/
def Otu.evrClear (o : Otu) (v : Nat) : Otu :=
  let cur := OtuR.get o OTU_EVR_SESSION
  if v = cur then
    let was : EvOld := { at_ := o.lt, sess := cur, front := OtuR.get o OTU_EVR_FRONTIER, full := o.evr.full }
    OtuR.ev (({ o with evr := { o.evr with was := some was } } : Otu).evrRestart (nextSession [] cur) cur 2) OTU_EVR_EVENTS 3
  else o

/-- R334, R337: a clear at Priord moves the journal to the other bank and skips the sessions that the banks hold. -/
def Prd.evrClear (o : Prd) (v : Nat) : Prd :=
  let cur := PrdR.get o PRD_EVR_SESSION
  if v = cur then
    let held := [0, 1].filterMap o.bankSession
    let was : EvOld := { at_ := o.ft, sess := cur, front := PrdR.get o PRD_EVR_FRONTIER, full := o.evr.full, bank := o.jnlBank }
    PrdR.ev (({ o with evr := { o.evr with was := some was } } : Prd).evrRestart (1 - o.jnlBank) (nextSession held cur) cur 2) PRD_EVR_EVENTS 3
  else o

/-- EVR_CLEAR. -/
def execEvrClear (part : Part) (value : Nat) (e : Edge) (s : State) : Host.Outcome State Fault Refusal :=
  match part with
  | .otu => .next (s.onOtu fun o => (o.go e).evrClear (value % 2 ^ 32))
  | .prd => .next (s.onPrd fun o => (o.go e.ft).evrClear (value % 2 ^ 32))

/-- R332: a write of the blotter cursor, in force from the next cycle. -/
def Otu.cursorWrite (o : Otu) (v : Nat) : Otu :=
  let o := OtuR.write o OTU_BLOT_CURSOR 4 v
  { o with evr := { o.evr with cursor := o.evr.cursor.write o.lt (OtuR.get o OTU_BLOT_CURSOR) } }

/-- R332: the same at Priord. -/
def Prd.cursorWrite (o : Prd) (v : Nat) : Prd :=
  let o := PrdR.write o PRD_BLOT_CURSOR 4 v
  { o with evr := { o.evr with cursor := o.evr.cursor.write o.clk.ft (PrdR.get o PRD_BLOT_CURSOR) } }

/-- BLOT_CURSOR_WRITE. -/
def execBlotCursorWrite (part : Part) (value : Nat) (e : Edge) (s : State) : Host.Outcome State Fault Refusal :=
  match part with
  | .otu => .next (s.onOtu fun o => (o.go e).cursorWrite value)
  | .prd => .next (s.onPrd fun o => (o.go e.ft).cursorWrite value)

/-- R327, R338: whether a rate-limit entry's new word keeps CODEs apart and has a BURST. -/
def rlWordOk (entries : List (Nat × Nat)) (k v : Nat) : Bool :=
  !bit v 16 || (decide (getF v 48 16 ≥ 1) && !entries.any fun x => x.1 != k && bit x.2 16 && getF x.2 0 16 == getF v 0 16)

/-- R327, R338: a write of a rate-limit entry, or of the default entry, fills its bucket and clears its count. -/
def Otu.rlWrite (o : Otu) (k : Option Nat) (v : Nat) : Otu :=
  match k with
  | some k =>
    if k < 64 && rlWordOk o.rlEntries k v then
      let o := OtuR.write o (OTU_EVR_RL k) 8 v; { o with evr := o.evr.rlReset k } else o
  | none =>
    if getF v 48 16 = 0 then o
    else let o := OtuR.write o OTU_EVR_RL_DEFAULT 8 v; { o with evr := o.evr.rlReset 65536 }

/-- R327, R339: the same at Priord. -/
def Prd.rlWrite (o : Prd) (k : Option Nat) (v : Nat) : Prd :=
  match k with
  | some k =>
    if k < 256 && rlWordOk o.rlEntries k v then
      let o := PrdR.write o (PRD_EVR_RL k) 8 v; { o with evr := o.evr.rlReset k } else o
  | none =>
    if getF v 48 16 = 0 then o
    else let o := PrdR.write o PRD_EVR_RL_DEFAULT 8 v; { o with evr := o.evr.rlReset 65536 }

/-- RL_ENTRY_WRITE. -/
def execRlEntryWrite (part : Part) (k : Option Nat) (value : Nat) (e : Edge) (s : State) : Host.Outcome State Fault Refusal :=
  match part with
  | .otu => .next (s.onOtu fun o => (o.go e).rlWrite k value)
  | .prd => .next (s.onPrd fun o => (o.go e.ft).rlWrite k value)

/-- R321, R338, R99, R101: the OTU out of reset: everything at its reset value but the die's HBM, and a new session. -/
def Otu.reset (o : Otu) (sess prev reason : Nat) : Otu :=
  let n : Otu := { hbm := o.hbm, free := o.free }
  n.evrRestart sess prev reason

/-- DIE_RESET: the session is the next one. -/
def execDieReset (e : Edge) (s : State) : Host.Outcome State Fault Refusal :=
  .next (s.onOtu fun o =>
    let cur := OtuR.get (o.go e) OTU_EVR_SESSION
    o.reset (nextSession [] cur) cur 1)

/-- ALWAYS_ON_POWER_UP: the session is 1, with PREV_SESSION 0. -/
def execAlwaysOnPowerUp (e : Edge) (s : State) : Host.Outcome State Fault Refusal :=
  .next (s.onOtu fun o => (o.go e).reset 1 0 0)

end Sys2Proof.Machine
end

