-- ==== Sys2Proof/Machine/Result.lean ====
section
/-!
DEFINITION. Machine/Result.lean: what a tray node does with delivered rank digest, bucket order, mismatch, first-NaN and
job-end records (06 R164, 07 R182, R195, 08 R204 to R215, 15 R419).
-/
namespace Sys2Proof.Machine
open Sys2Proof

/-! ### Job-level digests (R204, R212) -/

/-- R204: a job-level digest over rank digests in ascending rank order. -/
def jobDigest (tag : List Nat) (ds : List (List Byte)) : Nat :=
  blake3 (tag.map (BitVec.ofNat 8) ++ le 2 1 ++ zeros 2 ++ le 4 ds.length ++ zeros 4 ++ ds.flatten)

/-- R204: the TAGs "UPJB", "UWJB" and "UIJB", with the offset of the rank digest in a rank digest record (R210). -/
def jobDigestKinds : List (List Nat × Nat) := [([0x55, 0x50, 0x4A, 0x42], 24), ([0x55, 0x57, 0x4A, 0x42], 56), ([0x55, 0x49, 0x4A, 0x42], 88)]

/-- R211: ranks of which no record has come. -/
def ResAsm.missing (x : ResAsm) : List Nat := (List.range x.nRanks).filter fun r => !x.recs.any (·.rank == r)

/-- R211: whether records of all ranks are in. A node without the job's tables cannot tell (log entry 29). -/
def ResAsm.whole (x : ResAsm) : Bool := x.known && x.missing.isEmpty

/-- R204: the three job digests; those of a result that lacks ranks are free (log entry 66). -/
def ResAsm.digests (x : ResAsm) (free : Nat) : List (List Byte) :=
  let rs := sortBy DigRec.rank x.recs
  jobDigestKinds.mapIdx fun i k =>
    if x.whole then le 32 (jobDigest k.1 (rs.map fun r => fit 32 ((r.body.drop k.2).take 32)))
    else le 32 (Config.partialDigest free i)

/-- R211: the job fingerprint. -/
def ResAsm.fp (x : ResAsm) : Nat := x.recs.foldl (fun v r => v ^^^ fieldAt r.body 120 16) 0

/-- R211: the job's tile count. -/
def ResAsm.tiles (x : ResAsm) : Nat := x.recs.foldl (fun v r => v + fieldAt r.body 136 8) 0 % 2 ^ 64

/-- R213: FLAGS. -/
def ResAsm.flags (x : ResAsm) : Nat :=
  x.recs.foldl (fun v r => v ||| (fieldAt r.body 1 1 % 8)) 0 + 8 * b2n x.conflict

/-- R212: the result digest. -/
def resultDigest (digests : List (List Byte)) (fp : Nat) : Nat := blake3 (digests.flatten ++ le 16 fp ++ le 2 1)

/-- R213: bytes 0 to 191 of the result record assembled at fleet time `now`. -/
def ResAsm.record (x : ResAsm) (now free : Nat) : List Byte :=
  let whole := x.whole
  let ds := x.digests free
  le 1 1 ++ le 1 (if whole then 1 else 2) ++ le 2 1 ++ le 2 x.tag ++ le 2 x.flags ++ le 4 x.id ++ le 4 x.nRanks ++ le 8 x.no ++
    le 8 now ++ ds.flatten ++ le 16 x.fp ++ le 32 (if whole then resultDigest ds x.fp else 0) ++ le 8 x.tiles ++
    le 4 x.missing.length ++ zeros 4

/-- R213: what follows it: the missing-rank list, and the attestation, which an INCOMPLETE result lacks (log entry 67). -/
def ResAsm.tail (x : ResAsm) (record : List Byte) : List Byte :=
  let att := if x.whole then Config.attestation record else []
  missBytes (x.missing.map fun r => (r, 0x40)) ++ le 4 att.length ++ att

/-! ### Assembly (R211) -/

/-- R211, R213: the top node assembles a result. -/
def Prd.assemble (o : Prd) (x : ResAsm) : Prd :=
  let rec_ := x.record o.ft o.free
  let o := o.hnrOwn 6 x.id x.tag 0 o.ft (rec_ ++ x.tail rec_)
  let o := PrdR.ev o PRD_RESULT_EVENTS 0
  let o := if x.whole then o else PrdR.ev o PRD_RESULT_EVENTS 1
  { o with free := o.free + 1, results := updFirst (fun y => y.tag == x.tag && y.id == x.id) (fun y => { y with done := true }) o.results }

/-- R211, R219: the fleet time of RESULT_TIMEOUT for a mark cut at `cut`. -/
def Prd.resultLimit (o : Prd) (cut : Nat) : Nat :=
  cut + ((o.resTimeouts.find? fun x => decide (x.1 < cut)).map (·.2)).getD 1000 * 1000 * tickUs

/-- R211: the top node takes a rank digest record; `nRanks` from the job's tables, where it holds them. -/
def Prd.digestAccept (o : Prd) (tag rank : Nat) (nRanks : Option Nat) (body : List Byte) : Prd :=
  let id := fieldAt body 8 4
  let no := fieldAt body 16 8
  let here (y : ResAsm) : Bool := y.tag == tag && y.id == id
  let o := if o.results.any here then o
    else { o with results := { tag, id, no, nRanks := nRanks.getD (Config.unknownRanks tag), known := nRanks.isSome
                               timeout := o.resultLimit (no * 400000) } :: o.results }
  match o.results.find? here with
  | none => o
  | some x =>
    if x.done then
      (PrdR.ev o PRD_RESULT_EVENTS 3).event { code := 0x61, sev := 2, tag, rank := some rank, payload := le 4 id }
    else match x.recs.find? (·.rank == rank) with
      | some r =>
        if r.body = body then o
        else
          let o := { o with results := updFirst here (fun y => { y with conflict := true }) o.results }
          (PrdR.ev o PRD_RESULT_EVENTS 2).event { code := 0x60, sev := 4, tag, rank := some rank, payload := le 4 id }
      | none =>
        let x := { x with recs := x.recs ++ [{ rank := rank, body }] }
        let o := { o with results := updFirst here (fun _ => x) o.results }
        if x.whole then o.assemble x else o

/-- R211: a rank digest record on its way up: taken where the role of the job's top node is, or sent to its holder (log entry
29). A node to which the role moved and which holds no table of the job takes what reaches it. -/
def Prd.digestUp (o : Prd) (tag rank : Nat) (body : List Byte) : Prd :=
  match o.slotOf tag with
  | none => o.digestAccept tag rank none body
  | some c =>
    let n := (o.slot c).nRanks
    if rank ≥ n then o
    else match o.topHolder tag with
      | some p => if p = o.tray then o.digestAccept tag rank (some n) body else if o.tree.joined then o.send p 6 c body else o
      | none => o

/-- R211, R231: a rank digest record of a job goes to its rank home, and up to the job's top node. The copy for the fleet
context ends in heart notes; so does a record of no context (R419). -/
def Prd.digestIn (o : Prd) (src : RecSrc) (tag rank : Nat) (body : List Byte) : Prd :=
  if tag = 0 || rank ≥ 2 ^ 17 || (o.slotOf tag).isNone then o
  else match o.awayHome src tag rank with
    | some dst => o.forward dst 2 tag rank body
    | none => o.digestUp tag rank body

/-- RANK_DIGEST_RX: from a die port, or from a node below. -/
def execRankDigestRx (src : RecSrc) (tag rank : Nat) (body : List Byte) (t : Nat) (s : State) : Host.Outcome State Fault Refusal :=
  .next (s.onPrd fun o =>
    let o := o.go t
    match src with
    | .port _ => o.digestIn src tag rank body
    | .fwd _ => if tag = 0 || rank ≥ 2 ^ 17 then o else o.digestUp tag rank body)

/-- RESULT_TIMEOUT: RESULT_TIMEOUT after the mark's cut, with records missing. -/
def execResultTimeout (tag result t : Nat) (s : State) : Host.Outcome State Fault Refusal :=
  .next (s.onPrd fun o =>
    let o := o.go t
    match o.results.find? fun x => x.tag == tag && x.id == result && !x.done with
    | some x => if o.ft ≥ x.timeout then o.assemble x else o
    | none => o)

/-! ### Bucket order (R214, R215) -/

/-- R215: the reference CRC: the most frequent one, and of equally frequent ones that of the lowest rank. -/
def BktCmp.reference (x : BktCmp) : Nat :=
  let rs := sortBy (·.1) x.recs
  let n (c : Nat) : Nat := (rs.filter fun r => r.2 == c).length
  (rs.foldl (fun (b : Option Nat) r => match b with
    | none => some r.2
    | some c => if n c < n r.2 then some r.2 else some c) none).getD 0

/-- R215, R270: a divergence: its event, and the straggler feature of the rank and of the die that serves it here. -/
def Prd.divergent (o : Prd) (tag coll rank crc : Nat) : Prd :=
  let o := o.event { code := 0x62, sev := 2, tag, rank := some rank, payload := le 8 coll ++ le 8 crc }
  let die := ((o.slotOf tag).bind fun c => (o.slot c).served.find? fun p => p.2 == rank).map fun p => (0, o.location p.1, o.ft)
  { o with divs := (die.toList ++ (tag, rank, o.ft) :: o.divs).take 4096 }

/-- R215: the comparison. -/
def Prd.compareOrders (o : Prd) (x : BktCmp) : Prd :=
  let ref := x.reference
  let o := { o with orders := updFirst (fun y => y.tag == x.tag && y.coll == x.coll) (fun y => { y with done := true }) o.orders }
  (sortBy (·.1) (x.recs.filter fun r => r.2 != ref)).foldl (fun (o : Prd) r => o.divergent x.tag x.coll r.1 r.2) o

/-- R62, R63: the first cut instant after now. -/
def Prd.nextCut (o : Prd) : Nat :=
  if o.accNext ≠ absent && decide (o.ft < o.accNext) then o.accNext
  else nextMultiple o.ft (o.accInt * 400000)

/-- R215, R231: a bucket order record of a job. -/
def Prd.orderIn (o : Prd) (src : RecSrc) (b : BucketOrder) : Prd :=
  match (if b.tag = 0 || b.rank ≥ 2 ^ 17 then none else o.slotOf b.tag) with
  | none => o
  | some c =>
    match o.awayHome src b.tag b.rank with
    | some dst => o.forward dst 4 b.tag b.rank b.bytes
    | none =>
      let mine := (o.slot c).homed o.tray
      let here (y : BktCmp) : Bool := y.tag == b.tag && y.coll == b.collSeq
      let old := (o.orders.find? here).getD { tag := b.tag, coll := b.collSeq, deadline := o.nextCut + o.deadline 0 }
      if old.done || !mine.contains b.rank || old.recs.any (·.1 == b.rank) then o
      else
        let x := { old with recs := old.recs ++ [(b.rank, b.orderCrc)] }
        let o := { o with orders := if o.orders.any here then updFirst here (fun _ => x) o.orders else x :: o.orders }
        if mine.all fun r => x.recs.any (·.1 == r) then o.compareOrders x else o

/-- BUCKET_ORDER_RX. -/
def execBucketOrderRx (src : RecSrc) (b : BucketOrder) (t : Nat) (s : State) : Host.Outcome State Fault Refusal :=
  .next (s.onPrd fun o => (o.go t).orderIn src b)

/-- BUCKET_ORDER_DEADLINE: the tray deadline of the first cut after the first record. -/
def execBucketOrderDeadline (tag collSeq t : Nat) (s : State) : Host.Outcome State Fault Refusal :=
  .next (s.onPrd fun o =>
    let o := o.go t
    match o.orders.find? fun x => x.tag == tag && x.coll == collSeq && !x.done with
    | some x => if o.ft ≥ x.deadline then o.compareOrders x else o
    | none => o)

/-! ### Triggers of records (R164) -/

/-- R195: a mismatch record's fleet copy, which every one has, raises the trigger; its job's copy would raise it twice. -/
def Prd.mismatchIn (o : Prd) (tag rank : Nat) (body : List Byte) : Prd :=
  if tag ≠ 0 then o else o.triggerOf 2 (fieldAt body 4 2) (fieldAt body 24 8) rank

/-- MISMATCH_RECORD_RX. -/
def execMismatchRecordRx (_src : RecSrc) (tag rank : Nat) (body : List Byte) (t : Nat) (s : State) : Host.Outcome State Fault Refusal :=
  .next (s.onPrd fun o => (o.go t).mismatchIn tag rank body)

/-- R164, R182, R227, R231: a first-NaN record: heart notes of the serving tray; at the rank home it waits for the accord
whose interval holds it, and raises the trigger (log entry 63). The fleet copy of a job's record raises none. -/
def Prd.firstNanIn (o : Prd) (src : RecSrc) (tag rank : Nat) (body : List Byte) : Prd :=
  if rank ≥ 2 ^ 17 then o else
  let ft := fieldAt body 8 8
  let o := match src with
    | .port n => o.hnrPut { rcls := 8, key := absent, tag, rank, ft, rtype := 9, stream := 0x700, loc := o.location n, body }
    | .fwd _ => o
  match o.awayHome src tag rank with
  | some dst => o.forward dst 3 tag rank body
  | none =>
    if (o.slotOf tag).isNone then o
    else
      let o := { o with nans := o.nans ++ [(tag, rank, body)] }
      if tag = fieldAt body 4 2 then o.triggerOf 1 tag ft rank else o

/-- FIRST_NAN_RX. -/
def execFirstNanRx (src : RecSrc) (tag rank : Nat) (body : List Byte) (t : Nat) (s : State) : Host.Outcome State Fault Refusal :=
  .next (s.onPrd fun o => (o.go t).firstNanIn src tag rank body)

/-! ### Job-end records (R250, R419) -/

/-- R231, R419: a job-end record: for the serving tray's own context, and for the home. A die that withdrew from the job owes
the context its gaps (R89). -/
def Prd.jobEndRec (o : Prd) (src : RecSrc) (tag rank : Nat) (body : List Byte) : Prd :=
  if tag = 0 || rank ≥ 2 ^ 17 then o
  else
    let o := match src with
      | .port n => if fieldAt body 1 1 = 2 then o.setPort n { o.port n with withdrawn := true } else o
      | .fwd _ => o
    let o := match o.awayHome src tag rank with
      | some dst => o.forward dst 7 tag rank body
      | none => o
    o.jobEndIn tag rank (fieldAt body 8 8)

/-- JOB_END_RX. -/
def execJobEndRx (src : RecSrc) (tag rank : Nat) (body : List Byte) (t : Nat) (s : State) : Host.Outcome State Fault Refusal :=
  .next (s.onPrd fun o => (o.go t).jobEndRec src tag rank body)

end Sys2Proof.Machine
end

