-- ==== Sys2Proof/Machine/PortPrd.lean ====
section
/-!
DEFINITION. Machine/PortPrd.lean: Priord's die ports: links, frame checks, the policer, heart-note writes and time words
(02 R45, 06 R162, 11 R286 to R304, R313, R317, 15 R418), and the commands that both ends of a link have.
-/
namespace Sys2Proof.Machine
open Sys2Proof

/-! ### Links (R286 to R293) -/

/-- Change the link of die port `n`. -/
def Prd.onLink (o : Prd) (n : Nat) (f : LinkSt → LinkSt) : Prd := o.setPort n { o.port n with link := f (o.port n).link }

/-- R291, R289: the link of port `n` retrains; this end asks the other to when the fault is found here. -/
def Prd.retrain (o : Prd) (n : Nat) (ask : Bool) : Prd :=
  PrdR.ev (o.onLink n fun l => if ask then l.askRetrain else l.lose 1) (PRD_DP_EVENTS n) 1

/-- R418: the OTU of the die on port `n` is declared failed. -/
def Prd.otuFailed (o : Prd) (n cause : Nat) : Prd :=
  let o := o.setPort n { o.port n with failedOtu := some cause }
  let o := o.event { code := 0x92, sev := 5, phys := o.location n, payload := le 1 cause }
  let o := o.declareOpen n 4
  let audits := (o.ctx.filter fun (x : Nat × Ctx) => x.1 ≠ 0 && (x.2.st == 2 || x.2.st == 3) && x.2.audit).flatMap
    fun (x : Nat × Ctx) => (x.2.served.filter fun p => p.1 == n).map fun p => (x.2.tag, p.2)
  audits.foldl (fun (o : Prd) x => o.notice x.1 { rank := x.2, code := 0x92, ft := o.ft }) o

/-- R286, R296, R89, R418: training completes at Priord. `fault` is the CAUSE that the OTU reports, 0 for none. -/
def Prd.portTrain (o : Prd) (n : Nat) (fromReset : Bool) (fault credit : Nat) : Prd :=
  if o.squelched then o
  else
  let p := o.port n
  let o := o.setPort n { p with link := p.link.train credit o.ft, expect := [], hunt := [], txNext := none, withdrawn := false, failedOtu := none }
  let o := if fromReset then o.declareOpen n 3 else o
  if fault = 0 then o else o.otuFailed n fault

/-- R286, R89: port `n`, which is not DOWN, goes DOWN. A die without an in-band fallback path is declared absent at once. -/
def Prd.takeDown (o : Prd) (n : Nat) : Prd :=
  let p := o.port n
  let o := PrdR.ev (o.setPort n { p with link := p.link.lose 0, downSince := o.ft }) (PRD_DP_EVENTS n) 0
  let o := o.event { code := 0x80, sev := 3, phys := o.location n, payload := le 1 n }
  if bit (o.portCfg n) 2 then o else o.declareOpen n (if p.withdrawn then 3 else 2)

/-- R286: port `n` goes DOWN where its flits no longer pass, or its training fails. -/
def Prd.portDown (o : Prd) (n : Nat) : Prd := if (o.port n).link.dead o.ft then o.takeDown n else o

/-- R291, R292: a DATA flit at Priord; one that fails the link check is a failure as well. -/
def Prd.dataFlit (o : Prd) (n : Nat) (x : FlitRx) : Prd :=
  let l := (o.port n).link
  if l.st ≠ 2 then o
  else
    let ok := l.checks x
    let f := flitOf x.bytes
    if ok && !flitType x.bytes 1 then o.onLink n (·.hear o.ft x)
    else
      let o := o.onLink n fun l => (l.hear o.ft x).dataIn f ok o.ft
      match (l.hear o.ft x).verdict f ok with
      | .repeat => PrdR.cnt (PrdR.ev o (PRD_DP_EVENTS n) 4) (PRD_DP_ALIVE n) 0 16 1
      | .skip => PrdR.cnt (PrdR.ev o (PRD_DP_EVENTS n) 3) (PRD_DP_ALIVE n) 16 16 1
      | .accept => o
      | .duplicate => o
      | .fail => o

/-- R288, R289: a CTRL flit at port `n`; `f` takes a message of CTYPE `k` that passes the link check. -/
def Prd.ctrlFlit (o : Prd) (n k : Nat) (x : FlitRx) (f : Prd → Prd) : Prd :=
  let l := (o.port n).link
  if n ≥ 32 || l.st ≠ 2 then o
  else
    let ok := l.checks x && ctrlType x.bytes k
    let o := o.onLink n (·.hear o.ft x)
    if ok then f o else o

/-- R291: a NAK at Priord. -/
def Prd.nak (o : Prd) (n fseq : Nat) : Prd :=
  match (o.port n).link.nakIn fseq with
  | some l => PrdR.cnt (PrdR.ev (o.onLink n fun _ => l) (PRD_DP_EVENTS n) 2) (PRD_DP_REPLAYS n) 0 32 1
  | none => o.retrain n true

/-- R289: while a flit is awaited, its NAK goes out again 1 µs after the last. -/
def LinkSt.nakAgain (l : LinkSt) (now : Nat) : LinkSt :=
  if l.st = 2 && l.discarding && decide (now ≥ l.nakAt + tickUs) then { l.sendCtrl (nakMsg l.rxSeq) with nakAt := now } else l

/-! ### Frames towards a die (R290, R294 to R296, R311) -/

/-- R311: the port whose waiting messages go out on port `n`: its own, or one in fallback whose frames last came through the
die on port `n`. -/
def Prd.downFor (o : Prd) (n : Nat) : Option Nat :=
  if !(o.port n).down.isEmpty then some n
  else (List.range 32).find? fun m =>
    m ≠ n && !(o.port m).down.isEmpty && (o.port m).link.st ≠ 2 && (o.port m).fbRelay == some n

/-- R237, R296, R297: the frame of the oldest message that waits for the die on port `m`. Atomiser messages belong to no job
context: their frames are of the fleet context. -/
def Prd.downFrame (o : Prd) (m : Nat) : Prd × List Byte :=
  let p := o.port m
  match p.down with
  | [] => (o, [])
  | b :: rest =>
    let loc := o.location m
    (o.setPort m { p with down := rest, txNext := some ((p.txNext.getD 0 + 1) % 2 ^ 32) },
     frameBytes 0x10 (b2n p.txNext.isNone) 0xC00 0 loc loc (p.txNext.getD 0) b)

/-- R290, R294: fill a payload on port `n` with frame bytes. -/
def Prd.fillDown : Nat → Prd → Nat → Nat → List Byte → List Byte → Prd × Nat × List Byte × List Byte
  | 0, o, _, first, acc, part => (o, first, acc, part)
  | fuel + 1, o, n, first, acc, part =>
    if acc.length ≥ 240 then (o, first, acc, part)
    else if !part.isEmpty then
      let k := 240 - acc.length
      Prd.fillDown fuel o n first (acc ++ part.take k) (part.drop k)
    else match o.downFor n with
      | none => (o, first, acc, part)
      | some m =>
        let (o, b) := o.downFrame m
        Prd.fillDown fuel o n (if first = 31 then acc.length / 8 else first) acc b

/-- R290: Priord fills a flit slot of port `n`. -/
def Prd.flitSlot (o : Prd) (n : Nat) : Prd :=
  let l := (o.port n).link
  let idle (o : Prd) : Prd := o.timeWordOut n (o.ft * 256)
  if l.st ≠ 2 then o
  else if l.idleDue o.ft then idle o
  else if !l.ctrl.isEmpty then o.onLink n (·.popCtrl)
  else if !l.resend.isEmpty then o.onLink n (·.sendResend)
  else if l.held.length ≥ 1024 || Tbl.get (fun _ => 0) l.credits 7 = 0 then idle o
  else
    let (o', first, acc, part) := Prd.fillDown 32 o n 31 [] (Tbl.get (fun _ => []) l.txPart 7)
    if acc.isEmpty then idle o
    else o'.onLink n fun l => { l.sendData 7 first acc with txPart := Tbl.put (fun _ => []) l.txPart 7 part }

/-! ### The frame check (R297) -/

/-- R297: a pair enters HUNT and its RESYNC_REQ goes to the OTU. -/
def Prd.huntIn (o : Prd) (n stream tag : Nat) : Prd :=
  let p := o.port n
  PrdR.ev (o.setPort n { p with hunt := if p.hunt.contains (stream, tag) then p.hunt else p.hunt ++ [(stream, tag)]
                                link := p.link.sendCtrl (resyncMsg stream tag) }) (PRD_DP_EVENTS n) 6

/-- R297 step 1: a malformed header on virtual lane `vl` of port `n`. -/
def Prd.malformed (o : Prd) (n vl : Nat) : Prd :=
  let hit := (o.port n).expect.filter fun x => x.1.1 / 256 == 0xF || kindClass (x.1.1 / 256) == vl
  hit.foldl (fun o x => o.huntIn n x.1.1 x.1.2) o

/-- R297 steps 2 and 3: a frame against the rank, location and sequences of port `n`. A pass answers its sequence. -/
def Prd.frameCheck (o : Prd) (n : Nat) (f : Frame) : Prd × Option Nat :=
  let p := o.port n
  let key := (f.stream, f.tag)
  match o.portRank n f.tag with
  | none => (PrdR.cnt o PRD_CTX_ORPHANS 0 32 1, none)
  | some rank =>
    match f.check rank (o.location n) (p.expect.lookup key) (p.hunt.contains key) with
    | .pass next =>
      (o.setPort n { p with expect := (key, next) :: p.expect.filter (fun x => x.1 != key), hunt := p.hunt.erase key, fails := 0
                            failedOtu := none }, some ((next + 2 ^ 32 - 1) % 2 ^ 32))
    | .hunted => (PrdR.cnt o (PRD_DP_RESYNC_DISCARD n) 0 32 1, none)
    | .fail =>
      let k := p.fails + 1
      let o := (PrdR.ev (PrdR.cnt (o.setPort n { p with fails := k }) (PRD_DP_RCRC_FAIL n) 0 32 1) (PRD_DP_EVENTS n) 5).huntIn n f.stream f.tag
      (if k = 64 then (PrdR.ev o (PRD_DP_EVENTS n) 7).event
          { code := 0x82, sev := 4, phys := o.location n, payload := le 1 n ++ zeros 3 ++ le 4 k }
       else o, none)

/-! ### The policer (R303, R304, R317) -/

/-- R303: a bucket of `kib` KiB after `dt` ticks at `mbps`, in 1/32,000 byte: 1 Mbit/s is one unit per tick. -/
def polBucket (v mbps kib dt : Nat) : Nat := min (kib * 32_768_000) (v + mbps * dt)

/-- R303: the colour of a frame of `b` bytes at port `n`: 0 green, 1 yellow, 2 red. -/
def Prd.colour (o : Prd) (n b : Nat) : Prd × Nat :=
  let p := o.port n
  if !PrdR.flag o (PRD_DP_POL_CTRL n) 0 then (o.setPort n { p with colour := 0 }, 0)
  else
    let cbs := PrdR.fld o (PRD_DP_POL_BURST n) 0 16
    let pbs := PrdR.fld o (PRD_DP_POL_BURST n) 16 16
    let dt := o.ft - p.polAt
    let tp := if p.polFull then pbs * 32_768_000 else polBucket p.tp (PrdR.get o (PRD_DP_POL_PIR n)) pbs dt
    let tc := if p.polFull then cbs * 32_768_000 else polBucket p.tc (PrdR.get o (PRD_DP_POL_CIR n)) cbs dt
    let need := b * 32_000
    let k := if tp < need then 2 else if tc < need then 1 else 0
    (o.setPort n { p with tp := if k = 2 then tp else tp - need, tc := if k = 0 then tc - need else tc, polAt := o.ft, polFull := false
                          colour := k }, k)

/-- R304: whether the last ingest window exceeded the limit. -/
def Prd.overIngest (o : Prd) : Bool := decide (o.ingestRate > PrdR.get o PRD_INGEST_LIMIT * 10000)

/-- R303, R304: police a frame of class `cls` and `b` bytes: whether it is written. -/
def Prd.police (o : Prd) (n cls b : Nat) : Prd × Bool :=
  let (o, k) := o.colour n b
  let drop (o : Prd) : Prd := PrdR.cnt (PrdR.ev o (PRD_DP_EVENTS n) 9) (PRD_DP_RED_DROP_BYTES n) 0 64 b
  if k = 0 then (o, true)
  else if k = 1 then
    let o := PrdR.cnt (PrdR.ev o (PRD_DP_EVENTS n) 8) (PRD_DP_YELLOW_BYTES n) 0 64 b
    if cls ≤ 4 && o.overIngest then (drop o, false) else (o, true)
  else if cls ≤ 4 then (drop o, false)
  else (PrdR.cnt o (PRD_DP_RED_PROTECTED n) 0 32 1, true)

/-- POLICER_WRITE: register 0 CIR, 1 PIR, 2 BURST, 3 CTRL; PIR stays at least CIR, and a write fills both buckets. -/
def Prd.policerWrite (o : Prd) (n reg v : Nat) : Prd :=
  let v := v % 2 ^ 32
  let rate := decide (1 ≤ v && v ≤ 400000)
  let ok := match reg with
    | 0 => rate && decide (v ≤ PrdR.get o (PRD_DP_POL_PIR n))
    | 1 => rate && decide (PrdR.get o (PRD_DP_POL_CIR n) ≤ v)
    | 2 => decide (16 ≤ getF v 0 16) && decide (16 ≤ getF v 16 16)
    | 3 => true
    | _ => false
  if n < 32 && ok then
    let o := PrdR.write o (PRD_DP_POL_CIR n + 4 * reg) 4 v
    o.setPort n { o.port n with polFull := true }
  else o

/-! ### Heart notes (R162, R419) -/

/-- R419: whether a record of a context is an ORPHAN, and whether it is late. -/
def Prd.orphanLate (o : Prd) (tag stamp : Nat) : Bool × Bool :=
  if tag = 0 then (false, false)
  else match o.slotOf tag with
    | none => (true, false)
    | some c => (stamp ≠ absent && decide (stamp < (o.slot c).s), (o.slot c).st == 4)

/-- R162: RSEQ of a sillage record: a break that DROPPED does not account for. -/
def Prd.rseqIn (o : Prd) (n : Nat) (f : Frame) : Prd :=
  let k := 128 * n + f.stream % 128
  let q := fieldAt f.body 8 4
  let gap := match o.hnr.rseq.lookup k with
    | some e => q != (e + fieldAt f.body 14 2) % 2 ^ 32
    | none => false
  let o := { o with hnr := { o.hnr with rseq := Tbl.ins o.hnr.rseq k ((q + 1) % 2 ^ 32) } }
  if gap then PrdR.cnt (PrdR.ev o PRD_HNR_EVENTS 0) PRD_HNR_SIL_GAPS 0 32 1 else o

/-- R162, R419: a record of the die on port `n` goes into heart notes; first-NaN and event records do so by their own rows. -/
def Prd.noteFrame (o : Prd) (n : Nat) (f : Frame) (seq : Nat) : Prd :=
  let rank := (o.portRank n f.tag).getD 0
  let o := if f.rtype = 4 then o.rseqIn n f else o
  let (rcls, key) := recClass f.rtype (f.stream % 256) f.body
  let stamp := recStamp f.rtype f.body
  let (orphan, late) := o.orphanLate f.tag stamp
  let o := if orphan then PrdR.cnt o PRD_CTX_ORPHANS 0 32 1 else o
  let o := if f.rtype = 9 || f.rtype = 0xD then o
    else o.hnrPut { rcls, key, tag := f.tag, rank, ft := stamp, priv := recPriv f.stream, late, orphan, rtype := f.rtype
                    stream := f.stream, seq, loc := o.location n, body := f.body }
  if f.rtype = 6 && f.stream / 256 = 2 && !orphan then o.hangSync (.port n) f.tag rank f.body else o

/-- R297, R303, R304, R313: a frame taken from port `n`: checked, policed and written. A relay frame's inner frame is checked
against its origin port. -/
def Prd.frameIn (o : Prd) (n : Nat) (f : Frame) : Prd :=
  match o.frameCheck n f with
  | (o, none) => o
  | (o, some seq) =>
    let o := o.pulse (0x300 + n) o.ft
    let inner : Option (Nat × Frame) :=
      if f.rtype = 0x20 then (Frame.parse (f.body.drop 8)).map fun g => (fieldAt f.body 0 4 % 32, g) else some (n, f)
    match inner with
    | none => o
    | some (m, g) =>
      if f.rtype = 0x20 && (g.rtype = 0x20 || m ≠ f.stream % 256) then o
      else
        let (o, seq) := if f.rtype = 0x20 then o.frameCheck m g else (o, some seq)
        match seq with
        | none => o
        | some seq =>
          let o := if f.rtype = 0x20 then o.setPort m { o.port m with fbRelay := some n, fbAt := o.ft } else o
          let (o, ok) := o.police n f.cls ((if bit f.rflags 0 then 24 else 16) + (f.body.length + 7) / 8 * 8)
          if ok then o.noteFrame m g seq else o

/-- A frame handled by a row that takes the record types in `mine`; any row finds a malformed header. -/
def Prd.frameRow (o : Prd) (n vl : Nat) (b : List Byte) (mine : Nat → Bool) : Prd :=
  if n ≥ 32 then o
  else match Frame.parse b with
    | none => (o.onLink n (·.taken vl b)).malformed n vl
    | some f => if mine f.rtype then (o.onLink n (·.taken vl b)).frameIn n f else o

/-! ### Commands -/

/-- HNR_RECORD_WRITE. -/
def execHnrRecordWrite (n vl : Nat) (frame : List Byte) (t : Nat) (s : State) : Host.Outcome State Fault Refusal :=
  .next (s.onPrd fun o => (o.go t).frameRow n vl frame fun k => k != 4 && k != 0x20)

/-- SIL_RECORD_RX. -/
def execSilRecordRx (n vl : Nat) (frame : List Byte) (t : Nat) (s : State) : Host.Outcome State Fault Refusal :=
  .next (s.onPrd fun o => (o.go t).frameRow n vl frame (· == 4))

/-- RELAY_FRAME_RX. -/
def execRelayFrameRx (n vl : Nat) (frame : List Byte) (t : Nat) (s : State) : Host.Outcome State Fault Refusal :=
  .next (s.onPrd fun o => (o.go t).frameRow n vl frame (· == 0x20))

/-- R288: the time word of a received IDLE flit that passes the link check. -/
def LinkSt.wordOf (l : LinkSt) (x : FlitRx) : Option TimeWord :=
  let w := (x.bytes.drop 8).take 32
  if l.st == 2 && l.checks x && flitType x.bytes 0 && isTimeWord w then some (.ofBytes w) else none

/-- TIME_WORD_RX: a port that is not UP receives none (R52), and a flit that failed its checks brings none (R44). An OTU that has lost fleet time is declared absent from the accords still open (R89). -/
def execTimeWordRx (at_ : LinkEnd) (bytes : List Byte) (rx rxFrac : Nat) (errs : List Nat) (e : Edge) (s : State) :
    Host.Outcome State Fault Refusal :=
  let x : FlitRx := ⟨bytes, errs⟩
  match at_ with
  | .otu => .next (s.onOtu fun o =>
      let o := o.go e
      let w := o.link.wordOf x
      let o := if o.link.st = 2 then o.hear x else o
      match w with
      | some w => o.timeWord w (rx * 256 + rxFrac % 256)
      | none => o)
  | .prd n => .next (s.onPrd fun o =>
      let o := o.go e.ft
      if n ≥ 32 || (o.port n).link.st ≠ 2 then o
      else
      let w := (o.port n).link.wordOf x
      let o := o.onLink n (·.hear o.ft x)
      match w with
      | none => o
      | some w =>
        let had := (o.port n).noTime
        let o := o.timeWord n w (rx * 256 + rxFrac % 256)
        if !had && (o.port n).noTime then o.declareOpen n 1 else o)

/-- PORT_TRAIN. -/
def execPortTrain (at_ : LinkEnd) (loc : Nat) (fromReset : Bool) (fault credit : Nat) (e : Edge) (s : State) :
    Host.Outcome State Fault Refusal :=
  match at_ with
  | .otu => .next (s.onOtu fun o => (o.go e).portTrain loc credit)
  | .prd n => .next (s.onPrd fun o => let o := o.go e.ft; if n < 32 then o.portTrain n fromReset fault credit else o)

/-- PORT_DOWN. -/
def execPortDown (at_ : LinkEnd) (relayAnswers : List Bool) (e : Edge) (s : State) : Host.Outcome State Fault Refusal :=
  match at_ with
  | .otu => .next (s.onOtu fun o => (o.go e).portDown relayAnswers)
  | .prd n => .next (s.onPrd fun o => let o := o.go e.ft; if n < 32 then o.portDown n else o)

/-- DATA_FLIT_RX. -/
def execDataFlitRx (at_ : LinkEnd) (bytes : List Byte) (errs : List Nat) (e : Edge) (s : State) : Host.Outcome State Fault Refusal :=
  match at_ with
  | .otu => .next (s.onOtu fun o => (o.go e).dataFlit ⟨bytes, errs⟩)
  | .prd n => .next (s.onPrd fun o => let o := o.go e.ft; if n < 32 then o.dataFlit n ⟨bytes, errs⟩ else o)

/-- NAK. -/
def execNak (at_ : LinkEnd) (x : FlitRx) (e : Edge) (s : State) : Host.Outcome State Fault Refusal :=
  match at_ with
  | .otu => .next (s.onOtu fun o => (o.go e).ctrlFlit 1 x (·.nak (fieldAt x.bytes 9 2)))
  | .prd n => .next (s.onPrd fun o => (o.go e.ft).ctrlFlit n 1 x (·.nak n (fieldAt x.bytes 9 2)))

/-- NAK_REPEAT: every 1 µs until the flit that it names arrives. -/
def execNakRepeat (at_ : LinkEnd) (e : Edge) (s : State) : Host.Outcome State Fault Refusal :=
  match at_ with
  | .otu => .next (s.onOtu fun o => let o := o.go e; { o with link := o.link.nakAgain o.now })
  | .prd n => .next (s.onPrd fun o => let o := o.go e.ft; if n < 32 then o.onLink n (·.nakAgain o.ft) else o)

/-- RETRAIN_REQ. -/
def execRetrainReq (x : EndFlit) (e : Edge) (s : State) : Host.Outcome State Fault Refusal :=
  match x.at_ with
  | .otu => .next (s.onOtu fun o => (o.go e).ctrlFlit 4 x.flit (·.retrain false))
  | .prd n => .next (s.onPrd fun o => (o.go e.ft).ctrlFlit n 4 x.flit (·.retrain n false))

/-- FLIT_SLOT. -/
def execFlitSlot (at_ : LinkEnd) (e : Edge) (s : State) : Host.Outcome State Fault Refusal :=
  match at_ with
  | .otu => .next (s.onOtu fun o => (o.go e).flitSlot)
  | .prd n => .next (s.onPrd fun o => let o := o.go e.ft; if n < 32 then o.flitSlot n else o)

/-- POLICER_WRITE. -/
def execPolicerWrite (n reg value t : Nat) (s : State) : Host.Outcome State Fault Refusal :=
  .next (s.onPrd fun o => (o.go t).policerWrite n reg value)

/-- INGEST_WINDOW: a window of 10 µs ends. -/
def execIngestWindow (t : Nat) (s : State) : Host.Outcome State Fault Refusal :=
  .next (s.onPrd fun o =>
    let o := o.go t
    let k := (o.ft - o.ingestAt) / 40000
    if k = 0 then o
    else
      let rate := if k = 1 then o.ingest else 0
      let o := { o with ingestRate := rate, ingest := 0, ingestAt := o.ingestAt + k * 40000 }
      PrdR.set (PrdR.set o PRD_INGEST_RATE (rate / 10000)) PRD_INGEST_STATUS (b2n o.overIngest))

/-- FAULT_WAIT: the port is DOWN and no frame has come by fallback for FAULT_WAIT (R418). -/
def execFaultWait (n t : Nat) (s : State) : Host.Outcome State Fault Refusal :=
  .next (s.onPrd fun o =>
    let o := o.go t
    let p := o.port n
    if o.populated n && p.link.st = 0 && p.failedOtu.isNone &&
       decide (o.ft ≥ max p.downSince p.fbAt + PrdR.get o PRD_OTU_FAULT_WAIT * tickUs) then o.otuFailed n 0
    else o)

end Sys2Proof.Machine
end

