-- ==== Sys2Proof/Machine/NoseEval.lean ====
section
/-!
DEFINITION. Machine/NoseEval.lean: an evaluation of the Nose: features, detectors, screen, gate and experts, output records,
alarms, seasons and baselines (10 R267 to R284).
-/
namespace Sys2Proof.Machine
open Sys2Proof

/-! ### Heart notes as a reader sees them (R163, R378) -/

/-- R163, R378: the records held, in order of arrival: those of flacons, of the ring, and of the open segment;
`sees` says which flacons the reader sees. -/
def Prd.notesOf (o : Prd) (sees : Flacon → Bool) : List HRec :=
  let first (s : Seg) : Nat := (s.recs.head?.map (·.at_)).getD absent
  let held := (o.hnr.flc.flatMap fun x => if sees x.2 then x.2.segs else []) ++ o.hnr.ring ++ [o.hnr.open_]
  (sortBy first held).flatMap (·.recs)

/-- The records held, every flacon's among them. -/
def Prd.notes (o : Prd) : List HRec := o.notesOf fun _ => true

/-! ### What an evaluation reads (R269 to R271) -/

/-- A contribution with what the Nose reads beside it. -/
structure NoseRank where
  tag : Nat
  rank : Nat
  /-- The accord cut and the one before it, as fleet times: the interval (T_prev, T]. -/
  from_ : Nat
  dst : Nat
  /-- INTERVAL in 100 µs units. -/
  interval : Nat
  new : Image
  old : Image
  /-- Entries of queue samples in the interval: queue, DEPTH, DEPTH_MAX, SOJOURN, DEQUEUED. -/
  queues : List (Nat × Nat × Nat × Nat × Nat)
  /-- The last global-channel sample in the interval. -/
  gch : Option (List Byte)
  /-- BUCKET_ORDER_DIVERGENT events in the interval. -/
  divs : Nat

/-- R124, R125: the queue entries of a sample record. -/
def sampleEntries (b : List Byte) : List (Nat × Nat × Nat × Nat × Nat) :=
  (List.range (fieldAt b 6 2)).map fun i =>
    let e := b.drop (32 + 16 * i)
    (fieldAt e 0 2, fieldAt e 4 2, fieldAt e 6 2, fieldAt e 8 4, fieldAt e 12 4)

/-- R271: the ranks of an accord that have a contribution with a delta base. -/
def Prd.noseRanks (o : Prd) (a : AccNode) : List NoseRank :=
  let from_ := if a.prev = absent then 0 else a.prev * 400000
  let notes := o.notes.filter fun r => (r.rtype == 5 || r.rtype == 8) && decide (from_ < r.ft && r.ft ≤ a.t)
  sortBy NoseRank.rank (a.contribs.filterMap fun c => c.base.map fun old =>
    let mine := notes.filter fun r => r.tag == a.tag && r.rank == c.rank
    -- the fleet context sees every queue of the die, whoever owns it
    let all := if a.tag = 0 then notes.filter fun r => r.loc == c.rank else mine
    { tag := a.tag, rank := c.rank, from_, dst := a.t, interval := c.interval
      new := c.image, old
      queues := (all.filter fun r => r.rtype == 5 && r.stream == 0x400).flatMap fun r => sampleEntries r.body
      gch := if a.tag = 0 then ((mine.filter (·.rtype == 8)).getLast?).map (·.body) else none
      divs := (o.divs.filter fun d => d.1 == a.tag && d.2.1 == c.rank && decide (from_ < d.2.2 && d.2.2 ≤ a.t)).length })

/-- R269: a stream: its rank, kind and index. -/
structure NoseKey where
  kind : Nat
  rank : Nat
  idx : Nat
deriving DecidableEq, Repr

/-- R269: its ID. -/
def NoseKey.id (k : NoseKey) : Nat := k.rank % 2 ^ 20 + k.idx * 2 ^ 20 + k.kind * 2 ^ 32

/-- R269: the streams of a rank of the kinds in a mask. -/
def noseKeys (mask rank : Nat) : List NoseKey :=
  (setBits 4 mask).flatMap fun k => (List.range (match k with | 0 => 512 | 1 => 1 | 2 => 4096 | _ => 8)).map fun i => ⟨k, rank, i⟩

/-! ### Features (R270) -/

/-- R77, R270: the delta of a counter index. -/
def NoseRank.delta (r : NoseRank) (i : Nat) : Nat := counterDelta r.old r.new i

/-- R270: ΔA of a stream: a counter of its engine, or of its die. -/
def NoseRank.deltaOf (r : NoseRank) (k : NoseKey) (a : Nat) : Nat :=
  match k.kind with
  | 0 => if a < 32 then r.delta (256 + 32 * k.idx + a) else 0
  | 1 => if a < 256 then r.delta a else 0
  | _ => 0

/-- R270: KSUM. -/
def NoseRank.ksum (r : NoseRank) (k : NoseKey) (kmask a : Nat) : Nat :=
  match k.kind with
  | 0 => if bit kmask (engKind k.idx) && a < 32 then r.delta (256 + 32 * k.idx + a) else 0
  | 1 => (List.range 512).foldl (fun n e => if bit kmask (engKind e) && a < 32 then n + r.delta (256 + 32 * e + a) else n) 0
  | _ => 0

/-- A quotient in binary64; 0 where the divisor is 0. -/
def ratio64 (a b : Nat) : Nat := if b = 0 then 0 else fDiv 11 52 (fOfNat 11 52 a) (fOfNat 11 52 b)

/-- R270: QSTAT. -/
def NoseRank.qstat (r : NoseRank) (k : NoseKey) (a : Nat) : Nat :=
  let l := match k.kind with
    | 0 => r.queues.filter (·.1 == k.idx)
    | 1 => r.queues
    | 2 => r.queues.filter (·.1 == k.idx)
    | _ => r.queues.filter fun q => decide (2048 + 256 * k.idx ≤ q.1 && q.1 < 2304 + 256 * k.idx)
  match a with
  | 0 => ratio64 (l.foldl (fun n q => n + q.2.1) 0) l.length
  | 1 => fOfNat 11 52 (maxOf (fun q => q.2.2.1) 0 l)
  | 2 => fOfNat 11 52 (maxOf (fun q => q.2.2.2.1) 0 l)
  | _ => fOfNat 11 52 (l.foldl (fun n q => n + q.2.2.2.2) 0)

/-- R270: GCH: a channel of the last sample, as the two's complement number that it holds. -/
def NoseRank.gchOf (r : NoseRank) (k : NoseKey) (a : Nat) : Nat :=
  let ch := if k.kind = 3 && a < 16 then a + k.idx else a
  if k.kind = 2 then 0
  else match r.gch with
    | some b => if bit (fieldAt b 24 8) ch then fOfInt 11 52 (toS 64 (fieldAt b (64 + 8 * ch) 8)) else 0
    | none => 0

/-- R270: a feature of a stream in FP32, from its 16-byte descriptor. -/
def NoseRank.feature (r : NoseRank) (k : NoseKey) (d : List Byte) : Nat :=
  let a := fieldAt d 2 2
  let b := fieldAt d 4 2
  let m := fieldAt d 6 1
  let v := match fieldAt d 0 1 with
    | 0 => fOfNat 11 52 (r.deltaOf k a)
    | 1 => ratio64 (r.deltaOf k a) (r.deltaOf k b)
    | 2 => ratio64 (r.deltaOf k a) r.interval
    | 3 => fOfNat 11 52 (r.ksum k m a)
    | 4 => ratio64 (r.ksum k m a) (r.ksum k m b)
    | 5 => r.qstat k a
    | 6 => r.gchOf k a
    | _ => if k.kind = 1 then fOfNat 11 52 r.divs else 0
  let x := fConv 11 52 8 23 v
  if bit (fieldAt d 1 1) 0 && getF x 23 8 = 255 then 0 else x

/-! ### Peer sets (R272) -/

/-- R272: max(0, x) × 2^k as a 64-bit integer, rounded to nearest, ties to even; free for a NaN (log entry 69). -/
def peerQ (x : Nat) (k : Int) : Nat :=
  match fVal 8 23 x with
  | .nan => Config.nanPeer x k % 2 ^ 64
  | .inf s => if s then 0 else absent
  | .fin s m e => if s then 0 else min absent (if e + k ≥ 0 then m * 2 ^ (min 200 (e + k).toNat) else rneShift m (-(e + k)).toNat false)

/-- A sketch over values. -/
def sketchOf (l : List Nat) : List (Nat × Nat) :=
  l.foldl (fun t q => let b := sketchBucket q; Tbl.ins t b (Tbl.get (fun _ => 0) t b + 1)) []

/-- R272: med and MAD of a peer set's values, in binary64, with FSCALE `k`. -/
def peerMed (xs : List Nat) (k : Int) : Nat × Nat :=
  let qs := xs.map (peerQ · k)
  let med := (sketchMid (sketchOf qs)).getD 0
  let mad := (sketchMid (sketchOf (qs.map fun q => if q ≥ med then q - med else med - q))).getD 0
  (fPack 11 52 false med (-k) false, fPack 11 52 false mad (-k) false)

/-! ### Detectors (R272 to R274) -/

/-- Binary64 operations. -/
def f64Add (a b : Nat) : Nat := fAdd 11 52 a b
def f64Sub (a b : Nat) : Nat := fSub 11 52 a b
def f64Mul (a b : Nat) : Nat := fMul 11 52 a b
def f64Div (a b : Nat) : Nat := fDiv 11 52 a b
/-- The greater number; free where one of them is a NaN (log entry 69). -/
def f64Max (a b : Nat) : Nat := if fIsNan 11 52 a || fIsNan 11 52 b then Config.nanMax a b % 2 ^ 64 else if fLt 11 52 a b then b else a
/-- |s|. -/
def f64Abs (a : Nat) : Nat := a % 2 ^ 63
/-- An FP32 value widened. -/
def widen (v : Nat) : Nat := fConv 8 23 11 52 v

/-- R272: SLOPE over W values, oldest first. -/
def slopeOf (l : List Nat) : Nat :=
  let w := l.length
  let wf := fOfNat 11 52 w
  let tb := f64Div (f64Sub wf (fOfNat 11 52 1)) (fOfNat 11 52 2)
  let xb := f64Div (l.foldl f64Add 0) wf
  let num := l.zipIdx.foldl (fun a x => f64Add a (f64Mul (f64Sub (fOfNat 11 52 x.2) tb) (f64Sub x.1 xb))) 0
  f64Div num (f64Div (f64Mul wf (f64Sub (f64Mul wf wf) (fOfNat 11 52 1))) (fOfNat 11 52 12))

/-- R272: the statistics of a feature `x`, in binary64, with their H, and its state after; `st` is none at the stream's first
evaluation, `med` the median and MAD of its peers. -/
def detect (c : List Byte) (x : Nat) (med : Nat × Nat) (st : Option NoseFeat) : List (Nat × Nat) × NoseFeat :=
  let on (k : Nat) : Bool := bit (fieldAt c 0 1) k
  let h (o : Nat) : Nat := widen (fieldAt c o 4)
  let eps := h 28
  let s0 := st.getD {}
  let alpha := fPack 11 52 false 1 (-(fieldAt c 1 1 : Int)) false
  let d := f64Sub x s0.mu
  let z := if st.isNone then 0 else f64Div d (fSqrt 11 52 (f64Add s0.v eps))
  let (mu, v) := if st.isNone then (x, 0)
    else (f64Add s0.mu (f64Mul alpha d), f64Mul (f64Sub (fOfNat 11 52 1) alpha) (f64Add s0.v (f64Mul (f64Mul alpha d) d)))
  let p := f64Max 0 (f64Sub (f64Add s0.p z) (h 8))
  let n := f64Max 0 (f64Sub (f64Sub s0.n z) (h 8))
  let rz := f64Div (f64Sub x med.1) (f64Mul 0x3FF7_B8BA_C710_CB29 (f64Max med.2 eps))
  let dist := fieldAt c 2 1
  let roc := if s0.roc.length < dist then 0 else f64Div (f64Sub x (s0.roc.getD (dist - 1) 0)) (fOfNat 11 52 dist)
  let w := 2 ^ fieldAt c 3 1
  let ring := (x :: s0.slope).take w
  let slope := if ring.length < w then 0 else slopeOf ring.reverse
  ((if on 0 then [(z, h 4)] else []) ++ (if on 1 then [(f64Max p n, h 12)] else []) ++ (if on 2 then [(rz, h 16)] else []) ++
   (if on 3 then [(roc, h 20)] else []) ++ (if on 4 then [(slope, h 24)] else []),
   { mu := if on 0 || on 1 then mu else 0, v := if on 0 || on 1 then v else 0, p := if on 1 then p else 0, n := if on 1 then n else 0
     roc := if on 3 then (x :: s0.roc).take 64 else [], slope := if on 4 then ring else [] })

/-- R273: whether a statistic reaches its H; a NaN does not (log entry 69). -/
def fires (x : Nat × Nat) : Bool := !fIsNan 11 52 x.1 && !fLt 11 52 (f64Abs x.1) x.2

/-- R273, R277: the greatest |s| / H. -/
def screenOf (l : List (Nat × Nat)) : Nat := l.foldl (fun m x => f64Max m (f64Div (f64Abs x.1) x.2)) 0

/-! ### One stream (R276 to R279, R282) -/

/-- What an evaluation gives for one stream. -/
structure NoseOut where
  key : NoseKey
  score : Nat
  alarm : Bool
  fired : Bool
  /-- Its output record, if one is written. -/
  rec_ : Option (List Byte)
  st : NoseStream

/-- What an evaluation runs with. -/
structure NoseEnv where
  image : List Byte
  digest : Nat
  macerate : Nat
  emitAll : Bool
  replay : Bool
  tag : Nat
  no : Nat

/-- The first eight features by attribution; ties go to the lower index. -/
def topAttr (l : List Nat) (ew mw : Nat) : List Nat :=
  let before (x y : Nat × Nat) : Bool :=
    if fIsNan ew mw x.1 then fIsNan ew mw y.1 && decide (x.2 ≤ y.2)
    else if fIsNan ew mw y.1 then true
    else if fLt ew mw y.1 x.1 then true else if fLt ew mw x.1 y.1 then false else decide (x.2 ≤ y.2)
  ((sortOrd before l.zipIdx).take 8).map (·.2)

/-- R278: the output record. -/
def noseRecord (n : NoseEnv) (k : NoseKey) (cls flags : Nat) (used : List Nat) (score screen gen : Nat) (attr : List Nat) : List Byte :=
  le 1 1 ++ le 1 cls ++ le 2 flags ++ le 2 n.tag ++ le 1 used.length ++ le 1 0 ++ le 8 n.no ++ le 8 k.id ++ le 4 score ++ le 4 screen ++
    le 8 (maskOf used) ++ attr.flatMap (le 1) ++ List.replicate (8 - attr.length) 0xFF ++ le 8 (n.digest % 2 ^ 64) ++ le 4 gen ++ le 4 0

/-- R273 to R279: one stream, from its features, its peers' medians and the state before. -/
def evalStream (n : NoseEnv) (k : NoseKey) (xs : List Nat) (meds : List (Nat × Nat)) (old : Option NoseStream) : NoseOut :=
  let img := n.image
  let dets := xs.zipIdx.map fun x =>
    detect ((sectBytes img 2).drop (32 * x.2)) (widen x.1) (meds.getD x.2 (0, 0)) (old.map fun s => s.feats.getD x.2 {})
  let all := dets.flatMap (·.1)
  let fired := all.any fires
  let screen := fConv 11 52 8 23 (screenOf all)
  let v : NVerdict := if fired then runExperts img xs else {}
  let st := old.getD { tag := n.tag, id := k.id }
  let unseasoned := decide (st.season < n.macerate)
  let score := if fired then v.score else screen
  let c := (sectBytes img 7).drop (8 * v.cls)
  let alarm := fired && !unseasoned && bit (fieldAt c 4 4) 0 && !fIsNan 8 23 score && !fIsNan 8 23 (fieldAt c 0 4) && !fLt 8 23 score (fieldAt c 0 4)
  let attr := if attrMode img = 0 then topAttr (dets.map fun d => screenOf d.1) 11 52 else if fired then topAttr v.attr 8 23 else []
  let flags := b2n fired + 2 * b2n unseasoned + 4 * b2n alarm + 8 * b2n v.denZero + 16 * attr.length + 256 * b2n n.replay
  { key := k, score, alarm, fired
    rec_ := if fired || n.emitAll then some (noseRecord n k v.cls flags v.experts score screen st.gen attr) else none
    st := { st with season := min ones32 (st.season + 1), feats := dets.map (·.2) } }

/-! ### An accord (R272, R281) -/

/-- R272: the peers of a stream: those of its kind, and for engines of its engine kind. -/
def NoseKey.group (k : NoseKey) : Nat × Nat := (k.kind, if k.kind = 0 then engKind k.idx else 0)

/-- R269 to R279: the streams of an accord, in ascending stream ID, with the state set `states`. -/
def evalAccord (n : NoseEnv) (ranks : List NoseRank) (states : List NoseStream) : List NoseOut :=
  let descs := (List.range (nFeat n.image)).map fun i => ((sectBytes n.image 1).drop (16 * i)).take 16
  let ins := ranks.flatMap fun r => (noseKeys (imgKinds n.image) r.rank).map fun k => (k, descs.map (r.feature k))
  let groups := (ins.map fun x => x.1.group).eraseDups
  let meds := groups.map fun g =>
    let xs := ins.filter fun x => x.1.group == g
    (g, descs.zipIdx.map fun d => peerMed (xs.map fun x => x.2.getD d.2 0) (toS 8 (fieldAt d.1 7 1)))
  sortBy (fun y => y.key.id) (ins.map fun x =>
    evalStream n x.1 x.2 ((meds.lookup x.1.group).getD []) (states.find? fun s => s.tag == n.tag && s.id == x.1.id))

/-- The state set after an evaluation. -/
def newStates (states : List NoseStream) (outs : List NoseOut) (tag : Nat) : List NoseStream :=
  outs.map (·.st) ++ states.filter fun s => !(s.tag == tag && outs.any fun y => y.key.id == s.id)

/-! ### Baselines (R283) -/

/-- R283: bytes of an entry. -/
def baseEntry (nf : Nat) : Nat := 16 + 32 * nf

/-- R283: a baseline's streams. -/
def baseStreams (b : List Byte) : List NoseStream :=
  let nf := fieldAt b 4 2
  let gen := fieldAt b 12 4
  (List.range (fieldAt b 8 4)).map fun i =>
    let e := b.drop (32 + i * baseEntry nf)
    { tag := fieldAt b 2 2, id := fieldAt e 0 8, season := fieldAt e 8 4, gen
      feats := (List.range nf).map fun f =>
        { mu := fieldAt e (16 + 32 * f) 8, v := fieldAt e (24 + 32 * f) 8, p := fieldAt e (32 + 32 * f) 8, n := fieldAt e (40 + 32 * f) 8 } }

/-- R283: whether a baseline's form is right and its N_FEAT and JOB_TAG match; `model` is compared where it is given. -/
def baseOk (b : List Byte) (nf : Nat) (tagOk : Nat → Bool) (model : Option Nat) : Bool :=
  32 ≤ b.length && fieldAt b 0 1 == 1 && fieldAt b 4 2 == nf && tagOk (fieldAt b 2 2) &&
  b.length ≥ 32 + fieldAt b 8 4 * baseEntry nf && (match model with | some m => fieldAt b 16 8 == m % 2 ^ 64 | none => true)

/-- R283: a state set in which a baseline takes the place of a context's streams. -/
def withBase (states : List NoseStream) (tag : Nat) (l : List NoseStream) : List NoseStream := l ++ states.filter (·.tag != tag)

/-- R283: the live state of a context as a baseline. -/
def baseBytes (tag nf gen model : Nat) (states : List NoseStream) : List Byte :=
  let ss := sortBy NoseStream.id (states.filter (·.tag == tag))
  le 1 1 ++ le 1 0 ++ le 2 tag ++ le 2 nf ++ le 2 0 ++ le 4 ss.length ++ le 4 gen ++ le 8 (model % 2 ^ 64) ++ zeros 8 ++
    ss.flatMap fun s => le 8 s.id ++ le 4 s.season ++ le 4 0 ++
      (List.range nf).flatMap fun f => let x := s.feats.getD f {}; le 8 x.mu ++ le 8 x.v ++ le 8 x.p ++ le 8 x.n

/-! ### Commands (R281) -/

/-- R281: the oldest accord that waits starts when the Nose is free. -/
def Prd.noseStart (o : Prd) (c no : Nat) : Prd :=
  match o.nose.waiting with
  | x :: r => if o.nose.busy.isNone && !o.nose.copying && x == (c, no) then { o with nose := { o.nose with busy := some x, waiting := r } } else o
  | [] => o

/-- NOSE_EVAL. -/
def execNoseEval (c no t : Nat) (s : State) : Host.Outcome State Fault Refusal :=
  .next (s.onPrd fun o => (o.go t).noseStart c no)

/-- R282: MACERATE of an image, or of PRD_NOSE_MACERATE. -/
def Prd.macerate (o : Prd) (img : List Byte) : Nat :=
  let m := fieldAt img 20 4
  if m = 0 then PrdR.get o PRD_NOSE_MACERATE else m

/-- R279: an alarm: its event and its trigger. -/
def Prd.noseAlarm (o : Prd) (tag no t : Nat) (x : NoseOut) : Prd :=
  let o := PrdR.cnt (PrdR.ev o PRD_NOSE_EVENTS 3) PRD_NOSE_ALARMS 0 32 1
  let o := o.event { code := 0x70, sev := 3, tag, rank := some x.key.rank, payload := le 8 no ++ le 8 x.key.id ++ le 4 x.score }
  o.triggerOf 4 tag t x.key.rank

/-- R278 to R282: the results of an evaluation in the live state set. -/
def Prd.noseResults (o : Prd) (tag no t : Nat) (outs : List NoseOut) : Prd :=
  let o := outs.foldl (fun (o : Prd) x =>
    let o := match x.rec_ with
      | some b => o.hnrOwn 2 x.key.id tag x.key.rank absent b
      | none => o
    if x.alarm then o.noseAlarm tag no t x else o) o
  let scores := outs.map fun x => ({ tag, no, id := x.key.id, v := x.score } : NoseScore)
  { o with nose := { o.nose with streams := newStates o.nose.streams outs tag, scores := scores ++ o.nose.scores.filter (·.tag != tag) } }

/-- R281, R283: an evaluation ends: its record, the baseline that waited for it, and the accord held for its scores. -/
def Prd.noseEnd (o : Prd) (tag no status streams fired : Nat) : Prd :=
  let o := o.evalRec status tag streams no fired (if status = 0 then o.ft else absent)
  let base := o.nose.baseNext.lookup tag
  let n := { o.nose with busy := none, baseNext := o.nose.baseNext.filter (·.1 != tag)
                         streams := match base with | some l => withBase o.nose.streams tag l | none => o.nose.streams }
  ({ o with nose := n }).releaseHold tag no

/-- NOSE_EVAL_DONE. -/
def Prd.noseDone (o : Prd) : Prd :=
  match o.nose.busy with
  | none => o
  | some (c, no) =>
    let tag := if c = 0 then 0 else (o.slot c).tag
    match o.nose.model, o.acc? tag 0 no 0 with
    | some m, some a =>
      let env : NoseEnv := { image := m.image, digest := m.digest, macerate := o.macerate m.image, emitAll := PrdR.flag o PRD_NOSE_CTRL 1
                             replay := false, tag, no }
      let outs := evalAccord env (o.noseRanks a) o.nose.streams
      let o := o.noseResults tag no a.t outs
      let o := if outs.any (·.fired) then o.pulse 0x501 o.ft else o
      let o := if tag = 0 then PrdR.set o PRD_NOSE_LAST_EVAL no else o
      o.noseEnd tag no 0 outs.length (outs.filter (·.fired)).length
    | _, _ => o.noseEnd tag no 3 0 0

/-- NOSE_EVAL_DONE. -/
def execNoseEvalDone (t : Nat) (s : State) : Host.Outcome State Fault Refusal :=
  .next (s.onPrd fun o => (o.go t).noseDone)

end Sys2Proof.Machine
end

