-- ==== Sys2Proof/Machine/Query.lean ====
section
/-!
DEFINITION. Machine/Query.lean: how an operation of a ring starts, and what the QUERY and SUBSCRIBE operations answer
(14 R367 to R379, R384, R397, R398).
-/
namespace Sys2Proof.Machine
open Sys2Proof

/-! ### Starting (R372, R384, R394) -/

/-- R372: operations of the ring fetched before `p`. -/
def Prd.opsBefore (o : Prd) (p : Op) : List Op :=
  (o.rings.ops.takeWhile fun q => !q.is p.ring p.idx).filter (·.ring == p.ring)

/-- R384: the members of its chain. -/
def Prd.chainOf (o : Prd) (p : Op) : List Op := o.rings.ops.filter fun q => q.ring == p.ring && q.chain == p.chain

/-- R384: SAME_ACCORD of its chain. -/
def Prd.sameAccord (o : Prd) (p : Op) : Bool :=
  p.chain ≠ 0 && ((o.chainOf p).head?.map fun q => bit (dFlags q.desc) 1).getD false

/-- R372, R384: an operation starts in ring order, after a FENCE's predecessors, once its chain is fetched whole, and after
the first of a SAME_ACCORD chain has resolved its accord. -/
def Prd.canStart (o : Prd) (p : Op) : Bool :=
  let before := o.opsBefore p
  let chain := o.chainOf p
  !before.any (fun q => q.wait == .fetched) && (!bit (dFlags p.desc) 3 || before.all (·.wait.isDone)) &&
  (p.chain = 0 || chain.any (·.last)) &&
  (!o.sameAccord p || chain.head? == some p || chain.head?.any fun q => q.acc.isSome || q.wait.isDone)

/-- The status of a finished operation. -/
def Op.status? (p : Op) : Option Nat := match p.wait with | .done c => some c.status | _ => none

/-- R394: whether operations that start complete with BUSY. -/
def Prd.ringsBusy (o : Prd) : Bool := o.mgmt.run.any fun m => m.cmd == 0x11 || m.cmd == 0x12

/-- The operation with this TAG on ring `k` that waits for its command. -/
def Prd.opOf (o : Prd) (k tag : Nat) (mine : Nat → Bool) : Option Op :=
  o.rings.ops.find? fun p => p.ring == k && dTag p.desc == tag && p.wait == .fetched && mine (dOpc p.desc)

/-- R384, R394: start an operation: its chain broken or the management engine in the way, or `f`. -/
def Prd.runOp (o : Prd) (k tag : Nat) (mine : Nat → Bool) (f : Prd → Op → Prd) : Prd :=
  match o.opOf k tag mine with
  | none => o
  | some p =>
    if !o.canStart p then o
    else if o.ringsBusy then o.finish k p.idx { status := 0x0A }
    else if o.sameAccord p && (o.opsBefore p).any (fun q => q.chain == p.chain && q.status? == some 0x08) then o.finish k p.idx { status := 0x08 }
    else f o p

/-- R363, R369: answer bytes go to their buffer, or wait to travel in packets. -/
def Prd.putAnswer (o : Prd) (k addr : Nat) (l : List Byte) : Prd :=
  match (o.ring k).origin with
  | 0 => { o with rings := { o.rings with host := o.rings.host.write addr l } }
  | 2 => if inSoftware addr l.length && !o.mramProt then { o with hbm := o.hbm.write addr l } else o
  | _ => o

/-- Finish with an answer at `addr`. -/
def Prd.finishWith (o : Prd) (p : Op) (addr : Nat) (l : List Byte) (c : Cmpl) : Prd :=
  let remote := (o.ring p.ring).origin == 1
  (o.putAnswer p.ring addr l).finish p.ring p.idx { c with bytes := l.length, answer := if remote then l else [] }

/-! ### Privilege (R362, R370, R397, R398) -/

/-- R362, R370, R398: the status with which the context that a descriptor names stops it. -/
def Prd.ctxStop (o : Prd) (p : Op) : Option Nat :=
  let tag := dJob p.desc
  if privRing p.ring then (if (o.slotOf tag).isNone then some 0x0F else none)
  else
    let x := o.slot (o.ring p.ring).slot
    if tag = 0 || x.st = 0 || x.tag ≠ tag then some 0x06 else none

/-- R395: whether an answer buffer in HBM lies in the software area and outside the staging area. -/
def Prd.bufOk (o : Prd) (k addr len : Nat) : Bool :=
  let st := PrdR.get o PRD_MBX_STAGE_BASE
  (o.ring k).origin ≠ 2 || (inSoftware addr len && (decide (addr + len ≤ st) || decide (st + 67108864 ≤ addr)))

/-- R367, R374: what every query body must keep: no reserved bit, ranks in order, a buffer of a legal size. -/
def Prd.bodyOk (o : Prd) (p : Op) : Bool :=
  let d := p.desc
  dFlags d < 16 && fieldAt d 7 1 == 0 && decide (dLo d ≤ dHi d) && decide (dHi d < 2 ^ 17) &&
  decide (64 ≤ dLen d && dLen d ≤ 2 ^ 30) && decide (dQf d < 8) && o.bufOk p.ring (dBuf d) (dLen d)

/-! ### Levels (R374, R377) -/

/-- R374: whether an opcode allows a level, of regular or of fast accords. -/
def levelOk (opc level : Nat) (fast : Bool) : Bool :=
  if fast then level == 0 && (opc == 2 || opc == 3 || opc == 4)
  else match opc with
    | 1 => level == 1 || level == 0xFF
    | 2 => level ≤ 4 || level == 0xFF
    | _ => level ≤ 1

/-- R92, R374: the code of the level answered. -/
def Prd.levelCode (o : Prd) (tag level : Nat) : Nat := if level = 0xFF then o.topOf tag + 1 else level

/-- R374, R376: whether SELECT is legal for an opcode. -/
def selectOk (opc : Nat) (d : List Byte) : Bool :=
  match opc with
  | 1 => fieldAt d 33 15 == 0
  | 2 => fieldAt d 32 16 == 0
  | 3 => (ItemDesc.ofBytes ((d.drop 32).take 16)).ok
  | _ => (List.range 8).all fun i => let e := fieldAt d (32 + 2 * i) 2; !bit e 15 || decide (getF e 0 15 < 16640)

/-- R370: whether this Priord lacks the node of a context at a level code. -/
def Prd.notHere (o : Prd) (tag code : Nat) : Bool :=
  !o.holds o.tree.roles (code - 1) || (o.blocksAt tag (code - 1)).isEmpty

/-! ### Accords answered (R28, R377) -/

/-- R377: whether a closure is final and visible at a level code: from the cycle after it. -/
def Prd.visible (o : Prd) (code : Nat) (a : AccNode) : Bool :=
  a.st ≠ 0 && decide (a.closeT < o.ft) && !(a.level == 0 && code ≠ 0 && a.hold)

/-- R62, R81: ticks per unit of ACCORD_NO. -/
def accUnit (kind : Nat) : Nat := if kind = 1 then 40000 else 400000

/-- R28: whether [first, last] names an accord of a context, scheduled and no longer known here, whose record has left the ring
with no flacon holding it: `known` are those that are (`Prd.forget`). -/
def Prd.agedOut (o : Prd) (tag kind first last : Nat) (known : List AccNode) : Bool :=
  let iv := if kind = 1 then 1 else max 1 o.accInt
  let from_ := if tag = 0 then 0 else ((o.slotOf tag).map fun c => (o.slot c).s).getD 0
  let lo := max first ((from_ + accUnit kind - 1) / accUnit kind)
  let hi := min last (o.hnr.lostNow / accUnit kind)
  decide (o.hnr.lostNow ≠ 0) && decide (lo ≤ hi) &&
  decide ((known.filter fun a => decide (lo ≤ a.no) && decide (a.no ≤ hi)).length < hi / iv - (lo + iv - 1) / iv + 1)

/-- What resolving a selector gives. -/
inductive Resolved where
  /-- The operation goes on waiting. -/
  | wait
  /-- It stops: status and ACCORD_NO. -/
  | stop (status no : Nat)
  /-- The accords answered, ascending. -/
  | accords (l : List AccNode)

/-- R377: whether an accord of [first, last] is still to be cut in a context. -/
def Prd.future (o : Prd) (tag kind first last : Nat) : Bool :=
  let iv := if kind = 1 then 1 else max 1 o.accInt
  let m := last / iv * iv
  let cuts := tag = 0 || ((o.slotOf tag).map fun c => decide ((o.slot c).st ≤ 3)).getD false
  cuts && decide (first ≤ m) && (decide (o.ft < m * accUnit kind) || (kind ≠ 1 && m * accUnit kind == o.accNext))

/-- R28, R377: resolve the accords of a selector at a level code. -/
def Prd.resolve (o : Prd) (tag kind code first last : Nat) (wait : Bool) : Resolved :=
  let lvl := code - 1
  let all := sortBy (·.no) (o.accs.filter fun a => a.level == lvl && a.tag == tag && a.kind == kind)
  let closed := all.filter (o.visible code)
  let latest := (closed.getLast?.map (·.no)).getD absent
  let oldest := (closed.head?.map (·.no)).getD absent
  if first = absent then
    match closed.getLast? with
    | none => .stop 0x02 absent
    | some a => .accords [a]
  else
    let inside := all.filter fun a => decide (first ≤ a.no && a.no ≤ last)
    let iv := if kind = 1 then 1 else max 1 o.accInt
    let due := last / iv * iv * accUnit kind + o.deadline lvl
    if o.agedOut tag kind first last all then .stop 0x03 oldest
    else if inside.any (fun a => !o.visible code a) || o.future tag kind first last then
      if wait && decide (o.ft ≤ due) then .wait else .stop 0x02 latest
    else .accords inside

/-! ### Answer blocks (R376) -/

/-- R374, R376: the value of REDUCE: the canonical tree over the ranks of the range that this tray homes. -/
def Prd.reduceVal (o : Prd) (d : ItemDesc) (a : AccNode) (code lo hi : Nat) : ItemRes :=
  let ex := if code = 1 then (o.excluded a).map (·.rank) else []
  let cs := a.contribs.filter fun c => decide (lo ≤ c.rank && c.rank ≤ hi) && !ex.contains c.rank
  let from_ := if a.prev = absent then 0 else a.prev * 400000 + 2
  let nans (rank : Nat) : List (List Byte) :=
    if d.src ≠ 3 then [] else (o.notes.filter fun r => r.rcls == 8 && r.tag == a.tag && r.rank == rank && decide (from_ ≤ r.ft && r.ft < a.t + 2)).map (·.body)
  let leaf (c : Contrib) : ItemRes := d.rankVal a.tag c.rank c.image c.base (nans c.rank) (o.scoreOf a.tag a.no c.rank)
  (treeEval d.combine (o.heightOf a.tag) 0 (sortBy (·.1) (cs.map fun c => (c.rank, leaf c)))).getD {}

/-- R376, R397: the value of READ_COUNTERS. -/
def Prd.countersVal (o : Prd) (k : Nat) (d : List Byte) (a : AccNode) (code : Nat) : List Byte :=
  let ex := if code = 1 then (o.excluded a).map (·.rank) else []
  let cs := sortBy Contrib.rank (a.contribs.filter fun c => decide (dLo d ≤ c.rank && c.rank ≤ dHi d) && !ex.contains c.rank)
  let word (c : Contrib) (e : Nat) : Nat :=
    let i := getF e 0 15
    let hidden := !privRing k && (i < 256 || (a.kind ≠ 1 && (hdrGet c.image.hdr ((i - 256) / 32)).tag ≠ a.tag))
    if !bit e 15 || hidden then 0 else Tbl.get (fun _ => 0) c.image.ctr i
  cs.flatMap fun c => le 4 c.rank ++ le 4 0 ++ (List.range 8).flatMap fun i => le 8 (word c (fieldAt d (32 + 2 * i) 2))

/-- R376: the value of READ_ITEM. -/
def Prd.itemVal (o : Prd) (top : Bool) (i : Nat) (a : AccNode) : List Byte :=
  match a.items[i]? with
  | none => []
  | some d =>
    if top then
      let root := (mergeFrags a.items (o.leavesOf a.tag) a.frags).find? fun f => f.i == 0
      d.resBytes ((root.bind fun f => f.vals.bind fun l => l[i]?).getD {})
    else a.frags.flatMap fun f => Frag.bytes [d] { f with vals := f.vals.map fun l => [l.getD i {}] }

/-- R376: an answer block of ring `k` for an accord at a level code. -/
def Prd.answerBlock (o : Prd) (k opc code : Nat) (d : List Byte) (a : AccNode) : List Byte :=
  let (sum, miss) := if code = 0 then (a.local_, a.localMiss) else (a.sum, a.miss)
  let value := match opc with
    | 1 => o.itemVal (dLevel d == 0xFF) (dRcls d) a
    | 3 => let x := ItemDesc.ofBytes ((d.drop 32).take 16); x.resBytes (o.reduceVal x a code (dLo d) (dHi d))
    | 4 => o.countersVal k d a code
    | _ => []
  let body := padTo 8 (summaryBytes sum ++ (if bit (dQf d) 0 then missBytes miss else []) ++ value)
  le 1 1 ++ le 1 sum.state ++ le 1 code ++ le 1 opc ++ le 4 (32 + body.length) ++ le 8 a.no ++ le 4 a.epoch ++ zeros 12 ++ body

/-- R370: whole blocks, in order, as far as the buffer goes. -/
def wholeBlocks : Nat → List (List Byte) → List (List Byte)
  | _, [] => []
  | room, b :: r => if b.length ≤ room then b :: wholeBlocks (room - b.length) r else []

/-- The completion of the blocks that a buffer took. -/
def blocksCmpl (all got : List (List Byte)) : Cmpl :=
  { status := if got.length < all.length then 0x01 else 0x00, nAnswers := got.length, info := all.length - got.length }

/-! ### READ_ITEM, READ_SUMMARY, REDUCE, READ_COUNTERS (R374 to R377, R384) -/

/-- R370, R374: the status with which an accord selector stops before it is resolved. -/
def Prd.selectorStop (o : Prd) (p : Op) (opc : Nat) : Option Nat :=
  let d := p.desc
  match o.ctxStop p with
  | some st => some st
  | none =>
    if !o.bodyOk p || !levelOk opc (dLevel d) (bit (dQf d) 2) || !selectOk opc d then some 0x05
    else if o.notHere (dJob d) (o.levelCode (dJob d) (dLevel d)) then some 0x09
    else none

/-- R374: whether a range covers at most 4,096 accords of the interval. -/
def Prd.rangeOk (o : Prd) (kind first last : Nat) : Bool :=
  first = absent || (decide (first ≤ last) && decide ((last - first) / (if kind = 1 then 1 else max 1 o.accInt) < 4096))

/-- R374: whether the item index of READ_ITEM lies in the item table of the accords answered, or, with none, of the context. -/
def Prd.indexOk (o : Prd) (tag i : Nat) (l : List AccNode) : Bool :=
  if l.isEmpty then decide (i < (((o.slotOf tag).map fun c => (o.slot c).items.length).getD 0))
  else l.all fun a => decide (i < a.items.length)

/-- R374 to R377, R384: an accord query; `err` says that an uncorrected error struck while answering. -/
def Prd.accordQuery (o : Prd) (err : Bool) (p : Op) : Prd :=
  let d := p.desc
  let opc := dOpc d
  let tag := dJob d
  let kind := b2n (bit (dQf d) 2)
  let same := o.sameAccord p
  let head := same && (o.chainOf p).head? == some p
  let broken := same && dFirst d ≠ absent && dFirst d ≠ dLast d
  -- R384: a later descriptor of the chain answers the accord that the first resolved
  let named := if same && !head then ((o.chainOf p).head?.bind (·.acc)) else some (dFirst d)
  match o.selectorStop p opc with
  | some st => o.finish p.ring p.idx { status := if same && !head then 0x08 else st }
  | none =>
    if !o.rangeOk kind (dFirst d) (dLast d) then o.finish p.ring p.idx { status := 0x05 }
    else match (if broken then none else named) with
    | none => o.finish p.ring p.idx { status := 0x08 }
    | some first =>
      let last := if same then first else dLast d
      let code := o.levelCode tag (dLevel d)
      match o.resolve tag kind code first last (bit (dQf d) 1 && !(same && !head)) with
      | .wait => o.setOp p.ring p.idx fun p => { p with wait := .accord }
      | .stop st no => o.finish p.ring p.idx (if same && !head then { status := 0x08 } else { status := st, accNo := no })
      | .accords l =>
        if opc = 1 && !o.indexOk tag (dRcls d) l then o.finish p.ring p.idx { status := 0x05 }
        else if same && l.isEmpty then o.finish p.ring p.idx { status := 0x08 }
        else if err then o.memError.finish p.ring p.idx { status := 0x0D }
        else
          let all := l.map (o.answerBlock p.ring opc code d)
          let got := wholeBlocks (dLen d) all
          let o := o.setOp p.ring p.idx fun p => { p with acc := l.head?.map (·.no) }
          let c := blocksCmpl all got
          let c := match l.head? with
            | some a => if got.isEmpty then c
                else { c with accNo := a.no, cstate := (if code = 0 then a.local_.state else a.sum.state) % 16 + 16 * code }
            | none => c
          o.finishWith p (dBuf d) got.flatten c

/-- R377: operations that wait for an accord look again. -/
def Prd.retryWaits (o : Prd) (k : Nat) : Prd :=
  (o.rings.ops.filter fun p => p.ring == k && p.wait == .accord).foldl (fun (o : Prd) p => o.accordQuery false p) o

/-- A query of one opcode, or one that waits for its accord. -/
def Prd.query (o : Prd) (k tag opc : Nat) (err : Bool) : Prd :=
  match o.rings.ops.find? fun p => p.ring == k && dTag p.desc == tag && p.wait == .accord && dOpc p.desc == opc with
  | some p => o.accordQuery err p
  | none => o.runOp k tag (· == opc) fun o p => o.accordQuery err p

/-- READ_ITEM. -/
def execReadItem (k tag : Nat) (err : Bool) (t : Nat) (s : State) : Host.Outcome State Fault Refusal :=
  .next (s.onPrd fun o => (o.go t).query k tag 0x01 err)

/-- READ_SUMMARY. -/
def execReadSummary (k tag : Nat) (err : Bool) (t : Nat) (s : State) : Host.Outcome State Fault Refusal :=
  .next (s.onPrd fun o => (o.go t).query k tag 0x02 err)

/-- REDUCE. -/
def execReduce (k tag : Nat) (err : Bool) (t : Nat) (s : State) : Host.Outcome State Fault Refusal :=
  .next (s.onPrd fun o => (o.go t).query k tag 0x03 err)

/-- READ_COUNTERS. -/
def execReadCounters (k tag : Nat) (err : Bool) (t : Nat) (s : State) : Host.Outcome State Fault Refusal :=
  .next (s.onPrd fun o => (o.go t).query k tag 0x04 err)

/-! ### READ_RECORDS (R375, R377, R397, R398) -/

/-- R24, R331: the bytes of a record that a tenant ring receives: of an event record, the copy without location. -/
def HRec.tenantBody (r : HRec) : List Byte := if r.rcls = 1 then (EvRec.ofBytes r.body).forJob.bytes else r.body

/-- R294, R375: a record in frame form with SEQ_SENT. A record of Priord's own has RTYPE 0x80 + RCLASS; RCRC of a tenant's
answer folds no location (log entry 70). -/
def Prd.recordBytes (o : Prd) (k : Nat) (r : HRec) : List Byte :=
  let loc := if !privRing k then 0 else if r.loc = ones32 then o.ownPhys else r.loc
  frameBytes (if r.rtype = 0 then 0x80 + r.rcls else r.rtype) 1 r.stream r.tag r.rank loc r.seq
    (if privRing k then r.body else r.tenantBody)

/-- R370, R397, R398: the status with which a record selector stops. -/
def Prd.recordStop (o : Prd) (p : Op) : Option Nat :=
  let d := p.desc
  let key := dKey d
  match o.ctxStop p with
  | some st => some st
  | none =>
    if !privRing p.ring && (dRcls d == 0x0F || (key ≠ absent && ((dRcls d == 0x01 && decide (key ≥ 0x8000)) ||
        (dRcls d == 0x0D && (key == 1 || key == 2))))) then some 0x06
    else if !o.bodyOk p || dRcls d = 0 || decide (dRcls d > 0x11) || fieldAt d 33 7 ≠ 0 || decide (dFirst d ≠ absent && dLast d < dFirst d) then some 0x05
    else none

/-- R375, R174: READ_RECORDS; a job's ring sees the flacons of JOB scope of its own job only. -/
def Prd.readRecords (o : Prd) (err : Bool) (p : Op) : Prd :=
  match o.recordStop p with
  | some st => o.finish p.ring p.idx { status := st }
  | none =>
    if err then o.memError.finish p.ring p.idx { status := 0x0D }
    else
      let sees (f : Flacon) : Bool := privRing p.ring || (f.scope == 2 && f.tag == dJob p.desc)
      let all := ((o.notesOf sees).filter fun r => r.answers p.ring p.desc).map (o.recordBytes p.ring)
      let got := wholeBlocks (dLen p.desc) all
      o.finishWith p (dBuf p.desc) got.flatten (blocksCmpl all got)

/-- READ_RECORDS. -/
def execReadRecords (k tag : Nat) (err : Bool) (t : Nat) (s : State) : Host.Outcome State Fault Refusal :=
  .next (s.onPrd fun o => (o.go t).runOp k tag (· == 0x05) fun o p => o.readRecords err p)

/-! ### Subscriptions (R379) -/

/-- R379: arm a subscription, or stop it. -/
def Prd.arm (o : Prd) (p : Op) (stop : Option Nat) : Prd :=
  match stop with
  | some st => o.finish p.ring p.idx { status := st }
  | none => o.setOp p.ring p.idx fun p => { p with wait := .sub {} }

/-- SUB_ACCORD: OPC_SUB at byte 8; FIRST and LAST do not apply. -/
def execSubAccord (k tag t : Nat) (s : State) : Host.Outcome State Fault Refusal :=
  .next (s.onPrd fun o => (o.go t).runOp k tag (· == 0x11) fun o p =>
    let d := p.desc
    let opc := fieldAt d 8 1
    let bad := opc = 0 || opc > 3 || fieldAt d 9 15 ≠ 0
    let ctx := o.ctxStop p
    o.arm p (if ctx.isSome then ctx else if bad then some 0x05
      else match o.selectorStop p opc with
        | some st => some st
        | none => if opc = 1 && !o.indexOk (dJob d) (dRcls d) [] then some 0x05 else none))

/-- SUB_RECORDS. -/
def execSubRecords (k tag t : Nat) (s : State) : Host.Outcome State Fault Refusal :=
  .next (s.onPrd fun o => (o.go t).runOp k tag (· == 0x12) fun o p => o.arm p (o.recordStop p))

/-- R379: CANCEL: the subscription completes with ENDED, then the CANCEL itself; one that names no subscription of the ring
is a BAD_SELECTOR. -/
def Prd.cancel (o : Prd) (p : Op) : Prd :=
  let isSub (q : Op) : Bool := q.ring == p.ring && dTag q.desc == dKey p.desc % 65536 && (match q.wait with | .sub _ => true | _ => false)
  match o.ctxStop p with
  | some st => o.finish p.ring p.idx { status := st }
  | none =>
    match o.rings.ops.find? isSub with
    | some q => (o.finish q.ring q.idx { status := 0x0E }).finish p.ring p.idx {}
    | none => o.finish p.ring p.idx { status := 0x05 }

/-- CANCEL. -/
def execCancel (k tag t : Nat) (s : State) : Host.Outcome State Fault Refusal :=
  .next (s.onPrd fun o => (o.go t).runOp k tag (· == 0x1F) fun o p => o.cancel p)

end Sys2Proof.Machine
end

