-- ==== Sys2Proof/Machine/Rings.lean ====
section
/-!
DEFINITION. Machine/Rings.lean: ring configuration, doorbells, descriptor fetch and the query protocol
(14 R361 to R373, R384 to R388, R400, R401).
-/
namespace Sys2Proof.Machine
open Sys2Proof

/-! ### Configuration (R361, R362, R365, R400) -/

/-- R400: the STAGE registers as they stand now: from the cycle after a write of RING_SEL they hold the selected ring's
configuration. -/
def Prd.staged (o : Prd) : Prd :=
  match o.rings.selAt with
  | some t =>
    if t < o.ft then
      let c := o.ring (PrdR.get o PRD_RING_SEL % 65536)
      let o := { o with rings := { o.rings with selAt := none } }
      let o := PrdR.set (PrdR.set o PRD_RING_STAGE_CFG c.cfg) PRD_RING_STAGE_LIMITS c.limits
      PrdR.set (PrdR.set o PRD_RING_STAGE_DESC_BASE c.descBase) PRD_RING_STAGE_CMPL_BASE c.cmplBase
    else o
  | none => o

/-- RING_SEL: the STAGE registers take the selected ring's configuration in the next cycle. -/
def Prd.ringSel (o : Prd) (v : Nat) : Prd :=
  let o := PrdR.set o.staged PRD_RING_SEL (v % 65536)
  { o with rings := { o.rings with selAt := some o.ft } }

/-- RING_SEL. -/
def execRingSel (value t : Nat) (s : State) : Host.Outcome State Fault Refusal :=
  .next (s.onPrd fun o => (o.go t).ringSel (value % 2 ^ 32))

/-- R361, R362, R400, R408: whether ring `k` may take a configuration. -/
def Prd.commitOk (o : Prd) (k : Nat) (c : RingCfg) : Bool :=
  c.type ≤ 4 && c.origin ≤ 2 && 6 ≤ getF c.cfg 5 5 && getF c.cfg 5 5 ≤ 16 && c.slot ≤ 32 &&
  c.descBase % 64 == 0 && c.cmplBase % 32 == 0 &&
  (privRing k || (c.slot ≠ 0 && c.type ≠ 3 && c.type ≠ 4 && !o.safe))

/-- R365, R366, R400: COMMIT of the staged configuration. One that enables a ring that still drains is refused (log entry
74). -/
def Prd.ringCommit (o : Prd) (v : Nat) : Prd :=
  let o := o.staged
  let k := PrdR.get o PRD_RING_SEL % 65536
  let old := o.ring k
  let c : RingCfg := { cfg := PrdR.get o PRD_RING_STAGE_CFG, limits := PrdR.get o PRD_RING_STAGE_LIMITS
                       descBase := PrdR.get o PRD_RING_STAGE_DESC_BASE, cmplBase := PrdR.get o PRD_RING_STAGE_CMPL_BASE }
  let c := { c with status := old.status, autoFrom := old.autoFrom, autoAt := old.autoAt }
  let refuse := PrdR.ev o PRD_RING_EVENTS 0
  if !bit v 0 then o
  else if !o.commitOk k c then refuse
  else if c.enabled && old.enabled then (if c = old then o else refuse)
  else if c.enabled then
    if o.ringState k = 2 then refuse
    else
      let o := o.setRing k { c with autoFrom := o.ft, autoAt := o.ft }
      let o := PrdR.set (PrdR.set o (PRD_RING_TAIL k) 0) (PRD_RING_DESC_HEAD k) 0
      (PrdR.set (PrdR.set o (PRD_RING_CMPL_TAIL k) 0) (PRD_RING_CMPL_HEAD k) 0).setRingState k 1
  else if old.enabled then (o.drainRing k 0x0C).setRing k c
  else o.setRing k c

/-- RING_COMMIT. -/
def execRingCommit (value t : Nat) (s : State) : Host.Outcome State Fault Refusal :=
  .next (s.onPrd fun o => (o.go t).ringCommit value)

/-! ### Doorbells (R365, R366, R369) -/

/-- a - b mod 2^32. -/
def sub32 (a b : Nat) : Nat := wsub 32 a b

/-- R384: a chain of ring `k` that can get no further descriptor: a BAD_SELECTOR throughout. -/
def Prd.badChain (o : Prd) (k chain : Nat) : Prd :=
  (o.rings.ops.filter fun p => p.ring == k && p.chain == chain).foldl (fun (o : Prd) p => o.finish k p.idx { status := 0x05 }) o

/-- The chain that the next descriptor of ring `k` belongs to, 0 for none. -/
def Prd.openChain (o : Prd) (k : Nat) : Nat :=
  match (o.rings.ops.filter (·.ring == k)).getLast? with
  | some p => if p.last then 0 else p.chain
  | none => 0

/-- R365: a ring enters ERROR with an event; a chain not fetched whole ends there (log entry 75). -/
def Prd.ringError (o : Prd) (k ev : Nat) : Prd :=
  let o := (PrdR.ev o (PRD_RING_K_EVENTS k) ev).setRingState k 3
  let c := o.openChain k
  if c = 0 then o
  else
    let o := o.badChain k c
    { o with rings := { o.rings with ops := o.rings.ops.map fun p => if p.ring == k then { p with last := true } else p } }

/-- R365, R366: a write of TAIL. -/
def Prd.tailWrite (o : Prd) (k v : Nat) : Prd :=
  if k ≥ 65536 then o
  else
    let o := PrdR.set o (PRD_RING_TAIL k) v
    if o.ringState k = 1 && sub32 v (PrdR.get o (PRD_RING_DESC_HEAD k)) > (o.ring k).size then o.ringError k 0 else o

/-- TAIL_WRITE. -/
def execTailWrite (k value t : Nat) (s : State) : Host.Outcome State Fault Refusal :=
  .next (s.onPrd fun o => (o.go t).tailWrite k (value % 2 ^ 32))

/-- R369, R379: CMPL_HEAD moves: deliveries whose completions it has passed free their bytes. -/
def Prd.cmplHead (o : Prd) (k v : Nat) : Prd :=
  let o := PrdR.set o (PRD_RING_CMPL_HEAD k) v
  let put (p : Op) : Op := match p.wait with
    | .sub s => if p.ring = k then { p with wait := .sub { s with live := s.live.filter fun x => decide (sub32 x.1 v < 2 ^ 31) } } else p
    | _ => p
  { o with rings := { o.rings with ops := o.rings.ops.map put } }

/-- CMPL_HEAD_WRITE. -/
def execCmplHeadWrite (k value t : Nat) (s : State) : Host.Outcome State Fault Refusal :=
  .next (s.onPrd fun o => let o := o.go t; if k < 65536 then o.cmplHead k (value % 2 ^ 32) else o)

/-! ### Fetch (R366, R371 to R373) -/

/-- R361: the opcodes of a ring type; R383 names none for REPLAY, so a REPLAY ring takes any (log entry 76). -/
def opcodeOk (type opc : Nat) : Bool :=
  match type with
  | 0 => 1 ≤ opc && opc ≤ 5
  | 1 => opc == 0x11 || opc == 0x12 || opc == 0x1F
  | 2 => 0x21 ≤ opc && opc ≤ 0x25
  | 3 => opc == 0x31 || opc == 0x32
  | _ => true

/-- R365, R371: whether ring `k` has a descriptor that its own limit lets Priord fetch, from the cycle after it became ACTIVE. The
rest of a chain is not held back (log entry 75). -/
def Prd.wantsFetch (o : Prd) (k : Nat) : Bool :=
  let c := o.ring k
  o.ringState k == 1 && decide (o.ringMoved k < o.ft) && PrdR.get o (PRD_RING_TAIL k) ≠ PrdR.get o (PRD_RING_DESC_HEAD k) &&
  (decide ((o.rings.ops.filter (·.ring == k)).length < getF c.limits 0 11) || o.openChain k ≠ 0) &&
  (c.type ≠ 4 || PrdR.flag o PRD_NOSE_CTRL 2)

/-- R371: whether an in-flight slot is free for ring `k`: 64 of 1,024 are kept for privileged rings. -/
def Prd.slotFree (o : Prd) (k : Nat) : Bool :=
  o.rings.ops.length < 1024 && (privRing k || (o.rings.ops.filter fun p => !privRing p.ring).length < 960)

/-- R394, R409: whether rings are served: from PHASE TIME on, and during RECONFIGURE, which answers BUSY. -/
def Prd.serves (o : Prd) : Bool := decide (2 ≤ o.phase) || o.mgmt.run.isSome

/-- R371: the ring served next: privileged ones first, round robin in each group. -/
def Prd.nextRing (o : Prd) : Option Nat :=
  let ks := if o.serves then (o.rings.cfg.map (·.1)).filter o.wantsFetch else []
  let rr (l : List Nat) (last n : Nat) : Option Nat := (sortBy (fun k => (k + n - last - 1) % n) l).head?
  match rr (ks.filter privRing) o.rings.rrPriv 65536 with
  | some k => some k
  | none => rr (ks.filter fun k => !privRing k) o.rings.rrTen 65536

/-- R363: the next descriptor of ring `k`: from host memory, as given, or from HBM. -/
def Prd.readDesc (o : Prd) (k : Nat) (host : Option (List Byte)) : Option (List Byte) :=
  let c := o.ring k
  let a := c.descBase + 64 * (PrdR.get o (PRD_RING_DESC_HEAD k) % c.size)
  if c.origin = 0 then host.map (fit 64) else if inSoftware a 64 then some (o.hbm.read a 64) else none

/-- R366, R370, R373, R384: a descriptor comes in. -/
def Prd.takeDesc (o : Prd) (k : Nat) (d : List Byte) : Prd :=
  let head := PrdR.get o (PRD_RING_DESC_HEAD k)
  let more := bit (dFlags d) 0
  let oc := o.openChain k
  let chain := if oc ≠ 0 then oc else if more then (head + 1) else 0
  let dry := more && PrdR.get o (PRD_RING_TAIL k) == (head + 1) % 2 ^ 32
  let busy := o.rings.ops.any fun p => p.ring == k && dTag p.desc == dTag d
  let p : Op := { ring := k, idx := head, desc := d, chain, last := !more || dry }
  let rr := if privRing k then { o.rings with rrPriv := k } else { o.rings with rrTen := k }
  let o := PrdR.set { o with rings := { rr with ops := o.rings.ops ++ [p] } } (PRD_RING_DESC_HEAD k) ((head + 1) % 2 ^ 32)
  if chain ≠ 0 && (dry || (o.chainOf p).length > 16) then o.badChain k chain
  else if busy then o.finish k head { status := 0x07 }
  else if !opcodeOk (o.ring k).type (dOpc d) then o.finish k head { status := 0x04 }
  else o

/-- R371: one fetch. -/
def Prd.fetch (o : Prd) (host : Option (List Byte)) : Prd :=
  match o.nextRing with
  | none => o
  | some k =>
    if !o.slotFree k then PrdR.ev o PRD_RING_EVENTS 1
    else match o.readDesc k host with
      | none => o.ringError k 4
      | some d => o.takeDesc k d

/-- DESC_FETCH. -/
def execDescFetch (host : Option (List Byte)) (t : Nat) (s : State) : Host.Outcome State Fault Refusal :=
  .next (s.onPrd fun o => (o.go t).fetch host)

/-! ### The query protocol (R385 to R388) -/

/-- The session of ring `k`. -/
def Prd.qpOf (o : Prd) (k : Nat) : Option Qp := o.rings.qp.find? (·.ring == k)

/-- Replace a session. -/
def Prd.setQp (o : Prd) (q : Qp) : Prd := { o with rings := { o.rings with qp := updFirst (·.id == q.id) (fun _ => q) o.rings.qp } }

/-- R385: a packet's bytes, big-endian. -/
def qpBytes (q : Qp) (x : QpPkt) : List Byte :=
  let h := be 2 0x554C ++ be 1 1 ++ be 1 x.ptype ++ be 2 q.ring ++ be 2 x.flags ++ be 4 q.id ++ be 4 x.seq ++ be 4 q.rx ++
    be 2 x.payload.length ++ be 2 0
  h ++ be 8 (Config.qpAuth q.id (h ++ x.payload)) ++ x.payload

/-- R388: the egress class of a ring type. -/
def ringClass (type : Nat) : Nat := match type with | 0 => 5 | 2 => 5 | 1 => 4 | _ => 2

/-- R388: a packet leaves on an uplink. -/
def Prd.qpOut (o : Prd) (q : Qp) (x : QpPkt) : Prd := o.send (2 ^ 16 + q.id) (ringClass (o.ring q.ring).type) x.slot (qpBytes q x)

/-- R388: send a packet of a session, or keep it until the window of 64 opens. -/
def Prd.qpSend (o : Prd) (id : Nat) (x : QpPkt) : Prd :=
  match o.rings.qp.find? (·.id == id) with
  | none => o
  | some q =>
    let x := { x with seq := q.tx + 1 }
    let q := { q with tx := q.tx + 1 }
    if q.unacked.length < 64 && q.wait.isEmpty then
      let x := { x with sends := 1, at_ := o.ft }
      (o.setQp { q with unacked := q.unacked ++ [x] }).qpOut q x
    else o.setQp { q with wait := q.wait ++ [x] }

/-- R387: the payloads of a completion and its answer: at most 8,192 bytes each. -/
def qpChunks (first : List Byte) : Nat → List Byte → List (List Byte)
  | 0, _ => [first]
  | fuel + 1, l =>
    let room := 8192 - first.length
    if l.length ≤ room then [first ++ l] else (first ++ l.take room) :: qpChunks [] fuel (l.drop room)

/-- R387, R388: a completion of a REMOTE ring goes out with its answer; its slot is free once all of it is acknowledged, or
at once where no session is there to acknowledge it (log entry 77). -/
def Prd.qpCmpl (o : Prd) (k slot : Nat) (cmpl answer : List Byte) : Prd :=
  match o.qpOf k with
  | none => o.cmplHead k ((PrdR.get o (PRD_RING_CMPL_HEAD k) + 1) % 2 ^ 32)
  | some q =>
    let cs := qpChunks cmpl (answer.length + 1) answer
    cs.zipIdx.foldl (fun (o : Prd) x =>
      let last := x.2 + 1 == cs.length
      o.qpSend q.id { ptype := if x.2 = 0 then 4 else 5, flags := b2n last, payload := x.1, slot, frees := last }) o

/-- An ACK, which takes no PSEQ of its own (log entry 77). -/
def Prd.qpAckOut (o : Prd) (q : Qp) : Prd := o.qpOut q { ptype := 6, seq := q.tx, slot := (o.ring q.ring).slot }

/-- R388: the peer's ACK_SEQ: packets leave the window, completions free their slots, and packets that wait go out. -/
def Prd.qpAcked (o : Prd) (q : Qp) (ack : Nat) : Prd :=
  let gone := q.unacked.filter fun x => x.seq ≤ ack
  let left := q.unacked.filter fun x => decide (ack < x.seq)
  let freed := (gone.filter (·.frees)).length
  let o := if freed = 0 then o else o.cmplHead q.ring ((PrdR.get o (PRD_RING_CMPL_HEAD q.ring) + freed) % 2 ^ 32)
  let room := 64 - left.length
  let go := (q.wait.take room).map fun x => { x with sends := 1, at_ := o.ft }
  let q := { q with unacked := left ++ go, wait := q.wait.drop room }
  go.foldl (fun (o : Prd) x => o.qpOut q x) (o.setQp q)

/-- A session ends: what it had not acknowledged frees its completion slots. -/
def Prd.qpEnd (o : Prd) (q : Qp) : Prd :=
  let n := ((q.unacked ++ q.wait).filter (·.frees)).length
  let o := { o with rings := { o.rings with qp := o.rings.qp.filter fun x => x.id != q.id } }
  if n = 0 then o else o.cmplHead q.ring ((PrdR.get o (PRD_RING_CMPL_HEAD q.ring) + n) % 2 ^ 32)

/-- R386: a packet dropped for its authentication. -/
def Prd.qpDrop (o : Prd) : Prd := PrdR.cnt o PRD_QP_AUTH_FAIL 0 32 1

/-- R386: OPEN. One for a ring that is not REMOTE is dropped. -/
def Prd.qpOpen (o : Prd) (k : Nat) (ok : Bool) : Prd :=
  if !PrdR.flag o PRD_QP_CFG 16 then o
  else if !ok then o.qpDrop
  else if (o.ring k).origin ≠ 1 || o.rings.cfg.lookup k = none then o
  else
    let o := match o.qpOf k with | some q => o.qpEnd q | none => o
    let q : Qp := { id := o.rings.qpNext, ring := k, rx := 1 }
    let o := { o with rings := { o.rings with qp := q :: o.rings.qp, qpNext := (o.rings.qpNext + 1) % 2 ^ 32 } }
    o.qpSend q.id { ptype := 2, slot := (o.ring k).slot }

/-- QP_OPEN. -/
def execQpOpen (k : Nat) (ok : Bool) (t : Nat) (s : State) : Host.Outcome State Fault Refusal :=
  .next (s.onPrd fun o => (o.go t).qpOpen k ok)

/-- A packet of a session that passes AUTH. -/
def Prd.qpIn (o : Prd) (session : Nat) (ok : Bool) (f : Prd → Qp → Prd) : Prd :=
  if !PrdR.flag o PRD_QP_CFG 16 then o
  else match o.rings.qp.find? (·.id == session) with
    | none => o
    | some q => if ok then f o q else o.qpDrop

/-- Write descriptors from count `tail` on. -/
def Prd.putDescs (o : Prd) (c : RingCfg) (tail : Nat) (l : List (List Byte)) : Prd :=
  if o.mramProt then o
  else { o with hbm := l.zipIdx.foldl (fun (m : Mem) x => m.write (c.descBase + 64 * ((tail + x.2) % c.size)) (fit 64 x.1)) o.hbm }

/-- R385, R387, R388: DESC: in PSEQ order into the ring; a duplicate is acknowledged and discarded, a packet that does not
fit, or that leaves a gap, is dropped. -/
def Prd.qpDesc (o : Prd) (q : Qp) (pseq ack : Nat) (descs : List (List Byte)) : Prd :=
  let o := o.qpAcked q ack
  match o.rings.qp.find? (·.id == q.id) with
  | none => o
  | some q =>
    let k := q.ring
    let c := o.ring k
    let tail := PrdR.get o (PRD_RING_TAIL k)
    if pseq ≤ q.rx then o.qpAckOut q
    else if pseq ≠ q.rx + 1 || descs.isEmpty || descs.length > 128 ||
        decide (sub32 tail (PrdR.get o (PRD_RING_DESC_HEAD k)) + descs.length > c.size) ||
        !inSoftware c.descBase (64 * c.size) then o
    else
      let q := { q with rx := pseq }
      let o := (o.setQp q).putDescs c tail descs
      (o.tailWrite k ((tail + descs.length) % 2 ^ 32)).qpAckOut q

/-- QP_DESC. -/
def execQpDesc (session pseq ack : Nat) (descs : List (List Byte)) (ok : Bool) (t : Nat) (s : State) : Host.Outcome State Fault Refusal :=
  .next (s.onPrd fun o => (o.go t).qpIn session ok fun o q => o.qpDesc q pseq ack descs)

/-- QP_ACK. -/
def execQpAck (session ack : Nat) (ok : Bool) (t : Nat) (s : State) : Host.Outcome State Fault Refusal :=
  .next (s.onPrd fun o => (o.go t).qpIn session ok fun o q => o.qpAcked q ack)

/-- QP_CLOSE. -/
def execQpClose (session : Nat) (ok : Bool) (t : Nat) (s : State) : Host.Outcome State Fault Refusal :=
  .next (s.onPrd fun o => (o.go t).qpIn session ok fun o q => o.qpEnd q)

/-- R388: a packet is sent again; after 8 sends it is abandoned, the session closes, and the ring's operations abort. -/
def Prd.qpRetx (o : Prd) (session pseq : Nat) : Prd :=
  match o.rings.qp.find? (·.id == session) with
  | none => o
  | some q =>
    match q.unacked.find? (·.seq == pseq) with
    | none => o
    | some x =>
      if o.ft < x.at_ + PrdR.get o PRD_QP_RETX * tickUs then o
      else if x.sends ≥ 8 then
        let mine := (o.qpEnd q).rings.ops.filter fun p => p.ring == q.ring && !p.wait.isDone
        mine.foldl (fun (o : Prd) p => o.finish p.ring p.idx { status := 0x0C }) (o.qpEnd q)
      else
        let x := { x with sends := x.sends + 1, at_ := o.ft }
        let q := { q with unacked := updFirst (·.seq == pseq) (fun _ => x) q.unacked }
        (o.setQp q).qpOut q x

/-- QP_RETX. -/
def execQpRetx (session pseq t : Nat) (s : State) : Host.Outcome State Fault Refusal :=
  .next (s.onPrd fun o => (o.go t).qpRetx session pseq)

end Sys2Proof.Machine
end

