-- ==== Sys2Proof/Machine/Win.lean ====
section
/-!
DEFINITION. Machine/Win.lean: tenant windows and the BAR4 window onto HBM (17 R452 to R457).
-/
namespace Sys2Proof.Machine
open Sys2Proof

/-- TW_BIND. -/
def execTwBind (w value : Nat) (e : Edge) (s : State) : Host.Outcome State Fault Refusal :=
  .next (s.onOtu fun o => (o.go e).bindWrite w (value % 2 ^ 32))

/-- R454: a write of a page register of a bound window; an out-of-range value is discarded. -/
def Otu.pageWrite (o : Otu) (w : Nat) (queue : Bool) (v : Nat) : Otu :=
  if (o.winTag w).isNone then o
  else if queue then (if v < 16 then o.setWinReg (2 * w + 1) (OTU_TW_Q_PAGE w) v else o)
  else if v < 32 then o.setWinReg (2 * w) (OTU_TW_ENG_PAGE w) v else o

/-- TW_PAGE_WRITE. -/
def execTwPageWrite (w : Nat) (queue : Bool) (value : Nat) (e : Edge) (s : State) : Host.Outcome State Fault Refusal :=
  .next (s.onOtu fun o => (o.go e).pageWrite w queue (value % 2 ^ 32))

/-- R457, R458: a write of PRD_BAR4_WIN, which moves the window from the next cycle; 64 or more is discarded. -/
def Prd.bar4WinWrite (o : Prd) (v : Nat) : Prd :=
  if v < 64 then { PrdR.set o PRD_BAR4_WIN v with bar4 := o.bar4.write o.ft v } else o

/-- BAR4_WIN_WRITE. -/
def execBar4WinWrite (value t : Nat) (s : State) : Host.Outcome State Fault Refusal :=
  .next (s.onPrd fun o => (o.go t).bar4WinWrite (value % 2 ^ 32))

/-- R266, R457: whether those bytes meet the image of the model loaded in streamed mode. -/
def Prd.meetsStreamed (o : Prd) (a n : Nat) : Bool :=
  o.nose.model.any fun m => m.mode == 2 && decide (a < m.addr + m.image.length) && decide (m.addr < a + n)

/-- R457: bytes at an offset of the window. What lies beyond the window's end is a second access, and discarded. -/
def Prd.bar4Write (o : Prd) (off : Nat) (bytes : List Byte) : Prd :=
  let n := min bytes.length (2 ^ 32 - off)
  let a := o.bar4.inForce o.ft * 2 ^ 30 + off
  let bad (o : Prd) : Prd := PrdR.ev o PRD_GLB_EVENTS 0
  let o := if n = 0 then o
    else if inSoftware a n && !o.meetsStreamed a n then (if o.mramProt then o else { o with hbm := o.hbm.write a (bytes.take n) }) else bad o
  if n < bytes.length then bad o else o

/-- R457: what a read of `n` bytes at an offset of the window returns: any HBM, and 0 beyond the window's end. -/
def Prd.bar4Read (o : Prd) (off n : Nat) : List Byte :=
  let m := min n (2 ^ 32 - off)
  o.hbm.read (o.bar4.inForce o.ft * 2 ^ 30 + off) m ++ zeros (n - m)

/-- BAR4_WRITE. -/
def execBar4Write (off : Nat) (bytes : List Byte) (t : Nat) (s : State) : Host.Outcome State Fault Refusal :=
  .next (s.onPrd fun o => (o.go t).bar4Write off bytes)

end Sys2Proof.Machine
end

