-- ==== Sys2Proof/Machine/Access.lean ====
section
/-!
DEFINITION. Machine/Access.lean: what a write does to each register that has more to it than its access code: the OTU's and
Priord's writable registers (00 R12 to R15, 17 R450 to R460).
-/
namespace Sys2Proof.Machine
open Sys2Proof

/-- The index of an address in an array of `n` registers, `s` apart, at `base`. -/
def arrayIdx (base s n a : Nat) : Option Nat :=
  if base ≤ a && (a - base) % s == 0 && decide ((a - base) / s < n) then some ((a - base) / s) else none

/-! ### The OTU -/

/-- R93: a write of OTU_ACC_CTRL: cuts run from now once ENABLE is set, and the first record after STREAM_EN is KEY. -/
def Otu.accCtrlWrite (o : Otu) (v : Nat) : Otu :=
  let was := OtuR.get o OTU_ACC_CTRL
  let o := OtuR.write o OTU_ACC_CTRL 4 v
  let o := if !bit was 0 && bit v 0 && o.clk.st != 0 then
      { o with acc := { o.acc with nextT := nextMultiple o.clk.ft (o.acc.interval * 400000) } } else o
  if !bit was 2 && bit v 2 then { o with acc := { o.acc.keyAll with fastKey := true } } else o

/-- R120, R114: a write of OTU_GCH_CTRL: enabling restarts SEQ, WRAPPED and the sample instants. -/
def Otu.gchCtrlWrite (o : Otu) (v : Nat) : Otu :=
  let was := OtuR.flag o OTU_GCH_CTRL 0
  let o := OtuR.write o OTU_GCH_CTRL 4 v
  if was || !bit v 0 then o
  else
    let next := if o.clk.st = 0 then absent else nextMultiple o.clk.ft (OtuR.fld o OTU_GCH_CTRL 1 10 * 4000)
    OtuR.setFld { o with gchSeq := 0, gchNext := next } OTU_GCH_STATUS 5 1 0

/-- R314, R316: a write of OTU_EQS_CTRL: setting EN begins the samples afresh. -/
def Otu.eqsCtrlWrite (o : Otu) (v : Nat) : Otu :=
  let was := OtuR.flag o OTU_EQS_CTRL 0
  let o := OtuR.write o OTU_EQS_CTRL 4 v
  if was || !OtuR.flag o OTU_EQS_CTRL 0 then o
  else
    let next := if o.clk.st = 0 then absent else nextMultiple o.clk.ft (OtuR.fld o OTU_EQS_CTRL 1 10 * 40000)
    { o with gate := { o.gate with nextSample := next }, eqs := o.eqs.map fun x => (x.1, x.2.afresh o.now) }

/-- R175: a write of OTU_SIL_CTRL: EN ends every traced stream with END DISABLE, or begins it with SYNC ENABLE. -/
def Otu.silCtrlWrite (o : Otu) (v : Nat) : Otu :=
  let was := OtuR.flag o OTU_SIL_CTRL 0
  let seqs := (List.range 64).filter fun s => OtuR.flag o OTU_SIL_SEQ_EN s
  let o := if was && !bit v 0 then seqs.foldl (fun o s => o.silEndStream s 1) o else o
  let o := OtuR.write o OTU_SIL_CTRL 4 v
  if !was && bit v 0 then seqs.foldl (fun o s => o.silBegin s) o else o

/-- R107, R116, R120: a write of OTU_ENG_e_OVF clears the sticky bits of the counters it names, but for one that wraps in this
cycle. -/
def Otu.ovfWrite (o : Otu) (e v : Nat) : Otu :=
  let cs := ((List.range 32).drop 1).filter fun c => bit v c && !o.cyc.wraps.contains (e, c)
  let o := cs.foldl (fun o c => o.ctrSet e c (clrBit (OtuR.get o (OTU_ENG_CTR e c)) 63)) o
  let x := o.eng e
  o.setEng e { x with startOld := x.startOld.map fun (p : Nat × Nat) => if cs.contains p.1 then (p.1, clrBit p.2 63) else p }

/-- R72: the slots that fit the carve-out. -/
def Otu.maxSlots (o : Otu) : Nat := (OtuR.get o OTU_ACC_DUMP_SIZE - 65536) / 196608

/-- A write of `v` to the whole OTU register at `a`, `width` bytes wide, through the privileged range (`priv`) or a tenant
window: what the register's own rule does with it, else R12. -/
def Otu.storeReg (o : Otu) (priv : Bool) (a width v : Nat) : Otu :=
  if a = OTU_ACC_CTRL then o.accCtrlWrite v
  else if a = OTU_ACC_SWITCH_T then o.switchWrite v
  else if a = OTU_ACC_SWITCH_INTERVAL then (if OtuR.get o OTU_ACC_SWITCH_T = absent then OtuR.write o a 4 v else o)
  else if a = OTU_ACC_DUMP_SLOTS then
    (if (!OtuR.flag o OTU_ACC_CTRL 0 || !OtuR.flag o OTU_ACC_CTRL 1) && decide (2 ≤ v % 2 ^ 16 && v % 2 ^ 16 ≤ o.maxSlots) then
      (OtuR.write o a 4 v).writeDir else o)
  else if a = OTU_ACC_FAST_CTRL then o.fastCtrlWrite v
  else if a = OTU_ACC_KEY_REQ then
    { o with acc := { o.acc with keyReg := o.acc.keyReg || bit v 0, fastKey := o.acc.fastKey || bit v 1 } }
  else if a = OTU_GCH_CTRL then o.gchCtrlWrite v
  else if a = OTU_EQS_CTRL then o.eqsCtrlWrite v
  else if a = OTU_FB_CTRL then o.fbCtrlWrite v
  else if a = OTU_SIL_CTRL then o.silCtrlWrite v
  else if a = OTU_SIL_SEQ_EN then o.silSeqEn v
  else if a = OTU_GCL_CHANGE_T then o.changeTWrite v
  else if a = OTU_EVR_RL_DEFAULT then o.rlWrite none v
  else if a = OTU_EVR_CLEAR then o.evrClear v
  else if a = OTU_BLOT_CURSOR then o.cursorWrite v
  else if a = OTU_TMUX_CTRL then o
  else if a = OTU_DIG_CTRL && !priv then o
  else
    match arrayIdx (OTU_CAN_LIB 0 0) 8 2048 a, arrayIdx (OTU_EVR_RL 0) 8 64 a, arrayIdx (OTU_Q_CFG 0) 16 4096 a,
          arrayIdx (OTU_TMUX_SEL 0) 4 8 a with
    | some _, _, _, _ => if OtuR.flag o OTU_CAN_CTRL 0 then o else OtuR.write o a width v
    | _, some k, _, _ => o.rlWrite (some k) v
    | _, _, some q, _ => if priv then o.qCfgWrite q v else o
    | _, _, _, some k => o.tmuxSelWrite k v
    | _, _, _, _ =>
      match arrayIdx (OTU_ENG_CTR 0 0) 8 16384 a, arrayIdx (OTU_ENG_EVSEL 0 0) 8 8192 a, arrayIdx (OTU_ENG_OVF 0) 0x80 512 a,
            arrayIdx (OTU_EQ_CIR 0) 4 4096 a with
      | some i, _, _, _ =>
        if 1 ≤ i % 32 && decide (i % 32 ≤ 8) && (priv || decide (i % 32 ≥ 5)) then o.pmcWrite (i / 32) (i % 32 - 1) v else o
      | _, _, some e, _ => o.ovfWrite e (if priv then v else v &&& 0x1E0)
      | _, some i, _, _ => if i % 16 < 8 then o.evselWrite priv (i / 16) (i % 16) v else OtuR.write o a width v
      | _, _, _, some i => o.shaperWrite (i / 4) (i % 4) v
      | _, _, _, _ =>
        match arrayIdx (OTU_TW_BIND 0) 4 64 a, arrayIdx (OTU_TW_ENG_PAGE 0) 0x8000 64 a, arrayIdx (OTU_TW_Q_PAGE 0) 0x8000 64 a with
        | some w, _, _ => o.bindWrite w v
        | _, some w, _ => o.pageWrite w false v
        | _, _, some w => o.pageWrite w true v
        | _, _, _ => OtuR.write o a width v

/-- R15: a write of `width` bytes at `addr` of the OTU's registers. -/
def Otu.regWrite (o : Otu) (priv : Bool) (addr width v : Nat) : Otu :=
  match accessOf otuRows addr width with
  | none => o
  | some (x, a, half) =>
    match wordAsked x half (OtuR.get o a) v with
    | none => o
    | some w => o.storeReg priv a (x.b / 8) w

/-- R453, R454: the privileged address that offset `off` of tenant window `w` reaches, if the window's job may reach it. -/
def Otu.windowAddr (o : Otu) (w off : Nat) : Option Nat :=
  match o.winTag w with
  | none => none
  | some tag =>
    let base := OTU_TW_INFO w
    let eng (i : Nat) : Nat := 16 * o.winReg (2 * w) (OTU_TW_ENG_PAGE w) + i
    let q (j : Nat) : Nat := 256 * o.winReg (2 * w + 1) (OTU_TW_Q_PAGE w) + j
    if off < 0x14 then some (base + off)
    else if 0x100 ≤ off && off < 0x200 then
      (if [0x100, 0x104, 0x108, 0x10C, 0x118, 0x158, 0x15C].contains off then some (0x10000 + (off - 0x100)) else none)
    else if 0x200 ≤ off && off < 0x400 then some (base + off)
    else if 0x1000 ≤ off && off < 0x2000 then
      (if o.openJob.any (·.tag == tag) then some (0xE0000 + (off - 0x1000)) else none)
    else if 0x2000 ≤ off && off < 0x3000 then
      (let e := eng ((off - 0x2000) / 0x100); if (o.eng e).tag = tag then some (OTU_ENG_CTR e 0 + off % 0x100) else none)
    else if 0x3000 ≤ off && off < 0x3800 then
      (let e := eng ((off - 0x3000) / 0x80); if (o.eng e).tag = tag then some (OTU_ENG_EVSEL e 0 + off % 0x80) else none)
    else if 0x4000 ≤ off && off < 0x5000 then
      (let j := q ((off - 0x4000) / 0x10); if o.queueOwner j = tag then some (OTU_Q_CFG j + off % 0x10) else none)
    else none

/-! ### Priord -/

/-- R314, R318: a write of PRD_UL_u_EQS_CTRL: setting EN begins the samples afresh. -/
def Prd.eqsCtrlWrite (o : Prd) (u v : Nat) : Prd :=
  let a := PRD_UL u + 0x8000
  let was := PrdR.flag o a 0
  let o := PrdR.write o a 4 v
  if was || !PrdR.flag o a 0 then o
  else
    let x := o.uplink u
    let next := nextMultiple o.ft (getF (PrdR.get o a) 1 10 * 40000)
    o.setUplink u { x with gate := { x.gate with nextSample := next }, qs := x.qs.map fun y => (y.1, y.2.afresh o.ft) }

/-- A write of `v` to the whole register at `a` of an uplink's block, at offset `d` of it. -/
def Prd.storeUplink (o : Prd) (u d width v : Nat) : Prd :=
  if d = 0x58 then o.changeTWrite u v
  else if d = 0x8000 then o.eqsCtrlWrite u v
  else if d = 0x40 then PrdR.write o (PRD_UL u + d) width (if o.safe then clrBit v 0 else v)
  else match arrayIdx 0x4000 4 4096 d with
    | some i => o.shaperWrite u (i / 4) (i % 4) v
    | none => PrdR.write o (PRD_UL u + d) width v

/-- R455: a write of the second half of an MSI-X table entry: a vector that it unmasks and that is pending is signalled (PRESUMED, log
entry 101). -/
def Prd.msixWrite (o : Prd) (k v : Nat) : Prd :=
  let o := PrdR.write o (PRD_MSIX k + 8) 8 v
  let a := PRD_MSIX_PBA + 8 * (k / 64)
  if !bit v 32 && bit (PrdR.get o a) (k % 64) then
    PrdR.set { o with rings := { o.rings with msix := k :: o.rings.msix } } a (clrBit (PrdR.get o a) (k % 64))
  else o

/-- A write of `v` to the whole Priord register at `a`, `width` bytes wide: what the register's own rule does with it,
else R12. -/
def Prd.storeReg (o : Prd) (a width v : Nat) : Prd :=
  if a = PRD_BAR4_WIN then o.bar4WinWrite v
  else if a = PRD_TIME_PTP_CFG then { PrdR.write o a 4 v with ptpRestart := true }.bmca
  else if a = PRD_TIME_SYNCE_CFG then (PrdR.write o a 4 v).synceSelect
  else if a = PRD_RESULT_CFG then
    (let o := PrdR.write o a 4 v; { o with resTimeouts := (o.ft, PrdR.fld o PRD_RESULT_CFG 0 16) :: o.resTimeouts })
  else if a = PRD_EVR_RL_DEFAULT then o.rlWrite none v
  else if a = PRD_EVR_CLEAR then o.evrClear v
  else if a = PRD_BLOT_CURSOR then o.cursorWrite v
  else if a = PRD_RING_SEL then o.ringSel v
  else if a = PRD_RING_COMMIT then o.ringCommit v
  else if a = PRD_PWR_OSFP_CTRL then o.osfpCtrlWrite v
  else if a = PRD_PWR_EVENTS then
    (let o := PrdR.write o a 4 v; if bit v 6 then { o with pw := { o.pw with tripLast := false } } else o)
  else if a = PRD_TMUX_CTRL then o.tmuxCfgWrite v
  else if a = PRD_NOSE_CTRL then PrdR.write o a 4 (if o.safe then clrBit v 0 else v)
  else if a = PRD_FLC_SW_TRIG then
    (o.trigger { source := 0, scope := getF v 0 2, tag := getF v 16 16, tTrig := o.ft, rank := getF v 32 20 }).1
  else if PRD_UL 0 ≤ a && a < PRD_UL 4 then o.storeUplink ((a - PRD_UL 0) / 0x40000) ((a - PRD_UL 0) % 0x40000) width v
  else
    match arrayIdx (PRD_EVR_RL 0) 8 256 a, arrayIdx (PRD_TMUX_SEL 0) 4 16 a, arrayIdx (PRD_FLC_RELEASE 0) 0x80 4 a with
    | some k, _, _ => o.rlWrite (some k) v
    | _, some k, _ => o.tmuxSelWrite k v
    | _, _, some n => (o.flcRelease n v).1
    | _, _, _ =>
      match arrayIdx (PRD_RING_TAIL 0) 0x40 65536 a, arrayIdx (PRD_RING_CMPL_HEAD 0) 0x40 65536 a, arrayIdx (PRD_MSIX 0 + 8) 0x10 2048 a with
      | some k, _, _ => o.tailWrite k v
      | _, some k, _ => o.cmplHead k v
      | _, _, some k => o.msixWrite k v
      | _, _, _ =>
        if PRD_DP_STATUS 0 ≤ a && a < PRD_DP_STATUS 32 && decide (0x18 ≤ (a - PRD_DP_STATUS 0) % 0x1000) &&
           decide ((a - PRD_DP_STATUS 0) % 0x1000 ≤ 0x24) then
          o.policerWrite ((a - PRD_DP_STATUS 0) / 0x1000) (((a - PRD_DP_STATUS 0) % 0x1000 - 0x18) / 4) v
        else PrdR.write o a width v

/-- R15: a write of `width` bytes at `addr` of Priord's registers. -/
def Prd.regWrite (o : Prd) (addr width v : Nat) : Prd :=
  match accessOf prdRows addr width with
  | none => o
  | some (x, a, half) =>
    let o := if PRD_RING_STAGE_CFG ≤ a && a ≤ PRD_RING_STAGE_CMPL_BASE then o.staged else o
    match wordAsked x half (PrdR.get o a) v with
    | none => o
    | some w => o.storeReg a (x.b / 8) w

end Sys2Proof.Machine
end

