-- ==== Sys2Proof/Machine/Control.lean ====
section
/-!
DEFINITION. Machine/Control.lean: the CONTROL operations, and the Nose's model and baseline commands
(10 R268, R283, R285, 14 R380, R381, R396).
-/
namespace Sys2Proof.Machine
open Sys2Proof

/-! ### TRIGGER, RELEASE (R380, R381) -/

/-- R367: the header of a control descriptor. -/
def ctrlOk (d : List Byte) : Bool := dFlags d < 16 && fieldAt d 7 1 == 0

/-- TRIGGER: INFO 0 accepted, 1 attached, 2 refused. -/
def Prd.ctrlTrigger (o : Prd) (p : Op) : Prd :=
  let d := p.desc
  let v := fieldAt d 8 8
  let scope := getF v 0 2
  let stop : Option Nat := match o.ctxStop p with
    | some st => some st
    | none =>
      if !privRing p.ring && scope ≠ 2 then some 0x06
      else if !ctrlOk d || scope = 0 || getF v 2 30 ≠ 0 || getF v 52 12 ≠ 0 || (scope = 2 && dJob d = 0) then some 0x05 else none
  match stop with
  | some st => o.finish p.ring p.idx { status := st }
  | none =>
    let (o, info) := o.trigger { source := 0, scope, tag := if scope = 2 then dJob d else 0, tTrig := o.ft, rank := getF v 32 20 }
    o.finish p.ring p.idx { info := info }

/-- TRIGGER. -/
def execTrigger (k tag t : Nat) (s : State) : Host.Outcome State Fault Refusal :=
  .next (s.onPrd fun o => (o.go t).runOp k tag (· == 0x21) fun o p => o.ctrlTrigger p)

/-- RELEASE: after R172; a mismatched FREEZE_T is refused. -/
def Prd.ctrlRelease (o : Prd) (p : Op) : Prd :=
  let d := p.desc
  let n := fieldAt d 8 1
  let f := o.flacon n
  match o.ctxStop p with
  | some st => o.finish p.ring p.idx { status := st }
  | none =>
    if !ctrlOk d || n ≥ 4 then o.finish p.ring p.idx { status := 0x05 }
    else if !privRing p.ring && !(f.st ≠ 0 && f.scope == 2 && f.tag == dJob d) then o.finish p.ring p.idx { status := 0x06 }
    else
      let (o, ok) := o.flcRelease n (fieldAt d 16 8)
      o.finish p.ring p.idx { status := if ok then 0x00 else 0x0B }

/-- RELEASE. -/
def execRelease (k tag t : Nat) (s : State) : Host.Outcome State Fault Refusal :=
  .next (s.onPrd fun o => (o.go t).runOp k tag (· == 0x22) fun o p => o.ctrlRelease p)

/-! ### CONFIG, START_JOB (R380, 09 R245 to R247) -/

/-- R380: the keys that a CONFIG sent by a job may carry. -/
def jobKey (x : CfgEntry) : Bool :=
  match x with
  | .itemTable _ => true
  | .canary _ _ => true
  | .gates _ => true
  | _ => false

/-- R227, R244: what a hall root refuses to issue: a failing ITEM_TABLE (INFO 0x0A), and a cut instant less than START_LEAD ahead
(INFO 0x04, log entry 64). -/
def Prd.configRefused (o : Prd) (t : Nat) (l : List CfgEntry) : Option Nat :=
  let soon := o.ft + o.atmCfg 0 16 * tickUs
  let bad (x : CfgEntry) : Bool := match x with | .itemTable i => !itemsOk i | _ => false
  let early (x : CfgEntry) : Bool := match x with | .itemTable _ => decide (t < soon) | .accordSwitch ts _ => decide (ts < soon) | _ => false
  if l.any bad then some 0x0A else if l.any early then some 0x04 else none

/-- R244: the ACCORD_SWITCH of a list. -/
def cfgSwitch (l : List CfgEntry) : Option Nat := l.findSome? fun x => match x with | .accordSwitch _ n => some n | _ => none

/-- CONFIG, at the hall root: the broadcast goes out, and the operation waits for every DONE. -/
def Prd.ctrlConfig (o : Prd) (p : Op) (l : List CfgEntry) : Prd :=
  let d := p.desc
  match o.ctxStop p with
  | some st => o.finish p.ring p.idx { status := st }
  | none =>
    if !privRing p.ring && !l.all jobKey then o.finish p.ring p.idx { status := 0x06 }
    else if !ctrlOk d then o.finish p.ring p.idx { status := 0x05 }
    else if !o.isRoot then o.finish p.ring p.idx { status := 0x09 }
    else match o.configRefused (fieldAt d 8 8) l with
    | some info => o.finish p.ring p.idx { status := 0x0B, info }
    | none =>
      let old := o.accInt
      let (o, bseq) := o.issue 3 (dJob d) (if dJob d = 0 then 3 else 2) (fieldAt d 8 8) 0 fun b => { b with config := l }
      let o := match (if dJob d = 0 then cfgSwitch l else none) with
        | some n => { o with tree := { o.tree with switches := { bseq, n, old } :: o.tree.switches } }
        | none => o
      o.rootWork.setOp p.ring p.idx fun p => { p with wait := .bcast bseq }

/-- CONTROL_CONFIG. -/
def execControlConfig (k tag : Nat) (l : List CfgEntry) (t : Nat) (s : State) : Host.Outcome State Fault Refusal :=
  .next (s.onPrd fun o => (o.go t).runOp k tag (· == 0x23) fun o p => o.ctrlConfig p l)

/-- START_JOB, at the hall root: the tables and the port map are checked, and START goes out. -/
def Prd.ctrlStart (o : Prd) (p : Op) (jobTag : Nat) (m : StartMsg) : Prd :=
  let d := p.desc
  if !privRing p.ring then o.finish p.ring p.idx { status := 0x06 }
  else if !ctrlOk d || jobTag = 0 || jobTag ≥ 65536 then o.finish p.ring p.idx { status := 0x05 }
  else if !o.isRoot then o.finish p.ring p.idx { status := 0x09 }
  else if !itemsOk m.items || !o.homesOk m.nRanks m.homes || !o.portsOk m.nRanks m.ports then
    o.finish p.ring p.idx { status := 0x0B, info := 0x0A }
  else if o.tree.reqs.any fun r => r.tag == jobTag && r.result.isNone then o.finish p.ring p.idx { status := 0x0B, info := 0x07 }
  else
    let r : StartReq := { tag := jobTag, msg := m }
    let o := { o with tree := { o.tree with reqs := r :: o.tree.reqs.filter (·.tag != jobTag) } }
    ((o.issueStart r).rootWork).setOp p.ring p.idx fun p => { p with wait := .start jobTag }

/-- START_JOB. -/
def execStartJob (k tag jobTag : Nat) (m : StartMsg) (t : Nat) (s : State) : Host.Outcome State Fault Refusal :=
  .next (s.onPrd fun o => (o.go t).runOp k tag (· == 0x24) fun o p => o.ctrlStart p jobTag m)

/-- R380: what operations of ring `k` wait for at the root has come. -/
def Prd.settleOps (o : Prd) (k : Nat) : Prd :=
  (o.rings.ops.filter (·.ring == k)).foldl (fun (o : Prd) p =>
    match p.wait with
    | .bcast bseq =>
      (match (o.bcast? bseq).bind (·.closed) with
       | some d => o.finish k p.idx { info := d.notApplied }
       | none => o)
    | .start tag =>
      (match (o.tree.reqs.find? (·.tag == tag)).bind fun r => r.result.map fun x => (r, x) with
       | some (_, 0) => o.finish k p.idx {}
       | some (r, _) =>
         let l := (missBytes r.statuses).take (fieldAt p.desc 16 8)
         o.finishWith p (fieldAt p.desc 8 8) l { status := 0x0B, nAnswers := r.statuses.length }
       | none => o)
    | _ => o) o

/-! ### Model and baseline commands (R268, R283, R285) -/

/-- R396: whether FLASH_UPDATE runs. -/
def Prd.flashing (o : Prd) : Bool := o.mgmt.run.any (·.cmd == 0x10)

/-- Whether a load command got its result: 0 none yet. -/
def loadStatus (code : Nat) : Nat := if code = 10 then 0x0A else if code = 1 || code = 2 || code = 13 || code = 0 then 0x00 else 0x0B

/-- R380, R396: a load command by register, or the NOSE operation that asks for it; `f` takes address, length and context
slot, and answers the code, none while a copy is to come. -/
def Prd.noseCmd (o : Prd) (via : Option (Nat × Nat)) (sel : Nat) (f : Prd → Nat → Nat → Nat → Prd × Option Nat) : Prd :=
  match via with
  | none => if o.safe then o
            else (f o (PrdR.get o PRD_NOSE_LOAD_ADDR) (PrdR.get o PRD_NOSE_LOAD_LEN) (PrdR.get o PRD_NOSE_BASE_CTX)).1
  | some (k, tag) => o.runOp k tag (· == 0x25) fun o p =>
    let d := p.desc
    let x := fieldAt d 8 8
    let slot := fieldAt d 32 8
    if !privRing k then o.finish k p.idx { status := 0x06 }
    else if !ctrlOk d || ! [1, 2, 4, 8].contains x || slot > 32 then o.finish k p.idx { status := 0x05 }
    else if x ≠ sel then o
    else if o.safe then o.finish k p.idx { status := 0x0B }
    else if o.flashing then o.finish k p.idx { status := 0x0A }
    else
      let (o, code) := f o (fieldAt d 16 8) (fieldAt d 24 8) slot
      match code with
      | some c => o.finish k p.idx { status := loadStatus c, info := c }
      | none => o.setOp k p.idx fun p => { p with wait := .nose }

/-- R285: LOAD_RESULT, with NEEDED and AVAILABLE where the refusal gives them. -/
def Prd.loadResult (o : Prd) (code ev : Nat) : Prd := PrdR.ev (PrdR.set o PRD_NOSE_LOAD_RESULT code) PRD_NOSE_EVENTS ev

/-- R266, R268: a model load is refused. -/
def Prd.loadRefused (o : Prd) (code needed available : Nat) : Prd :=
  let o := if needed = 0 then o else PrdR.set (PrdR.set o PRD_NOSE_NEEDED needed) PRD_NOSE_AVAILABLE available
  (o.loadResult code 1).event { code := 0x71, sev := 3, payload := le 1 code ++ zeros 7 ++ le 8 needed }

/-- R283: whether a baseline's JOB_TAG names a context. -/
def Prd.baseTag (o : Prd) (tag : Nat) : Bool := (o.slotOf tag).any (· ≤ 32)

/-- R265, R268: LOAD_MODEL: the image is checked, and waits for its copy. -/
def Prd.loadModel (o : Prd) (addr len : Nat) (sigOk : Bool) : Prd × Option Nat :=
  let refuse (c n a : Nat) : Prd × Option Nat := (o.loadRefused c n a, some c)
  if o.nose.next.isSome then refuse 10 0 0
  else if addr % 64 ≠ 0 || !inSoftware addr len then refuse 5 0 0
  else
    let img := o.hbm.read addr len
    match checkImage img len (blake3 img) o.cfg.signed sigOk with
    | .refused c n a => refuse c n a
    | .ok m =>
      let base := sectBytes img 9
      if (imgSect img 9).isSome && !baseOk base (nFeat img) o.baseTag none then refuse 11 0 0
      else ({ o with nose := { o.nose with next := some { m with addr } } }, none)

/-- LOAD_MODEL. -/
def execLoadModel (via : Option (Nat × Nat)) (sigOk : Bool) (t : Nat) (s : State) : Host.Outcome State Fault Refusal :=
  .next (s.onPrd fun o => (o.go t).noseCmd via 1 fun o addr len _ => o.loadModel addr len sigOk)

/-- MODEL_COPY_START: once the accord under evaluation has finished (log entry 68). -/
def execModelCopyStart (t : Nat) (s : State) : Host.Outcome State Fault Refusal :=
  .next (s.onPrd fun o =>
    let o := o.go t
    if o.nose.next.isSome && !o.nose.copying && o.nose.busy.isNone && o.nose.waiting.isEmpty then
      { o with nose := { o.nose with copying := true } }
    else o)

/-- R285: the digest of the loaded image, 0 for none. -/
def Prd.setDigest (o : Prd) (v : Nat) : Prd :=
  (List.range 4).foldl (fun (o : Prd) i => PrdR.set o (PRD_NOSE_MODEL_DIGEST + 8 * i) (getF v (64 * i) 64)) o

/-- The operations that wait for a copy finish. -/
def Prd.finishNose (o : Prd) (code : Nat) : Prd :=
  (o.rings.ops.filter (·.wait == .nose)).foldl (fun (o : Prd) p => o.finish p.ring p.idx { status := loadStatus code, info := code }) o

/-- R268: the copy is done: the new model, its baseline or none, and its registers. -/
def Prd.modelCopied (o : Prd) : Prd :=
  match o.nose.next with
  | none => o
  | some m =>
    if !o.nose.copying then o
    else
      let streams := if (imgSect m.image 9).isSome then baseStreams (sectBytes m.image 9) else []
      let o := { o with nose := { o.nose with
        model := some m, next := none, copying := false, streams, baseNext := [], persist := [], scores := [] } }
      let o := (PrdR.set o PRD_NOSE_RESIDENT m.resident).setDigest m.digest
      (o.loadResult m.mode 0).finishNose m.mode

/-- R409: a model that the configuration image holds: installed as it is checked. -/
def Prd.installModel (o : Prd) (img : List Byte) : Prd :=
  match checkImage img img.length (blake3 img) o.cfg.signed true with
  | .refused c n a => o.loadRefused c n a
  | .ok m =>
    if (imgSect img 9).isSome && !baseOk (sectBytes img 9) (nFeat img) o.baseTag none then o.loadRefused 11 0 0
    else { o with nose := { o.nose with next := some m, copying := true } }.modelCopied

/-- MODEL_COPY_DONE. -/
def execModelCopyDone (t : Nat) (s : State) : Host.Outcome State Fault Refusal :=
  .next (s.onPrd fun o => (o.go t).modelCopied)

/-- R283: a baseline's bytes, from a place that is allowed: it takes the place of the context's streams, from the next
evaluated accord. -/
def Prd.takeBaseline (o : Prd) (placeOk : Bool) (b : List Byte) : Prd × Option Nat :=
  let tag := fieldAt b 2 2
  let refuse : Prd × Option Nat := (o.loadResult 11 6, some 11)
  match o.nose.model with
  | none => refuse
  | some m =>
    if !placeOk || !baseOk b (nFeat m.image) o.baseTag (some m.digest) then refuse
    else
      let l := baseStreams b
      let inUse := o.nose.busy.any fun x => (if x.1 = 0 then 0 else (o.slot x.1).tag) == tag
      let n := if inUse then { o.nose with baseNext := (tag, l) :: o.nose.baseNext.filter (·.1 != tag) }
        else { o.nose with streams := withBase o.nose.streams tag l }
      ({ o with nose := n }.loadResult 13 5, some 13)

/-- R283: LOAD_BASELINE from the software area. -/
def Prd.loadBaseline (o : Prd) (addr len : Nat) : Prd × Option Nat :=
  o.takeBaseline (addr % 64 == 0 && inSoftware addr len) (o.hbm.read addr len)

/-- LOAD_BASELINE. -/
def execLoadBaseline (via : Option (Nat × Nat)) (t : Nat) (s : State) : Host.Outcome State Fault Refusal :=
  .next (s.onPrd fun o => (o.go t).noseCmd via 2 fun o addr len _ => o.loadBaseline addr len)

/-- R283: SAVE_BASELINE: the live state of a context; GENERATION is free (log entry 73). -/
def Prd.saveBaseline (o : Prd) (addr slot : Nat) : Prd × Option Nat :=
  match o.nose.model with
  | none => (o.loadResult 11 6, some 11)
  | some m =>
    let tag := if slot = 0 then 0 else (o.slot slot).tag
    let b := baseBytes tag (nFeat m.image) (Config.baselineGeneration o.free) m.digest o.nose.streams
    let o := { o with free := o.free + 1 }
    if addr % 64 ≠ 0 || !inSoftware addr b.length || o.mramProt || (slot ≠ 0 && (o.slot slot).st = 0) then (o.loadResult 11 6, some 11)
    else ({ o with hbm := o.hbm.write addr b }.loadResult 13 5, some 13)

/-- SAVE_BASELINE. -/
def execSaveBaseline (via : Option (Nat × Nat)) (t : Nat) (s : State) : Host.Outcome State Fault Refusal :=
  .next (s.onPrd fun o => (o.go t).noseCmd via 4 fun o addr _ slot => o.saveBaseline addr slot)

/-- R285: UNLOAD: no model is loaded; accords that wait, and the one under evaluation, are SKIPPED_NO_MODEL, and a load in
progress ends without a model (log entry 78). -/
def Prd.unload (o : Prd) : Prd × Option Nat :=
  let gone := o.nose.busy.toList ++ o.nose.waiting
  let n := { o.nose with model := none, next := none, copying := false, waiting := [], busy := none, streams := [], baseNext := []
                         persist := [], scores := [] }
  let o := (PrdR.set (PrdR.set { o with nose := n } PRD_NOSE_RESIDENT 0) PRD_NOSE_LOAD_RESULT 0).setDigest 0
  let o := gone.foldl (fun (o : Prd) x =>
    let tag := if x.1 = 0 then 0 else (o.slot x.1).tag
    (o.evalRec 3 tag 0 x.2 0 absent).releaseHold tag x.2) o
  (o.finishNose 0, some 0)

/-- UNLOAD. -/
def execUnload (via : Option (Nat × Nat)) (t : Nat) (s : State) : Host.Outcome State Fault Refusal :=
  .next (s.onPrd fun o => (o.go t).noseCmd via 8 fun o _ _ _ => o.unload)

end Sys2Proof.Machine
end

