-- ==== Sys2Proof/Machine/Deflate.lean ====
section
/-!
DEFINITION. Machine/Deflate.lean: container blocks and raw DEFLATE streams (13 R340 to R345, R351).
-/
namespace Sys2Proof.Machine
open Sys2Proof

/-! ### Matches (R343) -/

/-- A literal, or a match of a length at a distance. -/
inductive Tok where
  | lit (b : Nat)
  | ref (len dist : Nat)
deriving DecidableEq, Repr

/-- The common prefix of two byte sequences, at most `n`. -/
def prefixLen : Nat → List Byte → List Byte → Nat
  | 0, _, _ => 0
  | n + 1, a :: x, b :: y => if a = b then prefixLen n x y + 1 else 0
  | _, _, _ => 0

/-- The best match at `s` among the earlier positions `hist`, nearest first, the nearest of them at distance `d`: at most
`depth` positions whose first 3 bytes are those of `s` are examined. -/
def bestMatch (s : List Byte) : List (List Byte) → Nat → Nat → Option (Nat × Nat) → Option (Nat × Nat)
  | [], _, _, best => best
  | h :: r, d, depth, best =>
    if depth = 0 || d > 32768 then best
    else if h.take 3 = s.take 3 then
      let n := prefixLen 258 h s
      bestMatch s r (d + 1) (depth - 1) (match best with
        | some (m, dm) => if n > m then some (n, d) else some (m, dm)
        | none => some (n, d))
    else bestMatch s r (d + 1) depth best

/-- Put the next `n` positions before the history. -/
def pushHist : Nat → List (List Byte) → List Byte → List (List Byte) × List Byte
  | n + 1, h, b :: r => pushHist n ((b :: r) :: h) r
  | _, h, l => (h, l)

/-- Greedy matching. -/
def tokenize (depth : Nat) : Nat → List (List Byte) → List Byte → List Tok
  | 0, _, _ => []
  | _, _, [] => []
  | fuel + 1, hist, b :: r =>
    let m := if (b :: r).length < 3 then none else bestMatch (b :: r) hist 1 depth none
    match m with
    | some (n, d) =>
      let (h, rest) := pushHist n hist (b :: r)
      Tok.ref n d :: tokenize depth fuel h rest
    | none => Tok.lit b.toNat :: tokenize depth fuel ((b :: r) :: hist) r

/-! ### Bits and codes -/

/-- The bits of `v`, least significant first. -/
def bitsLsb (n v : Nat) : List Bool := (List.range n).map (bit v)

/-- The bits of a Huffman code, most significant first. -/
def bitsMsb (n v : Nat) : List Bool := (bitsLsb n v).reverse

/-- Bits as bytes, the first bit the least significant of the first byte. -/
def packBits : Nat → List Bool → List Byte
  | 0, _ => []
  | fuel + 1, l =>
    if l.isEmpty then []
    else BitVec.ofNat 8 ((l.take 8).zipIdx.foldl (fun a x => a + b2n x.1 * 2 ^ x.2) 0) :: packBits fuel (l.drop 8)

/-- Base and extra bits of the length codes 257 to 285. -/
def lenTable : List (Nat × Nat) :=
  [(3, 0), (4, 0), (5, 0), (6, 0), (7, 0), (8, 0), (9, 0), (10, 0), (11, 1), (13, 1), (15, 1), (17, 1), (19, 2), (23, 2),
   (27, 2), (31, 2), (35, 3), (43, 3), (51, 3), (59, 3), (67, 4), (83, 4), (99, 4), (115, 4), (131, 5), (163, 5), (195, 5),
   (227, 5), (258, 0)]

/-- Base and extra bits of the distance codes 0 to 29. -/
def distTable : List (Nat × Nat) :=
  [(1, 0), (2, 0), (3, 0), (4, 0), (5, 1), (7, 1), (9, 2), (13, 2), (17, 3), (25, 3), (33, 4), (49, 4), (65, 5), (97, 5),
   (129, 6), (193, 6), (257, 7), (385, 7), (513, 8), (769, 8), (1025, 9), (1537, 9), (2049, 10), (3073, 10), (4097, 11),
   (6145, 11), (8193, 12), (12289, 12), (16385, 13), (24577, 13)]

/-- The last row of a table whose base is at most `v`: its index, base and extra bits. -/
def tableRow (t : List (Nat × Nat)) (v : Nat) : Nat × Nat × Nat :=
  (t.zipIdx.foldl (fun (a : Nat × Nat × Nat) (x : (Nat × Nat) × Nat) => if x.1.1 ≤ v then (x.2, x.1.1, x.1.2) else a) (0, 0, 0))

/-- RFC 1951, 3.2.6: the fixed code of a literal/length symbol. -/
def fixedCode (s : Nat) : List Bool :=
  if s < 144 then bitsMsb 8 (0x30 + s)
  else if s < 256 then bitsMsb 9 (0x190 + (s - 144))
  else if s < 280 then bitsMsb 7 (s - 256)
  else bitsMsb 8 (0xC0 + (s - 280))

/-- A token under the fixed codes. -/
def Tok.fixedBits : Tok → List Bool
  | .lit b => fixedCode b
  | .ref n d =>
    let l := tableRow lenTable n
    let x := tableRow distTable d
    fixedCode (257 + l.1) ++ bitsLsb l.2.2 (n - l.2.1) ++ bitsMsb 5 x.1 ++ bitsLsb x.2.2 (d - x.2.1)

/-- R344: the STATIC stream of a block. -/
def staticStream (depth : Nat) (l : List Byte) : List Byte :=
  let bits := [true, true, false] ++ (tokenize depth l.length [] l).flatMap Tok.fixedBits ++ fixedCode 256
  packBits bits.length bits

/-- R345: the stored stream of a block. -/
def storedStream : Nat → List Byte → List Byte
  | 0, _ => []
  | fuel + 1, l =>
    let n := min 65535 l.length
    le 1 (b2n (decide (l.length ≤ 65535))) ++ le 2 n ++ le 2 (65535 - n) ++ l.take n ++
      (if l.length ≤ 65535 then [] else storedStream fuel (l.drop 65535))

/-! ### Inflate (R342, R351) -/

/-- What decoding a stream gives. -/
inductive Inflated where
  /-- The bytes of a valid stream. -/
  | ok (l : List Byte)
  /-- The stream is not valid. -/
  | bad
  /-- It decodes beyond the limit. -/
  | long
deriving DecidableEq, Repr

/-- The canonical code of a list of lengths: (length, code, symbol). -/
def canonCode (lens : List Nat) : List (Nat × Nat × Nat) :=
  let go := (List.range 16).foldl (fun (a : Nat × List (Nat × Nat × Nat)) n =>
    if n = 0 then a
    else
      let syms := (lens.zipIdx.filter fun x => x.1 == n).map (·.2)
      let first := a.1 * 2
      (first + syms.length, a.2 ++ syms.zipIdx.map fun s => (n, first + s.2, s.1))) (0, [])
  go.2

/-- Whether the lengths make a prefix code: neither over-subscribed nor incomplete, but for a single code of one bit or
none at all. -/
def lensOk (lens : List Nat) : Bool :=
  let used := lens.filter (· ≠ 0)
  let sum := used.foldl (fun a n => a + 2 ^ (15 - n)) 0
  decide (sum = 2 ^ 15) || used == [1] || used == []

/-- Read one symbol. -/
def readSym (code : List (Nat × Nat × Nat)) : Nat → Nat → Nat → List Bool → Option (Nat × List Bool)
  | 0, _, _, _ => none
  | _, _, _, [] => none
  | fuel + 1, n, v, b :: r =>
    let v := 2 * v + b2n b
    match code.find? fun x => x.1 == n + 1 && x.2.1 == v with
    | some x => some (x.2.2, r)
    | none => readSym code fuel (n + 1) v r

/-- Read `n` bits, least significant first. -/
def readBits : Nat → List Bool → Option (Nat × List Bool)
  | 0, l => some (0, l)
  | _, [] => none
  | n + 1, b :: r => (readBits n r).map fun x => (b2n b + 2 * x.1, x.2)

/-- Copy `n` bytes from distance `d` of the output, which stands last byte first. -/
def copyBack : Nat → Nat → List Byte → List Byte
  | 0, _, out => out
  | n + 1, d, out => copyBack n d ((out.drop (d - 1)).headD 0 :: out)

/-- Decode symbols up to the end of a block: the output, last byte first, and the rest of the bits. -/
def inflateSyms (lc dc : List (Nat × Nat × Nat)) (limit : Nat) : Nat → Nat → List Byte → List Bool →
    Option (List Byte × List Bool × Bool)
  | 0, _, _, _ => none
  | fuel + 1, len, out, l =>
    match readSym lc 15 0 0 l with
    | none => none
    | some (s, l) =>
      if s < 256 then
        if len + 1 > limit then some (out, l, true) else inflateSyms lc dc limit fuel (len + 1) (BitVec.ofNat 8 s :: out) l
      else if s = 256 then some (out, l, false)
      else if s > 285 then none
      else
        let (base, ex) := lenTable.getD (s - 257) (0, 0)
        match readBits ex l with
        | none => none
        | some (x, l) =>
          match readSym dc 15 0 0 l with
          | none => none
          | some (ds, l) =>
            if ds > 29 then none
            else
              let (db, dx) := distTable.getD ds (0, 0)
              match readBits dx l with
              | none => none
              | some (y, l) =>
                let n := base + x
                let d := db + y
                if d > len then none
                else if len + n > limit then some (out, l, true)
                else inflateSyms lc dc limit fuel (len + n) (copyBack n d out) l

/-- The order of the code-length code's lengths. -/
def clOrder : List Nat := [16, 17, 18, 0, 8, 7, 9, 6, 10, 5, 11, 4, 12, 3, 13, 2, 14, 1, 15]

/-- Read the lengths of a dynamic block's two codes; `done` holds those read, last first. -/
def readLens (cl : List (Nat × Nat × Nat)) (want : Nat) : Nat → List Nat → List Bool → Option (List Nat × List Bool)
  | 0, _, _ => none
  | fuel + 1, done, l =>
    if done.length = want then some (done.reverse, l)
    else if done.length > want then none
    else
      match readSym cl 7 0 0 l with
      | none => none
      | some (s, l) =>
        if s < 16 then readLens cl want fuel (s :: done) l
        else
          let (n, b, v) := if s = 16 then (2, 3, done.headD 16) else if s = 17 then (3, 3, 0) else (7, 11, 0)
          if v = 16 then none
          else match readBits n l with
            | none => none
            | some (x, l) => readLens cl want fuel (List.replicate (b + x) v ++ done) l

/-- The two codes of a dynamic block. -/
def readDynamic (l : List Bool) : Option (List Nat × List Nat × List Bool) :=
  match readBits 14 l with
  | none => none
  | some (x, l) =>
    let hlit := 257 + x % 32
    let hdist := 1 + x / 32 % 32
    let hclen := 4 + x / 1024
    if hlit > 286 || hdist > 30 then none
    else match readBits (3 * hclen) l with
      | none => none
      | some (c, l) =>
        let cls := (List.range 19).map fun s => match clOrder.findIdx? (· == s) with
          | some i => if i < hclen then getF c (3 * i) 3 else 0
          | none => 0
        if !lensOk cls then none
        else match readLens (canonCode cls) (hlit + hdist) 400 [] l with
          | none => none
          | some (ls, l) => some (ls.take hlit, ls.drop hlit, l)

/-- Lengths of the fixed codes. -/
def fixedLens : List Nat :=
  List.replicate 144 8 ++ List.replicate 112 9 ++ List.replicate 24 7 ++ List.replicate 8 8

/-- Bits of a byte sequence. -/
def bytesBits (l : List Byte) : List Bool := l.flatMap fun b => bitsLsb 8 b.toNat

/-- Bytes from whole bytes of bits. -/
def takeBytes : Nat → List Bool → Option (List Byte × List Bool)
  | 0, l => some ([], l)
  | n + 1, l =>
    match readBits 8 l with
    | none => none
    | some (v, r) => (takeBytes n r).map fun x => (BitVec.ofNat 8 v :: x.1, x.2)

/-- The DEFLATE blocks in turn; `total` is the number of bits of the stream. -/
def inflateBlocks (total limit : Nat) : Nat → List Byte → List Bool → Inflated
  | 0, _, _ => .bad
  | fuel + 1, out, l =>
    match readBits 3 l with
    | none => .bad
    | some (h, l) =>
      let final := h % 2 = 1
      let finish (out : List Byte) (l : List Bool) : Inflated := if l.length < 8 then .ok out.reverse else .bad
      if h / 2 = 0 then
        let l := l.drop (l.length % 8)
        match readBits 32 l with
        | none => .bad
        | some (x, l) =>
          let n := x % 65536
          if x / 65536 ≠ 65535 - n then .bad
          else if out.length + n > limit then (if l.length < 8 * n then .bad else .long)
          else match takeBytes n l with
            | none => .bad
            | some (bs, l) =>
              let out := bs.reverse ++ out
              if final then finish out l else inflateBlocks total limit fuel out l
      else if h / 2 = 3 then .bad
      else
        let codes := if h / 2 = 1 then some (fixedLens, List.replicate 30 5, l) else readDynamic l
        match codes with
        | none => .bad
        | some (ll, dl, l) =>
          if h / 2 = 2 && (!lensOk ll || !lensOk dl || ll.getD 256 0 = 0) then .bad
          else match inflateSyms (canonCode ll) (canonCode dl) limit total out.length out l with
            | none => .bad
            | some (_, _, true) => .long
            | some (out, l, false) => if final then finish out l else inflateBlocks total limit fuel out l

/-- Decode a raw DEFLATE stream of at most `limit` bytes of output. -/
def inflate (limit : Nat) (s : List Byte) : Inflated :=
  let bits := bytesBits s
  inflateBlocks bits.length limit (bits.length + 1) [] bits

/-! ### Container blocks (R340, R345, R351) -/

/-- The bits of symbol `s` in a canonical code. -/
def codeBits (c : List (Nat × Nat × Nat)) (s : Nat) : List Bool :=
  match c.find? fun x => x.2.2 == s with
  | some x => bitsMsb x.1 x.2.1
  | none => []

/-- A token under two codes. -/
def Tok.codedBits (lc dc : List (Nat × Nat × Nat)) : Tok → List Bool
  | .lit b => codeBits lc b
  | .ref n d =>
    let l := tableRow lenTable n
    let x := tableRow distTable d
    codeBits lc (257 + l.1) ++ bitsLsb l.2.2 (n - l.2.1) ++ codeBits dc x.1 ++ bitsLsb x.2.2 (d - x.2.1)

/-- R344: a BTYPE 10 stream of a block under level codes: literal/length codes of 8 and 9 bits, distance codes of 4 and 5, and a
code-length code of 2 bits for each of those four lengths. -/
def levelStream (depth : Nat) (l : List Byte) : List Byte :=
  let ll := List.replicate 226 8 ++ List.replicate 60 9
  let dl := List.replicate 2 4 ++ List.replicate 28 5
  let cls := (List.range 19).map fun s => if [4, 5, 8, 9].contains s then 2 else 0
  let head := [true, false, true] ++ bitsLsb 5 29 ++ bitsLsb 5 29 ++ bitsLsb 4 8 ++
    ((clOrder.take 12).flatMap fun s => bitsLsb 3 (cls.getD s 0)) ++ (ll ++ dl).flatMap (codeBits (canonCode cls))
  let lc := canonCode ll
  let bits := head ++ (tokenize depth l.length [] l).flatMap (Tok.codedBits lc (canonCode dl)) ++ codeBits lc 256
  packBits bits.length bits

/-- R344, R345: a block's stream, its METHOD and whether it fell back. The DYNAMIC stream is a free value wherever it is one DEFLATE
block of BTYPE 10 with BFINAL set that decodes to the block; otherwise the level codes stand for it (log entry 57). -/
def blockStream (method depth : Nat) (l : List Byte) : List Byte × Nat × Bool :=
  let stored := storedStream (l.length / 65535 + 1) l
  if method = 0 then (stored, 0, false)
  else
    let chain := [1, 4, 16, 64, 256].getD depth 16
    let c := if method = 1 then staticStream chain l
      else
        let d := Config.dynamicStream l chain
        if getF (fieldAt d 0 1) 0 3 = 5 && inflate l.length d = .ok l then d else levelStream chain l
    if c.length > stored.length then (stored, 0, true) else (c, method, false)

/-- R340: a container block, and whether it fell back. -/
def containerBlock (method depth index : Nat) (last : Bool) (l : List Byte) : List Byte × Bool :=
  let (s, m, fb) := blockStream method depth l
  let flags := b2n last + 2 * (if method = 0 then 0 else depth) + 16 * b2n fb
  let h := [0x55, 0x42, 0x4C, 0x4B] ++ le 1 1 ++ le 1 m ++ le 2 flags ++ le 8 index ++ le 4 l.length ++ le 4 s.length ++ le 4 (crc32c l)
  (h ++ le 4 (crc32c h) ++ s, fb)

/-- R341, R343: the container blocks of an input, each with its input length and whether it fell back. -/
def containerBlocks (method depth size : Nat) (lastOnEnd : Bool) : Nat → Nat → List Byte → List (List Byte × Nat × Bool)
  | 0, _, _ => []
  | fuel + 1, index, l =>
    if l.isEmpty then []
    else
      let n := min size l.length
      let (b, fb) := containerBlock method depth index (lastOnEnd && l.length ≤ size) (l.take n)
      (b, n, fb) :: containerBlocks method depth size lastOnEnd fuel (index + 1) (l.drop n)

/-- An object: the whole input in container blocks. -/
def containerObject (method depth size : Nat) (l : List Byte) : List Byte :=
  (containerBlocks method depth size true (l.length + 1) 0 l).flatMap (·.1)

/-- R351: checks 1 to 9 of the block at the front of `src`; `room` is what OUT_LIMIT leaves. Answers the code of the first
check that fails, or the decoded bytes, the block's length and LAST. -/
def checkBlock (expect : Option Nat) (room : Nat) (src : List Byte) : Nat ⊕ (List Byte × Nat × Bool) :=
  if src.length < 32 then .inl 0x0C
  else
    let inLen := fieldAt src 16 4
    let outLen := fieldAt src 20 4
    let flags := fieldAt src 6 2
    if fieldAt src 0 4 ≠ 0x4B4C4255 || fieldAt src 4 1 ≠ 1 || fieldAt src 5 1 > 2 || flags ≥ 32 || inLen = 0 || inLen > 262144 then .inl 0x06
    else if fieldAt src 28 4 ≠ crc32c (src.take 28) then .inl 0x07
    else if expect.any (· ≠ fieldAt src 8 8) then .inl 0x0B
    else if inLen > room then .inl 0x05
    else if src.length - 32 < outLen then .inl 0x0C
    else match inflate inLen ((src.drop 32).take outLen) with
      | .bad => .inl 0x08
      | .long => .inl 0x09
      | .ok l =>
        if l.length ≠ inLen then .inl 0x09
        else if crc32c l ≠ fieldAt src 24 4 then .inl 0x0A
        else .inr (l, 32 + outLen, bit flags 0)

/-- R351: the blocks of a source in turn, at most `n` of them: the output, the bytes consumed, the next index, the blocks
decoded, and the code with which the job ends, none when it stopped for `n`. -/
def decodeBlocks (check : Bool) (limit : Nat) : Nat → Nat → Nat → List Byte → Nat → Nat → List Byte × Nat × Nat × Nat × Option Nat
  | 0, index, used, _, _, k => ([], used, index, k, none)
  | n + 1, index, used, src, out, k =>
    match checkBlock (if check then some index else none) (limit - out) src with
    | .inl c => ([], used, index, k, some c)
    | .inr (l, len, last) =>
      let rest := src.drop len
      if last || rest.isEmpty then (l, used + len, index + 1, k + 1, some 0)
      else
        let (more, used, index, k, c) := decodeBlocks check limit n (index + 1) (used + len) rest (out + l.length) (k + 1)
        (l ++ more, used, index, k, c)

end Sys2Proof.Machine
end

