-- ==== Sys2Proof/Machine/Export.lean ====
section
/-!
DEFINITION. Machine/Export.lean: export objects and audit replay (10 R284, 13 R360, 14 R382, R383, 15 R425).
-/
namespace Sys2Proof.Machine
open Sys2Proof

/-! ### Export objects (R382) -/

/-- R382: what the header of an export object says beside its blocks. -/
structure ExHead where
  kind : Nat
  flags : Nat
  tray : Nat
  first : Nat
  last : Nat
  freezeT : Nat := 0
  tag : Nat := 0

/-- R382: the 64-byte header. -/
def ExHead.bytes (h : ExHead) (nBlocks raw : Nat) : List Byte :=
  let b := [0x55, 0x45, 0x58, 0x50] ++ le 1 1 ++ le 1 h.kind ++ le 2 h.flags ++ le 4 h.tray ++ le 4 nBlocks ++ le 8 h.first ++
    le 8 h.last ++ le 8 raw ++ le 8 h.freezeT ++ le 2 h.tag ++ zeros 10
  b ++ le 4 (crc32c b)

/-- Offsets of blocks of these lengths, from `at_`. -/
def offsetsFrom : Nat → List Nat → List Nat
  | _, [] => []
  | at_, n :: r => at_ :: offsetsFrom (at_ + n) r

/-- R340, R382: an export object over raw bytes: header, container blocks as the compressors make them by default (R343), and
the index of their offsets. -/
def exportObject (h : ExHead) (raw : List Byte) : List Byte :=
  let blocks := (containerBlocks 2 2 65536 true (raw.length + 1) 0 raw).map (·.1)
  h.bytes blocks.length raw.length ++ blocks.flatten ++ (offsetsFrom 0 (blocks.map (·.length))).flatMap (le 8)

/-- R360: whether a compressor serves rings. -/
def Prd.compressors (o : Prd) : Bool := decide (PrdR.fld o PRD_CMP_ASSIGN 0 8 ≠ 0xFF)

/-- R382, R388, R422: an export object goes to the fleet store, its header to the buddy. -/
def Prd.putExport (o : Prd) (slot : Nat) (h : ExHead) (obj : List Byte) : Prd :=
  let o := o.send (2 ^ 17) 2 slot obj
  let item := MirrorItem.export_ o.tray o.ft (obj.take 64)
  { o with buddy := { o.buddy with
      lastExport := if h.kind = 0 then some h.last else o.buddy.lastExport
      out := if o.mirrors then item :: o.buddy.out else o.buddy.out } }

/-- R382, R425: an export object of raw bytes; a GAP mark is used up. -/
def Prd.sendExport (o : Prd) (slot : Nat) (h : ExHead) (raw : List Byte) : Prd × Nat :=
  let h := { h with flags := if o.buddy.gap then setBit h.flags 15 else h.flags }
  let obj := exportObject h raw
  ({ o with buddy := { o.buddy with gap := false } }.putExport slot h obj, obj.length)

/-- R382: EXPORT_HEART. -/
def Prd.exportHeart (o : Prd) (p : Op) : Prd :=
  let d := p.desc
  let (a, b) := (fieldAt d 8 8, fieldAt d 16 8)
  if !o.compressors || o.pw.fail.isSome then o
  else match o.ctxStop p with
    | some st => o.finish p.ring p.idx { status := st }
    | none =>
      if !ctrlOk d || b < a then o.finish p.ring p.idx { status := 0x05 }
      else
        let rs := o.notes.filter fun r => decide (a ≤ r.stamp && r.stamp ≤ b)
        let (o, n) := o.sendExport ((o.slotOf (dJob d)).getD 0) { kind := 0, flags := 0, tray := o.tray, first := a, last := b }
          (rs.flatMap (o.recordBytes 0))
        o.finish p.ring p.idx { nAnswers := rs.length, bytes := n }

/-- EXPORT_HEART. -/
def execExportHeart (k tag t : Nat) (s : State) : Host.Outcome State Fault Refusal :=
  .next (s.onPrd fun o => (o.go t).runOp k tag (· == 0x31) fun o p => o.exportHeart p)

/-- R382: EXPORT_FLACON, of a HELD flacon named by its slot and FREEZE_T. -/
def Prd.exportFlacon (o : Prd) (p : Op) : Prd :=
  let d := p.desc
  let n := fieldAt d 8 1
  let f := o.flacon n
  if !o.compressors || o.pw.fail.isSome then o
  else match o.ctxStop p with
    | some st => o.finish p.ring p.idx { status := st }
    | none =>
      if !ctrlOk d || n ≥ 4 then o.finish p.ring p.idx { status := 0x05 }
      else if f.st ≠ 4 || f.freezeT ≠ fieldAt d 16 8 then o.finish p.ring p.idx { status := 0x0B }
      else
        let rs := f.segs.flatMap (·.recs)
        let h : ExHead := { kind := 1, flags := f.flags, tray := o.tray, first := f.startActual, last := f.endActual, freezeT := f.freezeT, tag := f.tag }
        let (o, len) := o.sendExport ((o.slotOf (dJob d)).getD 0) h (rs.flatMap (o.recordBytes 0))
        (o.setFlacon n { f with flags := setBit f.flags 4 }).finish p.ring p.idx { nAnswers := rs.length, bytes := len }

/-- EXPORT_FLACON. -/
def execExportFlacon (k tag t : Nat) (s : State) : Host.Outcome State Fault Refusal :=
  .next (s.onPrd fun o => (o.go t).runOp k tag (· == 0x32) fun o p => o.exportFlacon p)

/-- R382: the automatic export of ring `k`: everything written since the last one (log entry 79). -/
def Prd.autoExport (o : Prd) (k : Nat) : Prd :=
  let c := o.ring k
  if o.ringState k ≠ 1 || c.type ≠ 3 || !bit c.cfg 17 || o.ringsBusy || !o.compressors || o.pw.fail.isSome ||
      decide (o.ft < c.autoAt + PrdR.get o PRD_EXPORT_PERIOD * 400000) then o
  else
    let from_ := if o.buddy.gap then o.buddy.ringAt else c.autoFrom
    let rs := o.notes.filter fun r => decide (from_ ≤ r.at_ && r.at_ < o.ft)
    let (o, _) := o.sendExport 0 { kind := 0, flags := 0, tray := o.tray, first := from_, last := o.ft - 1 } (rs.flatMap (o.recordBytes 0))
    o.setRing k { c with autoFrom := o.ft, autoAt := o.ft }

/-- EXPORT_PERIOD. -/
def execExportPeriod (k t : Nat) (s : State) : Host.Outcome State Fault Refusal :=
  .next (s.onPrd fun o => (o.go t).autoExport k)

/-! ### Replay (10 R284, R383) -/

/-- A frame of an export object, with its source: the rank and the location that its RCRC folds. -/
structure ExFrame where
  f : Frame
  rank : Nat
  loc : Nat

/-- R294: frames back to back. -/
def exportFrames : Nat → List Byte → List Frame
  | 0, _ => []
  | fuel + 1, l =>
    if l.length < 24 || l.length < frameLen l then []
    else
      { rtype := fieldAt l 0 1, rflags := fieldAt l 1 1, stream := fieldAt l 2 2, tag := fieldAt l 4 2, rcrc := fieldAt l 12 4
        seq := some (fieldAt l 16 4), body := (l.drop (headLen l)).take (fieldAt l 8 4) } :: exportFrames fuel (l.drop (frameLen l))

/-- R296: a frame's source: the rank and location under which its RCRC checks. -/
def Frame.source (f : Frame) (ranks : List Nat) (tray : Nat) : Option ExFrame :=
  let locs := (tray * 32 + 2 ^ 17) :: (List.range 32).map (tray * 32 + ·)
  (ranks.findSome? fun r => (locs.find? fun l => f.crcOk r l (f.seq.getD 0)).map fun l => ⟨f, r, l⟩)

/-- A decoded accord record of a replay. -/
structure ReAcc where
  tag : Nat
  rank : Nat
  no : Nat
  interval : Nat
  image : Image

/-- R77, R85: the regular accord records of an object, decoded in their order. -/
def replayAccords (l : List ExFrame) : List ReAcc :=
  (l.foldl (fun (acc : List ReAcc) x =>
    let h := accHdrOf x.f.body
    if x.f.rtype ≠ 1 || x.f.stream ≠ 0x100 || !accHdrOk x.f.body || h.kind ≠ 0 then acc
    else
      let old := acc.find? fun r => r.tag == x.f.tag && r.rank == x.rank
      let ref := (old.map (·.image)).getD {}
      if bit h.flags 0 || old.any (·.no == h.prevNo) then
        match decodeAccord ref x.f.body with
        | some (_, m) => { tag := x.f.tag, rank := x.rank, no := h.no, interval := h.interval, image := m } :: acc
        | none => acc
      else acc) []).reverse

/-- R271, R284: the ranks of an accord of a replay; late contributions, which stand in the object a second time, take no
part. -/
def replayRanks (l : List ExFrame) (accs : List ReAcc) (tag no : Nat) : List NoseRank :=
  match ((accs.filter fun a => a.tag == tag && decide (a.no < no)).map (·.no)).max? with
  | none => []
  | some prev =>
    let late := (l.filter fun x => x.f.rtype == 1 && x.f.stream == 0 && x.f.tag == tag && (accHdrOf x.f.body).no == no).map (·.rank)
    let t := no * 400000
    let inside (v : Nat) : Bool := decide (prev * 400000 < v && v ≤ t)
    let divs := (l.filter fun x => x.f.rtype == 0x81 && fieldAt x.f.body 2 2 == 0x62 && inside (fieldAt x.f.body 16 8)).map fun x =>
      (fieldAt x.f.body 4 2, fieldAt x.f.body 12 4 % 2 ^ 20)
    let home (x : ExFrame) : Nat × Nat := (x.f.tag, x.rank)
    sortBy NoseRank.rank ((accs.filter fun a => a.tag == tag && a.no == no && !late.contains a.rank).filterMap fun a =>
      (accs.find? fun b => b.tag == tag && b.rank == a.rank && b.no == prev).map fun b =>
        let mine := l.filter fun x => home x == (tag, a.rank) && inside (recStamp x.f.rtype x.f.body)
        let all := if tag = 0 then l.filter fun x => x.loc == a.rank && inside (recStamp x.f.rtype x.f.body) else mine
        let die (x : Nat × Nat) : Bool := l.any fun y => home y == x && y.loc == a.rank
        { tag, rank := a.rank, from_ := prev * 400000, dst := t, interval := a.interval, new := a.image, old := b.image
          queues := (all.filter fun x => x.f.rtype == 5 && x.f.stream == 0x400).flatMap fun x => sampleEntries x.f.body
          gch := if tag = 0 then ((mine.filter fun x => x.f.rtype == 8).getLast?).map (·.f.body) else none
          divs := (divs.filter fun x => if tag = 0 then x.1 ≠ 0 && die x else x == (tag, a.rank)).length })

/-- R226: the part of an item value that peer-lag reads, from its bytes after the prefix: a SKETCH or a TOPK. -/
def ItemDesc.peerVal (d : ItemDesc) (b : List Byte) : Option ItemVal :=
  if d.op = 9 then some (.bins ((List.range 2048).filterMap fun i => let n := fieldAt b (4 * i) 4; if n = 0 then none else some (i, n)))
  else if d.op = 0xA then
    some (.top ((List.range d.k).filterMap fun i =>
      let e := b.drop (16 * i)
      if fieldAt e 0 16 = 2 ^ 128 - 1 then none else some (fieldAt e 0 8, fieldAt e 8 4, fieldAt e 12 2)))
  else none

/-- R235, R226: a fragment's values from their bytes, with what follows. -/
def readVals : List ItemDesc → List Byte → List ItemRes × List Byte
  | [], b => ([], b)
  | d :: ds, b =>
    let len := 8 + (d.bodyBytes none).length
    let v : ItemRes := { nElem := fieldAt b 0 4, val := if bit (fieldAt b 6 1) 0 then none else d.peerVal (b.drop 8) }
    let (vs, rest) := readVals ds (b.drop len)
    (v :: vs, rest)

/-- R235: fragments from their bytes. -/
def readFrags (items : List ItemDesc) : Nat → List Byte → List Frag
  | 0, _ => []
  | n + 1, b =>
    let h := fieldAt b 0 1
    let i := fieldAt b 4 4
    if bit (fieldAt b 1 1) 0 then ⟨h, i, none⟩ :: readFrags items n (b.drop 8)
    else
      let (vs, rest) := readVals items (b.drop 8)
      ⟨h, i, some vs⟩ :: readFrags items n rest

/-- R284: a reduction result of an object: level, context, accord, item table and fragments. -/
structure ReResult where
  level : Nat
  tag : Nat
  no : Nat
  items : List ItemDesc
  frags : List Frag

/-- R284: the reduction results that the tray `tray` closed, in an object. -/
def replayResults (fs : List Frame) (tray : Nat) : List ReResult :=
  fs.filterMap fun f =>
    let b := f.body
    let len := fieldAt b 28 4
    let lvl := fieldAt b 1 1
    if f.rtype ≠ 0x80 || fieldAt b 0 1 ≠ 1 || lvl = 0 || lvl > 3 || fieldAt b 16 4 ≠ tray || len < 64 || b.length < len ||
        b.length ≠ len + 16 * fieldAt b 4 2 then none
    else
      let items := (List.range (fieldAt b 4 2)).map fun i => ItemDesc.ofBytes ((b.drop (len + 16 * i)).take 16)
      let listed := fieldAt b 108 4
      some { level := lvl - 1, tag := fieldAt b 2 2, no := fieldAt b 8 8, items
             frags := readFrags items (fieldAt b 6 2) ((b.take len).drop (128 + 4 * listed)) }

/-- R284: the accords that evaluation records mark EVALUATED, in ACCORD_NO order. -/
def replayList (l : List Frame) : List (Nat × Nat) :=
  sortBy (·.2) ((l.filter fun f => f.rtype == 0x84 && fieldAt f.body 1 1 == 0).map fun f => (fieldAt f.body 2 2, fieldAt f.body 8 8)).eraseDups

/-- R284: evaluate the accords of an object, with peer-lag on its reduction results: the records written, and the replay state. -/
def Prd.replayRun (o : Prd) (m : NoseModel) (tray : Nat) (fs : List Frame) (base : List NoseStream) : List HRec × List NoseStream :=
  let ranks := ((fs.filter fun f => f.rtype == 1).map fun f => (accHdrOf f.body).rank).eraseDups
  let l := fs.filterMap fun f => f.source ranks o.tray
  let accs := replayAccords l
  let evals := replayList fs
  let results := replayResults fs tray
  let peers (tag no : Nat) (ps : Persist) : List HRec × Persist :=
    (sortBy (·.level) (results.filter fun r => r.tag == tag && r.no == no)).foldl (fun (a : List HRec × Persist) r =>
      let (hits, ps) := peerStep m.image r.level tag no r.items r.frags a.2
      (a.1 ++ hits.map fun y => { rcls := 3, key := absent, tag, rank := y.1, body := y.2 }, ps)) ([], ps)
  let run := (sortBy (·.2) (evals ++ results.map fun r => (r.tag, r.no)).eraseDups).foldl
   (fun (a : (List HRec × List NoseStream) × Persist) x =>
    let (tag, no) := x
    let (lag, ps) := peers tag no a.2
    let a := a.1
    if !evals.contains x then ((a.1 ++ lag, a.2), ps) else
    let env : NoseEnv := { image := m.image, digest := m.digest, macerate := o.macerate m.image, emitAll := PrdR.flag o PRD_NOSE_CTRL 1
                           replay := true, tag, no }
    let outs := evalAccord env (replayRanks l accs tag no) a.2
    let recs : List HRec := outs.filterMap fun y => y.rec_.map fun b => { rcls := 2, key := y.key.id, tag, rank := y.key.rank, body := b }
    let done : HRec := { rcls := 4, tag, ft := o.ft, body := evalBytes 0 tag outs.length no (outs.filter (·.fired)).length o.ft }
    ((a.1 ++ recs ++ [done] ++ lag, newStates a.2 outs tag), ps)) (([], base), [])
  run.1

/-- R382: whether an object's header is that of an export object. -/
def exHeadOk (b : List Byte) : Bool :=
  b.length ≥ 64 && b.take 5 == [0x55, 0x45, 0x58, 0x50, 1] && fieldAt b 60 4 == crc32c (b.take 60)

/-- R284, R383: REPLAY. It waits while a live accord waits, or no decompressor serves rings. -/
def Prd.replayOp (o : Prd) (p : Op) : Prd :=
  let d := p.desc
  let stop (c : Cmpl) : Prd := o.finish p.ring p.idx c
  if o.nose.busy.isSome || !o.nose.waiting.isEmpty || PrdR.fld o PRD_CMP_ASSIGN 8 8 = 0xFF then o
  else match o.ctxStop p with
    | some st => stop { status := st }
    | none =>
      let (a, n) := (fieldAt d 8 8, fieldAt d 16 8)
      if !ctrlOk d || !inSoftware a n || !exHeadOk (o.hbm.read a n) then stop { status := 0x05 }
      else match o.nose.model with
        | none => stop { status := 0x0B, info := 0xFF }
        | some m =>
          let obj := o.hbm.read a n
          let ba := fieldAt d 24 8
          let bh := o.hbm.read ba 32
          let bl := 32 + fieldAt bh 8 4 * baseEntry (fieldAt bh 4 2)
          let b := o.hbm.read ba bl
          let blocks := fieldAt obj 12 4
          let (raw, _, _, _, code) := decodeBlocks true (fieldAt obj 32 8) blocks 0 0 (obj.drop 64) 0 0
          let fs := exportFrames raw.length raw
          let other := fs.any fun f => f.rtype == 0x82 && fieldAt f.body 48 8 ≠ m.digest % 2 ^ 64
          if fieldAt d 32 8 ≠ m.digest % 2 ^ 64 then stop { status := 0x0B, info := 0xFF }
          else if ba ≠ 0 && (!inSoftware ba bl || !baseOk b (nFeat m.image) (fun _ => true) (some m.digest)) then stop { status := 0x0B, info := 11 }
          else if code.any (· ≠ 0) then stop { status := 0x0B, info := code.getD 0 }
          else if other then stop { status := 0x0B, info := 0xFF }
          else
            let (rs, st) := o.replayRun m (fieldAt obj 8 4 % 4096) fs (if ba = 0 then [] else baseStreams b)
            let all := rs.map (o.recordBytes 0)
            let got := wholeBlocks (dLen d) all
            let o := { o with nose := { o.nose with replay := st } }
            o.finishWith p (dBuf d) got.flatten (blocksCmpl all got)

/-- REPLAY. -/
def execReplay (k tag t : Nat) (s : State) : Host.Outcome State Fault Refusal :=
  .next (s.onPrd fun o => (o.go t).runOp k tag (fun _ => (o.ring k).type == 4) fun o p => o.replayOp p)

end Sys2Proof.Machine
end

