-- ==== Sys2Proof/Machine/Buddy.lean ====
section
/-!
DEFINITION. Machine/Buddy.lean: recovery epochs and steps, mirroring at the buddy, and the rebuild of a start-up (15 R413 to
R415, R422 to R425, 16 R441).
-/
namespace Sys2Proof.Machine
open Sys2Proof

/-! ### Steps (R414, R415) -/

/-- R414: a step of the epoch in force is complete. -/
def Prd.stepDone (o : Prd) (epoch step : Nat) : Prd :=
  (PrdR.setFld o PRD_RCV_STATUS 16 16 step).event { code := 0xA4, sev := 2, payload := le 4 epoch ++ le 2 step }

/-- R414: RECOVERY_EPOCH. -/
def Prd.epoch (o : Prd) : Nat := PrdR.get o PRD_RCV_EPOCH

/-- R413, R414: a system-level recovery begins, or begins again (event 0 STARTED, 1 RESTARTED): the epoch first, then DRAIN
and CLOSE_CONTEXTS, whose targets hold in a Priord that has just started. -/
def Prd.recoveryBegin (o : Prd) (ev : Nat) : Prd :=
  let o := PrdR.set o PRD_RCV_EPOCH ((o.epoch + 1) % 2 ^ 32)
  let o := PrdR.ev (PrdR.setFld o PRD_RCV_STATUS 0 4 (1 + 2 * 6)) PRD_RCV_EVENTS ev
  (o.stepDone o.epoch 2).stepDone o.epoch 3

/-- R424, R429: the state of the rebuild: 0 NONE, 1 BUDDY, 2 WAIT_STORE, 3 STORE. -/
def Prd.rebuild (o : Prd) : Nat := PrdR.fld o PRD_RBLD_STATUS 0 2

/-- R423: the latest FT in the journal banks, apart from the RECORDER_START that began the current session. -/
def Prd.journalFt (o : Prd) : Option Nat :=
  (((o.jnl.filter fun x => x.1 ≠ jnlKey o.jnlBank 0 && o.bankSession (x.1 / 262144) == some x.2.valid && x.2.ft ≠ absent).map (·.2.ft)).max?)

/-- R423: every start-up begins its recovery with step REBUILD_BUDDY: it asks its buddy. -/
def Prd.rebuildBegin (o : Prd) : Prd :=
  let o := PrdR.set (o.recoveryBegin 0) PRD_RBLD_STATUS 1
  { o with buddy := { o.buddy with askedAt := o.ft, since := o.journalFt } }

/-- R424: the rebuild from the buddy fails: recovery starts again, with REBUILD_STORE. -/
def Prd.rebuildFail (o : Prd) : Prd :=
  PrdR.setFld (PrdR.set (o.recoveryBegin 1) PRD_RBLD_STATUS 2) PRD_BOOT_STATUS 4 1 1

/-- R425: the gap object, and the mark for the next one. -/
def Prd.declareGap (o : Prd) : Prd :=
  let first := match o.buddy.lastExport with | some t => t + 1 | none => 0
  let h : ExHead := { kind := 0, flags := 2 ^ 15, tray := o.tray, first, last := o.buddy.ringAt - 1 }
  let o := o.putExport 0 h (h.bytes 0 0)
  let o := PrdR.set (PrdR.set o PRD_RBLD_GAP_FIRST first) PRD_RBLD_GAP_LAST h.last
  { o with buddy := { o.buddy with gap := true } }

/-- R424, R425: step 8 REBUILD_BUDDY or 9 REBUILD_STORE is complete, and the recovery ends. -/
def Prd.rebuildEnd (o : Prd) (step : Nat) : Prd :=
  let o := (o.stepDone o.epoch step).declareGap
  let o := (o.stepDone o.epoch 0xA).stepDone o.epoch 0xC
  let o := PrdR.ev (PrdR.setFld o PRD_RCV_STATUS 0 4 0) PRD_RCV_EVENTS 2
  PrdR.setFld (PrdR.set o PRD_RBLD_STATUS 4) PRD_BOOT_STATUS 4 1 0

/-! ### Items (R422, R423) -/

/-- The fleet time by which a request asks for an item. -/
def MirrorItem.ft : MirrorItem → Nat
  | .event _ t _ => t | .closure _ t _ _ => t | .context _ t _ => t | .flacon _ t _ => t | .export_ _ t _ => t
  | .epoch _ t _ => t | .done _ _ => 0

/-- The tray that an item comes from. -/
def MirrorItem.tray : MirrorItem → Nat
  | .event i _ _ => i | .closure i _ _ _ => i | .context i _ _ => i | .flacon i _ _ => i | .export_ i _ _ => i
  | .epoch i _ _ => i | .done i _ => i

/-- Bytes that an item takes in the mirror (log entry 83). -/
def MirrorItem.size : MirrorItem → Nat
  | .event _ _ _ => 64
  | .closure _ _ _ miss => 64 + 4 * miss.length
  | .context _ _ x => 64 + 4 * x.homes.length + 16 * x.items.length + 8 * x.served.length
  | .flacon _ _ _ => 64 | .export_ _ _ _ => 64 | .epoch _ _ _ => 8 | .done _ _ => 0

/-- The newest items that fit in `n` bytes. -/
def newestItems : Nat → List MirrorItem → List MirrorItem
  | _, [] => []
  | n, x :: r => if x.size ≤ n then x :: newestItems (n - x.size) r else []

/-- R422: an item of the neighbour's mirror, over BUDDY_0. -/
def Prd.mirrorKeep (o : Prd) (x : MirrorItem) : Prd :=
  if o.safe || PrdR.fld o PRD_BUDDY_STATUS 0 2 ≠ 1 then o
  else
    let es := match x with
      | .epoch i _ e => Tbl.ins o.buddy.epochs i (max e ((o.buddy.epochs.lookup i).getD 0))
      | _ => o.buddy.epochs
    { o with buddy := { o.buddy with store := newestItems (2 ^ 30) (x :: o.buddy.store), epochs := es } }

/-- R423: whether a heart note is the event record of the same part, session and SEQ. -/
def HRec.sameEvent (h : HRec) (r : EvRec) : Bool :=
  h.rcls == 1 && fieldAt h.body 8 4 == r.seq && fieldAt h.body 60 4 == r.valid && fieldAt h.body 32 4 == r.phys

/-- R423: a rebuilt event record goes into heart notes once. -/
def Prd.takeEvent (o : Prd) (r : EvRec) : Prd :=
  if o.notes.any (·.sameEvent r) then o
  else o.hnrPut { rcls := 1, key := r.code, tag := r.tag, rank := r.rank % 2 ^ 20, ft := r.ft, rebuilt := true, body := r.bytes }

/-- R92: an entry of a missing-rank list. -/
def missEntry (x : Nat × Nat) : List Byte := le 4 (x.1 % 2 ^ 20 + x.2 * 2 ^ 24)

/-- R423: whether a heart note is a rebuilt summary of the same context, accord and level. -/
def HRec.sameSummary (h : HRec) (x : Summary) : Bool :=
  h.rcls == 0 && h.rebuilt && fieldAt h.body 1 1 == x.level && fieldAt h.body 3 1 == x.kind && fieldAt h.body 4 2 == x.tag &&
  fieldAt h.body 8 8 == x.no

/-- R423: a rebuilt summary goes into heart notes once, and its accord is closed as it says. -/
def Prd.takeSummary (o : Prd) (x : Summary) (miss : List (Nat × Nat)) : Prd :=
  let body := summaryBytes x ++ miss.flatMap missEntry
  if o.notes.any (·.sameSummary x) then o
  else
    let o := o.hnrPut { tag := x.tag, ft := x.tClose, rebuilt := true, body }
    let level := x.level - 1
    let node := (o.acc? x.tag x.kind x.no level).getD
      { level, tag := x.tag, kind := x.kind, no := x.no, t := x.no * (if x.kind = 1 then 40000 else 400000), closeT := x.tClose }
    let node := if x.level = 0 then { node with st := x.state, local_ := x, localMiss := miss, hold := true }
      else { node with st := x.state, sum := x, miss := miss, hold := false }
    { o with accs := node :: o.accs.filter fun a => !a.is x.tag x.kind x.no level }

/-- R422, R423: a context's tables: the newest that the mirror gives for its slot. -/
def Prd.takeContext (o : Prd) (m : CtxMirror) : Prd :=
  let old := o.slot m.slot
  if m.slot > 32 then o
  else if m.slot = 0 then o.setSlot 0 { old with items := m.items, itemEpoch := m.itemEpoch }
  else if old.st ≠ 0 && old.tag ≠ m.tag then o
  else if m.st = 0 then (if old.st = 0 then o else o.endCtx m.slot)
  else
    let o := o.setSlot m.slot { old with
      st := m.st, tag := m.tag, s := m.s, nRanks := m.nRanks, homes := m.homes, items := m.items, itemEpoch := m.itemEpoch
      audit := m.audit, served := m.served, since := o.ft }
    m.served.foldl (fun o p => o.setPortRank p.1 m.tag p.2) o

/-- R425: the last export known. -/
def Prd.knowExport (o : Prd) (h : List Byte) : Prd :=
  if fieldAt h 5 1 = 0 then
    { o with buddy := { o.buddy with lastExport := some (max (fieldAt h 24 8) (o.buddy.lastExport.getD 0)) } }
  else o

/-- R423: an item of the buddy's answer, over BUDDY_1. -/
def Prd.rebuildItem (o : Prd) (x : MirrorItem) : Prd :=
  if o.rebuild ≠ 1 || PrdR.fld o PRD_BUDDY_STATUS 2 2 ≠ 1 || x.tray ≠ o.tray then o
  else
    let o := { o with buddy := { o.buddy with askedAt := o.ft } }
    match x with
    | .event _ _ r => o.takeEvent r
    | .closure _ _ y miss => o.takeSummary y miss
    | .context _ _ m => o.takeContext m
    | .flacon _ _ _ => o
    | .export_ _ _ h => o.knowExport h
    | .epoch _ _ _ => o
    | .done _ reaches => if reaches then o.rebuildEnd 8 else o.rebuildFail

/-- MIRROR_RX. -/
def execMirrorRx (port : Nat) (x : MirrorItem) (t : Nat) (s : State) : Host.Outcome State Fault Refusal :=
  .next (s.onPrd fun o => let o := o.go t; if port = 0 then o.mirrorKeep x else if port = 1 then o.rebuildItem x else o)

/-- R423: serve the neighbour's rebuild: the items that it asks for, and whether the mirror reaches back to the requested
instant. A request below the epoch last seen from it is discarded. -/
def Prd.buddyServe (o : Prd) (from_ epoch : Nat) (since : Option Nat) : Prd :=
  if o.safe || PrdR.fld o PRD_BUDDY_STATUS 0 2 ≠ 1 then o
  else if epoch < (o.buddy.epochs.lookup from_).getD 0 then PrdR.ev o PRD_RCV_EVENTS 3
  else
    let mine := o.buddy.store.filter (·.tray == from_)
    let items := mine.filter fun x => match since with | some t => decide (x.ft > t) | none => true
    let reaches := match since with | some t => mine.any fun x => decide (x.ft ≤ t) | none => true
    { o with buddy := { o.buddy with
        epochs := Tbl.ins o.buddy.epochs from_ epoch, served := .done from_ reaches :: (items ++ o.buddy.served) } }

/-- BUDDY_REQUEST. -/
def execBuddyRequest (from_ epoch : Nat) (since : Option Nat) (t : Nat) (s : State) : Host.Outcome State Fault Refusal :=
  .next (s.onPrd fun o => (o.go t).buddyServe from_ epoch since)

/-- BUDDY_TIMEOUT: no answer for 10 ms. -/
def execBuddyTimeout (t : Nat) (s : State) : Host.Outcome State Fault Refusal :=
  .next (s.onPrd fun o =>
    let o := o.go t
    if o.rebuild = 1 && decide (o.ft ≥ o.buddy.askedAt + 10000 * tickUs) then o.rebuildFail else o)

/-- R424: a buddy port goes DOWN. -/
def Prd.buddyDown (o : Prd) (p : Nat) : Prd :=
  if p ≥ 2 then o
  else
    let o := PrdR.setFld o PRD_BUDDY_STATUS (2 * p) 2 0
    if p = 1 && o.rebuild = 1 then o.rebuildFail else o

/-- BUDDY_PORT_DOWN. -/
def execBuddyPortDown (p t : Nat) (s : State) : Host.Outcome State Fault Refusal :=
  .next (s.onPrd fun o => (o.go t).buddyDown p)

/-- R422, R441: the tray that must be cabled to a buddy port. -/
def Prd.buddyOf (o : Prd) (p : Nat) : Nat := o.tray / 8 * 8 + (o.tray % 8 + (if p = 0 then 7 else 1)) % 8

/-- BUDDY_PORT_UP. -/
def execBuddyPortUp (p peer t : Nat) (s : State) : Host.Outcome State Fault Refusal :=
  .next (s.onPrd fun o =>
    let o := o.go t
    if p ≥ 2 || o.squelched then o
    else
      let o := PrdR.setFld o PRD_BUDDY_PEERS (16 * p) 12 peer
      PrdR.setFld o PRD_BUDDY_STATUS (2 * p) 2 (if peer = o.buddyOf p then 1 else 2))

/-! ### The store (R424) -/

/-- R382: the raw bytes of the export objects that lie back to back, with their headers. -/
def storeObjects : Nat → List Byte → List (List Byte × List Byte)
  | 0, _ => []
  | fuel + 1, l =>
    if !exHeadOk l then []
    else
      let n := fieldAt l 12 4
      let (raw, used, _, _, code) := if n = 0 then (([], 0, 0, 0, some 0) : List Byte × Nat × Nat × Nat × Option Nat)
        else decodeBlocks true (fieldAt l 32 8) n 0 0 (l.drop 64) 0 0
      if code = some 0 then (l.take 64, raw) :: storeObjects fuel (l.drop (64 + used + 8 * n)) else []

/-- R92: a summary and its list, read back from their bytes. -/
def summaryOf (b : List Byte) : Summary × List (Nat × Nat) :=
  ({ level := fieldAt b 1 1, state := fieldAt b 2 1, kind := fieldAt b 3 1, tag := fieldAt b 4 2, no := fieldAt b 8 8, tClose := fieldAt b 16 8
     expected := fieldAt b 24 4, contributed := fieldAt b 28 4, gapped := fieldAt b 32 4, excluded := fieldAt b 36 4
     missing := fieldAt b 40 4, listLen := fieldAt b 44 4 },
   (List.range (fieldAt b 44 4)).map fun i => (fieldAt b (64 + 4 * i) 4 % 2 ^ 20, fieldAt b (64 + 4 * i) 4 / 2 ^ 24))

/-- R424: take the event records and summaries of the objects of this tray. -/
def Prd.takeObject (o : Prd) (x : List Byte × List Byte) : Prd :=
  if fieldAt x.1 8 4 ≠ o.tray then o
  else (exportFrames x.2.length x.2).foldl (fun o f =>
    if f.rtype = 0x81 || f.rtype = 0x0D then o.takeEvent (EvRec.ofBytes f.body)
    else if f.rtype = 0x80 then o.takeSummary (summaryOf f.body).1 (summaryOf f.body).2
    else o) (o.knowExport x.1)

/-- FROM_STORE: the objects lie in the software area; elsewhere the command is discarded. -/
def execFromStore (t : Nat) (s : State) : Host.Outcome State Fault Refusal :=
  .next (s.onPrd fun o =>
    let o := o.go t
    let a := PrdR.get o PRD_RBLD_STORE_ADDR
    let n := PrdR.get o PRD_RBLD_STORE_LEN
    if o.rebuild ≠ 2 || !inSoftware a n then o
    else ((storeObjects (n / 64 + 1) (o.hbm.read a n)).foldl Prd.takeObject (PrdR.set o PRD_RBLD_STATUS 3)).rebuildEnd 9)

/-- SKIP_STORE. -/
def execSkipStore (t : Nat) (s : State) : Host.Outcome State Fault Refusal :=
  .next (s.onPrd fun o => let o := o.go t; if o.rebuild = 2 then o.rebuildEnd 9 else o)

/-! ### Step requests (R414) -/

/-- R414: a step request from another node: below this node's record for it, discarded; else its target state. -/
def Prd.stepRequest (o : Prd) (from_ epoch level step : Nat) (slots : List Nat) : Prd :=
  let seen := (o.buddy.epochs.lookup from_).getD 0
  if level = 0 || level > 6 || step = 0 || step > 0xC then o
  else if epoch < seen then PrdR.ev o PRD_RCV_EVENTS 3
  else
    let o := { o with buddy := { o.buddy with epochs := Tbl.ins o.buddy.epochs from_ epoch } }
    let o := if step = 3 then (slots.filter fun c => 1 ≤ c && c ≤ 32 && (o.slot c).st ≠ 0).foldl Prd.endCtx o else o
    let o := if o.rebuild ≠ 0 then o
      else
        let active := PrdR.flag o PRD_RCV_STATUS 0
        let o := if !active then PrdR.ev o PRD_RCV_EVENTS 0 else if epoch > seen then PrdR.ev o PRD_RCV_EVENTS 1 else o
        if step = 0xC then PrdR.ev (PrdR.setFld o PRD_RCV_STATUS 0 4 0) PRD_RCV_EVENTS 2
        else PrdR.setFld o PRD_RCV_STATUS 0 4 (1 + 2 * level)
    o.stepDone epoch step

/-- R414: a step at the OTU: it keeps its own epoch, and records the step. -/
def Otu.stepRequest (o : Otu) (epoch level step : Nat) : Otu :=
  if level = 0 || level > 6 || step = 0 || step > 0xC || decide (epoch < OtuR.get o OTU_RCV_EPOCH) then o
  else (OtuR.set o OTU_RCV_EPOCH (epoch % 2 ^ 32)).event { code := 0xA4, sev := 2, payload := le 4 epoch ++ le 2 step }

/-- RECOVERY_STEP_REQ. -/
def execRecoveryStepReq (at_ : Part) (from_ epoch level step : Nat) (slots : List Nat) (e : Edge) (s : State) :
    Host.Outcome State Fault Refusal :=
  match at_ with
  | .otu => .next (s.onOtu fun o => (o.go e).stepRequest epoch level step)
  | .prd => .next (s.onPrd fun o => (o.go e.ft).stepRequest from_ epoch level step slots)

end Sys2Proof.Machine
end

