-- ==== Sys2Proof/Machine/CfgImage.lean ====
section
/-!
DEFINITION. Machine/CfgImage.lean: the configuration image and its checks (15 R404 to R406, 01 R17, R18).
-/
namespace Sys2Proof.Machine
open Sys2Proof

/-- R405: a section entry. -/
structure CfgSect where
  type : Nat
  off : Nat
  len : Nat
  crc : Nat
  rsvd : Nat
deriving DecidableEq, Repr

/-- The section table. -/
def cfgSects (img : List Byte) : List CfgSect :=
  (List.range (fieldAt img 6 2)).map fun i =>
    let e := img.drop (64 + 32 * i)
    { type := fieldAt e 0 2, off := fieldAt e 4 4, len := fieldAt e 8 4, crc := fieldAt e 12 4, rsvd := fieldAt e 2 2 + fieldAt e 16 16 }

/-- The bytes of a section. -/
def CfgSect.bytes (img : List Byte) (s : CfgSect) : List Byte := (img.drop s.off).take s.len

/-- The bytes of the section of a type, empty if there is none. -/
def cfgSect (img : List Byte) (type : Nat) : List Byte := (((cfgSects img).find? (·.type == type)).map (·.bytes img)).getD []

/-- TOTAL_LEN. -/
def cfgTotal (img : List Byte) : Nat := fieldAt img 8 4

/-- R404: check 3. -/
def cfgHeaderOk (img : List Byte) : Bool :=
  let n := fieldAt img 6 2
  let sig := fieldAt img 12 4
  fieldAt img 4 2 == 1 && fieldAt img 24 2 / 256 == 1 && 1 ≤ n && n ≤ 64 && 64 ≤ sig && sig ≤ 16384 &&
  64 + 32 * n + 48 ≤ cfgTotal img && cfgTotal img + sig ≤ 50331648

/-- Whether sections keep apart. -/
def cfgApart : List CfgSect → Bool
  | [] => true
  | s :: r => r.all (fun t => decide (s.off + s.len ≤ t.off) || decide (t.off + t.len ≤ s.off)) && cfgApart r

/-- R405: check 4. -/
def cfgSectionsOk (img : List Byte) : Bool :=
  let ss := cfgSects img
  let n (t : Nat) : Nat := (ss.filter (·.type == t)).length
  let len (t : Nat) : Nat := (cfgSect img t).length
  ss.all (fun s => 1 ≤ s.type && s.type ≤ 8 && s.off % 64 == 0 && 64 + 32 * ss.length ≤ s.off && s.off + s.len ≤ cfgTotal img - 48) &&
  cfgApart ss && [1, 2, 4, 8].all (fun t => n t == 1) && [3, 5, 6, 7].all (fun t => decide (n t ≤ 1)) &&
  len 1 == 4096 && len 2 == 256 && len 4 == 16 && len 8 == 8 && len 3 % 16 == 0 && len 3 ≤ 4096 && len 5 % 16 == 0

/-- R406: check 5. -/
def cfgCrcsOk (img : List Byte) : Bool := (cfgSects img).all fun s => crc32c (s.bytes img) == s.crc

/-- R404: the SHA-384 over every byte before it. -/
def cfgSha (img : List Byte) : List Byte := sha384 (img.take (cfgTotal img - 48))

/-- R406: check 6. -/
def cfgDigestOk (img : List Byte) : Bool := cfgSha img == (img.drop (cfgTotal img - 48)).take 48

/-- R405: ROLES, without the trays whose byte is 0. -/
def cfgRoles (img : List Byte) : Roles :=
  ((cfgSect img 1).zipIdx.map fun x => (x.2, x.1.toNat)).filter fun x => x.2 ≠ 0

/-- R17, R18: check 8, for the tray at `tray`. -/
def rolesOk (r : Roles) (tray : Nat) : Bool :=
  let has (k : Nat) : Roles := r.filter fun x => bit x.2 k
  let pop := has 0
  let racks := (pop.map fun x => x.1 / 8).eraseDups
  let pods := (pop.map fun x => x.1 / 128).eraseDups
  let one (l : Roles) (f : Nat → Nat) (g : Nat) : Bool := (l.filter fun x => f x.1 == g).length == 1
  r.all (fun x => bit x.2 0 && (!bit x.2 2 || bit x.2 1) && (!bit x.2 3 || bit x.2 2) && (!bit x.2 4 || (bit x.2 2 && !bit x.2 3))) &&
  racks.all (fun g => one (has 1) (· / 8) g) && pods.all (fun g => one (has 2) (· / 128) g) && (has 3).length == 1 &&
  (if pods.length ≥ 2 then
     (has 4).length == 1 && (has 4).all fun s => (has 3).all fun h => h.1 / 128 != s.1 / 128
   else (has 4).isEmpty) &&
  pop.any (·.1 == tray)

/-- R405: PORTS. -/
def cfgPorts (img : List Byte) : List Nat := (List.range 32).map fun n => fieldAt (cfgSect img 2) (8 * n) 8

/-- R405: FLEET_ITEMS. -/
def cfgItems (img : List Byte) : List ItemDesc :=
  let b := cfgSect img 3
  (List.range (b.length / 16)).map fun i => ItemDesc.ofBytes ((b.drop (16 * i)).take 16)

/-- R405: HEART: RING_SEGS, RESERVE_SEGS and STAGE_BASE. -/
def cfgHeart (img : List Byte) : Nat × Nat × Nat :=
  let b := cfgSect img 4
  (fieldAt b 0 4, fieldAt b 4 4, fieldAt b 8 8)

/-- R405: POLICY. -/
def cfgPolicy (img : List Byte) : Nat := fieldAt (cfgSect img 8) 0 8

/-- R395: bytes of the staging area. -/
def stageSize : Nat := 67108864

/-- R406, R456: check 9. -/
def cfgValuesOk (img : List Byte) : Bool :=
  let (ring, res, stage) := cfgHeart img
  ring + res ≤ 7629 && 64 ≤ res && inSoftware stage stageSize && (cfgPorts img).all (· < 8) && itemsOk (cfgItems img) &&
  cfgPolicy img < 4 && (cfgRoles img).all (fun x => x.2 < 32) && fieldAt img 26 38 == 0 && (cfgSects img).all (·.rsvd == 0)

/-- R405: REGISTERS: offset, width and value, and whether its reserved bits are 0. -/
def cfgRegs (img : List Byte) : List (Nat × Nat × Nat × Bool) :=
  let b := cfgSect img 5
  (List.range (b.length / 16)).map fun i =>
    (fieldAt b (16 * i) 4, fieldAt b (16 * i + 4) 1, fieldAt b (16 * i + 8) 8, fieldAt b (16 * i + 5) 3 == 0)

/-- R406: check 10. -/
def cfgRegsOk (img : List Byte) : Bool :=
  (cfgRegs img).all fun e =>
    e.2.2.2 && (match rowOf prdRows e.1 with | some x => !x.f.isEmpty && x.b == 8 * e.2.1 | none => false)

/-- R406: the reason of the first check that fails, 0 when the image is valid. -/
def cfgCheck (img : List Byte) (tray : Nat) (flashOk sigOk : Bool) : Nat :=
  if !flashOk then 0x0C
  else if img.take 4 ≠ [0x55, 0x43, 0x46, 0x47] then 1
  else if !cfgHeaderOk img then 2
  else if !cfgSectionsOk img then 3
  else if !cfgCrcsOk img then 4
  else if !cfgDigestOk img then 5
  else if !sigOk then 6
  else if !rolesOk (cfgRoles img) tray then 7
  else if !cfgValuesOk img then 8
  else if !cfgRegsOk img then 9
  else 0

end Sys2Proof.Machine
end

