-- ==== Sys2Proof/Machine/Boot.lean ====
section
/-!
DEFINITION. Machine/Boot.lean: straps, the configuration image, the safe profile and Priord's start-up (12 R337, 15 R403 to
R410).
-/
namespace Sys2Proof.Machine
open Sys2Proof

/-- R403: latch the straps: odd parity over the 13 bits. -/
def Prd.latchStraps (o : Prd) (pos : Nat) (par : Bool) : Prd :=
  let pos := pos % 4096
  let ok := ((setBits 12 pos).length + b2n par) % 2 == 1
  PrdR.set o PRD_BOOT_STRAPS (pos + 2 ^ 12 * b2n par + 2 ^ 13 * b2n ok)

/-- RESET_RELEASE: only a chip that reset holds, with its power good, is released. -/
def execResetRelease (pos : Nat) (par : Bool) (t : Nat) (s : State) : Host.Outcome State Fault Refusal :=
  .next (s.onPrd fun o =>
    let o := o.go t
    if o.pw.on = 2 && o.pw.inReset then
      PrdR.setFld ({ o with pw := { o.pw with inReset := false } }.latchStraps pos par) PRD_BOOT_STATUS 0 3 0
    else o)

/-- R337: at power-up the session and the bank follow from the sessions that the banks hold. -/
def Prd.bootJournal (o : Prd) : Prd :=
  match o.bankSession 0, o.bankSession 1 with
  | none, none => o.evrRestart 0 (nextSession [] 0) 0 o.pw.why
  | some a, none => o.evrRestart 1 (nextSession [a] a) a o.pw.why
  | none, some b => o.evrRestart 0 (nextSession [b] b) b o.pw.why
  | some a, some b =>
    if a ≥ b then o.evrRestart 1 (nextSession [a, b] a) a o.pw.why else o.evrRestart 0 (nextSession [a, b] b) b o.pw.why

/-- R406, R408: the safe profile; the staging area then lies at the start of the software area (log entry 81). -/
def Prd.safeProfile (o : Prd) (reason : Nat) : Prd :=
  let o := PrdR.ev (PrdR.set o PRD_BOOT_STATUS (1 + 8 + 2 ^ 16 * reason)) PRD_BOOT_EVENTS 0
  let o := o.event { code := 0xA3, sev := 5, payload := le 2 reason }
  let roles : Roles := [(o.tray, 1)]
  let o := { o with cfg := { roles, ports := (List.range 32).map fun n => (n, 5) }, hnr := {}, tree := { o.tree with roles } }
  let o := PrdR.set o PRD_HNR_SEGS 0x0773165A
  PrdR.set (PrdR.setFld (PrdR.set o PRD_NOSE_CTRL 4) PRD_BUDDY_STATUS 4 1 0) PRD_MBX_STAGE_BASE 0xF36800000

/-- R407: one REGISTERS entry, as a privileged write; one whose value the register does not take sets REG_DISCARDED. -/
def Prd.bootReg (o : Prd) (addr width v : Nat) : Prd :=
  let o := o.regWrite addr width v
  let taken := match rowOf prdRows addr with
    | some x => x.f.all fun g => PrdR.fld o addr g.lo g.w == getF v g.lo g.w
    | none => false
  if taken then o else PrdR.ev o PRD_BOOT_EVENTS 3

/-- R405, R407, R409: a valid image is applied: every section, in the order of the timeline. -/
def Prd.applyImage (o : Prd) (img : List Byte) : Prd :=
  let (ring, res, stage) := cfgHeart img
  let policy := cfgPolicy img
  let roles := cfgRoles img
  let ports := (cfgPorts img).zipIdx.map fun x => (x.2, x.1)
  let o := { o with cfg := { roles, ports := ports.filter fun x => x.2 ≠ 0, buddyEn := bit policy 1, signed := bit policy 0 }
                    hnr := { slots := ring, reserve := res, free := res }, tree := { o.tree with roles } }
  let o := PrdR.set (PrdR.set o PRD_HNR_SEGS (ring + 2 ^ 16 * res)) PRD_MBX_STAGE_BASE stage
  let o := PrdR.setFld (PrdR.set o PRD_BOOT_IMAGE_ID (fieldAt img 16 8)) PRD_BUDDY_STATUS 4 1 (b2n (bit policy 1))
  let sha := cfgSha img
  let o := (List.range 6).foldl (fun o i => PrdR.set o (PRD_BOOT_IMAGE_SHA + 8 * i) (fieldAt sha (8 * i) 8)) o
  let o := o.setSlot 0 { o.slot 0 with items := cfgItems img }
  let o := (cfgRegs img).foldl (fun o e => o.bootReg e.1 e.2.1 e.2.2.1) o
  let model := cfgSect img 6
  let base := cfgSect img 7
  let o := if model.isEmpty then o else o.installModel model
  let o := if base.isEmpty then o else (o.takeBaseline true base).1
  PrdR.set o PRD_BOOT_STATUS 1

/-- R406, R408: the image is checked, and applied or given up for the safe profile. -/
def Prd.bootImage (o : Prd) (flashOk sigOk : Bool) : Prd :=
  let reason := if !o.strapsOk then 0x0A else cfgCheck o.pw.nor o.tray flashOk sigOk
  if reason = 0 then o.applyImage o.pw.nor else o.safeProfile reason

/-- IMAGE_READ_DONE: in a chip that is out of reset and in PHASE IMAGE, unless RECONFIGURE runs. -/
def execImageReadDone (flashOk sigOk : Bool) (t : Nat) (s : State) : Host.Outcome State Fault Refusal :=
  .next (s.onPrd fun o =>
    let o := o.go t
    if o.pw.on = 2 && !o.pw.inReset && o.phase = 0 && o.mgmt.run.isNone then o.bootJournal.bootImage flashOk sigOk else o)

/-- PREV_FRONTIER_SCAN (R337). In PHASE LINKS it also ends that phase: the heart-note ring accepts records, and buddy
reconciliation begins (R409, R425; log entry 84). -/
def execPrevFrontierScan (t : Nat) (s : State) : Host.Outcome State Fault Refusal :=
  .next (s.onPrd fun o =>
    let o := o.go t
    let b := 1 - o.jnlBank
    let o := PrdR.set o PRD_JNL_PREV_FRONTIER (o.firstInvalid b (PrdR.get o PRD_JNL_PREV_SESSION) 0 262144)
    if o.phase = 1 then
      let o := (PrdR.setFld { o with buddy := { o.buddy with ringAt := o.ft } } PRD_BOOT_STATUS 0 3 2).phaseTime
      if o.safe then o else o.rebuildBegin
    else o)

/-! ### RECONFIGURE (R394, R403, R409) -/

/-- Whether a register keeps its value through RECONFIGURE: those that software cannot write, and those of the rings, the
mailbox and the engines. -/
def keepsReg (a : Nat) : Bool :=
  match rowOf prdRows a with
  | some x => x.f.isEmpty || (0x800000 ≤ a && a < 0xB00000) || 0x1000000 ≤ a
  | none => true

/-- R394, R409: what a restart of the sequence without a power cycle leaves (log entry 85). -/
def Prd.restarted (o : Prd) : Prd :=
  { o with regs := o.regs.filter fun x => keepsReg x.1
           hnr := {}, ctx := [], refs := [], accs := [], nans := [], tree := {}, hangs := [], results := [], resTimeouts := []
           orders := [], nose := {}, divs := [], gapRuns := [], bar4 := ⟨0x3B, 0x3B, 0⟩ }

/-- RECONFIGURE reaches the end of its image read: straps, image, and RECONFIGURED. -/
def Prd.reconfigured (o : Prd) (pos : Nat) (par flashOk sigOk : Bool) : Prd :=
  let o := PrdR.set o.restarted PRD_BOOT_STATUS 0
  PrdR.ev ((o.latchStraps pos par).bootImage flashOk sigOk) PRD_BOOT_EVENTS 2

end Sys2Proof.Machine
end

