-- ==== Sys2Proof/Machine/CmpCv.lean ====
section
/-!
DEFINITION. Machine/CmpCv.lean: compressors, decompressors and check-value contexts, of the OTU and of Priord (13 R343 to
R360).
-/
namespace Sys2Proof.Machine
open Sys2Proof

/-! ### One register file for both parts -/

/-- A register of a part. -/
def State.rd (s : State) (p : Part) (a : Nat) : Nat := match p with | .otu => OtuR.get s.otu a | .prd => PrdR.get s.prd a
/-- Hardware sets a register of a part. -/
def State.put (s : State) (p : Part) (a v : Nat) : State :=
  match p with | .otu => s.onOtu fun o => OtuR.set o a v | .prd => s.onPrd fun o => PrdR.set o a v
/-- Hardware sets an event bit of a register (W1C). -/
def State.evBit (s : State) (p : Part) (a k : Nat) : State :=
  match p with | .otu => s.onOtu fun o => OtuR.ev o a k | .prd => s.onPrd fun o => PrdR.ev o a k
/-- Hardware adds to a saturating 32-bit count of a part (RC). -/
def State.count (s : State) (p : Part) (a n : Nat) : State :=
  match p with | .otu => s.onOtu fun o => OtuR.cnt o a 0 32 n | .prd => s.onPrd fun o => PrdR.cnt o a 0 32 n
/-- The clock of a part moves to a command's edge. -/
def State.goTo (s : State) (p : Part) (e : Edge) : State :=
  match p with | .otu => s.onOtu fun o => o.go e | .prd => s.onPrd fun o => o.go e.ft
/-- The byte memory of a part. -/
def State.mem (s : State) (p : Part) : Mem := match p with | .otu => s.otu.hbm | .prd => s.prd.hbm
/-- Replace bytes of it. -/
def State.store (s : State) (p : Part) (a : Nat) (l : List Byte) : State :=
  match p with
  | .otu => s.onOtu fun o => { o with hbm := o.hbm.splice a l.length [(0, l)] }
  | .prd => s.onPrd fun o => { o with hbm := o.hbm.splice a l.length [(0, l)] }

/-- R350, R356: whether a range lies wholly within the carve-out, or within Priord HBM. -/
def State.inMem (s : State) (p : Part) (a n : Nat) : Bool :=
  match p with
  | .otu => decide (s.rd .otu OTU_ACC_DUMP_BASE ≤ a && a + n ≤ s.rd .otu OTU_ACC_DUMP_BASE + s.rd .otu OTU_ACC_DUMP_SIZE)
  | .prd => decide (a + n ≤ s.rd .prd PRD_HBM_SIZE)

/-! ### Compressors and decompressors -/

/-- The base of an engine's registers, if it exists. -/
def engBase (p : Part) (dec : Bool) (k : Nat) : Option Nat :=
  match p with
  | .otu => if k = 0 && !dec then some OTU_CMP_BASE else none
  | .prd => if k < 8 then some (if dec then PRD_DEC_BASE k else PRD_CMP_BASE k) else none

/-- R358: STATE is RUNNING. -/
def State.running (s : State) (p : Part) (b : Nat) : Bool := getF (s.rd p (b + 0x28)) 0 2 == 1

/-- R348, R351: a job ends with its counts and code. -/
def State.endJob (s : State) (p : Part) (b code used made next fallbacks : Nat) : State :=
  let s := s.put p (b + 0x28) ((if code = 0 then 2 else 3) + 256 * code)
  let s := s.evBit p (b + 0x2C) (if code = 0 then 0 else 1)
  let s := if fallbacks = 0 then s else (s.evBit p (b + 0x2C) 3).count p (b + 0x50) fallbacks
  ((s.put p (b + 0x30) used).put p (b + 0x38) made).put p (b + 0x48) next

/-- R350: whether the parameters are in range, in an engine that is a decompressor or not. -/
def State.paramsOk (s : State) (p : Part) (dec : Bool) (b : Nat) : Bool :=
  let v := s.rd p (b + 0x20)
  s.rd p (b + 0x8) ≠ 0 && s.rd p (b + 0x18) ≠ 0 &&
  (dec || (getF v 0 2 ≠ 3 && (getF v 0 2 = 0 || getF v 2 3 ≤ 4) && decide (4 ≤ getF v 8 9 && getF v 8 9 ≤ 256)))

/-- R360: whether an engine of Priord is in direct use: an engine that runs keeps its assignment. -/
def State.direct (s : State) (p : Part) (dec : Bool) (k : Nat) : Bool :=
  match p with
  | .otu => true
  | .prd => bit (s.rd .prd PRD_CMP_ASSIGN) ((if dec then 8 else 0) + k)

/-- R350: START. -/
def State.startEngine (s : State) (p : Part) (dec : Bool) (k : Nat) : State :=
  match engBase p dec k with
  | none => s
  | some b =>
    if s.running p b || !s.direct p dec k then s.evBit p (b + 0x2C) 2
    else
      let next := s.rd p (b + 0x40)
      if !s.paramsOk p dec b then s.endJob p b 0x03 0 0 next 0
      else if !s.inMem p (s.rd p b) (s.rd p (b + 0x8)) || !s.inMem p (s.rd p (b + 0x10)) (s.rd p (b + 0x18)) then
        s.endJob p b 0x04 0 0 next 0
      else ((s.put p (b + 0x28) 1).put p (b + 0x30) 0).put p (b + 0x38) 0

/-- R348: the blocks that a compressor writes: whole blocks while the destination has room, at most `n`. -/
def fitBlocks : Nat → Nat → List (List Byte × Nat × Bool) → List (List Byte × Nat × Bool)
  | 0, _, _ => []
  | _, _, [] => []
  | n + 1, room, x :: r => if x.1.length ≤ room then x :: fitBlocks n (room - x.1.length) r else []

/-- R343 to R349: what a compression job has done once it has written at most `limit` blocks: it ends with `early` when
blocks remain that would fit. -/
def State.compress (s : State) (p : Part) (b limit early : Nat) : State :=
  let src := (s.mem p).read (s.rd p b) (s.rd p (b + 0x8))
  let v := s.rd p (b + 0x20)
  let start := s.rd p (b + 0x40)
  let all := containerBlocks (getF v 0 2) (getF v 2 3) (1024 * getF v 8 9) (bit v 17) (src.length + 1) start src
  let fits := fitBlocks all.length (s.rd p (b + 0x18)) all
  let done := fits.take limit
  let code := if done.length = all.length then 0x00 else if done.length = fits.length && limit > fits.length then 0x01 else early
  let out := done.flatMap (·.1)
  let s := s.store p (s.rd p (b + 0x10)) out
  s.endJob p b code ((done.map (·.2.1)).sum) out.length ((start + done.length) % 2 ^ 64) (done.filter (·.2.2)).length

/-- Undefined bytes of a decompressor's destination: free values. -/
def State.undefBytes (s : State) (n : Nat) : List Byte := (List.range n).map (Config.undefinedByte s.prd.free)

/-- R351, R352: what a decompression job has done once it has written at most `limit` blocks. -/
def State.decompress (s : State) (b limit early : Nat) : State :=
  let src := s.prd.hbm.read (PrdR.get s.prd b) (PrdR.get s.prd (b + 0x8))
  let dst := PrdR.get s.prd (b + 0x10)
  let room := PrdR.get s.prd (b + 0x18)
  let expect := PrdR.get s.prd (b + 0x40)
  let check := PrdR.flag s.prd (b + 0x20) 0
  let (out, used, next, k, c) := decodeBlocks check room (min limit (src.length / 32 + 1)) expect 0 src 0 0
  let code := if k ≥ limit then (if c = some 0 then 0 else early) else c.getD early
  let s := s.store .prd dst out
  let s := if code = 0 || code = 0x02 then s
    else (s.store .prd (dst + out.length) (s.undefBytes (room - out.length))).onPrd fun o => { o with free := o.free + 1 }
  let s := s.endJob .prd b code used out.length (next % 2 ^ 64) 0
  s.put .prd (b + 0x40) (next % 2 ^ 64)

/-- R348: an uncorrected error in an engine's memory is reported with event code 0x0090. -/
def State.engineError (s : State) : Part → State
  | .otu => s.onOtu fun o => ({ o with free := o.free + 1 } : Otu).event
      { code := 0x90, sev := 6, payload := le 2 0 ++ le 2 (Config.syndrome o.free % 2 ^ 16) }
  | .prd => s.onPrd Prd.memError

/-- CMP_START. -/
def execCmpStart (at_ : Part) (k : Nat) (e : Edge) (s : State) : Host.Outcome State Fault Refusal :=
  .next ((s.goTo at_ e).startEngine at_ false k)

/-- The engine at work on a job of its own. -/
def State.atWork (s : State) (p : Part) (dec : Bool) (k : Nat) (f : State → Nat → State) : State :=
  match engBase p dec k with
  | some b => if s.running p b then f s b else s
  | none => s

/-- CMP_ABORT. -/
def execCmpAbort (at_ : Part) (k blocks : Nat) (e : Edge) (s : State) : Host.Outcome State Fault Refusal :=
  .next ((s.goTo at_ e).atWork at_ false k fun s b => s.compress at_ b blocks 0x02)

/-- CMP_JOB_END. -/
def execCmpJobEnd (at_ : Part) (k : Nat) (memErr : Option Nat) (e : Edge) (s : State) : Host.Outcome State Fault Refusal :=
  .next ((s.goTo at_ e).atWork at_ false k fun s b =>
    match memErr with
    | none => s.compress at_ b (s.rd at_ (b + 0x8) + 1) 0x01
    | some n => (s.compress at_ b n 0x0D).engineError at_)

/-- DEC_START. -/
def execDecStart (k t : Nat) (s : State) : Host.Outcome State Fault Refusal :=
  .next ((s.goTo .prd ⟨t, 0⟩).startEngine .prd true k)

/-- DEC_ABORT. -/
def execDecAbort (k blocks t : Nat) (s : State) : Host.Outcome State Fault Refusal :=
  .next ((s.goTo .prd ⟨t, 0⟩).atWork .prd true k fun s b => s.decompress b blocks 0x02)

/-- DEC_JOB_END. -/
def execDecJobEnd (k : Nat) (memErr : Option Nat) (t : Nat) (s : State) : Host.Outcome State Fault Refusal :=
  .next ((s.goTo .prd ⟨t, 0⟩).atWork .prd true k fun s b =>
    match memErr with
    | none => s.decompress b (s.rd .prd (b + 0x8) + 1) 0x0C
    | some n => (s.decompress b n 0x0D).engineError .prd)

/-- CMP_ASSIGN: an engine that runs a job of its own ends it before it serves rings; ring operations are whole commands, so
none is under way. -/
def execCmpAssign (value t : Nat) (s : State) : Host.Outcome State Fault Refusal :=
  .next (s.onPrd fun o => PrdR.write (o.go t) PRD_CMP_ASSIGN 4 value)

/-! ### Check-value contexts (R355 to R357) -/

/-- The base of a context's registers, if it exists. -/
def cvBase (p : Part) (c : Nat) : Option Nat :=
  match p with
  | .otu => if c < 4 then some (OTU_CV_BASE c) else none
  | .prd => if c < 16 then some (PRD_CV_BASE c) else none

/-- The initial value of an algorithm. -/
def cvInit (alg : Nat) : Nat := if alg = 0 then 0xFFFF_FFFF else 0

/-- R355: bytes advance V. -/
def cvFeed (alg v : Nat) (l : List Byte) : Nat := if alg = 0 then crc32cFeed v l else crc64Feed v l

/-- R359: the result, V XOR the final XOR. -/
def cvResult (alg v : Nat) : Nat := if alg = 0 then v ^^^ 0xFFFF_FFFF else v

/-- The feeds of a part. -/
def State.feeds (s : State) (p : Part) : List (Nat × (Nat × Nat)) := match p with | .otu => s.otu.feeds | .prd => s.prd.feeds
/-- Set them. -/
def State.setFeeds (s : State) (p : Part) (l : List (Nat × (Nat × Nat))) : State :=
  match p with | .otu => s.onOtu fun o => { o with feeds := l } | .prd => s.onPrd fun o => { o with feeds := l }

/-- R357: an access that a feed shuts out sets CONFLICT. -/
def State.cvAccess (s : State) (p : Part) (c : Nat) (f : State → Nat → State) : State :=
  match cvBase p c with
  | none => s
  | some b => if bit (s.rd p (b + 0x28)) 0 then s.evBit p (b + 0x2C) 0 else f s b

/-- Feed bytes into a context. -/
def State.cvBytes (s : State) (p : Part) (b : Nat) (l : List Byte) : State :=
  s.put p (b + 0x8) (cvFeed (s.rd p b) (s.rd p (b + 0x8)) l)

/-- CV_CTRL_WRITE. -/
def execCvCtrlWrite (at_ : Part) (c value : Nat) (e : Edge) (s : State) : Host.Outcome State Fault Refusal :=
  .next ((s.goTo at_ e).cvAccess at_ c fun s b => (s.put at_ b (value % 2)).put at_ (b + 0x8) (cvInit (value % 2)))

/-- CV_VALUE_WRITE. -/
def execCvValueWrite (at_ : Part) (c value : Nat) (e : Edge) (s : State) : Host.Outcome State Fault Refusal :=
  .next ((s.goTo at_ e).cvAccess at_ c fun s b =>
    s.put at_ (b + 0x8) (value % 2 ^ (if s.rd at_ b = 0 then 32 else 64)))

/-- CV_DATA64. -/
def execCvData64 (at_ : Part) (c value : Nat) (e : Edge) (s : State) : Host.Outcome State Fault Refusal :=
  .next ((s.goTo at_ e).cvAccess at_ c fun s b => s.cvBytes at_ b (le 8 value))

/-- CV_DATA32. -/
def execCvData32 (at_ : Part) (c value : Nat) (e : Edge) (s : State) : Host.Outcome State Fault Refusal :=
  .next ((s.goTo at_ e).cvAccess at_ c fun s b => s.cvBytes at_ b (le 4 value))

/-- CV_DATA_TAIL. -/
def execCvDataTail (at_ : Part) (c value : Nat) (e : Edge) (s : State) : Host.Outcome State Fault Refusal :=
  .next ((s.goTo at_ e).cvAccess at_ c fun s b => s.cvBytes at_ b (le (getF value 24 2) value))

/-- FEED_START. A feed that runs already goes on. -/
def execFeedStart (at_ : Part) (c : Nat) (e : Edge) (s : State) : Host.Outcome State Fault Refusal :=
  let s := s.goTo at_ e
  .next (match cvBase at_ c with
    | none => s
    | some b =>
      if bit (s.rd at_ (b + 0x28)) 0 then s
      else
        let src := s.rd at_ (b + 0x30)
        let len := s.rd at_ (b + 0x38)
        if s.inMem at_ src len then
          ((s.put at_ (b + 0x28) 1).put at_ (b + 0x40) 0).setFeeds at_ (Tbl.ins (s.feeds at_) c (src, len))
        else (s.evBit at_ (b + 0x2C) 3).put at_ (b + 0x40) 0)

/-- A feed ends after its first `n` bytes; event 1 FEED_DONE or 2 FEED_ABORTED. -/
def State.feedEnd (s : State) (p : Part) (c b n ev : Nat) (src : Nat) : State :=
  let s := s.cvBytes p b ((s.mem p).read src n)
  (((s.put p (b + 0x28) 0).put p (b + 0x40) n).evBit p (b + 0x2C) ev).setFeeds p (Tbl.del (s.feeds p) c)

/-- The feed that runs in a context. -/
def State.feeding (s : State) (p : Part) (c : Nat) (f : State → Nat → Nat → Nat → State) : State :=
  match cvBase p c, (s.feeds p).lookup c with
  | some b, some (src, len) => f s b src len
  | _, _ => s

/-- FEED_ABORT: a feed whose last beat completes ends with FEED_DONE. -/
def execFeedAbort (at_ : Part) (c fed : Nat) (e : Edge) (s : State) : Host.Outcome State Fault Refusal :=
  .next ((s.goTo at_ e).feeding at_ c fun s b src len =>
    let n := (fed + 63) / 64 * 64
    if n ≥ len then s.feedEnd at_ c b len 1 src else s.feedEnd at_ c b n 2 src)

/-- FEED_DONE. -/
def execFeedDone (at_ : Part) (c : Nat) (e : Edge) (s : State) : Host.Outcome State Fault Refusal :=
  .next ((s.goTo at_ e).feeding at_ c fun s b src len => s.feedEnd at_ c b len 1 src)

end Sys2Proof.Machine
end

