-- ==== Sys2Proof/Machine/CmplOut.lean ====
section
/-!
DEFINITION. Machine/CmplOut.lean: completions and the deliveries of subscriptions (14 R368, R369, R372, R379, R389).
-/
namespace Sys2Proof.Machine
open Sys2Proof

/-! ### One completion (R368, R369) -/

/-- R369: whether the completion ring of ring `k` has a slot. -/
def Prd.cmplFree (o : Prd) (k : Nat) : Bool :=
  decide (sub32 (PrdR.get o (PRD_RING_CMPL_TAIL k)) (PrdR.get o (PRD_RING_CMPL_HEAD k)) < (o.ring k).size)

/-- R368: the 32 bytes of completion `n` of ring `k`. -/
def Prd.cmplBytes (o : Prd) (k n : Nat) (p : Op) (c : Cmpl) : List Byte :=
  let phase := b2n (n / (o.ring k).size % 2 == 0)
  le 2 (dTag p.desc) ++ le 1 c.status ++ le 1 c.cstate ++ le 2 (dJob p.desc) ++ le 2 c.nAnswers ++ le 8 c.accNo ++ le 4 c.bytes ++
    le 4 c.info ++ le 4 p.idx ++ le 2 (phase + c.cflags) ++ le 2 k

/-- R389, R455: signal an MSI-X vector: a masked one (bit 0 of its entry's Vector Control) sets its pending bit instead (PRESUMED, log
entry 101). -/
def Prd.msixSignal (o : Prd) (v : Nat) : Prd :=
  if bit (PrdR.get o (PRD_MSIX v + 8)) 32 then
    PrdR.set o (PRD_MSIX_PBA + 8 * (v / 64)) (setBit (PrdR.get o (PRD_MSIX_PBA + 8 * (v / 64))) (v % 64))
  else { o with rings := { o.rings with msix := v :: o.rings.msix } }

/-- R363, R369, R388, R389: write a completion, and signal its MSI-X vector. -/
def Prd.writeCmpl (o : Prd) (k : Nat) (p : Op) (c : Cmpl) : Prd :=
  let r := o.ring k
  let n := PrdR.get o (PRD_RING_CMPL_TAIL k)
  let b := o.cmplBytes k n p c
  let a := r.cmplBase + 32 * (n % r.size)
  let o := if r.origin = 0 then { o with rings := { o.rings with host := o.rings.host.write a b } }
    else if inSoftware a 32 && !o.mramProt then { o with hbm := o.hbm.write a b } else o
  let o := PrdR.set o (PRD_RING_CMPL_TAIL k) ((n + 1) % 2 ^ 32)
  let o := if r.origin = 1 then o.qpCmpl k ((o.slotOf (dJob p.desc)).getD 0) b c.answer else o
  if r.origin = 0 && bit (dFlags p.desc) 2 then o.msixSignal (getF r.limits 16 11) else o

/-! ### Subscriptions (R379) -/

/-- R379: whether bytes `a` to `a + n` of the buffer are free. -/
def Subscr.room (s : Subscr) (a n : Nat) : Bool := s.live.all fun x => decide (a + n ≤ x.2.1) || decide (x.2.1 + x.2.2 ≤ a)

/-- R379: the offset at which a delivery of `n` bytes is written whole: the current one, or 0. -/
def Subscr.place (s : Subscr) (n len : Nat) : Option Nat :=
  let a := if s.off + n ≤ len then s.off else 0
  if n ≤ len && s.room a n then some a else none

/-- What an item can deliver. -/
inductive Delivery where
  /-- Its closure is not yet visible (R377). -/
  | later
  /-- Its accord is held no more: the delivery is dropped. -/
  | gone
  /-- Its bytes and the completion's accord. -/
  | ready (b : List Byte) (c : Cmpl)

/-- What an item delivers on the subscription of `p`. -/
def Prd.delivery (o : Prd) (p : Op) : SubItem → Delivery
  | .record r => .ready (o.recordBytes p.ring r) { nAnswers := 1 }
  | .accord code no =>
    let kind := b2n (bit (dQf p.desc) 2)
    match o.acc? (dJob p.desc) kind no (code - 1) with
    | none => .gone
    | some a =>
      if o.visible code a then
        .ready (o.answerBlock p.ring (fieldAt p.desc 8 1) code p.desc a)
              { nAnswers := 1, accNo := no, cstate := (if code = 0 then a.local_.state else a.sum.state) % 16 + 16 * code }
      else .later

/-- R379, R388: whether the protocol window of a REMOTE ring is full. -/
def Prd.windowFull (o : Prd) (k : Nat) : Bool :=
  (o.ring k).origin == 1 && ((o.qpOf k).map fun q => decide (q.unacked.length ≥ 64) || !q.wait.isEmpty).getD false

/-- R379: the state of a subscription. -/
def Prd.setSub (o : Prd) (p : Op) (s : Subscr) : Prd := o.setOp p.ring p.idx fun p => { p with wait := .sub s }

/-- R379: a delivery is dropped. -/
def Prd.dropDelivery (o : Prd) (p : Op) (s : Subscr) : Prd :=
  PrdR.ev (PrdR.cnt (o.setSub p { s with due := s.due.tail, lost := satAdd 32 s.lost 1 }) (PRD_RING_LOST p.ring) 0 32 1) (PRD_RING_K_EVENTS p.ring) 3

/-- R379: a delivery at offset `a`. -/
def Prd.deliver (o : Prd) (p : Op) (s : Subscr) (a : Nat) (b : List Byte) (c : Cmpl) : Prd :=
  let n := PrdR.get o (PRD_RING_CMPL_TAIL p.ring)
  let remote := (o.ring p.ring).origin == 1
  let s := if remote then { s with due := s.due.tail } else { s with due := s.due.tail, off := a + b.length, live := s.live ++ [(n, a, b.length)] }
  let o := if remote then o else o.putAnswer p.ring (dBuf p.desc + a) b
  (o.setSub p s).writeCmpl p.ring p { c with bytes := b.length, info := if remote then 0 else a, cflags := 2, answer := if remote then b else [] }

/-- R379: what one subscription of ring `k` does now: a loss notice, a delivery or a drop; none when it has nothing to do. -/
def Prd.subStep (o : Prd) (k : Nat) (p : Op) : Option Prd :=
  match p.wait with
  | .sub s =>
    let notice (o : Prd) : Prd := (o.setSub p { s with lost := 0 }).writeCmpl k p { info := s.lost, cflags := 6 }
    let ready := o.cmplFree k && !o.windowFull k
    match s.due with
    | [] => if s.lost ≠ 0 && ready then some (notice o) else none
    | x :: _ =>
      match o.delivery p x with
      | .later => none
      | .gone => some (o.dropDelivery p s)
      | .ready b c =>
        let at_ := if (o.ring k).origin == 1 then some 0 else s.place b.length (dLen p.desc)
        match (if ready then at_ else none) with
        | none => some (o.dropDelivery p s)
        | some a => some (if s.lost ≠ 0 then notice o else o.deliver p s a b c)
  | _ => none

/-! ### Finished operations (R369, R372) -/

/-- R372, R384: whether a finished operation may have its slot: it is the first left of its chain, and the chain is done. -/
def Prd.mayWrite (o : Prd) (p : Op) : Bool :=
  p.wait.isDone && (p.chain = 0 ||
    (let c := o.chainOf p
     c.head? == some p && c.any (·.last) && c.all (·.wait.isDone)))

/-- R372: the order of completion, a chain as a whole. -/
def Prd.finOrder (o : Prd) (p : Op) : Nat := if p.chain = 0 then p.fin else maxOf (·.fin) 0 (o.chainOf p)

/-- R364, R365, R371: the operation leaves; a ring that drains is disabled in the cycle after its last one (`Prd.ringState`). -/
def Prd.retire (o : Prd) (p : Op) : Prd :=
  let o := { o with rings := { o.rings with ops := o.rings.ops.filter fun q => !q.is p.ring p.idx } }
  if o.ringState p.ring = 2 && !o.rings.ops.any (·.ring == p.ring) then o.ringMove p.ring else o

/-- R369: the next finished operation of ring `k` gets a completion slot, or CMPL_FULL says that there is none. -/
def Prd.cmplNext (o : Prd) (k : Nat) : Prd :=
  match (sortBy o.finOrder (o.rings.ops.filter fun p => p.ring == k && o.mayWrite p)).head? with
  | none => o
  | some p =>
    if !o.cmplFree k then PrdR.ev o (PRD_RING_K_EVENTS k) 2
    else match p.wait with
      | .done c => (o.retire p).writeCmpl k p { c with cflags := c.cflags + 8 * b2n (decide ((o.chainOf p).length > 1) && p.chain ≠ 0) }
      | _ => o

/-- R372: whether a chain of ring `k` has written its first completion and not its last. -/
def Prd.midChain (o : Prd) (k : Nat) : Bool :=
  o.rings.ops.any fun p => p.ring == k && p.chain ≠ 0 && o.mayWrite p && p.idx + 1 ≠ p.chain

/-- CMPL_WRITE on ring `k`: what waited for an accord or an answer looks again; then a subscription's delivery, or the next
finished operation (log entry 80); the completions of a chain follow each other (R372). -/
def Prd.cmplWrite (o : Prd) (k : Nat) : Prd :=
  let o := (o.rootWork.retryWaits k).settleOps k
  match (if o.midChain k then none else (o.rings.ops.filter (·.ring == k)).findSome? (o.subStep k)) with
  | some o => o
  | none => o.cmplNext k

/-- CMPL_WRITE. -/
def execCmplWrite (k t : Nat) (s : State) : Host.Outcome State Fault Refusal :=
  .next (s.onPrd fun o => (o.go t).cmplWrite k)

end Sys2Proof.Machine
end

