-- ==== Sys2Proof/Machine/FwdRx.lean ====
section
/-!
DEFINITION. Machine/FwdRx.lean: forwarding envelopes as they arrive (09 R231, R232).
-/
namespace Sys2Proof.Machine
open Sys2Proof

/-- R89: a gap record from its bytes. -/
def gapOf (b : List Byte) : GapRec :=
  { ver := fieldAt b 0 1, reason := fieldAt b 1 1, origin := fieldAt b 2 1, kind := fieldAt b 3 1, tag := fieldAt b 4 2
    no := fieldAt b 8 8, rank := fieldAt b 16 4, count := fieldAt b 20 4, ftDecl := fieldAt b 24 8 }

/-- R214: a bucket order record from its bytes. -/
def bucketOf (b : List Byte) : BucketOrder :=
  let n := fieldAt b 2 2
  { flags := fieldAt b 1 1, n, tag := fieldAt b 4 2, collSeq := fieldAt b 8 8, rank := fieldAt b 16 4 % 2 ^ 20, ftFirst := fieldAt b 24 8
    ftLast := fieldAt b 32 8, orderCrc := fieldAt b 40 8, order := (List.range (min n 256)).map fun i => fieldAt b (48 + 2 * i) 2 }

/-- R133: a hang notice from its bytes. -/
def hangNoticeOf (b : List Byte) : HangNotice :=
  { cause := fieldAt b 1 1, tag := fieldAt b 4 2, nOpen := fieldAt b 6 2, tCut := fieldAt b 8 8, lastProgress := fieldAt b 16 8
    rank := fieldAt b 24 4, dumpSlot := fieldAt b 28 4, hangId := fieldAt b 32 8 }

/-- R231, R295: the RTYPE and STREAM under which an envelope's record would have come from a die port. -/
def fwdStream (rtype : Nat) (b : List Byte) : Nat × Nat :=
  match rtype with
  | 0 => (0x01, if (accHdrOf b).kind = 2 then 0x200 else 0x100 + (accHdrOf b).kind)
  | 1 => (0x02, 0x100 + fieldAt b 3 1)
  | 2 => (0x0B, 0x900)
  | 3 => (0x09, 0x700)
  | 4 => (0x0C, 0x900)
  | 5 => (0x03, 0x200)
  | 6 => (0x06, 0x200)
  | _ => (0x0F, 0xB00)

/-- R232: the heart note of a forwarded input, marked FORWARDED. -/
def Prd.fwdNote (o : Prd) (x : FwdEnv) : Prd :=
  let (rtype, stream) := fwdStream x.rtype x.body
  let (rcls, key) := recClass rtype (stream % 256) x.body
  o.hnrPut { rcls, key, tag := x.tag, rank := x.rank, ft := recStamp rtype x.body, fwd := true, rtype, stream, body := x.body }

/-- R232: a KEY_REQ at the serving tray asks the OTU of the rank's die for KEY records, of both kinds (log entry 89). -/
def Prd.fwdKeyReq (o : Prd) (tag rank : Nat) : Prd :=
  let port : Option Nat :=
    if tag = 0 then (if rank / 32 = o.tray then some (rank % 32) else none)
    else (o.slotOf tag).bind fun c => ((o.slot c).served.find? (·.2 == rank)).map (·.1)
  match port with
  | some n => o.setPort n { o.port n with link := (o.port n).link.sendCtrl (keyMsg 3) }
  | none => o

/-- R232: FROM of the first envelope of a rank in a context. -/
def Prd.fwdLearn (o : Prd) (x : FwdEnv) : Prd :=
  match o.slotOf x.tag with
  | some c =>
    let s := o.slot c
    if (s.from_.lookup x.rank).isSome then o else o.setSlot c { s with from_ := (x.rank, x.from_) :: s.from_ }
  | none => o

/-- R232: the record of an accepted envelope, treated as one from a port of this tray. -/
def Prd.fwdRecord (o : Prd) (x : FwdEnv) : Prd :=
  let src := RecSrc.fwd x.from_
  match x.rtype with
  | 0 => o.accordIn src x.tag x.rank x.body
  | 1 => o.gapIn src (gapOf x.body)
  | 2 => o.digestIn src x.tag x.rank x.body
  | 3 => o.firstNanIn src x.tag x.rank x.body
  | 4 => o.orderIn src (bucketOf x.body)
  | 5 => o.hangNotice src (hangNoticeOf x.body)
  | 6 => o.hangSync src x.tag x.rank x.body
  | _ => o.jobEndRec src x.tag x.rank x.body

/-- R232: an envelope that is discarded. -/
def Prd.fwdBad (o : Prd) : Prd := PrdR.cnt (PrdR.ev o PRD_TREE_EVENTS 4) PRD_FWD_BAD 0 32 1

/-- R232: an envelope: its CRC, its sequence, and what it carries. A reserved RTYPE carries nothing, and an envelope with a rank
of 131,072 or more is malformed (R21). -/
def Prd.envelope (o : Prd) (x : FwdEnv) : Prd :=
  let next := (o.tree.fwdRx.lookup x.from_).getD x.fseq
  let skip := wsub 64 x.fseq next
  if !x.crcOk || decide (x.rank ≥ 2 ^ 17) || decide (skip ≥ 2 ^ 63) then o.fwdBad
  else
    let o := { o with tree := { o.tree with fwdRx := Tbl.ins o.tree.fwdRx x.from_ ((x.fseq + 1) % 2 ^ 64) } }
    let o := if skip = 0 then o else PrdR.cnt (PrdR.ev o PRD_TREE_EVENTS 5) PRD_FWD_SKIPS 0 32 skip
    let o := PrdR.cnt o PRD_FWD_RECV 0 32 1
    if x.rtype = 0x80 then o.fwdKeyReq x.tag x.rank
    else if x.rtype < 8 then (((o.fwdLearn x).fwdNote x).fwdRecord x).rootWork
    else o

/-- FWD_ENVELOPE_RX. -/
def execFwdEnvelopeRx (x : FwdEnv) (t : Nat) (s : State) : Host.Outcome State Fault Refusal :=
  .next (s.onPrd fun o => (o.go t).envelope { x with fseq := x.fseq % 2 ^ 64 })

end Sys2Proof.Machine
end

