-- ==== Sys2Proof/Machine/Mgmt.lean ====
section
/-!
DEFINITION. Machine/Mgmt.lean: the management port: its command engine, its commands, and what PLDM supports (14 R390 to R396,
15 R409, R428).
-/
namespace Sys2Proof.Machine
open Sys2Proof

/-! ### What GET_INFO and GET_TIME report -/

/-- R94, R409: PRD_ACC_STATUS: the roles held; roles above the tray's are active once a TREE message has been applied. -/
def Prd.roleBits (o : Prd) : Nat :=
  1 + ((List.range 4).map fun k => if k ≠ 0 && o.phase = 4 && o.holds o.tree.roles k then 2 ^ k else 0).sum

/-- R61: PRD_TIME_STATUS. -/
def Prd.timeStatus (o : Prd) : Nat :=
  o.clk.grade + 8 * o.clk.st + 32 * (o.src.getD 0) + 128 * b2n o.src.isSome + 256 * b2n o.synceSrc.isSome +
  512 * b2n o.stepPending + 1024 * b2n o.clk.tenMin + 2048 * b2n o.clk.slewing

/-- R393: the answer of GET_INFO (its layout: log entry 86). -/
def Prd.infoBytes (o : Prd) : List Byte :=
  le 2 0x0100 ++ le 2 o.tray ++ le 4 o.roleBits ++ le 1 (b2n o.safe) ++ zeros 1 ++ le 2 (PrdR.fld o PRD_BOOT_STATUS 16 16) ++ zeros 4 ++
  le 8 (PrdR.get o PRD_BOOT_IMAGE_ID) ++ le 8 (PrdR.get o PRD_BOOT_IMAGE_SHA)

/-- R393: the answer of GET_STATUS: CMD, CC and SEQ of the last completed command. -/
def Mgmt.statusBytes (m : Mgmt) : List Byte :=
  match m.last with
  | some (cmd, seq, cc, _) => le 1 cmd ++ le 1 cc ++ le 2 seq
  | none => zeros 4

/-- R393: the answer of GET_TIME. -/
def Prd.timeBytes (o : Prd) : List Byte := le 4 o.timeStatus ++ le 4 o.clk.err ++ le 8 (PrdR.get o PRD_TIME_GM_ID)

/-! ### The engine (R391, R392) -/

/-- R436, R433: a chip without power or in reset answers nothing. -/
def Prd.alive (o : Prd) : Bool := o.pw.on == 2 && !o.pw.inReset

/-- R392: a response. -/
def mgmtResponse (cmd cc seq progress running : Nat) (bytes : List Byte) : List Byte :=
  le 1 cmd ++ le 1 cc ++ le 2 seq ++ le 4 bytes.length ++ le 2 progress ++ le 1 running ++ zeros 5 ++ bytes

/-- R390: a response goes back over the path of its request. -/
def Prd.reply (o : Prd) (p : MgmtPath) (r : List Byte) : Prd :=
  match p with
  | .mailbox => { o with mgmt := { o.mgmt with rsp := r } }
  | .mctp => { o with mgmt := { o.mgmt with mctp := r } }

/-- R391: BUSY: its response carries the command that holds the engine, and its progress. -/
def Prd.answerBusy (o : Prd) (p : MgmtPath) (cmd seq by_ : Nat) : Prd :=
  let o := { o.reply p (mgmtResponse cmd 1 seq (Config.progress o.free % 1001) by_ []) with free := o.free + 1 }
  match p with
  | .mailbox => PrdR.ev o PRD_MBX_EVENTS 1
  | .mctp => o

/-- R392: a command completes: its response is kept for a retry. -/
def Prd.complete (o : Prd) (p : MgmtPath) (cmd seq cc : Nat) (bytes : List Byte) : Prd :=
  let o := { o with mgmt := { o.mgmt with last := some (cmd, seq, cc, bytes) } }
  let o := o.reply p (mgmtResponse cmd cc seq 0 0 bytes)
  match p with
  | .mailbox => PrdR.ev (PrdR.setFld o PRD_MBX_STATUS 0 2 2) PRD_MBX_EVENTS 0
  | .mctp => o

/-- R391: a long command takes the engine. -/
def Prd.hold (o : Prd) (m : MgmtCmd) : Prd :=
  let o := PrdR.setFld (PrdR.setFld { o with mgmt := { o.mgmt with run := some m } } PRD_MBX_STATUS 2 1 1) PRD_MBX_STATUS 8 8 m.cmd
  if m.path = .mailbox then PrdR.setFld o PRD_MBX_STATUS 0 2 1 else o

/-- R391, R409: the command for which the engine answers a request BUSY: before RUNNING, RECONFIGURE for every command but
GET_INFO and GET_STATUS; from RUNNING on, the one that holds it, and over MCTP a mailbox command taken in the same cycle. -/
def Prd.busyWith (o : Prd) (p : MgmtPath) (cmd : Nat) : Option Nat :=
  if o.phase ≠ 4 then (if cmd = 1 || cmd = 2 then none else some 0x11)
  else match o.mgmt.run with
    | some m => some m.cmd
    | none => if p = .mctp then o.mgmt.taken.bind fun x => if x.1 = o.ft then some x.2 else none else none

/-- R391: the engine takes a request. -/
def Prd.mgmtTakes (o : Prd) (p : MgmtPath) (cmd : Nat) : Prd :=
  if p = .mailbox then { o with mgmt := { o.mgmt with taken := some (o.ft, cmd) } } else o

/-- R391 to R393: a request: BUSY, a retry, CTX_OPEN, INVALID, or run. `closed` says that it needs every job context closed,
`ok` that its parameters are in range. -/
def Prd.mgmtRequest (o : Prd) (p : MgmtPath) (cmd seq : Nat) (closed ok : Bool) (run : Prd → Prd) : Prd :=
  let seq := seq % 2 ^ 16
  let again : Option (Nat × List Byte) :=
    match o.mgmt.last with
    | some (c, q, cc, b) => if c = cmd && q = seq then some (cc, b) else none
    | none => none
  if !o.alive then o
  else match o.busyWith p cmd, again with
    | some b, _ => o.answerBusy p cmd seq b
    | none, some (cc, b) => o.complete p cmd seq cc b
    | none, none =>
      let o := o.mgmtTakes p cmd
      if closed && o.jobOpen then o.complete p cmd seq 3 []
      else if !ok then o.complete p cmd seq 2 []
      else run o

/-! ### Short commands (R393) -/

/-- GET_INFO. -/
def execGetInfo (p : MgmtPath) (seq t : Nat) (s : State) : Host.Outcome State Fault Refusal :=
  .next (s.onPrd fun o => (o.go t).mgmtRequest p 1 seq false true fun o => o.complete p 1 (seq % 2 ^ 16) 0 o.infoBytes)

/-- GET_STATUS. -/
def execGetStatus (p : MgmtPath) (seq t : Nat) (s : State) : Host.Outcome State Fault Refusal :=
  .next (s.onPrd fun o => (o.go t).mgmtRequest p 2 seq false true fun o => o.complete p 2 (seq % 2 ^ 16) 0 o.mgmt.statusBytes)

/-- GET_TIME. -/
def execGetTime (p : MgmtPath) (seq t : Nat) (s : State) : Host.Outcome State Fault Refusal :=
  .next (s.onPrd fun o => (o.go t).mgmtRequest p 3 seq false true fun o => o.complete p 3 (seq % 2 ^ 16) 0 o.timeBytes)

/-- R395: the base of the staging area. -/
def Prd.stageBase (o : Prd) : Nat := PrdR.get o PRD_MBX_STAGE_BASE

/-- R393, R395: bytes for the staging area. -/
def Prd.stage (o : Prd) (off : Nat) (bytes : List Byte) : Prd := { o with hbm := o.hbm.write (o.stageBase + off) bytes }

/-- R393: whether `n` bytes at `off` are a transfer within the staging area. -/
def stageOk (off n : Nat) : Bool := decide (1 ≤ n) && decide (n ≤ 4096) && decide (off + n ≤ stageSize)

/-- STAGE_WRITE. -/
def execStageWrite (p : MgmtPath) (seq off : Nat) (bytes : List Byte) (t : Nat) (s : State) : Host.Outcome State Fault Refusal :=
  .next (s.onPrd fun o =>
    (o.go t).mgmtRequest p 4 seq false (stageOk off bytes.length) fun o => (o.stage off bytes).complete p 4 (seq % 2 ^ 16) 0 [])

/-- STAGE_READ. -/
def execStageRead (p : MgmtPath) (seq off len t : Nat) (s : State) : Host.Outcome State Fault Refusal :=
  .next (s.onPrd fun o =>
    (o.go t).mgmtRequest p 5 seq false (stageOk off len) fun o => o.complete p 5 (seq % 2 ^ 16) 0 (o.hbm.read (o.stageBase + off) len))

/-- R50: the time unit returns to PROVISIONAL. -/
def Prd.timeReset (o : Prd) : Prd :=
  let ul := o.ul.map fun (x : Nat × UlTime) => (x.1, { x.2 with sync := none, have12 := false, waiting := false })
  ({ o with clk := { grade := o.clk.grade }, ul := ul, stepPending := false, ptpRestart := false } : Prd).regrade

/-- TIME_RESET. -/
def execTimeReset (p : MgmtPath) (seq t : Nat) (s : State) : Host.Outcome State Fault Refusal :=
  .next (s.onPrd fun o => (o.go t).mgmtRequest p 0x14 seq true true fun o => o.timeReset.complete p 0x14 (seq % 2 ^ 16) 0 [])

/-! ### Long commands (R394, R428) -/

/-- R394: FLASH_UPDATE: an image of at most 48 MiB. -/
def flashLenOk (len : Nat) : Bool := decide (len ≤ 50331648)

/-- FLASH_UPDATE. -/
def execFlashUpdate (p : MgmtPath) (seq len t : Nat) (s : State) : Host.Outcome State Fault Refusal :=
  .next (s.onPrd fun o =>
    (o.go t).mgmtRequest p 0x10 seq false (flashLenOk len) fun o => o.hold { cmd := 0x10, seq := seq % 2 ^ 16, path := p, arg := len })

/-- RECONFIGURE: PHASE IMAGE begins. -/
def execReconfigure (p : MgmtPath) (seq t : Nat) (s : State) : Host.Outcome State Fault Refusal :=
  .next (s.onPrd fun o =>
    (o.go t).mgmtRequest p 0x11 seq true true fun o =>
      PrdR.setFld (o.hold { cmd := 0x11, seq := seq % 2 ^ 16, path := p }) PRD_BOOT_STATUS 0 3 0)

/-- R428: level 2 takes every port DOWN. -/
def Prd.portsDown (o : Prd) : Prd :=
  let o := (List.range 32).foldl (fun o n => if (o.port n).link.st = 0 then o else o.takeDown n) o
  let o := (List.range 4).foldl (fun o u => o.uplinkDown u) o
  (o.buddyDown 0).buddyDown 1

/-- SELF_TEST. -/
def execSelfTest (p : MgmtPath) (seq level t : Nat) (s : State) : Host.Outcome State Fault Refusal :=
  .next (s.onPrd fun o =>
    (o.go t).mgmtRequest p 0x12 seq true (decide (level ≤ 2)) fun o =>
      let o := o.hold { cmd := 0x12, seq := seq % 2 ^ 16, path := p, arg := level }
      if level = 2 then o.portsDown else o)

/-- JOURNAL_DUMP. -/
def execJournalDump (p : MgmtPath) (seq t : Nat) (s : State) : Host.Outcome State Fault Refusal :=
  .next (s.onPrd fun o =>
    (o.go t).mgmtRequest p 0x13 seq false true fun o => o.hold { cmd := 0x13, seq := seq % 2 ^ 16, path := p })

/-- R428: the response of SELF_TEST. -/
def SelfTest.bytes (x : SelfTest) (level : Nat) : List Byte :=
  le 1 (b2n x.fail) ++ le 1 level ++ zeros 2 ++ le 4 (if x.fail then x.mask % 2 ^ 13 else 0) ++ le 8 (if x.fail then x.firstPath else 0) ++
  le 4 x.duration ++ zeros 4

/-- R335: the committed slots of a journal bank, as chunks of 64 bytes. -/
def Prd.bankChunks (o : Prd) (b off : Nat) : List (Nat × List Byte) :=
  (o.jnl.filter fun x => x.1 / 262144 == b).map fun x => (off + 64 * (x.1 % 262144), x.2.bytes)

/-- R394: both journal banks, whole, into the staging area, the current one first. -/
def Prd.dumpJournal (o : Prd) : Prd :=
  let half := 262144 * 64
  { o with hbm := o.hbm.splice o.stageBase (2 * half) (o.bankChunks o.jnlBank 0 ++ o.bankChunks (1 - o.jnlBank) half) }

/-- R393: both sessions and frontiers. -/
def Prd.journalBytes (o : Prd) : List Byte :=
  le 4 (PrdR.get o PRD_EVR_SESSION) ++ le 4 (PrdR.get o PRD_EVR_FRONTIER) ++ le 4 (PrdR.get o PRD_JNL_PREV_SESSION) ++
  le 4 (PrdR.get o PRD_JNL_PREV_FRONTIER)

/-- R394: the staged image is written to the NOR, and read back. -/
def Prd.flash (o : Prd) (len : Nat) : Prd :=
  { o with pw := { o.pw with nor := o.hbm.read o.stageBase len ++ o.pw.nor.drop len } }

/-- R394: the completion code that the checks of a written image give. -/
def Prd.flashCode (o : Prd) (x : LongEnd) : Nat := if cfgCheck o.pw.nor o.tray x.flashOk x.sigOk = 0 then 0 else 4

/-- R435: a self-test of level 1 or more has measured the hold-up bank (R428: each level adds to the one before). -/
def Prd.holdupMeasured (o : Prd) (bank : Nat) : Prd :=
  let ok := decide (3530 ≤ bank)
  let o := PrdR.setFld (PrdR.set o PRD_PWR_HOLDUP (bank % 65536)) PRD_PWR_STATUS 11 1 (b2n ok)
  if ok then o else PrdR.ev o PRD_PWR_EVENTS 3

/-- R391: a long command ends: its effect, its completion code and its response. -/
def Prd.longEnd (o : Prd) (m : MgmtCmd) (x : LongEnd) : Prd × Nat × List Byte :=
  if m.cmd = 0x10 then (let o := o.flash m.arg; (o, o.flashCode x, []))
  else if m.cmd = 0x11 then (o.reconfigured x.pos x.par x.flashOk x.sigOk, 0, [])
  else if m.cmd = 0x12 then (if 1 ≤ m.arg then o.holdupMeasured (min 65535 x.test.bank) else o, 0, x.test.bytes m.arg)
  else (o.dumpJournal, 0, o.journalBytes)

/-- LONG_COMMAND_DONE. A firmware update over PLDM has no response of R392 (log entry 87). -/
def execLongCommandDone (x : LongEnd) (t : Nat) (s : State) : Host.Outcome State Fault Refusal :=
  .next (s.onPrd fun o =>
    let o := o.go t
    match o.mgmt.run with
    | none => o
    | some m =>
      let r := o.longEnd m x
      let o := PrdR.setFld (PrdR.setFld { r.1 with mgmt := { r.1.mgmt with run := none } } PRD_MBX_STATUS 2 1 0) PRD_MBX_STATUS 8 8 0
      if m.pldm then { o with mgmt := { o.mgmt with pldm := le 1 (min 1 r.2.1) } }
      else o.complete m.path m.cmd m.seq r.2.1 r.2.2)

/-! ### The mailbox (R392, R393, R402) -/

/-- R402: the request in PRD_MBX_REQ. -/
def Prd.mbxRequest (o : Prd) : List Byte := (List.range 512).flatMap fun i => le 8 (PrdR.get o (PRD_MBX_REQ + 8 * i))

/-- R392, R393, R402: GO: the request of R392 in PRD_MBX_REQ is submitted; a reserved CMD, or a LEN that is not that of its
parameters, is INVALID (log entry 98). -/
def State.mailboxGo (s : State) (t : Nat) : Host.Outcome State Fault Refusal :=
  let b := s.prd.mbxRequest
  let (cmd, seq, len, p) := (fieldAt b 0 1, fieldAt b 2 2, fieldAt b 4 4, b.drop 16)
  let invalid : Host.Outcome State Fault Refusal := .next (s.onPrd fun o => (o.go t).mgmtRequest .mailbox cmd seq false false fun o => o)
  match cmd, len with
  | 0x01, 0 => execGetInfo .mailbox seq t s
  | 0x02, 0 => execGetStatus .mailbox seq t s
  | 0x03, 0 => execGetTime .mailbox seq t s
  | 0x04, n => if 4 ≤ n && n ≤ 4080 then execStageWrite .mailbox seq (fieldAt p 0 4) ((p.take n).drop 4) t s else invalid
  | 0x05, 8 => execStageRead .mailbox seq (fieldAt p 0 4) (fieldAt p 4 4) t s
  | 0x10, 4 => execFlashUpdate .mailbox seq (fieldAt p 0 4) t s
  | 0x11, 0 => execReconfigure .mailbox seq t s
  | 0x12, 1 => execSelfTest .mailbox seq (fieldAt p 0 1) t s
  | 0x13, 0 => execJournalDump .mailbox seq t s
  | 0x14, 0 => execTimeReset .mailbox seq t s
  | _, _ => invalid

/-! ### PLDM (R390, R391, R395) -/

/-- A PLDM request: ERROR_NOT_READY while the engine is occupied, else its answer (codes: PRESUMED, log entry 87). -/
def Prd.pldm (o : Prd) (run : Prd → Prd × List Byte) : Prd :=
  if !o.alive then o
  else if (o.busyWith .mctp 0).isSome then { o with mgmt := { o.mgmt with pldm := [4] } }
  else
    let r := run o
    { r.1 with mgmt := { r.1.mgmt with pldm := r.2 } }

/-- PLDM_BASE: DSP0240 gives the answer. -/
def execPldmBase (cmd t : Nat) (s : State) : Host.Outcome State Fault Refusal :=
  .next (s.onPrd fun o => (o.go t).pldm fun o => (o, 0 :: Config.pldmDiscovery cmd))

/-- R390: a numeric sensor's reading. -/
def Prd.sensor (o : Prd) (n : Nat) : Option Nat :=
  match n with
  | 0 => some (PrdR.get o PRD_THERM_HOTSPOT)
  | 1 => some (o.measured PRD_PWR_INPUT)
  | 2 => some (o.measured PRD_PWR_VIN)
  | 3 => some o.clk.grade
  | _ => none

/-- PLDM_PLATFORM. -/
def execPldmPlatform (sensor t : Nat) (s : State) : Host.Outcome State Fault Refusal :=
  .next (s.onPrd fun o => (o.go t).pldm fun o =>
    (o, match o.sensor sensor with
      | some v => 0 :: le 4 v
      | none => [0x80]))

/-- PLDM_FW_UPDATE: the transfer fills the staging area; its end runs FLASH_UPDATE. -/
def execPldmFwUpdate (off : Nat) (bytes : List Byte) (last : Bool) (len t : Nat) (s : State) : Host.Outcome State Fault Refusal :=
  .next (s.onPrd fun o => (o.go t).pldm fun o =>
    if off + bytes.length > stageSize || (last && !flashLenOk len) then (o, [2])
    else
      let o := o.stage off bytes
      (if last then o.hold { cmd := 0x10, seq := 0, path := .mctp, arg := len, pldm := true } else o, [0]))

end Sys2Proof.Machine
end

