-- ==== Sys2Proof/Machine/OtuDesc.lean ====
section
/-!
DEFINITION. Machine/OtuDesc.lean: the descriptor that the management complex delivers to the OTU at die start (15 R411, R412).
-/
namespace Sys2Proof.Machine
open Sys2Proof

/-- The entries of a descriptor from offset 80 on: key and data; none where they do not fill it. -/
def descEntries : Nat → List Byte → Option (List (Nat × List Byte))
  | 0, b => if b.isEmpty then some [] else none
  | n + 1, b =>
    let len := fieldAt b 2 2
    let pad := (len + 7) / 8 * 8
    if b.length < 4 + pad then none
    else (descEntries n (b.drop (4 + pad))).map fun r => (fieldAt b 0 2, (b.drop 4).take len) :: r

/-- R411: the entries, or none if a header field or an entry fails. The data of an entry follows its key and length at once
(log entry 88). -/
def descHeader (d : List Byte) : Option (List (Nat × List Byte)) :=
  let size := fieldAt d 24 8
  if d.take 4 = [0x55, 0x4F, 0x54, 0x44] && fieldAt d 4 2 = 1 && fieldAt d 8 4 = d.length && 80 ≤ d.length && d.length ≤ 2 ^ 20 &&
     2 ^ 26 ≤ size && size ≤ 2 ^ 32 && size % 2 ^ 20 = 0 && fieldAt d 34 1 ≤ 4 && fieldAt d 35 29 = 0 &&
     (List.range 4).all (fun i => decide (fieldAt d (64 + 4 * i) 4 < 2 ^ 17)) then
    match descEntries (fieldAt d 6 2) (d.drop 80) with
    | some l =>
      if l.all (fun e => (e.1 == 1 && e.2.length == 224) || (e.1 == 2 && e.2.length % 64 == 0 && decide (e.2.length ≤ 16384)) ||
          (e.1 == 3 && e.2.length % 16 == 0)) then some l else none
    | none => none
  else none

/-- R411: the CRC, over the descriptor with its field taken as 0. -/
def descCrcOk (d : List Byte) : Bool := crc32c (d.take 12 ++ zeros 4 ++ d.drop 16) == fieldAt d 12 4

/-- The data of the entries with a key. -/
def descData (l : List (Nat × List Byte)) (key : Nat) : List (List Byte) := (l.filter (·.1 == key)).map (·.2)

/-- The first engine of a kind. -/
def kindFirst (kind : Nat) : Nat := ((List.range 16).find? (engKind · == kind)).getD 0

/-- R412: whether the EVSEL values of an entry would be accepted, at die start. -/
def Otu.fleetOk (o : Otu) (b : List Byte) : Bool :=
  (List.range 28).all fun i => o.evselOk true (kindFirst (i / 4)) (i % 4) 0 (fieldAt b (8 * i) 8)

/-- R186, R412: whether a canary descriptor has no reserved value. -/
def canaryDescOk (b : List Byte) : Bool :=
  fieldAt b 0 1 == 1 && fieldAt b 1 1 ≤ 5 && fieldAt b 2 2 < 4 && decide (16 ≤ fieldAt b 8 4) && decide (fieldAt b 8 4 ≤ 65535) &&
  fieldAt b 12 1 ≤ 6 && fieldAt b 13 1 ≤ 4 && fieldAt b 14 2 == 0 && fieldAt b 28 4 == 0 && fieldAt b 48 16 == 0

/-- The 64-byte pieces of a list. -/
def pieces (n : Nat) : Nat → List Byte → List (List Byte)
  | 0, _ => []
  | k + 1, b => b.take n :: pieces n k (b.drop n)

/-- R411: PMC_0 to PMC_3 of every engine take their kind's selections. -/
def Otu.applyFleet (o : Otu) (b : List Byte) : Otu :=
  (List.range 512).foldl (fun o e =>
    (List.range 4).foldl (fun o k => OtuR.set o (OTU_ENG_EVSEL e k) (fieldAt b (8 * (4 * engKind e + k)) 8)) o) o

/-- R411: the canary library. -/
def Otu.applyLib (o : Otu) (b : List Byte) : Otu :=
  (List.range (b.length / 8)).foldl (fun o i => OtuR.set o (OTU_CAN_LIB (i / 8) (i % 8)) (fieldAt b (8 * i) 8)) o

/-- Registers that software only writes: a privileged write of them acts, and is not discarded. -/
def otuWriteOnly : List Nat := [OTU_ACC_KEY_REQ, OTU_ACC_UNPIN, OTU_TIME_SNAP_CMD, OTU_MARK, OTU_EVR_CLEAR, OTU_SIL_SYNC_REQ, OTU_DIG_MARK]

/-- R411, R412: one REG_WRITES entry as a write through the privileged window, and whether it is taken. CFG_EN of the test
multiplexer accepts a write only here (R446). -/
def Otu.descWrite (o : Otu) (a v : Nat) : Otu × Bool :=
  match rowOf otuRows a with
  | none => (o, false)
  | some x =>
    let n := if a = OTU_TMUX_CTRL then OtuR.write o a 4 v else o.regWrite true a (x.b / 8) v
    let held := x.f.all fun g => g.keep || OtuR.fld n a g.lo g.w == getF v g.lo g.w
    (n, if x.f.isEmpty then x.w1c != 0 || otuWriteOnly.contains a else held)

/-- REG_WRITES entries in order, and whether each was taken. -/
def Otu.descWrites (o : Otu) (b : List Byte) : Otu × Bool :=
  (List.range (b.length / 16)).foldl (fun r i =>
    let y := r.1.descWrite (fieldAt b (16 * i) 4) (fieldAt b (16 * i + 8) 8)
    (y.1, r.2 && y.2 && fieldAt b (16 * i + 4) 4 == 0)) (o, true)

/-- R411: the fields of the header. -/
def Otu.applyHeader (o : Otu) (d : List Byte) : Otu :=
  let o := OtuR.set (OtuR.set o OTU_ACC_DUMP_BASE (fieldAt d 16 8)) OTU_ACC_DUMP_SIZE (fieldAt d 24 8)
  let o := OtuR.set (OtuR.set o OTU_ACC_DUMP_SLOTS o.maxSlots) OTU_FB_RATE (fieldAt d 32 2 % 4096)
  (List.range (fieldAt d 34 1)).foldl (fun o i => OtuR.set o (OTU_FB_RELAY i) (fieldAt d (64 + 4 * i) 4 + 2 ^ 32)) o

/-- R411, R412: the OTU that a descriptor leaves, or the reason why it is invalid. `hbm` is the number of bytes of the die's
HBM. -/
def Otu.applyDesc (o : Otu) (d : List Byte) (hbm : Nat) : Except Nat Otu :=
  if !descCrcOk d then .error 1
  else match descHeader d with
    | none => .error 2
    | some l =>
      if fieldAt d 16 8 + fieldAt d 24 8 > hbm then .error 3
      else if !(descData l 1).all o.fleetOk then .error 4
      else if !((descData l 2).all fun b => (pieces 64 (b.length / 64) b).all canaryDescOk) then .error 5
      else
        let o := o.applyHeader d
        let o := (descData l 1).foldl Otu.applyFleet o
        let o := (descData l 2).foldl Otu.applyLib o
        let r := (descData l 3).foldl (fun r b => let y := r.1.descWrites b; (y.1, r.2 && y.2)) (o, true)
        if r.2 then .ok r.1 else .error 6

/-- R72, R411, R430: the descriptor is checked and applied, once, the carve-out begins with its directory, and the start-up self-test runs. -/
def Otu.descriptor (o : Otu) (d : List Byte) (hbm : Nat) (testOk : Bool) : Otu :=
  if OtuR.get o OTU_DESC_STATUS ≠ 0 then o
  else
    let o := match o.applyDesc d hbm with
      | .ok n => OtuR.set n.writeDir OTU_DESC_STATUS 1
      | .error r => OtuR.set o OTU_DESC_STATUS (2 + 256 * r)
    OtuR.set o OTU_SELFTEST (1 + 2 * b2n testOk)

/-- OTU_DESCRIPTOR. -/
def execOtuDescriptor (bytes : List Byte) (hbm : Nat) (testOk : Bool) (e : Edge) (s : State) : Host.Outcome State Fault Refusal :=
  .next (s.onOtu fun o => (o.go e).descriptor bytes hbm testOk)

end Sys2Proof.Machine
end

