-- ==== Sys2Proof/Machine/PartCmd.lean ====
section
/-!
DEFINITION. Machine/PartCmd.lean: the downward messages of the atomiser that both an OTU and a node take (09 R238).
-/
namespace Sys2Proof.Machine
open Sys2Proof

/-- START. -/
def execStart (at_ : Part) (h : AtHdr) (m : StartMsg) (e : Edge) (s : State) : Host.Outcome State Fault Refusal :=
  match at_ with
  | .otu => .next (s.onOtu fun o => (o.go e).startIn h m)
  | .prd => .next (s.onPrd fun o => (o.go e.ft).messageIn { kind := 1, hdr := h, start := some m })

/-- RETRACT. -/
def execRetract (at_ : Part) (h : AtHdr) (e : Edge) (s : State) : Host.Outcome State Fault Refusal :=
  match at_ with
  | .otu => .next (s.onOtu fun o => (o.go e).retractIn h)
  | .prd => .next (s.onPrd fun o => (o.go e.ft).messageIn { kind := 2, hdr := h })

/-- CONFIG. -/
def execConfig (at_ : Part) (h : AtHdr) (l : List CfgEntry) (e : Edge) (s : State) : Host.Outcome State Fault Refusal :=
  match at_ with
  | .otu => .next (s.onOtu fun o => (o.go e).configIn h l)
  | .prd => .next (s.onPrd fun o => (o.go e.ft).messageIn { kind := 3, hdr := h, config := l })

/-- HANG_FREEZE. -/
def execHangFreeze (at_ : Part) (h : AtHdr) (hangId : Nat) (e : Edge) (s : State) : Host.Outcome State Fault Refusal :=
  match at_ with
  | .otu => .next (s.onOtu fun o => (o.go e).hangIn h hangId)
  | .prd => .next (s.onPrd fun o => (o.go e.ft).messageIn { kind := 5, hdr := h, hangId := hangId })

/-- JOB_FAULT. -/
def execJobFault (at_ : Part) (h : AtHdr) (x : FaultRef) (e : Edge) (s : State) : Host.Outcome State Fault Refusal :=
  match at_ with
  | .otu => .next (s.onOtu fun o => (o.go e).faultIn h)
  | .prd => .next (s.onPrd fun o => (o.go e.ft).messageIn { kind := 6, hdr := h, fault := some x })

end Sys2Proof.Machine
end

