-- ==== Sys2Proof/Machine/View.lean ====
section
/-!
DEFINITION. Machine/View.lean: what a read of a register returns: the register file, and the registers that show live state
of the OTU and of Priord (00 R12, and the register tables of 02 to 17).
-/
namespace Sys2Proof.Machine
open Sys2Proof

/-- A word of 64 bits of a record, 0 where there is none. -/
def evWord (r : Option EvRec) (i : Nat) : Nat :=
  match r with
  | some e => fieldAt e.bytes (8 * i) 8
  | none => 0

/-- R322, R332: word `i` of a blotter window: eight words of 64 bits to a slot. The last word of a slot reads as it was in the cycle of
the slot's commit. -/
def Recorder.window (r : Recorder) (now cap i : Nat) : Nat :=
  let slot := r.cursor.inForce now + i / 8
  if slot ≥ cap then 0
  else match r.hot with
    | some (t, s, old) => if t = now && s = slot && i % 8 = 7 then old else evWord (r.slots.lookup slot) (i % 8)
    | none => evWord (r.slots.lookup slot) (i % 8)

/-- R332, R339: word `i` of Priord's blotter window; with PREV it shows the other journal bank. -/
def Prd.blotWord (o : Prd) (i : Nat) : Nat :=
  let c := o.evr.cursor.inForce o.clk.ft
  if bit c 31 then
    let slot := getF c 0 18 + i / 8
    if slot ≥ 262144 then 0 else evWord (o.jnl.lookup (jnlKey (1 - o.jnlBank) slot)) (i % 8)
  else o.evr.window o.clk.ft 262144 i

/-- R336, R339: PRD_EVR_STATUS. The record committed last waits in the journal queue for 250 ns, the slowest the writer may be. -/
def Prd.evrStatus (o : Prd) : Nat :=
  b2n o.evr.full + 2 * o.evr.inflight.length + 2 ^ 8 * b2n (o.evr.lastFt != 0 && decide (o.clk.ft < o.evr.lastFt + 1000)) + 2 ^ 12 * o.jnlBank

/-! ### The OTU -/

/-- R60: OTU_TIME_STATUS. -/
def Otu.timeStatus (o : Otu) : Nat :=
  o.clk.grade + 8 * o.clk.st + 32 * b2n (o.clk.st != 0) + 64 * b2n o.trayLock + 128 * b2n o.clk.slewing + 256 * (o.prdGrade % 8) +
  2048 * b2n o.openJob.isSome

/-- R93: OTU_ACC_STATUS. -/
def Otu.accStatus (o : Otu) : Nat :=
  o.acc.interval + 2 ^ 14 * b2n o.acc.a.isSome + 2 ^ 15 * b2n o.acc.b.isSome + 2 ^ 16 * b2n (OtuR.get o OTU_ACC_SWITCH_T != absent) +
  2 ^ 17 * b2n (OtuR.flag o OTU_ACC_FAST_CTRL 0 && o.clk.st != 0) + 2 ^ 18 * o.acc.pins.length

/-- R120: OTU_ENG_e_INFO: KIND in [2:0], STATE in [4:3] and JOB_TAG in [31:16]. -/
def Otu.engInfo (o : Otu) (e : Nat) : Nat := engKind e + 8 * (o.eng e).st.inForce o.lt + 2 ^ 16 * (o.eng e).tag

/-- R120: the sticky bits of an engine's counters. -/
def Otu.engOvf (o : Otu) (e : Nat) : Nat :=
  (((List.range 32).drop 1).filter fun c => bit (OtuR.get o (OTU_ENG_CTR e c)) 63).foldl (fun n c => n + 2 ^ c) 0

/-- R139: OTU_Q_q_LIVE. -/
def Otu.queueLive (o : Otu) (q : Nat) : Nat :=
  let x := Tbl.get (fun _ => {}) o.queues q
  min 65535 x.depth + 2 ^ 16 * sojourn o.clk.ft x.headAt x.depth

/-- R175: OTU_SIL_STATUS. -/
def Otu.silStatus (o : Otu) : Nat :=
  min 8192 ((o.queuedBytes 3 + 1023) / 1024) + 2 ^ 14 * b2n (o.sil.any (·.2.lost)) +
  2 ^ 16 * ((List.range 4).filter fun g => (o.grant g).valid).length

/-- R175: sequencers of which a stream is in LOST. -/
def Otu.silLostMask (o : Otu) : Nat :=
  ((List.range 64).filter fun s => o.sil.any fun x => (x.1 == s || x.1 == 64 + s) && x.2.lost).foldl (fun n s => n + 2 ^ s) 0

/-- R175: OTU_SIL_GRANT_g_CTRL. -/
def Otu.grantCtrl (o : Otu) (g : Nat) : Nat :=
  let x := o.grant g
  let live := x.valid && o.clk.st != 0 && decide (o.clk.ft < x.expiry) &&
    x.scope % 4 ≠ 0 && (List.range 64).any fun s => bit x.seqMask s && (o.eng (seqEngine s)).tag == x.tag
  x.scope + 2 ^ 8 * b2n x.valid + 2 ^ 9 * b2n live + 2 ^ 16 * x.tag

/-- R198: OTU_CAN_STATUS. -/
def Otu.canStatus (o : Otu) : Nat :=
  o.libCount + 2 ^ 9 * b2n (o.engs.any (·.2.canary.isSome)) +
  2 ^ 10 * b2n (o.mirror.any fun x => x.2.cand.any (·.tie.isSome))

/-- R218: OTU_DIG_STATUS. -/
def Otu.digStatus (o : Otu) : Nat := b2n (!o.hashing.isEmpty) + 2 * b2n o.resMark.isSome + 4 * min 4096 o.inputs.length

/-- R316: OTU_EQ_eq_LIVE. -/
def Otu.eqLive (o : Otu) (q : Nat) : Nat :=
  let n := (o.eqGet q).length
  min 65535 n + 2 ^ 16 * sojourn o.now (o.eqSt q).headAt n

/-- R32, R446: whether the OTU's multiplexer is live: CFG_EN, and a fleet grant with TESTMUX in its scope. -/
def Otu.tmuxLive (o : Otu) : Bool := OtuR.flag o OTU_TMUX_CTRL 0 && o.grantLive 3 0

/-- R453: OTU_TW_INFO of window `w`. -/
def Otu.twInfo (o : Otu) (w : Nat) : Nat :=
  match o.winTag w with
  | some tag => tag + 2 ^ 16 + 2 ^ 17 * w
  | none => 2 ^ 17 * w

/-- The registers of the OTU that show live state. -/
def Otu.live (o : Otu) (a : Nat) : Option Nat :=
  if a = OTU_TIME_FT then some o.ft
  else if a = OTU_TIME_JT then some o.jt
  else if a = OTU_TIME_LT then some o.lt
  else if a = OTU_TIME_STATUS then some o.timeStatus
  else if a = OTU_TIME_ASYM then some (ofS 32 o.asym)
  else if a = OTU_TIME_OFFSET then some (ofS 32 o.clk.theta)
  else if a = OTU_TIME_DELAY then some (o.clk.delay % 2 ^ 32)
  else if a = OTU_TIME_ERR then some o.clk.err
  else if a = OTU_TIME_JOB_START then some ((o.openJob.map (·.s)).getD absent)
  else if a = OTU_TIME_HOLD_AGE then some o.clk.holdAge
  else if a = OTU_TMUX_CTRL then some (setF (OtuR.get o a) 1 1 (b2n o.tmuxLive))
  else if a = OTU_MARK_STATUS then some (setF (OtuR.get o a) 0 7 o.marks.length)
  else if a = OTU_ACC_STATUS then some o.accStatus
  else if a = OTU_ACC_NEXT_T then some (if o.clk.st = 0 then absent else o.acc.nextT)
  else if a = OTU_GCH_NEXT_T then some (if o.clk.st = 0 || !OtuR.flag o OTU_GCH_CTRL 0 then absent else o.gchNext)
  else if a = OTU_SYNC_OPEN then some o.waits.length
  else if a = OTU_HANG_ACTIVE then some (o.jobs.filter (·.hang)).length
  else if a = OTU_SIL_STATUS then some o.silStatus
  else if a = OTU_SIL_LOST_MASK then some o.silLostMask
  else if a = OTU_NUM_QUEUE then some o.firstNansQueued
  else if a = OTU_CAN_STATUS then some o.canStatus
  else if a = OTU_DIG_STATUS then some o.digStatus
  else if a = OTU_PORT_STATUS then some (o.link.st + 4 * b2n o.fb + 8 * o.relay + 32 * o.link.lanes)
  else if a = OTU_GCL_STATE then some (o.gatesNow + 256 * o.operList.entry o.clk.ft)
  else if a = OTU_EVR_STATUS then some (b2n o.evr.full + 2 * o.evr.inflight.length)
  else if a = OTU_BLOT_CURSOR then some (o.evr.cursor.inForce o.lt)
  else match arrayIdx (OTU_ENG_INFO 0) 0x80 512 a, arrayIdx (OTU_ENG_OVF 0) 0x80 512 a, arrayIdx (OTU_CAN_ENG_BUDGET 0) 4 512 a,
      arrayIdx OTU_BLOT_WINDOW 8 512 a with
    | some e, _, _, _ => some (o.engInfo e)
    | _, some e, _, _ => some (o.engOvf e)
    | _, _, some e, _ => some (min 65536 ((o.eng e).bucket / 10000) + 2 ^ 17 * (o.eng e).aborts)
    | _, _, _, some i => some (o.evr.window o.lt 4096 i)
    | _, _, _, _ =>
      match arrayIdx (OTU_Q_INFO 0) 0x10 4096 a, arrayIdx (OTU_Q_LIVE 0) 0x10 4096 a, arrayIdx (OTU_EQ_LIVE 0) 8 1024 a,
          arrayIdx (OTU_TW_INFO 0) 0x8000 64 a with
      | some q, _, _, _ => some (queueKind q + 2 ^ 16 * o.queueOwner q)
      | _, some q, _, _ => some (o.queueLive q)
      | _, _, some q, _ => some (o.eqLive q)
      | _, _, _, some w => some (o.twInfo w)
      | _, _, _, _ =>
        match arrayIdx (OTU_SIL_GRANT_ID 0) 0x40 4 a, arrayIdx (OTU_SIL_GRANT_CTRL 0) 0x40 4 a, arrayIdx (OTU_SIL_GRANT_DIE 0) 0x40 4 a,
            arrayIdx (OTU_SIL_GRANT_EXPIRY 0) 0x40 4 a with
        | some g, _, _, _ => some (o.grant g).id
        | _, some g, _, _ => some (o.grantCtrl g)
        | _, _, some g, _ => some (o.grant g).die
        | _, _, _, some g => some (o.grant g).expiry
        | _, _, _, _ =>
          match arrayIdx (OTU_SIL_GRANT_SEQ_MASK 0) 0x40 4 a, arrayIdx (OTU_CV_BASE 0 + 0x10) 0x80 4 a with
          | some g, _ => some (o.grant g).seqMask
          | _, some c => some (cvResult (OtuR.get o (OTU_CV_BASE c)) (OtuR.get o (OTU_CV_BASE c + 0x8)))
          | _, _ => none

/-- A read of the OTU register at `a`: write-only registers read 0 (R12), and a counter as it stood at the end of the cycle before
(R97). -/
def Otu.readReg (o : Otu) (a : Nat) : Nat :=
  if 0x40000 ≤ a && a < 0x60000 then (OtuR.hw o a).1
  else if 0x200000 ≤ a && a < 0x400000 then (o.live a).getD (OtuR.get (o.settleWindow ((a - 0x200000) / 0x8000)) a)
  else (o.live a).getD (OtuR.get o a)

/-! ### Priord -/

/-- R94: the last fleet-context accord closed at a level. -/
def Prd.lastClosed (o : Prd) (l : Nat) : Nat :=
  if !bit o.roleBits l then absent
  else ((o.accs.filter fun a => a.level == l && a.tag == 0 && a.kind == 0 && a.st != 0).map (·.no)).max?.getD absent

/-- R253, R223: N of a context; the fleet context, which the configuration image sets up, has 131,072 leaves. -/
def Prd.ctxRanks (o : Prd) (c : Nat) : Nat := if c = 0 then (if o.cfg.roles = [] then 0 else 131072) else (o.slot c).nRanks

/-- R253, R229: a rank-home entry; in the fleet context a populated tray is the home of its own 32 fleet ranks. -/
def Prd.rhome (o : Prd) (c b : Nat) : Nat :=
  if c = 0 then (if o.trayPopulated b then b + 2 ^ 31 else 0) else (o.slot c).homes.getD b 0

/-- R253: PRD_CTX_c_INFO. -/
def Prd.ctxInfo (o : Prd) (c : Nat) : Nat :=
  let x := o.slot c
  let valid := if c = 0 then o.cfg.roles ≠ [] else x.st ≠ 0
  x.tag + 2 ^ 16 * b2n valid + 2 ^ 17 * (if valid then o.topOf x.tag + 1 else 0) + 2 ^ 20 * b2n (x.st == 1) + 2 ^ 21 * b2n x.audit

/-- R251: PRD_TREE_STATUS. -/
def Prd.treeStatus (o : Prd) : Nat :=
  let held (r : Roles) : List (Nat × Nat) := (r.map fun x => (x.1, x.2 / 2)).filter (·.2 ≠ 0)
  b2n (roleBit o.atRoles o.tray 4) + 2 * b2n o.tree.tookOver + 4 * b2n (held o.atRoles != held o.cfg.roles)

/-- R251: PRD_TREE_PARENT. -/
def Prd.treeParent (o : Prd) : Nat := match o.parent with | some p => p + 2 ^ 16 | none => 0

/-- R285: PRD_NOSE_STATUS. A checked image that waits for its copy shows CHECKING; a replay runs from its fetch to its answer,
except while a live accord waits. -/
def Prd.noseStatus (o : Prd) : Nat :=
  let n := o.nose
  let st := if n.copying then 4 else if n.next.isSome then 3 else match n.model with | some m => m.mode | none => 0
  let young := match n.model with
    | some m => n.streams.any fun s => decide (s.season < o.macerate m.image)
    | none => false
  let replaying := n.busy.isNone && n.waiting.isEmpty && o.rings.ops.any fun p => (o.ring p.ring).type == 4 && !p.wait.isDone
  st + 8 * b2n young + 16 * n.waiting.length + 128 * b2n replaying + 256 * (if n.model.isSome then min 255 o.noseStride else 0)

/-- R317: PRD_DP_n_STATUS. -/
def Prd.dpStatus (o : Prd) (n : Nat) : Nat :=
  let p := o.port n
  p.link.st + 4 * b2n p.fbRelay.isSome + 8 * b2n (decide (p.fails ≥ 64)) + 16 * b2n (!p.hunt.isEmpty)

/-- R318: PRD_UL_u_EQ_eq_LIVE. -/
def Prd.eqLive (o : Prd) (u q : Nat) : Nat :=
  let x := o.uplink u
  let n := (Tbl.get (fun _ => []) x.q q).length
  min 65535 n + 2 ^ 16 * sojourn o.ft (Tbl.get (fun _ => {}) x.qs q).headAt n

/-- R176: PRD_HNR_OLDEST_FT. -/
def Hnr.oldest (h : Hnr) : Nat := match h.ring with | s :: _ => s.ftMin | [] => if h.open_.recs.isEmpty then absent else h.open_.ftMin

/-- R402: PRD_MBX_STATUS with PROGRESS of the command that runs, a free value. -/
def Prd.mbxStatus (o : Prd) : Nat :=
  setF (PrdR.get o PRD_MBX_STATUS) 16 10 (if o.mgmt.run.isSome then Config.progress o.free % 1001 else 0)

/-- Registers of Priord's own units that show live state. -/
def Prd.live1 (o : Prd) (a : Nat) : Option Nat :=
  if a = PRD_TIME_FT then some o.ft
  else if a = PRD_TIME_STATUS then some o.timeStatus
  else if a = PRD_TIME_OFFSET then some (ofS 32 o.clk.theta)
  else if a = PRD_TIME_ERR then some o.clk.err
  else if a = PRD_TIME_HOLD_AGE then some o.clk.holdAge
  else if a = PRD_TIME_LOCK_AGE then some o.clk.lockAge
  else if a = PRD_ACC_STATUS then some o.roleBits
  else if a = PRD_TREE_STATUS then some o.treeStatus
  else if a = PRD_TREE_EPOCH then some o.tree.epoch
  else if a = PRD_TREE_INDEX then some o.tray
  else if a = PRD_TREE_PARENT then some o.treeParent
  else if a = PRD_TREE_FAILED then some o.tree.failed.length
  else if a = PRD_ATM_STATUS then some (min 65535 o.outstanding.length)
  else if a = PRD_RESULT_OPEN then some (min 65535 (o.results.filter fun x => !x.done).length)
  else if a = PRD_NOSE_STATUS then some o.noseStatus
  else if a = PRD_HNR_OLDEST_FT then some o.hnr.oldest
  else if a = PRD_FLC_RESERVE_FREE then some o.hnr.free
  else if a = PRD_EVR_STATUS then some o.evrStatus
  else if a = PRD_BLOT_CURSOR then some (o.evr.cursor.inForce o.clk.ft)
  else if PRD_RING_STAGE_CFG ≤ a && a ≤ PRD_RING_STAGE_CMPL_BASE then some (PrdR.get o.staged a)
  else if a = PRD_RING_INFLIGHT then some o.rings.ops.length
  else if a = PRD_MBX_STATUS then some o.mbxStatus
  else if a = PRD_PWR_VIN || a = PRD_PWR_IIN || a = PRD_PWR_INPUT || a = PRD_PWR_CHIP || (arrayIdx (PRD_PWR_OSFP 0) 4 4 a).isSome then
    some (o.measured a)
  else if a = PRD_TMUX_CTRL then some (setF (PrdR.get o a) 1 1 (b2n o.tmuxLive))
  else if a = PRD_TMUX_GRANT_CTRL then some (setF (PrdR.get o a) 9 1 (b2n o.tmuxGrantLive))
  else if a = PRD_BUDDY_LAG then some (if o.buddy.out.isEmpty then 0 else Config.buddyLag o.ft % 2 ^ 32)
  else none

/-- The arrays of registers that show live state. -/
def Prd.live2 (o : Prd) (a : Nat) : Option Nat :=
  match arrayIdx (PRD_ACC_LAST_CLOSED 0) 8 4 a, arrayIdx (PRD_DP_STATUS 0) 0x1000 32 a, arrayIdx PRD_BLOT_WINDOW 8 512 a,
      arrayIdx PRD_MBX_RSP 8 512 a with
  | some l, _, _, _ => some (o.lastClosed l)
  | _, some n, _, _ => some (o.dpStatus n)
  | _, _, some i, _ => some (o.blotWord i)
  | _, _, _, some i => some (fieldAt o.mgmt.rsp (8 * i) 8)
  | _, _, _, _ =>
    match arrayIdx (PRD_FLC_DESC 0) 8 64 a, arrayIdx (PRD_FLC_QUEUE 0) 8 32 a, arrayIdx (PRD_RING_STATE 0) 0x40 65536 a,
        arrayIdx (PRD_CTX_INFO 0) 4 132 a with
    | some i, _, _, _ => if i % 16 < 8 then some (fieldAt (o.flacon (i / 16)).bytes (8 * (i % 16)) 8) else none
    | _, some i, _, _ => some (fieldAt (o.hnr.queue.getD (i / 8) {}).bytes (8 * (i % 8)) 8)
    | _, _, some k, _ => some (o.ringState k + 4 * (o.rings.ops.filter (·.ring == k)).length)
    | _, _, _, some i =>
      let x := o.slot (i / 4)
      some (match i % 4 with | 0 => o.ctxInfo (i / 4) | 1 => o.ctxRanks (i / 4) | 2 => x.itemEpoch | _ => x.items.length)
    | _, _, _, _ =>
      match arrayIdx (PRD_RHOME 0 0) 4 (33 * 4096) a, arrayIdx (PRD_ITEM_LO 0 0) 8 (33 * 512) a with
      | some i, _ => some (o.rhome (i / 4096) (i % 4096))
      | _, some i =>
        some (match (o.slot (i / 512)).items[i % 512 / 2]? with | some d => fieldAt d.bytes (8 * (i % 2)) 8 | none => 0)
      | _, _ =>
        match arrayIdx (PRD_CV_BASE 0 + 0x10) 0x80 16 a with
        | some c => some (cvResult (PrdR.get o (PRD_CV_BASE c)) (PrdR.get o (PRD_CV_BASE c + 0x8)))
        | none =>
        if PRD_UL 0 ≤ a && a < PRD_UL 4 then
          (arrayIdx 0xA000 8 1024 ((a - PRD_UL 0) % 0x40000)).map fun q => o.eqLive ((a - PRD_UL 0) / 0x40000) q
        else none

/-- A read of Priord's register at `a`. -/
def Prd.readReg (o : Prd) (a : Nat) : Nat := (o.live1 a).getD ((o.live2 a).getD (PrdR.get o a))

end Sys2Proof.Machine
end

