-- ==== Sys2Proof/Machine/Pins.lean ====
section
/-!
DEFINITION. Machine/Pins.lean: what the state drives on the chip's pins and lanes (16 R440 to R447).
-/
namespace Sys2Proof.Machine
open Sys2Proof

/-- R440: what a lane serves. -/
inductive LaneUse where
  /-- A lane of die port `n`. -/
  | die (n lane : Nat)
  /-- A lane of the cage of uplink `u`. -/
  | uplink (u lane : Nat)
  /-- A lane of buddy port `p`. -/
  | buddy (p lane : Nat)
deriving DecidableEq, Repr

/-- R440: the use of chip lane SERDES_k, and its lane within the port. -/
def laneUse (k : Nat) : Option LaneUse :=
  if k < 64 then some (.die (k / 2) (k % 2))
  else if k < 96 then some (.uplink ((k - 64) / 8) (k % 8))
  else if k < 112 then some (.buddy ((k - 96) / 8) (k % 8))
  else none

/-- A pin at an instant. -/
inductive Pin where
  | highZ
  | low
  | high
deriving DecidableEq, Repr

/-- R442: PWR_FAIL_N: open drain, low from PWR_FAIL until the rails fall. -/
def Prd.pwrFailN (o : Prd) : Pin := if o.pw.on = 2 && o.pw.fail.isSome then .low else .highZ

/-- R442: ALERT_N: open drain, low while PRD_PWR_EVENTS is nonzero. The spec describes no PLDM event that would await reading. -/
def Prd.alertN (o : Prd) : Pin :=
  if o.pw.on = 2 && !o.pw.inReset && decide (PrdR.get o PRD_PWR_EVENTS ≠ 0) then .low else .highZ

/-- R445: whether the strobe of a source is high: four 400 MHz cycles, which for CUT_STROBE begin 10 ns after the cut. -/
def strobeHigh (strobes : List (Nat × Nat)) (now src : Nat) : Bool :=
  match strobes.lookup src with
  | some t => let t := if src = 0x100 then t + 40 else t; decide (t ≤ now && now < t + 40)
  | none => false

/-- R445: the level of a source of Priord's multiplexer. -/
def Prd.debugLevel (o : Prd) (src : Nat) : Bool :=
  if src = 0x103 then o.clk.st == 3
  else if 0x200 ≤ src && src < 0x220 then (o.port (src - 0x200)).link.st == 2
  else if 0x400 ≤ src && src < 0x420 then bit ((o.operList ((src - 0x400) / 8)).gates o.ft) (src % 8)
  else if src = 0x500 then o.nose.busy.isSome
  else if src = 0x100 || src = 0x101 || src = 0x102 || src = 0x501 || (0x300 ≤ src && src < 0x320) then strobeHigh o.strobes o.ft src
  else false

/-- R444, R445: DBG_OUT_k: high-impedance unless the multiplexer is live. -/
def Prd.debugPin (o : Prd) (k : Nat) : Pin :=
  if o.pw.on ≠ 2 || o.pw.inReset || !o.pw.pinLive.inForce o.ft || !o.tmuxLive then .highZ
  else if o.debugLevel (PrdR.fld o (PRD_TMUX_SEL k) 0 12) then .high else .low

/-- R446: the level of a source of the OTU's multiplexer. -/
def Otu.debugLevel (o : Otu) (src : Nat) : Bool :=
  if src = 0x100 || src = 0x101 then strobeHigh o.strobes o.clk.ft src
  else if 0x200 ≤ src && src < 0x400 then (o.eng (src - 0x200)).busyAt == some o.lt
  else if 0x400 ≤ src && src < 0x440 then decide ((o.seqSt (src - 0x400)).level ≠ 0)
  else false

/-- R446: signal `k` that the OTU brings to the die's debug mux, none while its multiplexer is not live. -/
def Otu.debugSignal (o : Otu) (k : Nat) : Option Bool :=
  if o.tmuxLive then some (o.debugLevel (OtuR.fld o (OTU_TMUX_SEL k) 0 12)) else none

/-- R447: whether the segments of the IEEE 1687 network that read or change internal state are open. -/
def Prd.networkOpen (o : Prd) : Bool := o.pw.tap == .network && o.tmuxLive

end Sys2Proof.Machine
end

