-- ==== Sys2Proof/WellFormed.lean ====
section
/-!
DEFINITION. WellFormed.lean: when a command's operands are within what the spec's registers, messages and events can carry,
and the part at which a command acts. Operands within these ranges that a rule refuses are that rule's matter.
-/
namespace Sys2Proof.Machine
open Sys2Proof

/-- A number of `n` bits. -/
def fits (n v : Nat) : Bool := decide (v < 2 ^ n)

/-- One of `n` indices. -/
def below (n v : Nat) : Bool := decide (v < n)

/-- R37: 48 bits of seconds, and fewer than 10^9 nanoseconds. -/
def PtpTs.ok (x : PtpTs) : Bool := fits 48 x.sec && below (10 ^ 9) x.ns

/-- R15: the widths of an access, in bytes; some of them are discarded. -/
def widthOk (w : Nat) : Bool := w == 1 || w == 2 || w == 4 || w == 8

/-- R36, R39: fleet time and local time have 64 bits. -/
def Edge.ok (e : Edge) : Bool := fits 64 e.ft && fits 64 e.lt

/-- R105, R111: the levels are job, supervisor and secure, and there are 16 stall reasons. -/
def EngCycle.ok (c : EngCycle) : Bool :=
  (c.slots.all fun x => below 3 x.level && fits 16 x.waits) && c.events.all fun x => below 3 x.2.1

/-- R450: there are 64 tenant windows. -/
def Path.ok (p : Path) : Bool := match p with | .tenant w => below 64 w | .otu => true | .prd => true | .bar2 => true

/-- R288: a flit has 256 bytes. -/
def FlitRx.ok (x : FlitRx) : Bool := decide (x.bytes.length = 256)

/-- R286: an OTU's end, or that of one of Priord's 32 ports. -/
def LinkEnd.ok (l : LinkEnd) : Bool := match l with | .otu => true | .prd n => below 32 n

/-- R231: a die port, or a tray. -/
def RecSrc.ok (r : RecSrc) : Bool := match r with | .port n => below 32 n | .fwd t => below 4096 t

/-- R305: the fallback path's gates, or those of one of four uplinks. -/
def GateSel.ok (g : GateSel) : Bool := match g with | .otu => true | .uplink u => below 4 u

/-- The part that a path reaches. -/
def Path.part (p : Path) : Part := match p with | .prd => .prd | .bar2 => .prd | .otu => .otu | .tenant _ => .otu

/-- The part at an end of a die-port link. -/
def LinkEnd.part (l : LinkEnd) : Part := match l with | .otu => .otu | .prd _ => .prd

/-- The part whose gates these are. -/
def GateSel.part (g : GateSel) : Part := match g with | .otu => .otu | .uplink _ => .prd

end Sys2Proof.Machine

namespace Sys2Proof
open Sys2Proof.Machine

/-- A command's operands are in range. -/
def Instr.wf (i : Instr) : Bool :=
  match i with
  | .registerWrite p addr width value e => p.ok && fits 32 addr && widthOk width && fits 64 value && e.ok
  | .rcRead p addr e => p.ok && fits 32 addr && e.ok
  | .ptpSync u m t => below 4 u && fits 7 m.domain && fits 16 m.seqId && m.origin.ok && fits 64 t
  | .ptpFollowUp u seqId origin _ t => below 4 u && fits 16 seqId && origin.ok && fits 64 t
  | .ptpDelayReqTx u _ t => below 4 u && fits 64 t
  | .ptpDelayResp u seqId rx _ t => below 4 u && fits 16 seqId && rx.ok && fits 64 t
  | .ptpPdelayReqTx u _ t => below 4 u && fits 64 t
  | .ptpPdelayResp u m t => below 4 u && fits 16 m.seqId && m.t2.ok && m.t3.ok && fits 64 t
  | .ptpAnnounce u _ t => below 4 u && fits 64 t
  | .ptpIgnoredMessage u t => below 4 u && fits 64 t
  | .synceQlChange u ql _ t => below 4 u && below 16 ql && fits 64 t
  | .holdoverEntry t => fits 64 t
  | .twLoss e => e.ok
  | .holdoverAgeGrade3 _ e => e.ok
  | .lock10Min _ e => e.ok
  | .timeWordTx at_ _ _ e => at_.ok && e.ok
  | .timeWordRx at_ bytes _ _ errs e => at_.ok && (⟨bytes, errs⟩ : FlitRx).ok && e.ok
  | .mark p value e => p.ok && fits 64 value && e.ok
  | .markRecordEmit e => e.ok
  | .timeSnap value e => fits 64 value && e.ok
  | .ptpCfgWrite value t => fits 64 value && fits 64 t
  | .timeReset _ seq t => fits 16 seq && fits 64 t
  | .accordCut e => e.ok
  | .stepMark seq _ stepNo tokens e => below 64 seq && fits 64 stepNo && fits 32 tokens && e.ok
  | .accordSeal e => e.ok
  | .accordDumpDone _ e => e.ok
  | .fastCut e => e.ok
  | .accordSwitch e => e.ok
  | .switchArm value e => fits 64 value && e.ok
  | .switchCancel e => e.ok
  | .keyReqRegular e => e.ok
  | .keyReqFast e => e.ok
  | .unpin value e => fits 64 value && e.ok
  | .fastCtrlWrite value e => fits 64 value && e.ok
  | .fastSelWrite k value e => below 64 k && fits 64 value && e.ok
  | .accordOpen _ t => fits 64 t
  | .accordRecordRx src tag rank _ t => src.ok && fits 16 tag && fits 20 rank && fits 64 t
  | .gapRecordRx src _ t => src.ok && fits 64 t
  | .closureDeadline level ctx _ no t => below 4 level && fits 17 ctx && fits 64 no && fits 64 t
  | .pmcWrite p eng k value e => p.ok && below 512 eng && below 8 k && fits 64 value && e.ok
  | .evselWrite p eng k value e => p.ok && below 512 eng && below 8 k && fits 64 value && e.ok
  | .cmdStart eng c e => below 512 eng && fits 64 c.sig && below 3 c.level && e.ok
  | .cmdComplete c e => below 512 c.eng && e.ok
  | .engineStateChange eng st e => below 512 eng && below 4 st && e.ok
  | .wrap eng c n e => eng.all (below 512) && below 256 c && fits 64 n && e.ok
  | .engSnap p value e => p.ok && fits 64 value && e.ok
  | .gchSample _ validMask e => fits 43 validMask && e.ok
  | .engineCycle eng c e => below 512 eng && c.ok && e.ok
  | .queueBind q tag e => below 4096 q && fits 16 tag && e.ok
  | .queueUnbind q e => below 4096 q && e.ok
  | .queueSample _ e => e.ok
  | .queueEnqueue q c e => below 4096 q && below 3 c.level && e.ok
  | .queueDequeue q e => below 4096 q && e.ok
  | .waitBegin eng _ e => below 512 eng && e.ok
  | .waitEnd eng _ e => below 512 eng && e.ok
  | .openReport eng e => below 512 eng && e.ok
  | .hangDetected tag e => fits 16 tag && e.ok
  | .hangCut tag e => fits 16 tag && e.ok
  | .hangNoticeRx src _ t => src.ok && fits 64 t
  | .hangProbe tag t => fits 16 tag && fits 64 t
  | .hangComponentRx _ t => fits 64 t
  | .hangGraphDeadline level hangId t => below 4 level && fits 64 hangId && fits 64 t
  | .silInstrRetire seq _ e => below 64 seq && e.ok
  | .spanEntry seq level ia e => below 64 seq && below 3 level && fits 64 ia && e.ok
  | .spanExit seq ia e => below 64 seq && fits 64 ia && e.ok
  | .outFlush k e => below 128 k && e.ok
  | .silRecTimeout k e => below 128 k && e.ok
  | .silResume k e => below 128 k && e.ok
  | .silSeqEnWrite value e => fits 64 value && e.ok
  | .syncReq value e => fits 64 value && e.ok
  | .grantWrite g _ e => below 4 g && e.ok
  | .grantRevoke g e => below 4 g && e.ok
  | .grantExpired g e => below 4 g && e.ok
  | .silRecordRx n vl _ t => below 32 n && below 16 vl && fits 64 t
  | .flcSwTrig value t => fits 64 value && fits 64 t
  | .freezeReq _ t => fits 64 t
  | .freezeFire n t => below 4 n && fits 64 t
  | .captureEnd n t => below 4 n && fits 64 t
  | .flcRelease n value t => below 4 n && fits 64 value && fits 64 t
  | .drainOutput eng _ e => below 512 eng && e.ok
  | .firstNan eng _ e => below 512 eng && e.ok
  | .uncorrectedError _ _ e => e.ok
  | .correctedError _ _ e => e.ok
  | .canaryStart eng predIdle _ e => below 512 eng && fits 64 predIdle && e.ok
  | .canaryAbort eng _ e => below 512 eng && e.ok
  | .canaryComplete eng _ _ e => below 512 eng && e.ok
  | .tiebreakWait cluster e => below 32 cluster && e.ok
  | .mirrorCapture eng cmdSeq len _ _ _ ftStart e => below 512 eng && fits 32 cmdSeq && fits 64 len && fits 64 ftStart && e.ok
  | .abortWindow eng e => below 512 eng && e.ok
  | .mismatchRecordRx src tag rank _ t => src.ok && fits 16 tag && fits 20 rank && fits 64 t
  | .firstNanRx src tag rank _ t => src.ok && fits 16 tag && fits 20 rank && fits 64 t
  | .weightLoadDone tensor _ _ e => fits 32 tensor && e.ok
  | .weightHashDone tensor e => fits 32 tensor && e.ok
  | .inputIngest tensor _ _ e => fits 32 tensor && e.ok
  | .tileDrain _ e => e.ok
  | .resultMark p value e => p.ok && fits 64 value && e.ok
  | .rankDigestRx src tag rank _ t => src.ok && fits 16 tag && fits 20 rank && fits 64 t
  | .resultTimeout tag result t => fits 16 tag && fits 32 result && fits 64 t
  | .bucketOrderRx src _ t => src.ok && fits 64 t
  | .bucketOrderDeadline tag collSeq t => fits 16 tag && fits 64 collSeq && fits 64 t
  | .partialRx _ t => fits 64 t
  | .fwdEnvelopeRx _ t => fits 64 t
  | .start _ _ _ e => e.ok
  | .retract _ _ e => e.ok
  | .config _ _ _ e => e.ok
  | .freeze _ _ t => fits 64 t
  | .hangFreeze _ _ hangId e => fits 64 hangId && e.ok
  | .jobFault _ _ _ e => e.ok
  | .tree _ epoch _ t => fits 32 epoch && fits 64 t
  | .hopAck _ bseq t => fits 64 bseq && fits 64 t
  | .done _ bseq _ t => fits 64 bseq && fits 64 t
  | .hopAckTimeout _ bseq t => fits 64 bseq && fits 64 t
  | .doneTimeout _ bseq t => fits 64 bseq && fits 64 t
  | .hopFail tray t => below 4096 tray && fits 64 t
  | .faultNotice tag _ t => fits 16 tag && fits 64 t
  | .heartbeatTx t => fits 64 t
  | .heartbeat _ rootEpoch t => fits 16 rootEpoch && fits 64 t
  | .rootTakeover t => fits 64 t
  | .retractDeadline tag t => fits 16 tag && fits 64 t
  | .reschedWait tag t => fits 16 tag && fits 64 t
  | .treeProbe t => fits 64 t
  | .startBarrier engs _ _ e => engs.all (below 512) && e.ok
  | .dieJobEnd tag _ e => fits 16 tag && e.ok
  | .jobEndRecord tag e => fits 16 tag && e.ok
  | .jobEndRx src tag rank _ t => src.ok && fits 16 tag && fits 20 rank && fits 64 t
  | .drainLimit c t => below 33 c && fits 64 t
  | .ctxHold c t => below 33 c && fits 64 t
  | .noseEval c no t => below 33 c && fits 64 no && fits 64 t
  | .noseEvalDone t => fits 64 t
  | .loadModel _ _ t => fits 64 t
  | .modelCopyStart t => fits 64 t
  | .modelCopyDone t => fits 64 t
  | .loadBaseline _ t => fits 64 t
  | .saveBaseline _ t => fits 64 t
  | .unload _ t => fits 64 t
  | .portTrain at_ loc _ _ _ e => at_.ok && fits 17 loc && e.ok
  | .portDown at_ _ e => at_.ok && e.ok
  | .fbSettle cls e => below 8 cls && e.ok
  | .dataFlitRx at_ bytes errs e => at_.ok && (⟨bytes, errs⟩ : FlitRx).ok && e.ok
  | .nak at_ x e => at_.ok && x.ok && e.ok
  | .nakRepeat at_ e => at_.ok && e.ok
  | .resyncReq bytes errs e => (⟨bytes, errs⟩ : FlitRx).ok && e.ok
  | .keyReq x e => x.ok && e.ok
  | .retrainReq x e => x.at_.ok && x.flit.ok && e.ok
  | .relayFrameRx n vl _ t => below 32 n && below 16 vl && fits 64 t
  | .ingestWindow t => fits 64 t
  | .gateEntryBegin g e => g.ok && e.ok
  | .gateChange g e => g.ok && e.ok
  | .changeTWrite g value e => g.ok && fits 64 value && e.ok
  | .shaperWrite g eq reg value e => g.ok && below 1024 eq && below 4 reg && fits 64 value && e.ok
  | .policerWrite n reg value t => below 32 n && below 4 reg && fits 64 value && fits 64 t
  | .flitSlot at_ e => at_.ok && e.ok
  | .egressFrameStart g e => g.ok && e.ok
  | .fallbackPacketRx _ e => e.ok
  | .uplinkDown u t => below 4 u && fits 64 t
  | .uplinkUp u t => below 4 u && fits 64 t
  | .hnrRecordWrite n vl _ t => below 32 n && below 16 vl && fits 64 t
  | .eventRequest _ _ e => e.ok
  | .eventCommit _ _ e => e.ok
  | .eventRecordRx n _ t => below 32 n && fits 64 t
  | .evrClear _ value e => fits 64 value && e.ok
  | .blotCursorWrite _ value e => fits 64 value && e.ok
  | .rlEntryWrite _ k value e => k.all (below 256) && fits 64 value && e.ok
  | .prevFrontierScan t => fits 64 t
  | .dieReset e => e.ok
  | .alwaysOnPowerUp e => e.ok
  | .cmpStart _ k e => below 8 k && e.ok
  | .cmpAbort _ k _ e => below 8 k && e.ok
  | .cmpJobEnd _ k _ e => below 8 k && e.ok
  | .decStart k t => below 8 k && fits 64 t
  | .decAbort k _ t => below 8 k && fits 64 t
  | .decJobEnd k _ t => below 8 k && fits 64 t
  | .cmpAssign value t => fits 64 value && fits 64 t
  | .cvCtrlWrite _ c value e => below 16 c && fits 64 value && e.ok
  | .cvValueWrite _ c value e => below 16 c && fits 64 value && e.ok
  | .cvData64 _ c value e => below 16 c && fits 64 value && e.ok
  | .cvData32 _ c value e => below 16 c && fits 64 value && e.ok
  | .cvDataTail _ c value e => below 16 c && fits 64 value && e.ok
  | .feedStart _ c e => below 16 c && e.ok
  | .feedAbort _ c _ e => below 16 c && e.ok
  | .feedDone _ c e => below 16 c && e.ok
  | .ringSel value t => fits 64 value && fits 64 t
  | .ringCommit value t => fits 64 value && fits 64 t
  | .tailWrite k value t => fits 16 k && fits 64 value && fits 64 t
  | .cmplHeadWrite k value t => fits 16 k && fits 64 value && fits 64 t
  | .descFetch _ t => fits 64 t
  | .cmplWrite k t => fits 16 k && fits 64 t
  | .readItem k tag _ t => fits 16 k && fits 16 tag && fits 64 t
  | .readSummary k tag _ t => fits 16 k && fits 16 tag && fits 64 t
  | .reduce k tag _ t => fits 16 k && fits 16 tag && fits 64 t
  | .readCounters k tag _ t => fits 16 k && fits 16 tag && fits 64 t
  | .readRecords k tag _ t => fits 16 k && fits 16 tag && fits 64 t
  | .subAccord k tag t => fits 16 k && fits 16 tag && fits 64 t
  | .subRecords k tag t => fits 16 k && fits 16 tag && fits 64 t
  | .cancel k tag t => fits 16 k && fits 16 tag && fits 64 t
  | .trigger k tag t => fits 16 k && fits 16 tag && fits 64 t
  | .release k tag t => fits 16 k && fits 16 tag && fits 64 t
  | .controlConfig k tag _ t => fits 16 k && fits 16 tag && fits 64 t
  | .startJob k tag jobTag _ t => fits 16 k && fits 16 tag && fits 16 jobTag && fits 64 t
  | .exportHeart k tag t => fits 16 k && fits 16 tag && fits 64 t
  | .exportFlacon k tag t => fits 16 k && fits 16 tag && fits 64 t
  | .exportPeriod k t => fits 16 k && fits 64 t
  | .replay k tag t => fits 16 k && fits 16 tag && fits 64 t
  | .qpOpen k _ t => fits 16 k && fits 64 t
  | .qpDesc session pseq ack _ _ t => fits 32 session && fits 32 pseq && fits 32 ack && fits 64 t
  | .qpAck session ack _ t => fits 32 session && fits 32 ack && fits 64 t
  | .qpClose session _ t => fits 32 session && fits 64 t
  | .qpRetx session pseq t => fits 32 session && fits 32 pseq && fits 64 t
  | .getInfo _ seq t => fits 16 seq && fits 64 t
  | .getStatus _ seq t => fits 16 seq && fits 64 t
  | .getTime _ seq t => fits 16 seq && fits 64 t
  | .stageWrite _ seq off _ t => fits 16 seq && fits 32 off && fits 64 t
  | .stageRead _ seq off len t => fits 16 seq && fits 32 off && fits 64 len && fits 64 t
  | .flashUpdate _ seq len t => fits 16 seq && fits 64 len && fits 64 t
  | .reconfigure _ seq t => fits 16 seq && fits 64 t
  | .selfTest _ seq level t => fits 16 seq && fits 8 level && fits 64 t
  | .journalDump _ seq t => fits 16 seq && fits 64 t
  | .longCommandDone _ t => fits 64 t
  | .pldmBase _ t => fits 64 t
  | .pldmPlatform sensor t => below 5 sensor && fits 64 t
  | .pldmFwUpdate off _ _ len t => fits 32 off && fits 64 len && fits 64 t
  | .resetRelease pos _ t => below 4096 pos && fits 64 t
  | .imageReadDone _ _ t => fits 64 t
  | .otuDescriptor _ _ _ e => e.ok
  | .faultWait n t => below 32 n && fits 64 t
  | .mirrorRx port _ t => below 2 port && fits 64 t
  | .buddyRequest from_ epoch _ t => below 4096 from_ && fits 32 epoch && fits 64 t
  | .buddyTimeout t => fits 64 t
  | .fromStore t => fits 64 t
  | .skipStore t => fits 64 t
  | .recoveryStepReq _ from_ epoch level step slots e => below 4096 from_ && fits 32 epoch && fits 8 level && fits 16 step && slots.all (below 33) && e.ok
  | .buddyPortDown p t => below 2 p && fits 64 t
  | .buddyPortUp p peer t => below 2 p && below 4096 peer && fits 64 t
  | .powerGood osfp t => below 16 osfp && fits 64 t
  | .pwrFail _ t => fits 64 t
  | .mramWriteProtect t => fits 64 t
  | .railFault t => fits 64 t
  | .prdReset t => fits 64 t
  | .thermWarn sensor _ t => below 5 sensor && fits 64 t
  | .thermThrottle sensor _ t => below 5 sensor && fits 64 t
  | .thermTrip sensor _ t => below 5 sensor && fits 64 t
  | .osfpOvercurrent u t => below 4 u && fits 64 t
  | .osfpCtrlWrite value t => fits 64 value && fits 64 t
  | .ocxoFail t => fits 64 t
  | .ocxoReturn t => fits 64 t
  | .ocxoWarm t => fits 64 t
  | .pllUnlock t => fits 64 t
  | .tmuxCfgWrite _ value e => fits 64 value && e.ok
  | .tmuxGrantWrite id scope uid expiry _ t => fits 32 id && fits 8 scope && fits 64 uid && fits 64 expiry && fits 64 t
  | .tmuxSelWrite _ k value e => below 16 k && fits 64 value && e.ok
  | .tmuxGrantExpired t => fits 64 t
  | .tapInstruction _ t => fits 64 t
  | .modulePowerOn t => fits 64 t
  | .holdupEnd t => fits 64 t
  | .twBind w value e => below 64 w && fits 64 value && e.ok
  | .twPageWrite w _ value e => below 64 w && fits 64 value && e.ok
  | .bar4WinWrite value t => fits 64 value && fits 64 t
  | .bar4Write off _ t => fits 32 off && fits 64 t

/-- The part at which a command acts: the OTU of the die, or the Priord of the tray. -/
def Instr.part (i : Instr) : Part :=
  match i with
  | .registerWrite p _ _ _ _ => p.part
  | .rcRead p _ _ => p.part
  | .ptpSync _ _ _ => .prd
  | .ptpFollowUp _ _ _ _ _ => .prd
  | .ptpDelayReqTx _ _ _ => .prd
  | .ptpDelayResp _ _ _ _ _ => .prd
  | .ptpPdelayReqTx _ _ _ => .prd
  | .ptpPdelayResp _ _ _ => .prd
  | .ptpAnnounce _ _ _ => .prd
  | .ptpIgnoredMessage _ _ => .prd
  | .synceQlChange _ _ _ _ => .prd
  | .holdoverEntry _ => .prd
  | .twLoss _ => .otu
  | .holdoverAgeGrade3 part _ => part
  | .lock10Min part _ => part
  | .timeWordTx at_ _ _ _ => at_.part
  | .timeWordRx at_ _ _ _ _ _ => at_.part
  | .mark _ _ _ => .otu
  | .markRecordEmit _ => .otu
  | .timeSnap _ _ => .otu
  | .ptpCfgWrite _ _ => .prd
  | .timeReset _ _ _ => .prd
  | .accordCut _ => .otu
  | .stepMark _ _ _ _ _ => .otu
  | .accordSeal _ => .otu
  | .accordDumpDone _ _ => .otu
  | .fastCut _ => .otu
  | .accordSwitch _ => .otu
  | .switchArm _ _ => .otu
  | .switchCancel _ => .otu
  | .keyReqRegular _ => .otu
  | .keyReqFast _ => .otu
  | .unpin _ _ => .otu
  | .fastCtrlWrite _ _ => .otu
  | .fastSelWrite _ _ _ => .otu
  | .accordOpen _ _ => .prd
  | .accordRecordRx _ _ _ _ _ => .prd
  | .gapRecordRx _ _ _ => .prd
  | .closureDeadline _ _ _ _ _ => .prd
  | .pmcWrite _ _ _ _ _ => .otu
  | .evselWrite _ _ _ _ _ => .otu
  | .cmdStart _ _ _ => .otu
  | .cmdComplete _ _ => .otu
  | .engineStateChange _ _ _ => .otu
  | .wrap _ _ _ _ => .otu
  | .engSnap _ _ _ => .otu
  | .gchSample _ _ _ => .otu
  | .engineCycle _ _ _ => .otu
  | .queueBind _ _ _ => .otu
  | .queueUnbind _ _ => .otu
  | .queueSample sp _ => match sp with | .die => .otu | .otuEgress => .otu | .uplink _ => .prd
  | .queueEnqueue _ _ _ => .otu
  | .queueDequeue _ _ => .otu
  | .waitBegin _ _ _ => .otu
  | .waitEnd _ _ _ => .otu
  | .openReport _ _ => .otu
  | .hangDetected _ _ => .otu
  | .hangCut _ _ => .otu
  | .hangNoticeRx _ _ _ => .prd
  | .hangProbe _ _ => .prd
  | .hangComponentRx _ _ => .prd
  | .hangGraphDeadline _ _ _ => .prd
  | .silInstrRetire _ _ _ => .otu
  | .spanEntry _ _ _ _ => .otu
  | .spanExit _ _ _ => .otu
  | .outFlush _ _ => .otu
  | .silRecTimeout _ _ => .otu
  | .silResume _ _ => .otu
  | .silSeqEnWrite _ _ => .otu
  | .syncReq _ _ => .otu
  | .grantWrite _ _ _ => .otu
  | .grantRevoke _ _ => .otu
  | .grantExpired _ _ => .otu
  | .silRecordRx _ _ _ _ => .prd
  | .flcSwTrig _ _ => .prd
  | .freezeReq _ _ => .prd
  | .freezeFire _ _ => .prd
  | .captureEnd _ _ => .prd
  | .flcRelease _ _ _ => .prd
  | .drainOutput _ _ _ => .otu
  | .firstNan _ _ _ => .otu
  | .uncorrectedError part _ _ => part
  | .correctedError part _ _ => part
  | .canaryStart _ _ _ _ => .otu
  | .canaryAbort _ _ _ => .otu
  | .canaryComplete _ _ _ _ => .otu
  | .tiebreakWait _ _ => .otu
  | .mirrorCapture _ _ _ _ _ _ _ _ => .otu
  | .abortWindow _ _ => .otu
  | .mismatchRecordRx _ _ _ _ _ => .prd
  | .firstNanRx _ _ _ _ _ => .prd
  | .weightLoadDone _ _ _ _ => .otu
  | .weightHashDone _ _ => .otu
  | .inputIngest _ _ _ _ => .otu
  | .tileDrain _ _ => .otu
  | .resultMark _ _ _ => .otu
  | .rankDigestRx _ _ _ _ _ => .prd
  | .resultTimeout _ _ _ => .prd
  | .bucketOrderRx _ _ _ => .prd
  | .bucketOrderDeadline _ _ _ => .prd
  | .partialRx _ _ => .prd
  | .fwdEnvelopeRx _ _ => .prd
  | .start at_ _ _ _ => at_
  | .retract at_ _ _ => at_
  | .config at_ _ _ _ => at_
  | .freeze _ _ _ => .prd
  | .hangFreeze at_ _ _ _ => at_
  | .jobFault at_ _ _ _ => at_
  | .tree _ _ _ _ => .prd
  | .hopAck _ _ _ => .prd
  | .done _ _ _ _ => .prd
  | .hopAckTimeout _ _ _ => .prd
  | .doneTimeout _ _ _ => .prd
  | .hopFail _ _ => .prd
  | .faultNotice _ _ _ => .prd
  | .heartbeatTx _ => .prd
  | .heartbeat _ _ _ => .prd
  | .rootTakeover _ => .prd
  | .retractDeadline _ _ => .prd
  | .reschedWait _ _ => .prd
  | .treeProbe _ => .prd
  | .startBarrier _ _ _ _ => .otu
  | .dieJobEnd _ _ _ => .otu
  | .jobEndRecord _ _ => .otu
  | .jobEndRx _ _ _ _ _ => .prd
  | .drainLimit _ _ => .prd
  | .ctxHold _ _ => .prd
  | .noseEval _ _ _ => .prd
  | .noseEvalDone _ => .prd
  | .loadModel _ _ _ => .prd
  | .modelCopyStart _ => .prd
  | .modelCopyDone _ => .prd
  | .loadBaseline _ _ => .prd
  | .saveBaseline _ _ => .prd
  | .unload _ _ => .prd
  | .portTrain at_ _ _ _ _ _ => at_.part
  | .portDown at_ _ _ => at_.part
  | .fbSettle _ _ => .otu
  | .dataFlitRx at_ _ _ _ => at_.part
  | .nak at_ _ _ => at_.part
  | .nakRepeat at_ _ => at_.part
  | .resyncReq _ _ _ => .otu
  | .keyReq _ _ => .otu
  | .retrainReq x _ => x.at_.part
  | .relayFrameRx _ _ _ _ => .prd
  | .ingestWindow _ => .prd
  | .gateEntryBegin g _ => g.part
  | .gateChange g _ => g.part
  | .changeTWrite g _ _ => g.part
  | .shaperWrite g _ _ _ _ => g.part
  | .policerWrite _ _ _ _ => .prd
  | .flitSlot at_ _ => at_.part
  | .egressFrameStart g _ => g.part
  | .fallbackPacketRx _ _ => .otu
  | .uplinkDown _ _ => .prd
  | .uplinkUp _ _ => .prd
  | .hnrRecordWrite _ _ _ _ => .prd
  | .eventRequest part _ _ => part
  | .eventCommit part _ _ => part
  | .eventRecordRx _ _ _ => .prd
  | .evrClear part _ _ => part
  | .blotCursorWrite part _ _ => part
  | .rlEntryWrite part _ _ _ => part
  | .prevFrontierScan _ => .prd
  | .dieReset _ => .otu
  | .alwaysOnPowerUp _ => .otu
  | .cmpStart at_ _ _ => at_
  | .cmpAbort at_ _ _ _ => at_
  | .cmpJobEnd at_ _ _ _ => at_
  | .decStart _ _ => .prd
  | .decAbort _ _ _ => .prd
  | .decJobEnd _ _ _ => .prd
  | .cmpAssign _ _ => .prd
  | .cvCtrlWrite at_ _ _ _ => at_
  | .cvValueWrite at_ _ _ _ => at_
  | .cvData64 at_ _ _ _ => at_
  | .cvData32 at_ _ _ _ => at_
  | .cvDataTail at_ _ _ _ => at_
  | .feedStart at_ _ _ => at_
  | .feedAbort at_ _ _ _ => at_
  | .feedDone at_ _ _ => at_
  | .ringSel _ _ => .prd
  | .ringCommit _ _ => .prd
  | .tailWrite _ _ _ => .prd
  | .cmplHeadWrite _ _ _ => .prd
  | .descFetch _ _ => .prd
  | .cmplWrite _ _ => .prd
  | .readItem _ _ _ _ => .prd
  | .readSummary _ _ _ _ => .prd
  | .reduce _ _ _ _ => .prd
  | .readCounters _ _ _ _ => .prd
  | .readRecords _ _ _ _ => .prd
  | .subAccord _ _ _ => .prd
  | .subRecords _ _ _ => .prd
  | .cancel _ _ _ => .prd
  | .trigger _ _ _ => .prd
  | .release _ _ _ => .prd
  | .controlConfig _ _ _ _ => .prd
  | .startJob _ _ _ _ _ => .prd
  | .exportHeart _ _ _ => .prd
  | .exportFlacon _ _ _ => .prd
  | .exportPeriod _ _ => .prd
  | .replay _ _ _ => .prd
  | .qpOpen _ _ _ => .prd
  | .qpDesc _ _ _ _ _ _ => .prd
  | .qpAck _ _ _ _ => .prd
  | .qpClose _ _ _ => .prd
  | .qpRetx _ _ _ => .prd
  | .getInfo _ _ _ => .prd
  | .getStatus _ _ _ => .prd
  | .getTime _ _ _ => .prd
  | .stageWrite _ _ _ _ _ => .prd
  | .stageRead _ _ _ _ _ => .prd
  | .flashUpdate _ _ _ _ => .prd
  | .reconfigure _ _ _ => .prd
  | .selfTest _ _ _ _ => .prd
  | .journalDump _ _ _ => .prd
  | .longCommandDone _ _ => .prd
  | .pldmBase _ _ => .prd
  | .pldmPlatform _ _ => .prd
  | .pldmFwUpdate _ _ _ _ _ => .prd
  | .resetRelease _ _ _ => .prd
  | .imageReadDone _ _ _ => .prd
  | .otuDescriptor _ _ _ _ => .otu
  | .faultWait _ _ => .prd
  | .mirrorRx _ _ _ => .prd
  | .buddyRequest _ _ _ _ => .prd
  | .buddyTimeout _ => .prd
  | .fromStore _ => .prd
  | .skipStore _ => .prd
  | .recoveryStepReq at_ _ _ _ _ _ _ => at_
  | .buddyPortDown _ _ => .prd
  | .buddyPortUp _ _ _ => .prd
  | .powerGood _ _ => .prd
  | .pwrFail _ _ => .prd
  | .mramWriteProtect _ => .prd
  | .railFault _ => .prd
  | .prdReset _ => .prd
  | .thermWarn _ _ _ => .prd
  | .thermThrottle _ _ _ => .prd
  | .thermTrip _ _ _ => .prd
  | .osfpOvercurrent _ _ => .prd
  | .osfpCtrlWrite _ _ => .prd
  | .ocxoFail _ => .prd
  | .ocxoReturn _ => .prd
  | .ocxoWarm _ => .prd
  | .pllUnlock _ => .prd
  | .tmuxCfgWrite at_ _ _ => at_
  | .tmuxGrantWrite _ _ _ _ _ _ => .prd
  | .tmuxSelWrite at_ _ _ _ => at_
  | .tmuxGrantExpired _ => .prd
  | .tapInstruction _ _ => .prd
  | .modulePowerOn _ => .prd
  | .holdupEnd _ => .prd
  | .twBind _ _ _ => .otu
  | .twPageWrite _ _ _ _ => .otu
  | .bar4WinWrite _ _ => .prd
  | .bar4Write _ _ _ => .prd

end Sys2Proof
end

