-- ==== Sys2Proof/Machine/RegCmd.lean ====
section
/-!
DEFINITION. Machine/RegCmd.lean: register accesses that have no row of their own: a write, and a read that clears (00 R12 to
R15, 17 R450 to R460).
-/
namespace Sys2Proof.Machine
open Sys2Proof

/-- A register that an access reaches: the part, whether through a privileged range, and its address there. -/
structure RegAt where
  part : Part
  priv : Bool
  addr : Nat
deriving DecidableEq, Repr

/-- R450, R453, R455, R389: the register behind an address of a path; none is reached outside every window. -/
def State.place (s : State) (p : Path) (addr : Nat) : Option RegAt :=
  match p with
  | .prd => if addr < 2 ^ 26 then some ⟨.prd, true, addr⟩ else none
  | .bar2 => if addr < 2 ^ 22 then some ⟨.prd, false, 0x1000000 + addr⟩ else none
  | .otu =>
    if addr < 0x200000 then some ⟨.otu, true, addr⟩
    else if addr < 0x400000 then (s.otu.windowAddr ((addr - 0x200000) / 0x8000) ((addr - 0x200000) % 0x8000)).map fun a => ⟨.otu, false, a⟩
    else none
  | .tenant w => if addr < 0x8000 then (s.otu.windowAddr w addr).map fun a => ⟨.otu, false, a⟩ else none

/-- The path by which a row of the table would see an access through `p`: an access through the privileged range at a tenant
window's addresses is that window's (R450). -/
def Path.seen (p : Path) (addr : Nat) : Path :=
  match p with
  | .otu => if addr < 0x200000 then .otu else .tenant ((addr - 0x200000) / 0x8000)
  | q => q

/-- The compressor, decompressor or check-value context whose block holds an address: its index and the offset. -/
def blockAt (base step n a : Nat) : Option (Nat × Nat) :=
  if base ≤ a && decide ((a - base) / step < n) then some ((a - base) / step, (a - base) % step) else none

/-- R358: a write in an engine's block: while it runs, every one but a command's is discarded; START starts it. An ABORT is a
row of its own, whose operands say how far the job has come (log entry 90). -/
def State.engineWrite (s : State) (p : Part) (dec : Bool) (k b off width v : Nat) : State :=
  if off = 0x24 then (if width = 4 && bit v 0 then s.startEngine p dec k else s)
  else if s.running p b then s
  else match p with
    | .otu => s.onOtu fun o => o.regWrite true (b + off) width v
    | .prd => s.onPrd fun o => o.regWrite (b + off) width v

/-- R355 to R357: a write in a check-value context's block, `f` the plain write. -/
def State.cvWrite (s : State) (p : Part) (c b off width v : Nat) (e : Edge) : Host.Outcome State Fault Refusal :=
  match off, width with
  | 0x00, 4 => execCvCtrlWrite p c v e s
  | 0x04, 4 => if bit v 0 then execFeedStart p c e s else .next s
  | 0x08, 8 => execCvValueWrite p c v e s
  | 0x08, 4 => .next (s.cvAccess p c fun s b => s.put p (b + 0x8) (setF (s.rd p (b + 0x8)) 0 32 v))
  | 0x0C, 4 => .next (s.cvAccess p c fun s b => if s.rd p b = 0 then s else s.put p (b + 0x8) (setF (s.rd p (b + 0x8)) 32 32 v))
  | 0x18, 8 => execCvData64 p c v e s
  | 0x20, 4 => execCvData32 p c v e s
  | 0x24, 4 => execCvDataTail p c v e s
  | _, _ =>
    match p with
    | .otu => .next (s.onOtu fun o => o.regWrite true (b + off) width v)
    | .prd => .next (s.onPrd fun o => o.regWrite (b + off) width v)

/-- A write of `v` to a register of the OTU: one that acts by itself does what its own row says. -/
def State.writeOtu (s : State) (p : Path) (r : RegAt) (width v : Nat) (e : Edge) : Host.Outcome State Fault Refusal :=
  let a := r.addr
  if a = OTU_TIME_SNAP_CMD && width = 4 then execTimeSnap v e s
  else if a = OTU_MARK && width = 8 then execMark p v e s
  else if a = OTU_ACC_UNPIN && width = 4 then execUnpin v e s
  else if (a = OTU_ENG_SNAP_CMD 0 || (arrayIdx (OTU_ENG_SNAP_CMD 1) 0x8000 64 a).isSome) && width = 4 then execEngSnap p v e s
  else if a = OTU_SIL_SYNC_REQ && width = 8 then execSyncReq v e s
  else if a = OTU_DIG_MARK && width = 4 then execResultMark p v e s
  else if OTU_CMP_BASE ≤ a && a < OTU_CMP_BASE + 0x54 then .next (s.engineWrite .otu false 0 OTU_CMP_BASE (a - OTU_CMP_BASE) width v)
  else match blockAt (OTU_CV_BASE 0) 0x80 4 a with
    | some (c, off) => s.cvWrite .otu c (OTU_CV_BASE c) off width v e
    | none => .next (s.onOtu fun o => o.regWrite r.priv a width v)

/-- R285, R429: a write of a command register of Priord, exactly one of whose bits must be set. LOAD_MODEL has a row of its
own, whose operand is the signature's verdict (log entry 90). -/
def State.prdCommand (s : State) (a v : Nat) (t : Nat) : Host.Outcome State Fault Refusal :=
  if a = PRD_RBLD_CMD then
    (if v % 4 = 1 then execFromStore t s else if v % 4 = 2 then execSkipStore t s else .next s)
  else
    (if v % 16 = 2 then execLoadBaseline none t s
     else if v % 16 = 4 then execSaveBaseline none t s
     else if v % 16 = 8 then execUnload none t s else .next s)

/-- A write of `v` to a register of Priord: one that acts by itself does what its own row says. -/
def State.writePrd (s : State) (r : RegAt) (width v : Nat) (e : Edge) : Host.Outcome State Fault Refusal :=
  let a := r.addr
  if a = PRD_MBX_DOORBELL && width = 4 then (if bit v 0 then s.mailboxGo e.ft else .next s)
  else if (a = PRD_RBLD_CMD || a = PRD_NOSE_LOAD_CMD) && width = 4 then s.prdCommand a v e.ft
  else match blockAt (PRD_CMP_BASE 0) 0x100 8 a, blockAt (PRD_DEC_BASE 0) 0x100 8 a, blockAt (PRD_CV_BASE 0) 0x80 16 a with
    | some (k, off), _, _ => .next (s.engineWrite .prd false k (PRD_CMP_BASE k) off width v)
    | _, some (k, off), _ => .next (s.engineWrite .prd true k (PRD_DEC_BASE k) off width v)
    | _, _, some (c, off) => s.cvWrite .prd c (PRD_CV_BASE c) off width v e
    | _, _, _ => .next (s.onPrd fun o => o.regWrite a width v)

/-- REGISTER_WRITE. -/
def execRegisterWrite (p : Path) (addr width value : Nat) (e : Edge) (s : State) : Host.Outcome State Fault Refusal :=
  let s := s.goTo p.part e
  let v := value % 2 ^ (8 * width)
  match s.place p addr with
  | none => .next s
  | some r => match r.part with
    | .otu => s.writeOtu (p.seen addr) r width v e
    | .prd => s.writePrd r width v e

/-- R15: what a read of `width` bytes at an address of a path returns; any access that R15 does not provide for reads 0. -/
def State.readAt (s : State) (p : Path) (addr width : Nat) : Nat :=
  match s.place p addr with
  | none => 0
  | some r => match r.part with
    | .otu => match accessOf otuRows r.addr width with
      | some (x, a, half) => wordRead x half (s.otu.readReg a)
      | none => 0
    | .prd => match accessOf prdRows r.addr width with
      | some (x, a, half) => wordRead x half (s.prd.readReg a)
      | none => 0

/-- RC_READ: a read of a whole register that holds RC fields returns its value ahead of this cycle's updates, and leaves these
updates in them (R12, R13, R15). -/
def execRcRead (p : Path) (addr : Nat) (e : Edge) (s : State) : Host.Outcome State Fault Refusal :=
  let s := s.goTo p.part e
  .next (match s.place p addr with
    | none => s
    | some r => match r.part, rowOf otuRows r.addr, rowOf prdRows r.addr with
      | .otu, some x, _ =>
        if x.rc = 0 then s
        else s.onOtu fun o => { OtuR.readRc o x r.addr with readOut := x.rcRead (OtuR.hw o r.addr).1 (s.readAt p addr (x.b / 8)) }
      | .prd, _, some x =>
        if x.rc = 0 then s
        else s.onPrd fun o => { PrdR.readRc o x r.addr with readOut := x.rcRead (PrdR.hw o r.addr).1 (s.readAt p addr (x.b / 8)) }
      | _, _, _ => s)

end Sys2Proof.Machine
end

