-- ==== Sys2Proof/Machine/Dispatch.lean ====
section
/-!
DEFINITION. Machine/Dispatch.lean: one arm for each command.
-/
namespace Sys2Proof.Machine
open Sys2Proof

-- The effect of a command on everything but the queue.
def exec (i : Instr) (s : State) : Host.Outcome State Fault Refusal :=
  match i with
  | .registerWrite p addr width value e => Sys2Proof.Machine.execRegisterWrite p addr width value e s
  | .rcRead p addr e => Sys2Proof.Machine.execRcRead p addr e s
  | .ptpSync u m t => Sys2Proof.Machine.execPtpSync u m t s
  | .ptpFollowUp u seqId origin corr t => Sys2Proof.Machine.execPtpFollowUp u seqId origin corr t s
  | .ptpDelayReqTx u tx t => Sys2Proof.Machine.execPtpDelayReqTx u tx t s
  | .ptpDelayResp u seqId rx corr t => Sys2Proof.Machine.execPtpDelayResp u seqId rx corr t s
  | .ptpPdelayReqTx u tx t => Sys2Proof.Machine.execPtpPdelayReqTx u tx t s
  | .ptpPdelayResp u m t => Sys2Proof.Machine.execPtpPdelayResp u m t s
  | .ptpAnnounce u m t => Sys2Proof.Machine.execPtpAnnounce u m t s
  | .ptpIgnoredMessage u t => Sys2Proof.Machine.execPtpIgnoredMessage u t s
  | .synceQlChange u ql lost t => Sys2Proof.Machine.execSynceQlChange u ql lost t s
  | .holdoverEntry t => Sys2Proof.Machine.execHoldoverEntry t s
  | .twLoss e => Sys2Proof.Machine.execTwLoss e s
  | .holdoverAgeGrade3 part e => Sys2Proof.Machine.execHoldoverAgeGrade3 part e s
  | .lock10Min part e => Sys2Proof.Machine.execLock10Min part e s
  | .timeWordTx at_ tx txFrac e => Sys2Proof.Machine.execTimeWordTx at_ tx txFrac e s
  | .timeWordRx at_ bytes rx rxFrac errs e => Sys2Proof.Machine.execTimeWordRx at_ bytes rx rxFrac errs e s
  | .mark p value e => Sys2Proof.Machine.execMark p value e s
  | .markRecordEmit e => Sys2Proof.Machine.execMarkRecordEmit e s
  | .timeSnap value e => Sys2Proof.Machine.execTimeSnap value e s
  | .ptpCfgWrite value t => Sys2Proof.Machine.execPtpCfgWrite value t s
  | .timeReset p seq t => Sys2Proof.Machine.execTimeReset p seq t s
  | .accordCut e => Sys2Proof.Machine.execAccordCut e s
  | .stepMark seq kind stepNo tokens e => Sys2Proof.Machine.execStepMark seq kind stepNo tokens e s
  | .accordSeal e => Sys2Proof.Machine.execAccordSeal e s
  | .accordDumpDone ok e => Sys2Proof.Machine.execAccordDumpDone ok e s
  | .fastCut e => Sys2Proof.Machine.execFastCut e s
  | .accordSwitch e => Sys2Proof.Machine.execAccordSwitch e s
  | .switchArm value e => Sys2Proof.Machine.execSwitchArm value e s
  | .switchCancel e => Sys2Proof.Machine.execSwitchCancel e s
  | .keyReqRegular e => Sys2Proof.Machine.execKeyReqRegular e s
  | .keyReqFast e => Sys2Proof.Machine.execKeyReqFast e s
  | .unpin value e => Sys2Proof.Machine.execUnpin value e s
  | .fastCtrlWrite value e => Sys2Proof.Machine.execFastCtrlWrite value e s
  | .fastSelWrite k value e => Sys2Proof.Machine.execFastSelWrite k value e s
  | .accordOpen fast t => Sys2Proof.Machine.execAccordOpen fast t s
  | .accordRecordRx src tag rank body t => Sys2Proof.Machine.execAccordRecordRx src tag rank body t s
  | .gapRecordRx src g t => Sys2Proof.Machine.execGapRecordRx src g t s
  | .closureDeadline level ctx kind no t => Sys2Proof.Machine.execClosureDeadline level ctx kind no t s
  | .pmcWrite p eng k value e => Sys2Proof.Machine.execPmcWrite p eng k value e s
  | .evselWrite p eng k value e => Sys2Proof.Machine.execEvselWrite p eng k value e s
  | .cmdStart eng c e => Sys2Proof.Machine.execCmdStart eng c e s
  | .cmdComplete c e => Sys2Proof.Machine.execCmdComplete c e s
  | .engineStateChange eng st e => Sys2Proof.Machine.execEngineStateChange eng st e s
  | .wrap eng c n e => Sys2Proof.Machine.execWrap eng c n e s
  | .engSnap p value e => Sys2Proof.Machine.execEngSnap p value e s
  | .gchSample values validMask e => Sys2Proof.Machine.execGchSample values validMask e s
  | .engineCycle eng c e => Sys2Proof.Machine.execEngineCycle eng c e s
  | .queueBind q tag e => Sys2Proof.Machine.execQueueBind q tag e s
  | .queueUnbind q e => Sys2Proof.Machine.execQueueUnbind q e s
  | .queueSample sp e => Sys2Proof.Machine.execQueueSample sp e s
  | .queueEnqueue q c e => Sys2Proof.Machine.execQueueEnqueue q c e s
  | .queueDequeue q e => Sys2Proof.Machine.execQueueDequeue q e s
  | .waitBegin eng w e => Sys2Proof.Machine.execWaitBegin eng w e s
  | .waitEnd eng cancelled e => Sys2Proof.Machine.execWaitEnd eng cancelled e s
  | .openReport eng e => Sys2Proof.Machine.execOpenReport eng e s
  | .hangDetected tag e => Sys2Proof.Machine.execHangDetected tag e s
  | .hangCut tag e => Sys2Proof.Machine.execHangCut tag e s
  | .hangNoticeRx src n t => Sys2Proof.Machine.execHangNoticeRx src n t s
  | .hangProbe tag t => Sys2Proof.Machine.execHangProbe tag t s
  | .hangComponentRx c t => Sys2Proof.Machine.execHangComponentRx c t s
  | .hangGraphDeadline level hangId t => Sys2Proof.Machine.execHangGraphDeadline level hangId t s
  | .silInstrRetire seq i_ e => Sys2Proof.Machine.execSilInstrRetire seq i_ e s
  | .spanEntry seq level ia e => Sys2Proof.Machine.execSpanEntry seq level ia e s
  | .spanExit seq ia e => Sys2Proof.Machine.execSpanExit seq ia e s
  | .outFlush k e => Sys2Proof.Machine.execOutFlush k e s
  | .silRecTimeout k e => Sys2Proof.Machine.execSilRecTimeout k e s
  | .silResume k e => Sys2Proof.Machine.execSilResume k e s
  | .silSeqEnWrite value e => Sys2Proof.Machine.execSilSeqEnWrite value e s
  | .syncReq value e => Sys2Proof.Machine.execSyncReq value e s
  | .grantWrite g x e => Sys2Proof.Machine.execGrantWrite g x e s
  | .grantRevoke g e => Sys2Proof.Machine.execGrantRevoke g e s
  | .grantExpired g e => Sys2Proof.Machine.execGrantExpired g e s
  | .silRecordRx n vl frame t => Sys2Proof.Machine.execSilRecordRx n vl frame t s
  | .flcSwTrig value t => Sys2Proof.Machine.execFlcSwTrig value t s
  | .freezeReq x t => Sys2Proof.Machine.execFreezeReq x t s
  | .freezeFire n t => Sys2Proof.Machine.execFreezeFire n t s
  | .captureEnd n t => Sys2Proof.Machine.execCaptureEnd n t s
  | .flcRelease n value t => Sys2Proof.Machine.execFlcRelease n value t s
  | .drainOutput eng x e => Sys2Proof.Machine.execDrainOutput eng x e s
  | .firstNan eng x e => Sys2Proof.Machine.execFirstNan eng x e s
  | .uncorrectedError part x e => Sys2Proof.Machine.execUncorrectedError part x e s
  | .correctedError part x e => Sys2Proof.Machine.execCorrectedError part x e s
  | .canaryStart eng predIdle x e => Sys2Proof.Machine.execCanaryStart eng predIdle x e s
  | .canaryAbort eng final e => Sys2Proof.Machine.execCanaryAbort eng final e s
  | .canaryComplete eng out c e => Sys2Proof.Machine.execCanaryComplete eng out c e s
  | .tiebreakWait cluster e => Sys2Proof.Machine.execTiebreakWait cluster e s
  | .mirrorCapture eng cmdSeq len operands out c ftStart e => Sys2Proof.Machine.execMirrorCapture eng cmdSeq len operands out c ftStart e s
  | .abortWindow eng e => Sys2Proof.Machine.execAbortWindow eng e s
  | .mismatchRecordRx src tag rank body t => Sys2Proof.Machine.execMismatchRecordRx src tag rank body t s
  | .firstNanRx src tag rank body t => Sys2Proof.Machine.execFirstNanRx src tag rank body t s
  | .weightLoadDone tensor format bytes e => Sys2Proof.Machine.execWeightLoadDone tensor format bytes e s
  | .weightHashDone tensor e => Sys2Proof.Machine.execWeightHashDone tensor e s
  | .inputIngest tensor part bytes e => Sys2Proof.Machine.execInputIngest tensor part bytes e s
  | .tileDrain x e => Sys2Proof.Machine.execTileDrain x e s
  | .resultMark p value e => Sys2Proof.Machine.execResultMark p value e s
  | .rankDigestRx src tag rank body t => Sys2Proof.Machine.execRankDigestRx src tag rank body t s
  | .resultTimeout tag result t => Sys2Proof.Machine.execResultTimeout tag result t s
  | .bucketOrderRx src b t => Sys2Proof.Machine.execBucketOrderRx src b t s
  | .bucketOrderDeadline tag collSeq t => Sys2Proof.Machine.execBucketOrderDeadline tag collSeq t s
  | .partialRx p t => Sys2Proof.Machine.execPartialRx p t s
  | .fwdEnvelopeRx x t => Sys2Proof.Machine.execFwdEnvelopeRx x t s
  | .start at_ h m e => Sys2Proof.Machine.execStart at_ h m e s
  | .retract at_ h e => Sys2Proof.Machine.execRetract at_ h e s
  | .config at_ h l e => Sys2Proof.Machine.execConfig at_ h l e s
  | .freeze h x t => Sys2Proof.Machine.execFreeze h x t s
  | .hangFreeze at_ h hangId e => Sys2Proof.Machine.execHangFreeze at_ h hangId e s
  | .jobFault at_ h x e => Sys2Proof.Machine.execJobFault at_ h x e s
  | .tree h epoch roles t => Sys2Proof.Machine.execTree h epoch roles t s
  | .hopAck c bseq t => Sys2Proof.Machine.execHopAck c bseq t s
  | .done c bseq d t => Sys2Proof.Machine.execDone c bseq d t s
  | .hopAckTimeout c bseq t => Sys2Proof.Machine.execHopAckTimeout c bseq t s
  | .doneTimeout c bseq t => Sys2Proof.Machine.execDoneTimeout c bseq t s
  | .hopFail tray t => Sys2Proof.Machine.execHopFail tray t s
  | .faultNotice tag x t => Sys2Proof.Machine.execFaultNotice tag x t s
  | .heartbeatTx t => Sys2Proof.Machine.execHeartbeatTx t s
  | .heartbeat l rootEpoch t => Sys2Proof.Machine.execHeartbeat l rootEpoch t s
  | .rootTakeover t => Sys2Proof.Machine.execRootTakeover t s
  | .retractDeadline tag t => Sys2Proof.Machine.execRetractDeadline tag t s
  | .reschedWait tag t => Sys2Proof.Machine.execReschedWait tag t s
  | .treeProbe t => Sys2Proof.Machine.execTreeProbe t s
  | .startBarrier engs imgs ucs e => Sys2Proof.Machine.execStartBarrier engs imgs ucs e s
  | .dieJobEnd tag cause e => Sys2Proof.Machine.execDieJobEnd tag cause e s
  | .jobEndRecord tag e => Sys2Proof.Machine.execJobEndRecord tag e s
  | .jobEndRx src tag rank body t => Sys2Proof.Machine.execJobEndRx src tag rank body t s
  | .drainLimit c t => Sys2Proof.Machine.execDrainLimit c t s
  | .ctxHold c t => Sys2Proof.Machine.execCtxHold c t s
  | .noseEval c no t => Sys2Proof.Machine.execNoseEval c no t s
  | .noseEvalDone t => Sys2Proof.Machine.execNoseEvalDone t s
  | .loadModel via sigOk t => Sys2Proof.Machine.execLoadModel via sigOk t s
  | .modelCopyStart t => Sys2Proof.Machine.execModelCopyStart t s
  | .modelCopyDone t => Sys2Proof.Machine.execModelCopyDone t s
  | .loadBaseline via t => Sys2Proof.Machine.execLoadBaseline via t s
  | .saveBaseline via t => Sys2Proof.Machine.execSaveBaseline via t s
  | .unload via t => Sys2Proof.Machine.execUnload via t s
  | .portTrain at_ loc fromReset fault credit e => Sys2Proof.Machine.execPortTrain at_ loc fromReset fault credit e s
  | .portDown at_ relayAnswers e => Sys2Proof.Machine.execPortDown at_ relayAnswers e s
  | .fbSettle cls e => Sys2Proof.Machine.execFbSettle cls e s
  | .dataFlitRx at_ bytes errs e => Sys2Proof.Machine.execDataFlitRx at_ bytes errs e s
  | .nak at_ x e => Sys2Proof.Machine.execNak at_ x e s
  | .nakRepeat at_ e => Sys2Proof.Machine.execNakRepeat at_ e s
  | .resyncReq bytes errs e => Sys2Proof.Machine.execResyncReq bytes errs e s
  | .keyReq x e => Sys2Proof.Machine.execKeyReq x e s
  | .retrainReq x e => Sys2Proof.Machine.execRetrainReq x e s
  | .relayFrameRx n vl frame t => Sys2Proof.Machine.execRelayFrameRx n vl frame t s
  | .ingestWindow t => Sys2Proof.Machine.execIngestWindow t s
  | .gateEntryBegin g e => Sys2Proof.Machine.execGateEntryBegin g e s
  | .gateChange g e => Sys2Proof.Machine.execGateChange g e s
  | .changeTWrite g value e => Sys2Proof.Machine.execChangeTWrite g value e s
  | .shaperWrite g eq reg value e => Sys2Proof.Machine.execShaperWrite g eq reg value e s
  | .policerWrite n reg value t => Sys2Proof.Machine.execPolicerWrite n reg value t s
  | .flitSlot at_ e => Sys2Proof.Machine.execFlitSlot at_ e s
  | .egressFrameStart g e => Sys2Proof.Machine.execEgressFrameStart g e s
  | .fallbackPacketRx p e => Sys2Proof.Machine.execFallbackPacketRx p e s
  | .uplinkDown u t => Sys2Proof.Machine.execUplinkDown u t s
  | .uplinkUp u t => Sys2Proof.Machine.execUplinkUp u t s
  | .hnrRecordWrite n vl frame t => Sys2Proof.Machine.execHnrRecordWrite n vl frame t s
  | .eventRequest part r e => Sys2Proof.Machine.execEventRequest part r e s
  | .eventCommit part mramOk e => Sys2Proof.Machine.execEventCommit part mramOk e s
  | .eventRecordRx n r t => Sys2Proof.Machine.execEventRecordRx n r t s
  | .evrClear part value e => Sys2Proof.Machine.execEvrClear part value e s
  | .blotCursorWrite part value e => Sys2Proof.Machine.execBlotCursorWrite part value e s
  | .rlEntryWrite part k value e => Sys2Proof.Machine.execRlEntryWrite part k value e s
  | .prevFrontierScan t => Sys2Proof.Machine.execPrevFrontierScan t s
  | .dieReset e => Sys2Proof.Machine.execDieReset e s
  | .alwaysOnPowerUp e => Sys2Proof.Machine.execAlwaysOnPowerUp e s
  | .cmpStart at_ k e => Sys2Proof.Machine.execCmpStart at_ k e s
  | .cmpAbort at_ k blocks e => Sys2Proof.Machine.execCmpAbort at_ k blocks e s
  | .cmpJobEnd at_ k memErr e => Sys2Proof.Machine.execCmpJobEnd at_ k memErr e s
  | .decStart k t => Sys2Proof.Machine.execDecStart k t s
  | .decAbort k blocks t => Sys2Proof.Machine.execDecAbort k blocks t s
  | .decJobEnd k memErr t => Sys2Proof.Machine.execDecJobEnd k memErr t s
  | .cmpAssign value t => Sys2Proof.Machine.execCmpAssign value t s
  | .cvCtrlWrite at_ c value e => Sys2Proof.Machine.execCvCtrlWrite at_ c value e s
  | .cvValueWrite at_ c value e => Sys2Proof.Machine.execCvValueWrite at_ c value e s
  | .cvData64 at_ c value e => Sys2Proof.Machine.execCvData64 at_ c value e s
  | .cvData32 at_ c value e => Sys2Proof.Machine.execCvData32 at_ c value e s
  | .cvDataTail at_ c value e => Sys2Proof.Machine.execCvDataTail at_ c value e s
  | .feedStart at_ c e => Sys2Proof.Machine.execFeedStart at_ c e s
  | .feedAbort at_ c fed e => Sys2Proof.Machine.execFeedAbort at_ c fed e s
  | .feedDone at_ c e => Sys2Proof.Machine.execFeedDone at_ c e s
  | .ringSel value t => Sys2Proof.Machine.execRingSel value t s
  | .ringCommit value t => Sys2Proof.Machine.execRingCommit value t s
  | .tailWrite k value t => Sys2Proof.Machine.execTailWrite k value t s
  | .cmplHeadWrite k value t => Sys2Proof.Machine.execCmplHeadWrite k value t s
  | .descFetch host t => Sys2Proof.Machine.execDescFetch host t s
  | .cmplWrite k t => Sys2Proof.Machine.execCmplWrite k t s
  | .readItem k tag err t => Sys2Proof.Machine.execReadItem k tag err t s
  | .readSummary k tag err t => Sys2Proof.Machine.execReadSummary k tag err t s
  | .reduce k tag err t => Sys2Proof.Machine.execReduce k tag err t s
  | .readCounters k tag err t => Sys2Proof.Machine.execReadCounters k tag err t s
  | .readRecords k tag err t => Sys2Proof.Machine.execReadRecords k tag err t s
  | .subAccord k tag t => Sys2Proof.Machine.execSubAccord k tag t s
  | .subRecords k tag t => Sys2Proof.Machine.execSubRecords k tag t s
  | .cancel k tag t => Sys2Proof.Machine.execCancel k tag t s
  | .trigger k tag t => Sys2Proof.Machine.execTrigger k tag t s
  | .release k tag t => Sys2Proof.Machine.execRelease k tag t s
  | .controlConfig k tag l t => Sys2Proof.Machine.execControlConfig k tag l t s
  | .startJob k tag jobTag m t => Sys2Proof.Machine.execStartJob k tag jobTag m t s
  | .exportHeart k tag t => Sys2Proof.Machine.execExportHeart k tag t s
  | .exportFlacon k tag t => Sys2Proof.Machine.execExportFlacon k tag t s
  | .exportPeriod k t => Sys2Proof.Machine.execExportPeriod k t s
  | .replay k tag t => Sys2Proof.Machine.execReplay k tag t s
  | .qpOpen k ok t => Sys2Proof.Machine.execQpOpen k ok t s
  | .qpDesc session pseq ack descs ok t => Sys2Proof.Machine.execQpDesc session pseq ack descs ok t s
  | .qpAck session ack ok t => Sys2Proof.Machine.execQpAck session ack ok t s
  | .qpClose session ok t => Sys2Proof.Machine.execQpClose session ok t s
  | .qpRetx session pseq t => Sys2Proof.Machine.execQpRetx session pseq t s
  | .getInfo p seq t => Sys2Proof.Machine.execGetInfo p seq t s
  | .getStatus p seq t => Sys2Proof.Machine.execGetStatus p seq t s
  | .getTime p seq t => Sys2Proof.Machine.execGetTime p seq t s
  | .stageWrite p seq off bytes t => Sys2Proof.Machine.execStageWrite p seq off bytes t s
  | .stageRead p seq off len t => Sys2Proof.Machine.execStageRead p seq off len t s
  | .flashUpdate p seq len t => Sys2Proof.Machine.execFlashUpdate p seq len t s
  | .reconfigure p seq t => Sys2Proof.Machine.execReconfigure p seq t s
  | .selfTest p seq level t => Sys2Proof.Machine.execSelfTest p seq level t s
  | .journalDump p seq t => Sys2Proof.Machine.execJournalDump p seq t s
  | .longCommandDone x t => Sys2Proof.Machine.execLongCommandDone x t s
  | .pldmBase cmd t => Sys2Proof.Machine.execPldmBase cmd t s
  | .pldmPlatform sensor t => Sys2Proof.Machine.execPldmPlatform sensor t s
  | .pldmFwUpdate off bytes last len t => Sys2Proof.Machine.execPldmFwUpdate off bytes last len t s
  | .resetRelease pos par t => Sys2Proof.Machine.execResetRelease pos par t s
  | .imageReadDone flashOk sigOk t => Sys2Proof.Machine.execImageReadDone flashOk sigOk t s
  | .otuDescriptor bytes hbm testOk e => Sys2Proof.Machine.execOtuDescriptor bytes hbm testOk e s
  | .faultWait n t => Sys2Proof.Machine.execFaultWait n t s
  | .mirrorRx port x t => Sys2Proof.Machine.execMirrorRx port x t s
  | .buddyRequest from_ epoch since t => Sys2Proof.Machine.execBuddyRequest from_ epoch since t s
  | .buddyTimeout t => Sys2Proof.Machine.execBuddyTimeout t s
  | .fromStore t => Sys2Proof.Machine.execFromStore t s
  | .skipStore t => Sys2Proof.Machine.execSkipStore t s
  | .recoveryStepReq at_ from_ epoch level step slots e => Sys2Proof.Machine.execRecoveryStepReq at_ from_ epoch level step slots e s
  | .buddyPortDown p t => Sys2Proof.Machine.execBuddyPortDown p t s
  | .buddyPortUp p peer t => Sys2Proof.Machine.execBuddyPortUp p peer t s
  | .powerGood osfp t => Sys2Proof.Machine.execPowerGood osfp t s
  | .pwrFail hotswap t => Sys2Proof.Machine.execPwrFail hotswap t s
  | .mramWriteProtect t => Sys2Proof.Machine.execMramWriteProtect t s
  | .railFault t => Sys2Proof.Machine.execRailFault t s
  | .prdReset t => Sys2Proof.Machine.execPrdReset t s
  | .thermWarn sensor temp t => Sys2Proof.Machine.execThermWarn sensor temp t s
  | .thermThrottle sensor temp t => Sys2Proof.Machine.execThermThrottle sensor temp t s
  | .thermTrip sensor temp t => Sys2Proof.Machine.execThermTrip sensor temp t s
  | .osfpOvercurrent u t => Sys2Proof.Machine.execOsfpOvercurrent u t s
  | .osfpCtrlWrite value t => Sys2Proof.Machine.execOsfpCtrlWrite value t s
  | .ocxoFail t => Sys2Proof.Machine.execOcxoFail t s
  | .ocxoReturn t => Sys2Proof.Machine.execOcxoReturn t s
  | .ocxoWarm t => Sys2Proof.Machine.execOcxoWarm t s
  | .pllUnlock t => Sys2Proof.Machine.execPllUnlock t s
  | .tmuxCfgWrite at_ value e => Sys2Proof.Machine.execTmuxCfgWrite at_ value e s
  | .tmuxGrantWrite id scope uid expiry valid t => Sys2Proof.Machine.execTmuxGrantWrite id scope uid expiry valid t s
  | .tmuxSelWrite at_ k value e => Sys2Proof.Machine.execTmuxSelWrite at_ k value e s
  | .tmuxGrantExpired t => Sys2Proof.Machine.execTmuxGrantExpired t s
  | .tapInstruction ir t => Sys2Proof.Machine.execTapInstruction ir t s
  | .modulePowerOn t => Sys2Proof.Machine.execModulePowerOn t s
  | .holdupEnd t => Sys2Proof.Machine.execHoldupEnd t s
  | .twBind w value e => Sys2Proof.Machine.execTwBind w value e s
  | .twPageWrite w queue value e => Sys2Proof.Machine.execTwPageWrite w queue value e s
  | .bar4WinWrite value t => Sys2Proof.Machine.execBar4WinWrite value t s
  | .bar4Write off bytes t => Sys2Proof.Machine.execBar4Write off bytes t s

end Sys2Proof.Machine
end

