-- ==== Sys2Proof/Machine/Idle.lean ====
section
/-!
DEFINITION. Machine/Idle.lean: one engine cycle in which no command happens: the clocks count (02 R36, R39, R50; log entry 1).
-/
namespace Sys2Proof.Machine
open Sys2Proof

/-- The OTU's local time counts one engine cycle, and its fleet time, once valid, two nominal ticks. -/
def Otu.idle (o : Otu) : Otu :=
  { o with lt := (o.lt + 1) % 2 ^ 64, cyc := { grade := o.clk.grade }
           clk := if o.clk.st = 0 then o.clk else o.clk.cycle o.period (OtuR.fld o OTU_TIME_CTRL 4 8) }

/-- Priord's fleet time counts in every state, in cycles of 2 ticks. -/
def Prd.idle (o : Prd) : Prd := { o with cyc := { grade := o.clk.grade }, clk := o.clk.cycle 512 (getF o.loopCfg 4 8) }

/-- The block idles. -/
def State.idle (s : State) : State := { s with otu := s.otu.idle, prd := s.prd.idle }

end Sys2Proof.Machine
end

