-- ==== Sys2Proof/Safety.lean ====
section
/-!
DEFINITION. Safety.lean: what counts as a safe run: every step answers a next state.
-/
namespace Sys2Proof.Machine
open Sys2Proof

/-- The state that a command at the OTU leaves: the OTU as given, all else as it was. -/
def State.withOtu (s : State) (o : Otu) : State := { s with otu := o }

/-- The state that a command at Priord leaves: Priord as given, which may mirror to its buddy what changed (R422), all else
as it was. -/
def State.withPrd (s : State) (p : Prd) : State := { s with prd := s.prd.mirrored p }

/-- The state `t` that a command of the compressors, decompressors or check values of part `p` leaves: registers (and what the
cycle remembers of them), byte memory, feeds and free values of the part may differ, and what Priord mirrors of its clock's
move; all else is as the clock's move to the command's edge leaves it. -/
def State.engineOnly (s t : State) (p : Part) (e : Edge) : Prop :=
  match p with
  | .otu => t = { s with otu := { s.otu.go e with regs := t.otu.regs, cyc := t.otu.cyc, hbm := t.otu.hbm, feeds := t.otu.feeds } }
  | .prd => t = { s with prd := { s.prd.go e.ft with
      regs := t.prd.regs, cyc := t.prd.cyc, hbm := t.prd.hbm, feeds := t.prd.feeds, free := t.prd.free, buddy := t.prd.buddy } }

/-- `q` is the operation with this TAG and opcode on ring `k`, its turn to start has come (R372, R384), it belongs to no
SAME_ACCORD chain, and no command of the management engine stands in its way (R394). -/
def Prd.starts (p : Prd) (k tag opc : Nat) (q : Op) : Prop :=
  p.opOf k tag (· == opc) = some q ∧ p.canStart q = true ∧ p.ringsBusy = false ∧ p.sameAccord q = false

/-- Both register files and every byte memory are in their one canonical form: keys strictly rising, and no entry equal to
what an unlisted one reads as. -/
def State.canonical (s : State) : Prop :=
  Tbl.wf otuReset s.otu.regs = true ∧ s.otu.hbm.wf = true ∧ Tbl.wf prdReset s.prd.regs = true ∧ s.prd.hbm.wf = true ∧
  s.prd.rings.host.wf = true

/-- A step answers a next state. -/
def Safe (s : State) : Prop := ∃ t, step s = .next t

/-- The states reached from `s` by steps that answer a next state. -/
inductive Reaches (s : State) : State → Prop where
  | refl : Reaches s s
  | step {t u : State} (h : Reaches s t) (k : step t = .next u) : Reaches s u

end Sys2Proof.Machine
end

