-- ==== Sys2Proof/Certificates/Slice0/Obligations.lean ====
section
/-!
DEFINITION. Obligations.lean: what the model is to have proved of it, from the numbered rules of spec/. A statement names
the commands that it says complete, gives the state they leave, and says what they leave alone: a state is given as the state
before with the fields named changed, so that every field not named is unchanged.
-/
open Sys2Proof Sys2Proof.Machine

/-- For every command c, every queue rest and every state s: the step of s with c in front of rest is exec of c on s
with rest as its queue. -/
def Obligations.AStepRunsTheCommandInFront : Prop :=
  ∀ (c : Instr) (rest : List Instr) (s : State), step { s with pending := c :: rest } = exec c { s with pending := rest }

/-- On an empty queue (the model's choice: log entry 1) a step answers a next state in which local time is one higher,
fleet time of a clock that is valid and does not slew two ticks higher (at the OTU with the engine clock at its
nominal period), at the OTU in NO_TIME as it was; a new engine cycle has begun at each part, with the grade that
stood; every register, memory and queue is as it was. -/
def Obligations.AnEmptyQueueIdlesOneCycle : Prop :=
  ∀ s : State, s.pending = [] → ∃ t, step s = .next t ∧
    t = { s with otu := { s.otu with lt := (s.otu.lt + 1) % 2 ^ 64, cyc := { grade := s.otu.clk.grade }, clk := t.otu.clk }
                 prd := { s.prd with cyc := { grade := s.prd.clk.grade }, clk := t.prd.clk } } ∧
    (s.otu.clk.st = 0 → t.otu.clk = s.otu.clk) ∧
    (s.otu.clk.st ≠ 0 → s.otu.period = 512 → s.otu.clk.slew = 0 → s.otu.clk.sub < 1000000 →
      t.otu.clk.ft = (s.otu.clk.ft + 2) % 2 ^ 64 ∧ t.otu.clk.sub = s.otu.clk.sub) ∧
    (s.prd.clk.slew = 0 → s.prd.clk.sub < 1000000 → t.prd.clk.ft = (s.prd.clk.ft + 2) % 2 ^ 64 ∧ t.prd.clk.sub = s.prd.clk.sub) ∧
    t.otu.clk.st = s.otu.clk.st ∧ t.prd.clk.st = s.prd.clk.st

/-- State.reset has an empty queue, both clocks in their first state, no wait, job, operation, flacon or context open,
and the reset values that the register tables state for a register of each group: OTU_TIME_CTRL, OTU_ACC_CTRL,
OTU_SIL_CTRL, OTU_HANG_CTRL, OTU_NUM_CTRL, OTU_CAN_CTRL, OTU_EVR_SESSION, OTU_Q_CFG, PRD_ATM_CFG, PRD_FLC_PRE,
PRD_EVR_CTRL, PRD_RING_STAGE_CFG, PRD_EXPORT_PERIOD, PRD_NOSE_CTRL, PRD_PWR_OSFP_CTRL and PRD_THERM_CFG. -/
def Obligations.ResetLeavesTheTablesValues : Prop :=
  State.reset.pending = [] ∧ State.reset.otu.clk.st = 0 ∧ State.reset.prd.clk.st = 0 ∧ State.reset.otu.waits = [] ∧ State.reset.otu.jobs = [] ∧ State.reset.prd.rings.ops = [] ∧
  State.reset.prd.ctx = [] ∧ State.reset.prd.mgmt.run = none ∧ (∀ n, (State.reset.prd.flacon n).st = 0) ∧
  (∀ x ∈ [(OTU_TIME_CTRL, 0x1000A6), (OTU_ACC_CTRL, 0x3E87), (OTU_SIL_CTRL, 0x404000A1), (OTU_HANG_CTRL, 0xC9), (OTU_NUM_CTRL, 7), (OTU_CAN_CTRL, 0x01007B7F), (OTU_EVR_SESSION, 1),
      (OTU_Q_CFG 0, 0x15), (OTU_Q_CFG 4095, 0x15)], OtuR.get State.reset.otu x.1 = x.2) ∧
  ∀ x ∈ [(PRD_ATM_CFG, 0x0A0807D0), (PRD_FLC_PRE, 0xC350), (PRD_EVR_CTRL, 7), (PRD_RING_STAGE_CFG, 0xC0), (PRD_EXPORT_PERIOD, 0x2710), (PRD_NOSE_CTRL, 5), (PRD_PWR_OSFP_CTRL, 0xF),
      (PRD_THERM_CFG, 0x64), (PRD_RING_TAIL 65535, 0)], PrdR.get State.reset.prd x.1 = x.2

/-- State.canonical holds of State.reset: both register files and every byte memory (the die's and Priord's HBM, and
the host memory that Priord writes) list their keys in strictly rising order and no entry equal to what an unlisted
key reads as. -/
def Obligations.ResetIsCanonical : Prop := State.reset.canonical

/-- For every state s in canonical form, reached or not: if the step of s answers next t, then t is in canonical form:
both register files and every byte memory list their keys in strictly rising order, and no entry equals what an
unlisted key reads as. It holds of every command and of the idle step, so that equal registers and memories are equal
data. -/
def Obligations.EveryStepKeepsTheCanonicalForm : Prop :=
  ∀ s t : State, s.canonical → step s = .next t → t.canonical

/-- For every command c and state s, exec of c on s answers a next state t with the same queue; a command that acts at
the OTU leaves the whole of Priord as it was, and one that acts at Priord the whole of the OTU: the two parts meet
only through what the sender carries between their ports. -/
def Obligations.EveryCommandRunsAndKeepsToItsPart : Prop :=
  ∀ (c : Instr) (s : State), ∃ t, exec c s = .next t ∧ t.pending = s.pending ∧ (c.part = .otu → t.prd = s.prd) ∧ (c.part = .prd → t.otu = s.otu)

/-- MARK with fewer than 64 marks in the FIFO appends the mark with its HW_ARRIVAL (from the privileged block, or
through a bound tenant window with that window's job tag). With 64 marks the write is discarded and DROPPED counts it,
saturating at 0xFFFF; no other register changes. MARK_RECORD_EMIT takes the oldest mark out and puts its record on the
EVENT stream; where a mark found the FIFO full earlier in the same cycle, the dequeue counts as first: that mark joins
the FIFO, and DROPPED is as it was before the write. With an empty FIFO nothing but time passes. Nothing else of the
OTU changes but its clock's move to the edge; Priord and the queue of commands are as before. The egress queue and the
record bytes are the model's shared operations. -/
def Obligations.MarksQueueAndLeaveInOrder : Prop :=
  ∀ (s : State) (value w tag : Nat) (e : Edge), s.otu.invalid = false →
    (s.otu.marks.length < 64 →
      exec (.mark .otu value e) s = .next (s.withOtu { s.otu.go e with
        marks := s.otu.marks ++ [{ id := getF value 48 16, payload := getF value 0 48, hw := (s.otu.go e).ft, window := false, tag := 0 }] })) ∧
    (s.otu.marks.length < 64 → (s.otu.go e).winTag w = some tag →
      exec (.mark (.tenant w) value e) s = .next (s.withOtu { s.otu.go e with
        marks := s.otu.marks ++ [{ id := getF value 48 16, payload := getF value 0 48, hw := (s.otu.go e).ft, window := true, tag := tag }] })) ∧
    (64 ≤ s.otu.marks.length → ∃ o, exec (.mark .otu value e) s = .next (s.withOtu o) ∧
      o = { s.otu.go e with regs := o.regs, cyc := o.cyc } ∧
      OtuR.fld o OTU_MARK_STATUS 8 16 = min (OtuR.fld s.otu OTU_MARK_STATUS 8 16 + 1) 0xFFFF ∧
      ∀ a, a ≠ OTU_MARK_STATUS → OtuR.get o a = OtuR.get s.otu a) ∧
    (∀ m r, s.otu.marks = m :: r → ∃ o, exec (.markRecordEmit e) s = .next (s.withOtu o) ∧
      o = { s.otu.go e with marks := r ++ ((s.otu.go e).cyc.mark.map (·.1)).toList, lastFw := (s.otu.go e).ft, regs := o.regs, cyc := o.cyc
                            eq := o.eq, eqs := o.eqs } ∧
      ((s.otu.go e).cyc.mark = none → o.regs = s.otu.regs) ∧
      (∀ a, a ≠ OTU_MARK_STATUS → OtuR.get o a = OtuR.get s.otu a) ∧
      o.eqGet (s.otu.eqOf 10 0 m.tag) = s.otu.eqGet (s.otu.eqOf 10 0 m.tag) ++
        [{ rtype := 7, kind := 10, inst := 0, tag := m.tag, rank := s.otu.rankOf m.tag,
           body := markBytes m (s.otu.go e).ft s.otu.clk.grade, ft := (s.otu.go e).now }]) ∧
    (∀ m r, s.otu.marks = m :: r → s.otu.marks.length = 64 → (s.otu.go e).cyc.mark = none → ∃ o o' x,
      exec (.mark .otu value e) s = .next (s.withOtu o) ∧ exec (.markRecordEmit e) (s.withOtu o) = .next (s.withOtu o') ∧
      x = { id := getF value 48 16, payload := getF value 0 48, hw := (s.otu.go e).ft, window := false, tag := 0 } ∧
      o'.marks = r ++ [x] ∧ OtuR.fld o' OTU_MARK_STATUS 8 16 = OtuR.fld s.otu OTU_MARK_STATUS 8 16) ∧
    (s.otu.marks = [] → exec (.markRecordEmit e) s = .next (s.withOtu (s.otu.go e)))

/-- TIME_SNAP with bit 0 set latches the fleet time and the local time of the same cycle into OTU_TIME_SNAP_FT and
OTU_TIME_SNAP_LT and changes no other register; with bit 0 clear it latches nothing. LOCK_10MIN at either part sets
only the mark that a lock has lasted ten minutes, where the clock is LOCKED and its lock began at least 600 s before.
TIME_SNAP and LOCK_10MIN leave local time at the later of its own count and the edge at which they happen. -/
def Obligations.TimeSnapshotsAndLockAges : Prop :=
  ∀ (s : State) (value t : Nat) (e : Edge),
    (s.otu.invalid = false →
      (bit value 0 = true → ∃ o, exec (.timeSnap value e) s = .next (s.withOtu o) ∧ o = { s.otu.go e with regs := o.regs } ∧
        OtuR.get o OTU_TIME_SNAP_FT = (s.otu.go e).ft % 2 ^ 64 ∧ OtuR.get o OTU_TIME_SNAP_LT = max s.otu.lt e.lt % 2 ^ 64 ∧
        ∀ a, a ≠ OTU_TIME_SNAP_FT → a ≠ OTU_TIME_SNAP_LT → OtuR.get o a = OtuR.get s.otu a) ∧
      (bit value 0 = false → exec (.timeSnap value e) s = .next (s.withOtu (s.otu.go e))) ∧
      exec (.lock10Min .otu e) s = .next (s.withOtu { s.otu.go e with clk := { (s.otu.go e).clk with
        tenMin := s.otu.clk.tenMin || (decide (s.otu.clk.st = 2) && decide (600 * 4000000000 ≤ (s.otu.go e).clk.ft - s.otu.clk.lockAt)) } })) ∧
    exec (.lock10Min .prd ⟨t, 0⟩) s = .next (s.withPrd { s.prd.go t with clk := { (s.prd.go t).clk with
      tenMin := s.prd.clk.tenMin || (decide (s.prd.clk.st = 2) && decide (600 * 4000000000 ≤ max s.prd.clk.ft t - s.prd.clk.lockAt)) } })

/-- On an uplink on which PTP runs: a Delay_Req (request-response) or Pdelay_Req (peer-to-peer) sent is remembered
with its sequenceId, which then increments modulo 65,536; a two-step Sync is held; a one-step Sync, or the Follow_Up
of the held Sync's sequenceId, gives t1, t2 and the correction; a Delay_Resp with the sequenceId of the outstanding
request gives the delay ((t2 - t1) + (t4 - t3)) / 2 less corrections, and a one-step Pdelay_Resp, or the follow-up of
a two-step one, the delay ((t4 - t1) - (t3 - t2)) / 2 less corrections; with a delay known, the uplink's offset is t2
- t1 - correction - delay. A timestamp of s seconds and n ns counts as 4 (s 10^9 + n) ticks modulo 2^64. Every other
uplink is as before, and beyond the uplinks only the selected source, the clock with what follows its steps,
registers, events and the debug strobe can change. A message that is received and ignored changes nothing but time. -/
def Obligations.PtpExchangesMeasureThePath : Prop :=
  ∀ (s : State) (u t : Nat),
    (∀ tx, s.prd.ptpOn u = true → s.prd.ptpP2p u = false →
      exec (.ptpDelayReqTx u tx t) s = .next (s.withPrd ((s.prd.go t).setUlT u { s.prd.ulT u with
        reqTx := some ((s.prd.ulT u).reqSeq, tx), reqSeq := ((s.prd.ulT u).reqSeq + 1) % 65536 }))) ∧
    (∀ tx, s.prd.ptpOn u = true → s.prd.ptpP2p u = true →
      exec (.ptpPdelayReqTx u tx t) s = .next (s.withPrd ((s.prd.go t).setUlT u { s.prd.ulT u with
        preqTx := some ((s.prd.ulT u).reqSeq, tx), reqSeq := ((s.prd.ulT u).reqSeq + 1) % 65536 }))) ∧
    exec (.ptpIgnoredMessage u t) s = .next (s.withPrd (s.prd.go t)) ∧
    (∀ m : PtpSync, s.prd.ptpOn u = true → m.domain = PrdR.fld s.prd PRD_TIME_PTP_CFG 0 7 → ∃ o,
      exec (.ptpSync u m t) s = .next (s.withPrd o) ∧
      o = { s.prd.go t with ul := o.ul, clk := o.clk, regs := o.regs, cyc := o.cyc, evr := o.evr, src := o.src, tw := o.tw, loopCfg := o.loopCfg
                            strobes := o.strobes, ptpRestart := o.ptpRestart, stepPending := o.stepPending } ∧
      (∀ v, v ≠ u → o.ulT v = s.prd.ulT v) ∧
      (m.twoStep = true → o.ulT u = { s.prd.ulT u with sync := some m }) ∧
      (m.twoStep = false → (s.prd.ulT u).delay = none → o.ulT u = { s.prd.ulT u with
        sync := none, t1 := m.origin.fine, t2 := m.rx, corr := m.corr, have12 := true, waiting := true }) ∧
      (∀ d, m.twoStep = false → (s.prd.ulT u).delay = some d → o.ulT u = { s.prd.ulT u with
        sync := none, t1 := m.origin.fine, t2 := m.rx, corr := m.corr, have12 := true, waiting := false, offset := (m.rx : Int) - m.origin.fine - m.corr - d })) ∧
    (∀ (m : PtpSync) (origin : PtpTs) (corr : Int) (d : Int), s.prd.ptpOn u = true → (s.prd.ulT u).sync = some m → (s.prd.ulT u).delay = some d → ∃ o,
      exec (.ptpFollowUp u m.seqId origin corr t) s = .next (s.withPrd o) ∧
      o = { s.prd.go t with ul := o.ul, clk := o.clk, regs := o.regs, cyc := o.cyc, evr := o.evr, src := o.src, tw := o.tw, loopCfg := o.loopCfg
                            ptpRestart := o.ptpRestart, stepPending := o.stepPending } ∧
      (∀ v, v ≠ u → o.ulT v = s.prd.ulT v) ∧
      o.ulT u = { s.prd.ulT u with
        sync := none, t1 := origin.fine, t2 := m.rx, corr := m.corr + corr, have12 := true, waiting := false,
        offset := (m.rx : Int) - origin.fine - (m.corr + corr) - d }) ∧
    (∀ (seqId t3 : Nat) (rx : PtpTs) (corr : Int), s.prd.ptpOn u = true → s.prd.ptpP2p u = false → (s.prd.ulT u).reqTx = some (seqId, t3) →
        (s.prd.ulT u).have12 = true → (s.prd.ulT u).waiting = false → ∃ o,
      exec (.ptpDelayResp u seqId rx corr t) s = .next (s.withPrd o) ∧
      o = { s.prd.go t with ul := o.ul, src := o.src, regs := o.regs, cyc := o.cyc, evr := o.evr } ∧ (∀ v, v ≠ u → o.ulT v = s.prd.ulT v) ∧
      o.ulT u = { s.prd.ulT u with
        reqTx := none, delay := some (rhe ((((s.prd.ulT u).t2 : Int) - (s.prd.ulT u).t1 - (s.prd.ulT u).corr) + ((rx.fine : Int) - t3 - corr)) 2) }) ∧
    (∀ (m : PdelayResp) (t1 : Nat), s.prd.ptpOn u = true → s.prd.ptpP2p u = true → (s.prd.ulT u).preqTx = some (m.seqId, t1) →
        m.followUp = false → (s.prd.ulT u).waiting = false → ∃ o,
      exec (.ptpPdelayResp u m t) s = .next (s.withPrd o) ∧
      o = { s.prd.go t with ul := o.ul, src := o.src, regs := o.regs, cyc := o.cyc, evr := o.evr } ∧ (∀ v, v ≠ u → o.ulT v = s.prd.ulT v) ∧
      (m.twoStep = true → o.ulT u = { s.prd.ulT u with presp := some m }) ∧
      (m.twoStep = false → o.ulT u = { s.prd.ulT u with
        preqTx := none, delay := some (rhe (((m.rx : Int) - t1) - ((m.t3.fine : Int) - m.t2.fine) - m.corr) 2) })) ∧
    (∀ (m r : PdelayResp) (t1 : Nat), s.prd.ptpOn u = true → s.prd.ptpP2p u = true → (s.prd.ulT u).preqTx = some (m.seqId, t1) →
        m.followUp = true → (s.prd.ulT u).presp = some r → (s.prd.ulT u).waiting = false → ∃ o,
      exec (.ptpPdelayResp u m t) s = .next (s.withPrd o) ∧
      o = { s.prd.go t with ul := o.ul, src := o.src, regs := o.regs, cyc := o.cyc, evr := o.evr } ∧ (∀ v, v ≠ u → o.ulT v = s.prd.ulT v) ∧
      o.ulT u = { s.prd.ulT u with
        preqTx := none, presp := none, delay := some (rhe (((r.rx : Int) - t1) - ((m.t3.fine : Int) - r.t2.fine) - r.corr - m.corr) 2) }) ∧
    (∀ x : PtpTs, x.ticks = 4 * (x.sec * 10 ^ 9 + x.ns) % 2 ^ 64 ∧ x.fine = 256 * x.ticks)

/-- An Announce of the configured domain on an uplink where PTP runs is that uplink's data set afterwards, with the
times of its sender's last two. The selected uplink afterwards is one whose data set qualifies (the model's reading of
the default algorithm: log entry 34) and no other enabled uplink's qualified one betters; the grandmaster identity
shown is that data set's; none is selected where none qualifies. A quality level reported for uplinks 0 to 3 is kept
for that uplink, with whether Synchronous Ethernet is present; with the function disabled no uplink gives frequency. A
write of PRD_TIME_PTP_CFG marks PTP reception to return to ACQUIRING at the next sync interval and leaves the clock as
it is. Other uplinks are as before. -/
def Obligations.PtpSourceAndFrequencySelection : Prop :=
  ∀ (s : State) (u t : Nat),
    (∀ m : Announce, s.prd.ptpOn u = true → m.domain = PrdR.fld s.prd PRD_TIME_PTP_CFG 0 7 → ∃ o,
      exec (.ptpAnnounce u m t) s = .next (s.withPrd o) ∧
      o = { s.prd.go t with ul := o.ul, src := o.src, regs := o.regs, cyc := o.cyc, evr := o.evr } ∧
      o.ulT u = (s.prd.ulT u).announce m (s.prd.go t).ft ∧ (∀ v, v ≠ u → o.ulT v = s.prd.ulT v) ∧
      (o.src = none → ∀ v, s.prd.ptpOn v = true → (o.ulT v).qualified (s.prd.go t).ft = none) ∧
      (∀ v, o.src = some v → s.prd.ptpOn v = true ∧ ∃ a, (o.ulT v).qualified (s.prd.go t).ft = some a ∧
        PrdR.get o PRD_TIME_GM_ID = a.gmIdentity % 2 ^ 64 ∧
        ∀ v' a', s.prd.ptpOn v' = true → (o.ulT v').qualified (s.prd.go t).ft = some a' → a'.better a = false)) ∧
    (∀ (ql : Nat) (lost : Bool), u < 4 → ∃ o, exec (.synceQlChange u ql lost t) s = .next (s.withPrd o) ∧
      o = { s.prd.go t with ul := o.ul, synceSrc := o.synceSrc, regs := o.regs, cyc := o.cyc } ∧
      o.ulT u = { s.prd.ulT u with ql := ql, synce := !lost } ∧ (∀ v, v ≠ u → o.ulT v = s.prd.ulT v) ∧
      (∀ a, a ≠ PRD_TIME_EVENTS → PrdR.get o a = PrdR.get s.prd a) ∧
      (PrdR.flag s.prd PRD_TIME_SYNCE_CFG 3 = false → o.synceSrc = none)) ∧
    (∀ value, ∃ o, exec (.ptpCfgWrite value t) s = .next (s.withPrd o) ∧
      o = { s.prd.go t with ptpRestart := true, src := o.src, regs := o.regs, cyc := o.cyc, evr := o.evr } ∧ o.clk = (s.prd.go t).clk)

/-- HOLDOVER_ENTRY, LOSS_N sync intervals or more (LOOP_CFG as the last measurement took it) after Priord's last
accepted measurement, and TW_LOSS, 10 us or more after the OTU's last accepted time word: a clock in LOCKED, or in
ACQUIRING after an earlier lock, is in HOLDOVER afterwards with slewing stopped, at grade 2 where the last continuous
lock lasted ten minutes and the last LOCKED measurement is less than 1 s old and at grade 3 otherwise (at the OTU
never better than its Priord's grade, at a Priord whose OCXO has failed never better than 3); the OTU clears TRAY_LOCK
and sets TW_LOSS. A clock in ACQUIRING that has never locked stays there with slewing stopped. HOLDOVER_AGE_GRADE3
takes a clock at grade 2 whose last LOCKED measurement is 1 s old or older to grade 3. Only the clock, registers and
events change, and the OTU's TRAY_LOCK. -/
def Obligations.ClocksLoseTheirReference : Prop :=
  ∀ (s : State) (t : Nat) (e : Edge),
    ((s.prd.go t).clk.lastMeas + getF s.prd.loopCfg 12 4 * s.prd.syncInterval ≤ (s.prd.go t).clk.ft →
      ((s.prd.clk.st = 2 ∨ (s.prd.clk.st = 1 ∧ s.prd.clk.ever = true)) → ∃ o, exec (.holdoverEntry t) s = .next (s.withPrd o) ∧
        o = { s.prd.go t with clk := o.clk, regs := o.regs, cyc := o.cyc, evr := o.evr } ∧ o.clk.st = 3 ∧ o.clk.slew = 0 ∧ o.clk.slewing = false ∧
        o.clk.ft = (s.prd.go t).clk.ft ∧
        o.clk.grade = (if s.prd.pw.ocxoFail then max 3 else id)
          (if (s.prd.clk.tenMin = true ∨ (s.prd.clk.st = 2 ∧ 600 * 4000000000 ≤ (s.prd.go t).clk.ft - s.prd.clk.lockAt)) ∧
            (s.prd.go t).clk.ft - s.prd.clk.lastLocked < 4000000000 then 2 else 3)) ∧
      (s.prd.clk.st = 1 → s.prd.clk.ever = false → ∃ o, exec (.holdoverEntry t) s = .next (s.withPrd o) ∧
        o = { s.prd.go t with clk := o.clk, regs := o.regs, cyc := o.cyc, evr := o.evr } ∧ o.clk.st = 1 ∧ o.clk.slew = 0)) ∧
    (s.otu.invalid = false → (s.otu.go e).clk.lastMeas + 40000 ≤ (s.otu.go e).clk.ft →
      ((s.otu.clk.st = 2 ∨ (s.otu.clk.st = 1 ∧ s.otu.clk.ever = true)) → ∃ o, exec (.twLoss e) s = .next (s.withOtu o) ∧
        o = { s.otu.go e with clk := o.clk, trayLock := false, regs := o.regs, cyc := o.cyc, evr := o.evr } ∧ o.clk.st = 3 ∧ o.clk.slew = 0 ∧
        o.clk.ft = (s.otu.go e).clk.ft ∧ OtuR.flag o OTU_TIME_EVENTS 1 = true ∧
        o.clk.grade = max s.otu.prdGrade
          (if (s.otu.clk.tenMin = true ∨ (s.otu.clk.st = 2 ∧ 600 * 4000000000 ≤ (s.otu.go e).clk.ft - s.otu.clk.lockAt)) ∧
            (s.otu.go e).clk.ft - s.otu.clk.lastLocked < 4000000000 then 2 else 3)) ∧
      (s.otu.clk.st = 1 → s.otu.clk.ever = false → ∃ o, exec (.twLoss e) s = .next (s.withOtu o) ∧
        o = { s.otu.go e with clk := o.clk, regs := o.regs, cyc := o.cyc, evr := o.evr } ∧ o.clk.st = 1 ∧ o.clk.slew = 0)) ∧
    (s.otu.invalid = false → (s.otu.clk.st = 3 ∨ (s.otu.clk.st = 1 ∧ s.otu.clk.ever = true)) → s.otu.clk.own = 2 →
        4000000000 ≤ (s.otu.go e).clk.ft - s.otu.clk.lastLocked → ∃ o, exec (.holdoverAgeGrade3 .otu e) s = .next (s.withOtu o) ∧
      o = { s.otu.go e with clk := o.clk, regs := o.regs, cyc := o.cyc, evr := o.evr } ∧ o.clk.st = s.otu.clk.st ∧ o.clk.grade = max 3 s.otu.prdGrade) ∧
    ((s.prd.clk.st = 3 ∨ (s.prd.clk.st = 1 ∧ s.prd.clk.ever = true)) → s.prd.clk.own = 2 →
        4000000000 ≤ (s.prd.go e.ft).clk.ft - s.prd.clk.lastLocked → ∃ o, exec (.holdoverAgeGrade3 .prd e) s = .next (s.withPrd o) ∧
      o = { s.prd.go e.ft with clk := o.clk, regs := o.regs, cyc := o.cyc, evr := o.evr } ∧ o.clk.st = s.prd.clk.st ∧ o.clk.grade = 3)

/-- TIME_WORD_TX at a port that is UP puts into an IDLE flit the 32 bytes of a word with this end's TW_SEQ, grade,
FT_VALID, HOLDOVER, DIR, JOB_OPEN, error bound, transmit stamp and, once a word of valid time has been received, its
echo; TW_SEQ then increments modulo 256. TIME_WORD_RX at the OTU: a flit that fails its checks, or holds no time word,
or reaches a port that is not UP, leaves the time words alone; a word whose ECHO_SEQ lies more than 128 words behind
is discarded, counted and sets TW_SEQ_ERR; otherwise the sender's grade, bound and asymmetry are kept, from NO_TIME a
word with FT_VALID starts ACQUIRING at the sender's time, and a word that echoes a stamped round gives delay = ((t4 -
t1) - (t3 - t2)) / 2 and, with a job open, the offset (t2 - t1) - delay - asymmetry enters the filter whose mean is
the clock's offset. At Priord an accepted word from die port n shows the die's grade in that port's status, sets
TW_VALID and is remembered; one out of sequence is counted. A port that is not UP sends nothing. (Which TW_SEQ the
comparison takes, that FT_VALID is set at Priord, and that an echo seen twice counts twice are the model's: log
entries 32, 33 and 36.) -/
def Obligations.TimeWordsCarryAndMeasure : Prop :=
  ∀ (s : State) (n tx frac rx rfrac : Nat) (f : FlitRx) (w : TimeWord) (e : Edge),
    (s.otu.invalid = false →
      (s.otu.link.st ≠ 2 → exec (.timeWordTx .otu tx frac e) s = .next (s.withOtu (s.otu.go e))) ∧
      (s.otu.link.st = 2 → ∃ (o : Otu) (x : TimeWord), exec (.timeWordTx .otu tx frac e) s = .next (s.withOtu o) ∧
        o = { s.otu.go e with dctr := o.dctr, link := o.link } ∧ o.link.idleAt = (s.otu.go e).now ∧
        o.link.tw.out = x.bytes ∧ o.link.tw.seq = (s.otu.link.tw.seq + 1) % 256 ∧ x.ver = 1 ∧ x.seq = s.otu.link.tw.seq ∧
        x.grade = s.otu.clk.grade ∧ x.ftValid = decide (s.otu.clk.st ≠ 0) ∧ x.holdover = decide (s.otu.clk.st = 3) ∧ x.fromDie = true ∧
        x.jobOpen = s.otu.openJob.isSome ∧ x.errBound = s.otu.clk.err ∧
        (s.otu.clk.st ≠ 0 → x.txStamp = tx ∧ x.txFrac = frac % 256) ∧ (s.otu.clk.st = 0 → x.txStamp = absent) ∧
        x.echoValid = (s.otu.link.tw.rxSeq.isSome && s.otu.link.tw.rxOk) ∧ (∀ q, s.otu.link.tw.rxSeq = some q → x.echoSeq = q ∧
          (s.otu.link.tw.rxOk = true → x.rxStamp = s.otu.link.tw.rxAt / 256 ∧ x.rxFrac = s.otu.link.tw.rxAt % 256))) ∧
      ((s.otu.link.st ≠ 2 ∨ s.otu.link.checks f = false ∨ flitType f.bytes 0 = false ∨ isTimeWord ((f.bytes.drop 8).take 32) = false) → ∃ o,
        exec (.timeWordRx .otu f.bytes rx rfrac f.errs e) s = .next (s.withOtu o) ∧ o = { s.otu.go e with dctr := o.dctr, link := o.link } ∧
        o.link.tw = s.otu.link.tw) ∧
      (s.otu.link.st = 2 → s.otu.link.checks f = true → flitType f.bytes 0 = true → isTimeWord ((f.bytes.drop 8).take 32) = true →
          w = .ofBytes ((f.bytes.drop 8).take 32) →
        (s.otu.link.tw.seqError w = true → ∃ o, exec (.timeWordRx .otu f.bytes rx rfrac f.errs e) s = .next (s.withOtu o) ∧
          o = { s.otu.go e with dctr := o.dctr, link := o.link, regs := o.regs, cyc := o.cyc } ∧ o.link.tw = s.otu.link.tw.seqErr ∧
          OtuR.flag o OTU_TIME_EVENTS 5 = true ∧ ∀ a, a ≠ OTU_TIME_EVENTS → OtuR.get o a = OtuR.get s.otu a) ∧
        (s.otu.link.tw.seqError w = false → ∃ o, exec (.timeWordRx .otu f.bytes rx rfrac f.errs e) s = .next (s.withOtu o) ∧
          o = { s.otu.go e with clk := o.clk, trayLock := o.trayLock, prdGrade := min w.grade 4, prdErr := w.errBound, asym := w.asym
                                dctr := o.dctr, link := o.link, acc := o.acc, gchNext := o.gchNext, qsLast := o.qsLast, qOld := o.qOld
                                gate := o.gate, regs := o.regs, cyc := o.cyc, evr := o.evr } ∧
          (s.otu.clk.st = 0 → w.ftValid = true → o.clk.st = 1 ∧ o.clk.ft = w.txStamp) ∧
          (s.otu.clk.st = 0 → w.ftValid = false → o.clk = s.otu.clk) ∧
          (s.otu.clk.st = 0 ∨ s.otu.openJob.isSome = true →
            o.link.tw = s.otu.link.tw.receive w (rx * 256 + rfrac % 256) (decide (s.otu.clk.st ≠ 0))) ∧
          (s.otu.clk.st ≠ 0 → s.otu.link.tw.echoed w = none → s.otu.openJob.isSome = true →
            o.clk.thetas = s.otu.clk.thetas ∧ o.clk.ft = (s.otu.go e).clk.ft) ∧
          (∀ x t1 t2, s.otu.clk.st ≠ 0 → s.otu.link.tw.echoed w = some x → x.echo = some (t1, t2) →
            o.clk.delay = ofS 32 (rhe ((((w.rxStamp * 256 + w.rxFrac : Nat) : Int) - t1) - ((x.tx : Int) - t2)) 2) ∧
            (s.otu.openJob.isSome = true →
              o.clk.thetas = ((fourStamp t1 t2 x.tx (w.rxStamp * 256 + w.rxFrac) w.asym).2 :: s.otu.clk.thetas).take
                (2 ^ OtuR.fld s.otu OTU_TIME_CTRL 0 4) ∧
              o.clk.theta = meanInt o.clk.thetas))))) ∧
    (n < 32 → (s.prd.port n).link.st ≠ 2 → exec (.timeWordTx (.prd n) tx frac e) s = .next (s.withPrd (s.prd.go e.ft)) ∧
      exec (.timeWordRx (.prd n) f.bytes rx rfrac f.errs e) s = .next (s.withPrd (s.prd.go e.ft))) ∧
    (n < 32 → (s.prd.port n).link.st = 2 → ∃ (o : Prd) (x : TimeWord), exec (.timeWordTx (.prd n) tx frac e) s = .next (s.withPrd o) ∧
      o = { s.prd.go e.ft with tw := o.tw, dp := o.dp } ∧ (o.twEnd n).out = x.bytes ∧ x.seq = (s.prd.twEnd n).seq ∧
      x.grade = s.prd.clk.grade ∧ x.ftValid = true ∧ x.holdover = decide (s.prd.clk.st = 3) ∧ x.fromDie = false ∧ x.errBound = s.prd.clk.err ∧
      x.txStamp = tx ∧ x.txFrac = frac % 256 ∧ x.asym = toS 32 (PrdR.get s.prd (PRD_TIME_DP_ASYM n)) ∧
      ∀ m, m ≠ n → o.twEnd m = s.prd.twEnd m) ∧
    (n < 32 → (s.prd.port n).link.st = 2 → (s.prd.port n).link.checks f = true → flitType f.bytes 0 = true →
        isTimeWord ((f.bytes.drop 8).take 32) = true → w = .ofBytes ((f.bytes.drop 8).take 32) →
      ((s.prd.twEnd n).seqError w = true → ∃ o, exec (.timeWordRx (.prd n) f.bytes rx rfrac f.errs e) s = .next (s.withPrd o) ∧
        o = { s.prd.go e.ft with tw := o.tw, dp := o.dp } ∧ o.twEnd n = (s.prd.twEnd n).seqErr) ∧
      ((s.prd.twEnd n).seqError w = false → w.ftValid = true → ∃ o, exec (.timeWordRx (.prd n) f.bytes rx rfrac f.errs e) s = .next (s.withPrd o) ∧
        o = { s.prd.go e.ft with tw := o.tw, dp := o.dp, regs := o.regs } ∧
        o.twEnd n = (s.prd.twEnd n).receive w (rx * 256 + rfrac % 256) true ∧ (∀ m, m ≠ n → o.twEnd m = s.prd.twEnd m) ∧ (o.port n).noTime = false ∧
        PrdR.fld o (PRD_TIME_DP_STATUS n) 0 3 = w.grade ∧ PrdR.flag o (PRD_TIME_DP_STATUS n) 4 = true))

/-- ACCORD_CUT at an edge where the pending regular instant T is due, accords enabled and no switch set for T or
passed over. With a set free, the set whose turn it is (the free one; of two free ones the one not used last) holds
the shadow of cut T / 400,000 afterwards: the image of all counters, command sequences and engine headers of this
cycle, T, local and job time, error bound, the cycle's grade and lock flags, and every step mark that waited; CUT is
set, LAST_NO shows the number, and the next instant is T + I, or the first multiple of I after the fleet time if that
has passed. With neither set free both sets, the waiting marks and the reference copies are as before, SHADOW_SKIP is
set, die counter 0x80 counts one, and in each context's accord queue a gap record with reason 6 for that number waits.
At T_s of an armed switch, with no forward step pending, ACCORD_SWITCH is the same cut at the new interval, KEY, with
INTERVAL_CHANGE, and T_s is all ones again. Before the instant, and at T_s while accords are disabled but for the new
interval, no cut is made. Nothing else but time, what the step marks of earlier cycles still owe the mirror
candidates, the mark's digest window, the debug strobe and the egress queues changes. -/
def Obligations.RegularCutTakesOneShadowSet : Prop :=
  ∀ (s : State) (e : Edge) (g : Otu) (T n : Nat), s.otu.invalid = false → g = (s.otu.go e).settleMarks → n = OtuR.fld s.otu OTU_ACC_SWITCH_INTERVAL 0 14 →
    (s.otu.acc.nextT = T → (s.otu.go e).due T = false → exec (.accordCut e) s = .next (s.withOtu (s.otu.go e))) ∧
    (OtuR.get s.otu OTU_ACC_SWITCH_T = T → (s.otu.go e).due T = false → exec (.accordSwitch e) s = .next (s.withOtu (s.otu.go e))) ∧
    (OtuR.flag s.otu OTU_ACC_CTRL 0 = true → g.due T = true →
      (s.otu.acc.nextT = T → OtuR.get s.otu OTU_ACC_SWITCH_T ≠ T → (s.otu.acc.stepped = true → g.due (OtuR.get s.otu OTU_ACC_SWITCH_T) = false) →
        (∀ b, s.otu.acc.freeSet = some b → ∃ o sh, exec (.accordCut e) s = .next (s.withOtu o) ∧
          o = { g with acc := o.acc, resMark := o.resMark, inputs := o.inputs, inputOvf := o.inputOvf, regs := o.regs, cyc := o.cyc
                       eq := o.eq, eqs := o.eqs, strobes := Tbl.ins g.strobes 0x100 T } ∧
          o.acc = { (g.acc.setShadow b (some sh)) with
            nextT := if s.otu.acc.stepped = true ∨ T + s.otu.acc.interval * 400000 ≤ g.clk.ft then nextMultiple g.clk.ft (s.otu.acc.interval * 400000)
              else T + s.otu.acc.interval * 400000
            lastB := b, marks := [], stepOvf := false, stepped := false, keyReg := false } ∧
          sh.kind = 0 ∧ sh.image = g.latch ∧ sh.marks = s.otu.acc.marks ∧ sh.lt = g.lt ∧ sh.sealed = false ∧ sh.key = s.otu.acc.keyReg ∧
          sh.ctxs = g.contexts ∧ sh.hdr.no = T / 400000 ∧ sh.hdr.tCut = T ∧ sh.hdr.ltCut = g.lt ∧ sh.hdr.jtCut = g.jt ∧
          sh.hdr.interval = s.otu.acc.interval ∧ sh.hdr.errBound = g.clk.err ∧
          sh.hdr.flags = 2 * g.actGrade + 16 * b2n g.trayLock + 32 * b2n g.openJob.isSome + 64 * b2n s.otu.acc.stepped + 128 * b2n s.otu.acc.stepOvf ∧
          OtuR.flag o OTU_ACC_EVENTS 0 = true ∧ OtuR.get o OTU_ACC_LAST_NO = T / 400000 % 2 ^ 64) ∧
        (s.otu.acc.freeSet = none → ∃ o, exec (.accordCut e) s = .next (s.withOtu o) ∧
          o = { g with acc := o.acc, regs := o.regs, cyc := o.cyc, dctr := o.dctr, eq := o.eq, eqs := o.eqs } ∧
          o.acc.a = s.otu.acc.a ∧ o.acc.b = s.otu.acc.b ∧ o.acc.marks = s.otu.acc.marks ∧ o.acc.refs = s.otu.acc.refs ∧
          OtuR.flag o OTU_ACC_EVENTS 1 = true ∧ (∀ a, a ≠ OTU_ACC_EVENTS → OtuR.get o a = OtuR.get g a) ∧
          o.dctrGet 0x80 = (addWord 48 (g.dctrGet 0x80) 1).1 ∧ (∀ i, i ≠ 0x80 → o.dctrGet i = g.dctrGet i) ∧
          ∀ c, c ∈ g.contexts → ∃ r, r ∈ o.eqGet (g.eqOf 1 0 c.1) ∧ r.rtype = 2 ∧ r.tag = c.1 ∧
            r.body = gapBytes { reason := 6, origin := 0, kind := 0, tag := c.1, no := T / 400000, rank := c.2, count := 1, ftDecl := g.ft })) ∧
      (∀ b, OtuR.get s.otu OTU_ACC_SWITCH_T = T → s.otu.acc.stepped = false → s.otu.acc.freeSet = some b → ∃ o sh,
        exec (.accordSwitch e) s = .next (s.withOtu o) ∧
        o = { g with acc := o.acc, resMark := o.resMark, inputs := o.inputs, inputOvf := o.inputOvf, regs := o.regs, cyc := o.cyc
                     eq := o.eq, eqs := o.eqs, strobes := Tbl.ins g.strobes 0x100 T } ∧
        o.acc = { (g.acc.setShadow b (some sh)) with
          interval := n, nextT := if T + n * 400000 ≤ g.clk.ft then nextMultiple g.clk.ft (n * 400000) else T + n * 400000
          lastB := b, marks := [], stepOvf := false, stepped := false, keyReg := false } ∧
        sh.kind = 0 ∧ sh.image = g.latch ∧ sh.marks = s.otu.acc.marks ∧ sh.key = true ∧ sh.hdr.no = T / 400000 ∧ sh.hdr.tCut = T ∧ sh.hdr.interval = n ∧
        sh.hdr.flags = 2 * g.actGrade + 16 * b2n g.trayLock + 32 * b2n g.openJob.isSome + 512 + 128 * b2n s.otu.acc.stepOvf ∧
        OtuR.get o OTU_ACC_SWITCH_T = 2 ^ 64 - 1)) ∧
    (OtuR.flag s.otu OTU_ACC_CTRL 0 = false → OtuR.get s.otu OTU_ACC_SWITCH_T = T → g.due T = true → s.otu.acc.stepped = false → ∃ o,
      exec (.accordSwitch e) s = .next (s.withOtu o) ∧ o = { g with acc := o.acc, regs := o.regs } ∧
      o.acc = { g.acc with interval := n, nextT := nextMultiple g.clk.ft (n * 400000), stepped := false, keyReg := true } ∧
      OtuR.get o OTU_ACC_SWITCH_T = 2 ^ 64 - 1)

/-- ACCORD_SEAL, 200 engine cycles or more after the cut: the oldest unsealed shadow is sealed; with DUMP_EN its slot
is the next one that is not pinned, whose HDR_VER byte becomes 0, and no other byte of HBM changes; earlier than 200
cycles nothing happens. ACCORD_DUMP_DONE of a sealed regular shadow that is not streamed, with no hang cut waiting: a
slot written shows the header version in its first byte, the directory names it as the last slot, every byte outside
slot and directory is as before, and the set is free; a failed write sets DUMP error, counts die counter 0x83 and
frees the set with HBM as before. One that is streamed in the fleet context alone leaves that context's reference copy
at the record sent, and the record in the accord queue. FAST_CUT, enabled and due (else nothing happens), the step
marks of earlier cycles settled: both shadow sets are as before, the next instant is a fast interval later, and with
STREAM_EN the fast reference copy is at T / 40,000. UNPIN of a pinned slot takes its pin out, and of another does
nothing. -/
def Obligations.ASlotIsSealedThenDumpedAndFreed : Prop :=
  ∀ (s : State) (e : Edge) (g : Otu) (b : Bool) (sh : Shadow), s.otu.invalid = false → g = s.otu.go e →
    (s.otu.acc.oldest (fun x => !x.sealed) = some (b, sh) →
      (g.lt < sh.lt + 200 → exec (.accordSeal e) s = .next (s.withOtu g)) ∧
      (sh.lt + 200 ≤ g.lt → OtuR.flag s.otu OTU_ACC_CTRL 1 = false → exec (.accordSeal e) s = .next (s.withOtu { g with
        acc := g.acc.setShadow b (some { sh with sealed := true, slot := none }) })) ∧
      (∀ k, sh.lt + 200 ≤ g.lt → OtuR.flag s.otu OTU_ACC_CTRL 1 = true →
          nextSlot s.otu.acc.pins (OtuR.get s.otu OTU_ACC_DUMP_SLOTS) (min (OtuR.get s.otu OTU_ACC_DUMP_SLOTS) 8) s.otu.acc.slotNext = some k →
        exec (.accordSeal e) s = .next (s.withOtu { g with
          acc := { (g.acc.setShadow b (some { sh with sealed := true, slot := some k })) with
            slotNext := (k + 1) % OtuR.get s.otu OTU_ACC_DUMP_SLOTS }
          hbm := s.otu.hbm.setByte (s.otu.slotBase k) 0 }))) ∧
    (s.otu.acc.oldest (·.sealed) = some (b, sh) → sh.kind = 0 → s.otu.acc.hangPending = [] →
      (∀ k, sh.stream = false → sh.slot = some k → sh.marks.length ≤ 16 → ∃ o, exec (.accordDumpDone true e) s = .next (s.withOtu o) ∧
        o = { g with hbm := o.hbm, acc := { (g.acc.setShadow b none) with lastSlot := k, lastNo := sh.hdr.no } } ∧
        o.hbm.byte (s.otu.slotBase k) = BitVec.ofNat 8 sh.hdr.ver ∧
        ∀ a, ¬ (s.otu.slotBase k ≤ a ∧ a < s.otu.slotBase k + 196608) → ¬ (s.otu.dirBase ≤ a ∧ a < s.otu.dirBase + 48) →
          o.hbm.byte a = s.otu.hbm.byte a) ∧
      (∀ k, sh.stream = false → sh.slot = some k → ∃ o, exec (.accordDumpDone false e) s = .next (s.withOtu o) ∧
        o = { g with acc := g.acc.setShadow b none, regs := o.regs, cyc := o.cyc, dctr := o.dctr } ∧ OtuR.flag o OTU_ACC_EVENTS 2 = true ∧
        (∀ a, a ≠ OTU_ACC_EVENTS → OtuR.get o a = OtuR.get s.otu a) ∧
        o.dctrGet 0x83 = (addWord 48 (s.otu.dctrGet 0x83) 1).1 ∧ ∀ i, i ≠ 0x83 → o.dctrGet i = s.otu.dctrGet i) ∧
      (∀ ok rank, sh.stream = true → sh.slot = none → sh.ctxs = [(0, rank)] → ∃ o r, exec (.accordDumpDone ok e) s = .next (s.withOtu o) ∧
        o = { g with acc := { (g.acc.setShadow b none) with refs := o.acc.refs }, dctr := o.dctr, jobs := o.jobs, eq := o.eq, eqs := o.eqs } ∧
        (o.acc.ref 0 0).no = sh.hdr.no ∧ (o.acc.ref 0 0).image = sh.image ∧ (o.acc.ref 0 0).key = false ∧
        o.eqGet (g.eqOf 1 0 0) = s.otu.eqGet (g.eqOf 1 0 0) ++ [r] ∧ r.rtype = 1 ∧ r.tag = 0)) ∧
    ((OtuR.flag s.otu OTU_ACC_FAST_CTRL 0 = false ∨ g.due s.otu.acc.fastNextT = false) → exec (.fastCut e) s = .next (s.withOtu g)) ∧
    (∀ h : Otu, OtuR.flag s.otu OTU_ACC_FAST_CTRL 0 = true → g.due s.otu.acc.fastNextT = true → h = g.settleMarks → ∃ o,
      exec (.fastCut e) s = .next (s.withOtu o) ∧
      o = { h with acc := o.acc, regs := o.regs, cyc := o.cyc, dctr := o.dctr, eq := o.eq, eqs := o.eqs
                   strobes := Tbl.ins h.strobes 0x101 s.otu.acc.fastNextT } ∧ o.acc.a = s.otu.acc.a ∧ o.acc.b = s.otu.acc.b ∧
      (s.otu.acc.fastStepped = false → g.clk.ft < s.otu.acc.fastNextT + OtuR.fld s.otu OTU_ACC_FAST_CTRL 1 17 * 40000 →
        o.acc.fastNextT = s.otu.acc.fastNextT + OtuR.fld s.otu OTU_ACC_FAST_CTRL 1 17 * 40000) ∧
      (OtuR.flag s.otu OTU_ACC_CTRL 2 = true → s.otu.jobs = [] → (o.acc.ref 0 1).no = s.otu.acc.fastNextT / 40000 ∧
        (o.acc.ref 0 1).image.ctr = fastValues h.latch h.fastSel) ∧
      (OtuR.flag s.otu OTU_ACC_CTRL 2 = false → o.acc.refs = s.otu.acc.refs ∧ o.eq = s.otu.eq)) ∧
    (∀ value, s.otu.acc.pins.any (·.2 == getF value 0 16) = false → exec (.unpin value e) s = .next (s.withOtu g)) ∧
    (∀ value, s.otu.acc.pins.any (·.2 == getF value 0 16) = true → ∃ o, exec (.unpin value e) s = .next (s.withOtu o) ∧
      o = { g with acc := { g.acc with pins := s.otu.acc.pins.filter fun x => decide (x.2 ≠ getF value 0 16) }, hbm := o.hbm } ∧
      ∀ a, ¬ (s.otu.dirBase ≤ a ∧ a < s.otu.dirBase + 48) → o.hbm.byte a = s.otu.hbm.byte a)

/-- SWITCH_ARM with T_s later than the fleet time, a multiple of the old and of the new interval, with every enabled
fast interval dividing the new one: T_s is armed. Otherwise (T_s not all ones) it is refused: T_s is all ones and
SWITCH_REFUSED is set, with ACTION_LATE and its event where T_s had been reached. SWITCH_CANCEL leaves all ones and no
refusal. A write of FAST_CTRL that would enable fast cuts at an interval that does not divide the regular one sets
FAST_REFUSED and changes nothing else. FAST_SEL_WRITE writes one selection register. KEY_REQ_REGULAR and KEY_REQ_FAST
make the next cut of their kind KEY. STEP_MARK, the marks of earlier cycles settled and no unsealed regular shadow cut
in this cycle: with fewer than 16 marks waiting the mark joins them; with 16 it is dropped, STEP_OVF is set and die
counter 0x81 counts one; the step in progress becomes the one begun, or none at STEP_END, and the mark is progress of
its sequencer's job. -/
def Obligations.AccordControlsAndStepMarks : Prop :=
  ∀ (s : State) (e : Edge) (g : Otu), s.otu.invalid = false → g = s.otu.go e →
    (∀ T, T < 2 ^ 64 - 1 → s.otu.clk.st ≠ 0 → g.clk.ft < T → T % (s.otu.acc.interval * 400000) = 0 →
        T % (OtuR.fld s.otu OTU_ACC_SWITCH_INTERVAL 0 14 * 400000) = 0 →
        (OtuR.flag s.otu OTU_ACC_FAST_CTRL 0 = true →
          fastDivides (OtuR.fld s.otu OTU_ACC_FAST_CTRL 1 17) (OtuR.fld s.otu OTU_ACC_SWITCH_INTERVAL 0 14) = true) →
      ∃ o, exec (.switchArm T e) s = .next (s.withOtu o) ∧ o = { g with regs := o.regs } ∧ OtuR.get o OTU_ACC_SWITCH_T = T ∧
        ∀ a, a ≠ OTU_ACC_SWITCH_T → OtuR.get o a = OtuR.get s.otu a) ∧
    (∀ T, T < 2 ^ 64 - 1 → (s.otu.clk.st = 0 ∨ T ≤ g.clk.ft ∨ T % (s.otu.acc.interval * 400000) ≠ 0 ∨
        T % (OtuR.fld s.otu OTU_ACC_SWITCH_INTERVAL 0 14 * 400000) ≠ 0 ∨ (OtuR.flag s.otu OTU_ACC_FAST_CTRL 0 = true ∧
          fastDivides (OtuR.fld s.otu OTU_ACC_FAST_CTRL 1 17) (OtuR.fld s.otu OTU_ACC_SWITCH_INTERVAL 0 14) = false)) →
      ∃ o, exec (.switchArm T e) s = .next (s.withOtu o) ∧ o = { g with regs := o.regs, cyc := o.cyc, evr := o.evr } ∧ OtuR.get o OTU_ACC_SWITCH_T = 2 ^ 64 - 1 ∧
        OtuR.flag o OTU_ACC_EVENTS 4 = true ∧ (s.otu.clk.st ≠ 0 → T ≤ g.clk.ft → OtuR.flag o OTU_TIME_EVENTS 4 = true) ∧
        ∀ a, a ≠ OTU_ACC_SWITCH_T → a ≠ OTU_ACC_EVENTS → ((s.otu.clk.st ≠ 0 ∧ T ≤ g.clk.ft) → a ≠ OTU_TIME_EVENTS ∧ a ≠ OTU_EVR_EVENTS ∧ a ≠ OTU_EVR_DROPPED) →
          OtuR.get o a = OtuR.get s.otu a) ∧
    (∃ o, exec (.switchCancel e) s = .next (s.withOtu o) ∧ o = { g with regs := o.regs } ∧ OtuR.get o OTU_ACC_SWITCH_T = 2 ^ 64 - 1 ∧
      ∀ a, a ≠ OTU_ACC_SWITCH_T → OtuR.get o a = OtuR.get s.otu a) ∧
    exec (.keyReqRegular e) s = .next (s.withOtu { g with acc := { g.acc with keyReg := true } }) ∧
    exec (.keyReqFast e) s = .next (s.withOtu { g with acc := { g.acc with fastKey := true } }) ∧
    (∀ value, bit value 0 = true → 1 ≤ getF value 1 17 → getF value 1 17 ≤ 100000 → fastDivides (getF value 1 17) s.otu.acc.interval = false →
      ∃ o, exec (.fastCtrlWrite value e) s = .next (s.withOtu o) ∧ o = { g with regs := o.regs, cyc := o.cyc } ∧ OtuR.flag o OTU_ACC_EVENTS 7 = true ∧
        ∀ a, a ≠ OTU_ACC_EVENTS → OtuR.get o a = OtuR.get s.otu a) ∧
    (∀ value, bit value 0 = false → ∃ o, exec (.fastCtrlWrite value e) s = .next (s.withOtu o) ∧
      o = { g with regs := o.regs, acc := { g.acc with fastNextT := 2 ^ 64 - 1 } } ∧ OtuR.flag o OTU_ACC_FAST_CTRL 0 = false ∧
        ∀ a, a ≠ OTU_ACC_FAST_CTRL → OtuR.get o a = OtuR.get s.otu a) ∧
    (∀ k value, k < 64 → getF value 0 15 ≤ 16639 → ∃ o, exec (.fastSelWrite k value e) s = .next (s.withOtu o) ∧ o = { g with regs := o.regs } ∧
      OtuR.fld o (OTU_ACC_FAST_SEL k) 0 16 = getF value 0 16 ∧ ∀ a, a ≠ OTU_ACC_FAST_SEL k → OtuR.get o a = OtuR.get s.otu a) ∧
    (∀ seq kind stepNo tokens n x, seq < 64 → kind < 2 → s.otu.acc.oldest (fun y => y.kind == 0 && !y.sealed && decide (g.lt ≤ y.lt)) = none →
        n = (if kind = 0 then stepNo % 2 ^ 64 else 2 ^ 64 - 1) →
        x = { stepNo := stepNo % 2 ^ 64, ft := g.ft, tokens := tokens % 2 ^ 32, seq, kind, jt := g.jt, lt := g.lt, tag := (s.otu.eng (seqEngine seq)).tag } →
      ∃ o, exec (.stepMark seq kind stepNo tokens e) s = .next (s.withOtu o) ∧
        o = { g.settleMarks with acc := o.acc, jobs := (g.progress (s.otu.eng (seqEngine seq)).tag).jobs, step := o.step, staleDue := o.staleDue
                                 engs := o.engs, dctr := o.dctr, regs := o.regs, cyc := o.cyc } ∧
        o.step.cur.2 = n ∧
        (s.otu.acc.marks.length < 16 → o.acc = { g.acc with stepNo := n, marks := s.otu.acc.marks ++ [x] }) ∧
        (16 ≤ s.otu.acc.marks.length → o.acc = { g.acc with stepNo := n, stepOvf := true } ∧
          OtuR.flag o OTU_ACC_EVENTS 3 = true ∧ o.dctrGet 0x81 = (addWord 48 (s.otu.dctrGet 0x81) 1).1))

/-- ACCORD_OPEN of a fast accord at Priord, with no standing reason for a gap and no gap run outstanding: for every
context that takes it an accord is added with its expected ranks, empty of contributions, and nothing else changes; of
a regular accord the same at the tray where this Priord is tray node only, with the previous number, the next instant
and the interval moved on. A regular record that decodes, for a rank that the open accord awaits while another rank is
still awaited: the accord holds the contribution after it, the reference of the rank is the record, and the port's
last number shows it. A record whose header cannot be read is discarded: LOSS counts one and only registers and the
port's request for a KEY change. A gap record for an awaited rank of one open accord is kept there with its reason
while another rank is awaited (a die's own in the fleet context counts for its location); one for an accord not yet
open waits; a malformed one declares nothing. At its deadline a tray accord (fast or hang, or regular with no Nose
model to take it) that still misses ranks is closed in state 3, each missing rank (none of which a forward step passed
over) listed NOT_ARRIVED beside the gaps, and DEADLINE is set; before the deadline CLOSURE_DEADLINE changes nothing. -/
def Obligations.TrayClosureTakesRecordsAndGaps : Prop :=
  ∀ (s : State) (t : Nat) (g : Prd), g = s.prd.go t →
    (g.gapRuns = [] → (∀ n, n < 32 → g.standing n = none) →
        (g.openSlots (g.ft / 40000 * 40000)).Pairwise (fun c d => (if c = 0 then 0 else (g.slot c).tag) ≠ (if d = 0 then 0 else (g.slot d).tag)) →
        (∀ c, c ∈ g.openSlots (g.ft / 40000 * 40000) → g.expectedAt c (g.ft / 40000 * 40000) ≠ [] ∧
          g.blocksAt (if c = 0 then 0 else (g.slot c).tag) 0 ≠ [] ∧ g.acc? (if c = 0 then 0 else (g.slot c).tag) 1 (g.ft / 40000) 0 = none) →
      exec (.accordOpen true t) s = .next (s.withPrd { g with
        accs := ((g.openSlots (g.ft / 40000 * 40000)).map fun c =>
          ({ level := 0, tag := if c = 0 then 0 else (g.slot c).tag, kind := 1, no := g.ft / 40000, t := g.ft / 40000 * 40000, prev := 2 ^ 64 - 1
             epoch := (g.slot c).itemEpoch, expected := g.expectedAt c (g.ft / 40000 * 40000) } : AccNode)).reverse ++ g.accs
        strobes := Tbl.ins g.strobes 0x101 (g.ft / 40000 * 40000) })) ∧
    (∀ h : Prd, h = g.takeEffect s.prd.accNext → s.prd.accInt ≠ 0 → s.prd.accSwitch = none → s.prd.accNext ≤ g.ft →
        g.ft < s.prd.accNext + s.prd.accInt * 400000 → g.gapRuns = [] → (∀ n, n < 32 → g.standing n = none) →
        (∀ l, 1 ≤ l → l ≤ 3 → h.holds h.tree.roles l = false) → h.openSlots s.prd.accNext = [0] →
        h.expectedAt 0 s.prd.accNext ≠ [] → (∀ l, l ≤ 3 → g.acc? 0 0 (s.prd.accNext / 400000) l = none) →
      exec (.accordOpen false t) s = .next (s.withPrd { h with
        accNext := s.prd.accNext + s.prd.accInt * 400000, accPrev := s.prd.accNext / 400000
        accs := { level := 0, tag := 0, kind := 0, no := s.prd.accNext / 400000, t := s.prd.accNext, prev := s.prd.accPrev
                  epoch := (h.slot 0).itemEpoch, items := if h.safe then [] else (h.slot 0).items
                  expected := h.expectedAt 0 s.prd.accNext } :: g.accs
        strobes := Tbl.ins g.strobes 0x100 s.prd.accNext })) ∧
    (∀ (n tag rank r' : Nat) (body : List Byte) (m : AccHdr) (im : Image) (a : AccNode), g.awayHome (.port n) tag rank = none →
        (tag = 0 ∨ ∃ c, g.slotOf tag = some c ∧ (g.slot c).s ≤ (accHdrOf body).tCut) → accHdrOk body = true → (accHdrOf body).kind = 0 →
        bit (accHdrOf body).flags 6 = false → (g.accRef tag rank 0).stepped = none →
        (bit (accHdrOf body).flags 0 = true ∨ ((g.accRef tag rank 0).no ≠ 2 ^ 64 - 1 ∧ (g.accRef tag rank 0).no = (accHdrOf body).prevNo)) →
        decodeAccord (g.accRef tag rank 0).image body = some (m, im) → g.acc? tag 0 (accHdrOf body).no 0 = some a → g.takes a rank = true →
        r' ∈ a.expected → r' ≠ rank → a.has r' = false → a.gapped r' = false → ∃ o b c,
      exec (.accordRecordRx (.port n) tag rank body t) s = .next (s.withPrd o) ∧
      o = { g with refs := o.refs, dp := o.dp, regs := o.regs, accs := o.accs } ∧
      o.acc? tag 0 (accHdrOf body).no 0 = some b ∧ b = { a with contribs := a.contribs ++ [c], gaps := a.gaps.filter (·.1 != rank) } ∧
      c.rank = rank ∧ c.image = im ∧ c.grade = getF (accHdrOf body).flags 1 3 ∧
      (o.accRef tag rank 0).no = (accHdrOf body).no ∧ (o.accRef tag rank 0).image = im ∧
      PrdR.get o (PRD_ACC_DP_LAST n) = (accHdrOf body).no % 2 ^ 64) ∧
    (∀ (n rank : Nat) (body : List Byte), g.awayHome (.port n) 0 rank = none → accHdrRead body = false → ∃ o,
      exec (.accordRecordRx (.port n) 0 rank body t) s = .next (s.withPrd o) ∧
      o = { g with dp := o.dp, regs := o.regs, cyc := o.cyc } ∧ PrdR.fld o PRD_ACC_LOSS 0 32 = min (PrdR.fld g PRD_ACC_LOSS 0 32 + 1) 0xFFFFFFFF ∧
      PrdR.flag o PRD_ACC_EVENTS 2 = true ∧ ∀ a, a ≠ PRD_ACC_LOSS → a ≠ PRD_ACC_EVENTS → PrdR.get o a = PrdR.get g a) ∧
    (∀ (src : RecSrc) (x : GapRec) (k : Nat), x.ok = true → g.awayHome src x.tag x.rank = none →
        k = (match src with | .port n => if x.tag = 0 then g.location n else x.rank | .fwd _ => x.rank) →
      (∀ (a : AccNode) (r' : Nat), x.count = 1 → g.accs.filter (g.gapCovers x) = [a] → g.acc? a.tag a.kind a.no 0 = some a → a.st = 0 →
          k ∈ a.expected → a.has k = false → a.gapped k = false → g.ft < a.t + g.deadline 0 →
          r' ∈ a.expected → r' ≠ k → a.has r' = false → a.gapped r' = false → ∃ o,
        exec (.gapRecordRx src x t) s = .next (s.withPrd o) ∧ o = { g with accs := o.accs } ∧
        o.acc? a.tag a.kind a.no 0 = some { a with gaps := a.gaps ++ [(k, x.reason, 2 ^ 64 - 1)] }) ∧
      (g.accs.filter (g.gapCovers x) = [] →
        exec (.gapRecordRx src x t) s = .next (s.withPrd { g with gapRuns := ({ x with rank := k } :: g.gapRuns).take 4096 }))) ∧
    (∀ (src : RecSrc) (x : GapRec), x.ok = false → exec (.gapRecordRx src x t) s = .next (s.withPrd g)) ∧
    (∀ (ctx kind no tag : Nat) (a : AccNode), tag = (if ctx = 0 then 0 else (g.slot ctx).tag) → g.acc? tag kind no 0 = some a → a.st = 0 →
        (g.slotOf tag).isSome = true →
      (g.ft < a.t + g.deadline 0 → exec (.closureDeadline 0 ctx kind no t) s = .next (s.withPrd g)) ∧
      (a.t + g.deadline 0 ≤ g.ft → a.missing ≠ [] → (∀ r, r ∈ a.missing → (g.accRef tag r kind).stepped = none) →
          (kind ≠ 0 ∨ (g.nose.model = none ∧ ∀ c, g.slotOf tag = some c → bit (PrdR.get g PRD_NOSE_CTX_EN) c = false)) → ∃ o b, exec (.closureDeadline 0 ctx kind no t) s = .next (s.withPrd o) ∧
        o.acc? tag kind no 0 = some b ∧ b.st = 3 ∧ b.closeT = g.ft ∧ b.contribs = a.contribs ∧ b.gaps = a.gaps ∧
        b.localMiss = sortMiss ((a.gaps.map fun x => (x.1, x.2.1)) ++ a.missing.map fun r => (r, 0x40)) ∧
        PrdR.flag o PRD_ACC_EVENTS 0 = true))

/-- PMC_WRITE through the privileged range, in a cycle in which no command starts: counter k + 1 holds the 48 written
bits with its sticky bit kept, CFG_EPOCH counts one, every other register is as before; through a tenant window PMC 0
to 3 are discarded and PMC 4 to 7 of an engine that its job owns take the write alike. EVSEL_WRITE of a value that the
catalogue does not admit sets bit 0 of the engine's events and changes nothing else; of an admitted value it selects
the class and CFG_EPOCH counts one. CMD_START: CMD_SEQ counts one modulo 2^32, a counter in reset-on-command-start
mode keeps only its sticky bit (unless a PMC counts the start itself), every register of other engines is as before,
and the signature joins the last 16. CMD_COMPLETE takes one running command off; with a collective's run, the bucket
order record of R214 goes to the fleet context. ENGINE_STATE_CHANGE is in force from the next cycle on, not in this
one, and stops a canary. WRAP of a fixed counter (of no reserved reason) adds modulo its width, and sets its sticky
bit and the engine's WRAP event when it carries past it, the counters of R98 moving by the same whole cycles (the
model's choice, log entry 41); of a PMC it adds to that counter alone; of a die counter likewise without the event. -/
def Obligations.EngineCommandsAndCounterWrites : Prop :=
  ∀ (s : State) (n k value : Nat) (e : Edge) (g : Otu), s.otu.invalid = false → g = s.otu.go e → n < 512 →
    (k < 8 → (s.otu.eng n).startAt ≠ g.lt → ∃ o, exec (.pmcWrite .otu n k value e) s = .next (s.withOtu o) ∧
      o = { g with regs := o.regs, engs := o.engs, cyc := o.cyc } ∧
      OtuR.get o (OTU_ENG_CTR n (k + 1)) = value % 2 ^ 48 + (if bit (OtuR.get s.otu (OTU_ENG_CTR n (k + 1))) 63 then 2 ^ 63 else 0) ∧
      OtuR.get o (OTU_ENG_CFG_EPOCH n) = (OtuR.get s.otu (OTU_ENG_CFG_EPOCH n) + 1) % 2 ^ 32 ∧
      (∀ a, a ≠ OTU_ENG_CTR n (k + 1) → a ≠ OTU_ENG_CFG_EPOCH n → OtuR.get o a = OtuR.get s.otu a) ∧
      (∀ m, m ≠ n → o.eng m = s.otu.eng m)) ∧
    (∀ w, k < 4 → exec (.pmcWrite (.tenant w) n k value e) s = .next (s.withOtu g)) ∧
    (∀ w, 4 ≤ k → k < 8 → g.winTag w = some (s.otu.eng n).tag →
      exec (.pmcWrite (.tenant w) n k value e) s = exec (.pmcWrite .otu n k value e) s) ∧
    (k < 8 → g.evselOk true n k (s.otu.eng n).tag value = false → ∃ o, exec (.evselWrite .otu n k value e) s = .next (s.withOtu o) ∧
      o = { g with regs := o.regs, cyc := o.cyc } ∧ OtuR.flag o (OTU_ENG_EVENTS n) 0 = true ∧
      ∀ a, a ≠ OTU_ENG_EVENTS n → OtuR.get o a = OtuR.get s.otu a) ∧
    (k < 8 → g.evselOk true n k (s.otu.eng n).tag value = true → ∃ o, exec (.evselWrite .otu n k value e) s = .next (s.withOtu o) ∧
      o = { g with regs := o.regs, engs := o.engs } ∧ OtuR.fld o (OTU_ENG_EVSEL n k) 0 16 = getF value 0 16 ∧
      OtuR.get o (OTU_ENG_CFG_EPOCH n) = (OtuR.get s.otu (OTU_ENG_CFG_EPOCH n) + 1) % 2 ^ 32 ∧
      (∀ a, a ≠ OTU_ENG_EVSEL n k → a ≠ OTU_ENG_CFG_EPOCH n → OtuR.get o a = OtuR.get s.otu a) ∧
      ∀ m, m ≠ n → o.eng m = s.otu.eng m) ∧
    (∀ sig level, ∃ o, exec (.cmdStart n ⟨sig, level⟩ e) s = .next (s.withOtu o) ∧ o = { g with regs := o.regs, engs := o.engs, cyc := o.cyc } ∧
      OtuR.get o (OTU_ENG_CMD_SEQ n) = (OtuR.get s.otu (OTU_ENG_CMD_SEQ n) + 1) % 2 ^ 32 ∧
      ((∀ j, j < 8 → g.pmcCounts n j 0x06 level = false) → ∀ j, j < 8 → OtuR.get o (OTU_ENG_CTR n (j + 1)) =
        if bit (g.evLatched n j) 35 then (if bit (OtuR.get s.otu (OTU_ENG_CTR n (j + 1))) 63 then 2 ^ 63 else 0)
        else OtuR.get s.otu (OTU_ENG_CTR n (j + 1))) ∧
      (∀ a, a ≠ OTU_ENG_CMD_SEQ n → a ≠ OTU_ENG_EVENTS n → (∀ j, j < 8 → a ≠ OTU_ENG_CTR n (j + 1)) → OtuR.get o a = OtuR.get s.otu a) ∧
      (o.eng n).running = (s.otu.eng n).running + 1 ∧ (o.eng n).startAt = g.lt ∧ (o.eng n).level = level ∧
      (o.eng n).sigs = ((s.otu.eng n).sigs ++ [sig % 2 ^ 32]).drop ((s.otu.eng n).sigs.length + 1 - 16) ∧
      ∀ m, m ≠ n → o.eng m = s.otu.eng m) ∧
    (∃ o, exec (.cmdComplete ⟨n, none⟩ e) s = .next (s.withOtu o) ∧
      o = { g with engs := o.engs, jobs := (g.progress (s.otu.eng n).tag).jobs, regs := o.regs, cyc := o.cyc } ∧
      (o.eng n).running = (s.otu.eng n).running - 1 ∧ (o.eng n).doneAt = some g.lt ∧ (∀ m, m ≠ n → o.eng m = s.otu.eng m) ∧
      (∀ a, a ≠ OTU_ENG_EVENTS n → (∀ j, j < 8 → a ≠ OTU_ENG_CTR n (j + 1)) → OtuR.get o a = OtuR.get s.otu a)) ∧
    (∀ x : BucketRun, engKind n = 3 → (s.otu.eng n).tag = 0 → 0 < x.order.length → x.order.length < 65536 → s.otu.clk.st ≠ 0 →
      ∃ o r, exec (.cmdComplete ⟨n, some x⟩ e) s = .next (s.withOtu o) ∧
      o = { g with engs := o.engs, regs := o.regs, cyc := o.cyc, eq := o.eq, eqs := o.eqs } ∧
      (o.eng n).running = (s.otu.eng n).running - 1 ∧ o.eqGet (g.eqOf 9 0 0) = s.otu.eqGet (g.eqOf 9 0 0) ++ [r] ∧
      r.rtype = 0x0C ∧ r.body = (x.record 0 (g.rankOf 0)).bytes) ∧
    (∀ st, st < 4 → ∃ o, exec (.engineStateChange n st e) s = .next (s.withOtu o) ∧
      (engKind n ≠ 6 → o = { g with engs := o.engs, dctr := o.dctr, regs := o.regs, cyc := o.cyc, mirror := o.mirror }) ∧
      (o.eng n).st.inForce g.lt = (s.otu.eng n).st.inForce g.lt ∧ (∀ lt, g.lt < lt → (o.eng n).st.inForce lt = st) ∧
      (o.eng n).canary = (if st = 0 then (s.otu.eng n).canary else none) ∧ ∀ m, m ≠ n → o.eng m = s.otu.eng m) ∧
    (∀ c v, c < 32 → (c = 0 ∨ 9 ≤ c) → (16 ≤ c → bit (reasonMask (engKind n)) (c - 16) = true) → v ≠ 0 → (s.otu.eng n).st.inForce g.lt = 0 →
      ∃ o, exec (.wrap (some n) c v e) s = .next (s.withOtu o) ∧
      o = { g with regs := o.regs, engs := o.engs, dctr := o.dctr, cyc := o.cyc } ∧
      OtuR.get o (OTU_ENG_CTR n c) = (addWord (ctrWidth c) (OtuR.get s.otu (OTU_ENG_CTR n c)) v).1 ∧
      ((addWord (ctrWidth c) (OtuR.get s.otu (OTU_ENG_CTR n c)) v).2 = true → OtuR.flag o (OTU_ENG_EVENTS n) 1 = true) ∧
      (∀ a, (∀ j, j < 32 → a ≠ OTU_ENG_CTR n j) → a ≠ OTU_ENG_EVENTS n → OtuR.get o a = OtuR.get s.otu a) ∧ ∀ m, m ≠ n → o.eng m = s.otu.eng m) ∧
    (∀ v, k < 8 → v ≠ 0 → (s.otu.eng n).st.inForce g.lt = 0 → (s.otu.eng n).startAt ≠ g.lt → (s.otu.eng n).pmcAt ≠ g.lt →
      ∃ o, exec (.wrap (some n) (k + 1) v e) s = .next (s.withOtu o) ∧ o = { g with regs := o.regs, cyc := o.cyc } ∧
      OtuR.get o (OTU_ENG_CTR n (k + 1)) = (addWord (ctrWidth (k + 1)) (OtuR.get s.otu (OTU_ENG_CTR n (k + 1))) v).1 ∧
      ∀ a, a ≠ OTU_ENG_CTR n (k + 1) → a ≠ OTU_ENG_EVENTS n → OtuR.get o a = OtuR.get s.otu a) ∧
    (∀ c v, c < 256 → exec (.wrap none c v e) s = .next (s.withOtu (g.dctrAdd c v)))

/-- ENGINE_CYCLE of an engine that is not ACTIVE counts nothing but the die's own refresh, throttle and stretch
cycles. Of an ACTIVE one: CYCLES counts one; of BUSY, STALL and IDLE exactly one counts, the one that the slots give;
the slot counters count the slots of each class; in a stall one reason counts; with no canary on it and no command
start, PMC write or earlier event in the cycle each PMC adds what its event selection gives; every register of another
engine and every other engine's state are as before. ENG_SNAP through the privileged range: buffer 0 holds the 32
counters, CMD_SEQ, fleet and local time of this cycle, valid, with the engine's number and a count one higher;
registers outside the buffer are as before; a tenant's request for an engine that its job does not own sets DENIED
alone. GCH_SAMPLE, enabled and due: the sample's sequence number is shown, the next is one higher, and with streaming
on the record waits in the channel queue; disabled or not due, it does nothing. -/
def Obligations.CyclesSnapshotsAndChannelSamples : Prop :=
  ∀ (s : State) (n : Nat) (c : EngCycle) (e : Edge) (g : Otu), s.otu.invalid = false → g = s.otu.go e → n < 512 →
    ((s.otu.eng n).st.inForce g.lt ≠ 0 → exec (.engineCycle n c e) s = .next (s.withOtu (g.settleMarks.dieCycle c))) ∧
    (∀ l, (s.otu.eng n).st.inForce g.lt = 0 → l = g.cycleSlots n c → ∃ o, exec (.engineCycle n c e) s = .next (s.withOtu o) ∧
      o = { g with regs := o.regs, engs := o.engs, dctr := o.dctr, cyc := o.cyc, gch := o.gch, mirror := o.mirror, staleDue := o.staleDue } ∧
      OtuR.get o (OTU_ENG_CTR n 0) = (addWord 64 (OtuR.get s.otu (OTU_ENG_CTR n 0)) 1).1 ∧
      (∀ j, j < 3 → OtuR.get o (OTU_ENG_CTR n (13 + j)) = if l.activity = j
        then (addWord (ctrWidth (13 + j)) (OtuR.get s.otu (OTU_ENG_CTR n (13 + j))) 1).1 else OtuR.get s.otu (OTU_ENG_CTR n (13 + j))) ∧
      (∀ j, j < 4 → OtuR.get o (OTU_ENG_CTR n (9 + j)) = if l.count j = 0 then OtuR.get s.otu (OTU_ENG_CTR n (9 + j))
        else (addWord (ctrWidth (9 + j)) (OtuR.get s.otu (OTU_ENG_CTR n (9 + j))) (l.count j)).1) ∧
      (∀ j, j < 16 → OtuR.get o (OTU_ENG_CTR n (16 + j)) =
        if l.activity = 1 ∧ l.reason (engKind n) = j
        then (addWord (ctrWidth (16 + j)) (OtuR.get s.otu (OTU_ENG_CTR n (16 + j))) 1).1 else OtuR.get s.otu (OTU_ENG_CTR n (16 + j))) ∧
      (∀ k x, k < 8 → (s.otu.eng n).startAt ≠ g.lt → (s.otu.eng n).pmcAt ≠ g.lt → (s.otu.eng n).xAt ≠ g.lt → (s.otu.eng n).occupied g.lt = false →
          x = evAmount (g.evLatched n k) (Tbl.get (fun _ => 0) ((s.otu.eng n).roll g.lt).xprev k)
            (g.xNow n c l (getF (g.evLatched n k) 0 16) (g.plFor n k)) → OtuR.get o (OTU_ENG_CTR n (k + 1)) =
        if x = 0 then OtuR.get s.otu (OTU_ENG_CTR n (k + 1)) else (addWord 48 (OtuR.get s.otu (OTU_ENG_CTR n (k + 1))) x).1) ∧
      (∀ a, (∀ j, j < 32 → a ≠ OTU_ENG_CTR n j) → a ≠ OTU_ENG_EVENTS n → OtuR.get o a = OtuR.get g.settleMarks a) ∧
      (∀ m, m ≠ n → o.eng m = s.otu.eng m)) ∧
    (∀ value, getF value 0 9 = n → ∃ o, exec (.engSnap .otu value e) s = .next (s.withOtu o) ∧ o = { g with regs := o.regs } ∧
      (∀ j, j < 32 → OtuR.get o (OTU_ENG_SNAP 0 j) = g.latchWord n j % 2 ^ 64) ∧
      OtuR.get o (OTU_ENG_SNAP_CMD_SEQ 0) = g.latchWord n 32 % 2 ^ 64 ∧ OtuR.get o (OTU_ENG_SNAP_FT 0) = g.ft % 2 ^ 64 ∧
      OtuR.get o (OTU_ENG_SNAP_LT 0) = g.lt % 2 ^ 64 ∧
      OtuR.fld o (OTU_ENG_SNAP_STATUS 0) 0 9 = n ∧ OtuR.flag o (OTU_ENG_SNAP_STATUS 0) 9 = true ∧
      OtuR.fld o (OTU_ENG_SNAP_STATUS 0) 16 16 = (OtuR.fld s.otu (OTU_ENG_SNAP_STATUS 0) 16 16 + 1) % 65536 ∧
      ∀ a, (a < OTU_ENG_SNAP_CMD 0 ∨ OTU_ENG_SNAP_CMD 0 + 0x200 ≤ a) → OtuR.get o a = OtuR.get s.otu a) ∧
    (∀ value w tag h, h = g.settleWindow w → h.winTag w = some tag → (s.otu.eng (getF value 0 9)).tag ≠ tag →
      ∃ o, exec (.engSnap (.tenant w) value e) s = .next (s.withOtu o) ∧
      o = { h with regs := o.regs } ∧ OtuR.flag o (OTU_ENG_SNAP_STATUS (1 + w)) 10 = true ∧
      ∀ a, a ≠ OTU_ENG_SNAP_STATUS (1 + w) → OtuR.get o a = OtuR.get h a) ∧
    (∀ value w h, h = g.settleWindow w → h.winTag w = some (s.otu.eng (getF value 0 9)).tag →
      exec (.engSnap (.tenant w) value e) s = .next (s.withOtu (h.snap (1 + w) (getF value 0 9)))) ∧
    (∀ values mask, OtuR.flag s.otu OTU_GCH_CTRL 0 = true → g.due s.otu.gchNext = true → ∃ o, exec (.gchSample values mask e) s = .next (s.withOtu o) ∧
      o = { g with gchSeq := (s.otu.gchSeq + 1) % 2 ^ 32, gchNext := o.gchNext, regs := o.regs, eq := o.eq, eqs := o.eqs, gch := o.gch } ∧
      OtuR.get o OTU_GCH_LAST_SEQ = s.otu.gchSeq % 2 ^ 64 ∧
      (OtuR.flag s.otu OTU_GCH_CTRL 11 = true → ∃ r, o.eqGet (g.eqOf 6 0 0) = s.otu.eqGet (g.eqOf 6 0 0) ++ [r] ∧ r.rtype = 8 ∧
        r.body = gchBytes (g.actGrade + 8 * b2n g.trayLock) s.otu.gchSeq s.otu.gchNext g.lt ((mask ||| gchOwn) % 2 ^ 43)
          ((gchCounts.foldl (fun o n => o.gchAdd n (values.getD n 0)) g).gchValues values)) ∧
      (OtuR.flag s.otu OTU_GCH_CTRL 11 = false → o.eq = s.otu.eq)) ∧
    (∀ values mask, (OtuR.flag s.otu OTU_GCH_CTRL 0 && g.due s.otu.gchNext) = false → exec (.gchSample values mask e) s = .next (s.withOtu g))

/-- QUEUE_ENQUEUE: the depth is one more, the head delay starts where the queue was empty, FULL is remembered, and the
greatest depth covers the cycles before this one; in a DMA ring or link queue nothing else of the OTU changes, in a
command queue only what the engine's counters count of the push. QUEUE_DEQUEUE of a queue that is not empty: the depth
is one less, the next entry becomes head now, and the owner's progress is noted; of an empty one nothing. QUEUE_BIND
and QUEUE_UNBIND change the owner of a DMA ring or link queue (512 to 4,095) alone; a command queue follows its
engine. QUEUE_SAMPLE of the die, with no sampled queue due, does nothing; else every queue that is due at the earliest
instant due has its accumulators afresh and every other queue is as before. No queue but those named changes in any of
these. -/
def Obligations.QueuesFollowTheirEntries : Prop :=
  ∀ (s : State) (q : Nat) (e : Edge) (g : Otu) (x : QSt), s.otu.invalid = false → g = s.otu.go e → x = (s.otu.queue q).upto g.lt →
    (∀ full level y, q < 4096 → y = { x with depth := x.depth + 1, headAt := if x.depth = 0 then g.ft else x.headAt, levels := if q < 512 then x.levels ++ [level] else [], full := x.full || full } →
      (512 ≤ q → exec (.queueEnqueue q ⟨full, level⟩ e) s = .next (s.withOtu (g.setQueue q y))) ∧
      (q < 512 → ∃ o, exec (.queueEnqueue q ⟨full, level⟩ e) s = .next (s.withOtu o) ∧
        o = { (g.setQueue q y) with engs := o.engs, regs := o.regs, cyc := o.cyc } ∧ (∀ m, m ≠ q → o.eng m = s.otu.eng m) ∧
        ∀ a, a ≠ OTU_ENG_EVENTS q → (∀ k, k < 8 → a ≠ OTU_ENG_CTR q (k + 1)) → OtuR.get o a = OtuR.get s.otu a)) ∧
    (q < 4096 → 0 < (s.otu.queue q).depth → ∃ o, exec (.queueDequeue q e) s = .next (s.withOtu o) ∧
      o = { g with queues := o.queues, jobs := (g.progress (s.otu.queueOwner q)).jobs } ∧
      o.queue q = { x with depth := x.depth - 1, levels := x.levels.drop 1, headAt := g.ft, dequeued := satAdd 32 x.dequeued 1 } ∧
      ∀ p, p ≠ q → o.queue p = s.otu.queue p) ∧
    ((s.otu.queue q).depth = 0 → exec (.queueDequeue q e) s = .next (s.withOtu g)) ∧
    (∀ tag, 512 ≤ q → q < 4096 → exec (.queueBind q tag e) s = .next (s.withOtu (g.setQueue q { s.otu.queue q with
      owner := tag % 65536, ownerChanged := (s.otu.queue q).ownerChanged || (s.otu.queue q).owner != tag % 65536 }))) ∧
    (512 ≤ q → q < 4096 → exec (.queueUnbind q e) s = .next (s.withOtu (g.setQueue q { s.otu.queue q with
      owner := 0, ownerChanged := (s.otu.queue q).ownerChanged || (s.otu.queue q).owner != 0 }))) ∧
    (∀ tag, q < 512 → exec (.queueBind q tag e) s = .next (s.withOtu g) ∧ exec (.queueUnbind q e) s = .next (s.withOtu g)) ∧
    ((∀ y ∈ g.sampleTimes, g.due y.2 = false) → exec (.queueSample .die e) s = .next (s.withOtu g)) ∧
    (∀ t, (q, t) ∈ g.sampleTimes → g.due t = true → (∀ y ∈ g.sampleTimes, t ≤ y.2) → ∃ o, exec (.queueSample .die e) s = .next (s.withOtu o) ∧
      o = { g with queues := o.queues, qsLast := t, qOld := o.qOld, qsLossy := o.qsLossy, regs := o.regs, jobs := o.jobs, eq := o.eq, eqs := o.eqs, cyc := o.cyc } ∧
      (∀ p, (p, t) ∈ g.sampleTimes → o.queue p = (s.otu.queue p).sampled g.lt) ∧
      (∀ p, (p, t) ∉ g.sampleTimes → o.queue p = s.otu.queue p))

/-- WAIT_BEGIN, with wait tracking on and no wait open at the engine: the wait is open with the next identifier, the
times, grade and owner of this cycle; a sequencer's wait may also count in its engine's PMCs. WAIT_END closes it: one
shorter than twice MIN_WAIT cycles is counted in SYNC_SHORT and leaves no record; a longer one, with room in the
staging buffer, puts its 48-byte record with this cycle's fleet time into the sync queue of its job, and where that
record hides a holder also the whole record into the fleet context's (the model's choice, log entry 47); one that was
cancelled marks the job. OPEN_REPORT past its threshold marks the wait reported and puts a record with no end into
that queue; before it nothing happens. No other wait changes. -/
def Obligations.WaitsOpenAndClose : Prop :=
  ∀ (s : State) (n : Nat) (e : Edge) (g : Otu), s.otu.invalid = false → g = s.otu.go e →
    (∀ w, n < 512 → OtuR.flag s.otu OTU_SYNC_CTRL 0 = true → s.otu.waits.lookup n = none → ∃ o, exec (.waitBegin n w e) s = .next (s.withOtu o) ∧
      o = { g with
        waits := Tbl.ins s.otu.waits n { info := w, id := s.otu.waitId, ft := g.ft, lt := g.lt, grade := g.clk.grade, tag := (s.otu.eng n).tag }, waitId := (s.otu.waitId + 1) % 2 ^ 32, regs := o.regs, engs := o.engs, cyc := o.cyc } ∧
      (engKind n ≠ 6 → o.regs = s.otu.regs ∧ o.engs = s.otu.engs ∧ o.cyc = g.cyc)) ∧
    (∀ w, engKind n ≠ 6 → (OtuR.flag s.otu OTU_SYNC_CTRL 0 && (s.otu.waits.lookup n).isNone) = false → exec (.waitBegin n w e) s = .next (s.withOtu g)) ∧
    (∀ c, s.otu.waits.lookup n = none → exec (.waitEnd n c e) s = .next (s.withOtu g)) ∧
    (∀ w c, s.otu.waits.lookup n = some w → g.lt - w.lt < 2 * OtuR.fld s.otu OTU_SYNC_CTRL 1 8 → ∃ o,
      exec (.waitEnd n c e) s = .next (s.withOtu o) ∧ o = { g with waits := Tbl.del s.otu.waits n, regs := o.regs, cyc := o.cyc } ∧
      OtuR.fld o OTU_SYNC_SHORT 0 32 = min (OtuR.fld s.otu OTU_SYNC_SHORT 0 32 + 1) 0xFFFFFFFF ∧
      ∀ a, a ≠ OTU_SYNC_SHORT → OtuR.get o a = OtuR.get s.otu a) ∧
    (∀ w c r1 r2, s.otu.waits.lookup n = some w → 2 * OtuR.fld s.otu OTU_SYNC_CTRL 1 8 ≤ g.lt - w.lt → s.otu.queuedBytes 5 + 96 ≤ 32768 →
      g.waitCopies w n (if c then 8 else 0) g.ft = (r1, r2) → ∃ o r, exec (.waitEnd n c e) s = .next (s.withOtu o) ∧
      o = { g with waits := Tbl.del s.otu.waits n, eq := o.eq, eqs := o.eqs, jobs := if c then (g.updJob w.tag fun j => { j with cancelled := true }).jobs else g.jobs } ∧
      r ∈ o.eqGet (g.eqOf 5 0 w.tag) ∧ r.rtype = 6 ∧ r.kind = 5 ∧ r.tag = w.tag ∧ r.body = syncBytes r1 ∧
      (∀ f, r2 = some f → ∃ r', r' ∈ o.eqGet (g.eqOf 5 0 0) ∧ r'.rtype = 6 ∧ r'.kind = 5 ∧ r'.tag = 0 ∧ r'.body = syncBytes f) ∧
      (r2 = none → o.eqGet (g.eqOf 5 0 w.tag) = s.otu.eqGet (g.eqOf 5 0 w.tag) ++ [r])) ∧
    (s.otu.waits.lookup n = none → exec (.openReport n e) s = .next (s.withOtu g)) ∧
    (∀ w, s.otu.waits.lookup n = some w → w.reported = true → exec (.openReport n e) s = .next (s.withOtu g)) ∧
    (∀ w, s.otu.waits.lookup n = some w → w.reported = false →
      (g.lt - w.lt < 2000 * OtuR.fld s.otu OTU_SYNC_CTRL 16 10 → exec (.openReport n e) s = .next (s.withOtu g)) ∧
      (2000 * OtuR.fld s.otu OTU_SYNC_CTRL 16 10 ≤ g.lt - w.lt → s.otu.queuedBytes 5 + 96 ≤ 32768 → ∃ o r,
        exec (.openReport n e) s = .next (s.withOtu o) ∧
        o = { g with waits := Tbl.ins s.otu.waits n { w with reported := true }, eq := o.eq, eqs := o.eqs } ∧
        r ∈ o.eqGet (g.eqOf 5 0 w.tag) ∧ r.rtype = 6 ∧ r.kind = 5 ∧ r.tag = w.tag ∧
        r.body = syncBytes (g.waitCopies w n 1 absent).1))

/-- HANG_DETECTED of a job on the die with pending work whose last progress is THRESHOLD ms or more past: the job is
hung, the SELF event is set, and a hang cut of this cycle with the job's open waits stands in a free shadow set, or
waits for one. HANG_CUT at a job's T_h takes the job-wide cut with that T_h as its HANG_ID in the same way. At Priord,
with no START request at the root unanswered and no switch followed: a SELF notice of a die, at a tray that is not the
root, sets NOTICE and asks the root; HANG_PROBE at the root, none held, keeps the end of the job's holdoff, T_h = now
+ LEAD plus HOLDOFF ms, and broadcasts HANG_FREEZE for T_h; while one is held, or at another node, it changes nothing.
A JOB_WIDE notice with open records makes its graph owe that many records of the rank. A component from a child joins
the graph of the level above while it still lacks ranks. HANG_GRAPH_DEADLINE closes the graph at its level's deadline
and does nothing before. -/
def Obligations.HangsAreCutAndGathered : Prop :=
  ∀ (s : State) (tag t : Nat) (e : Edge) (g : Otu) (p : Prd), g = s.otu.go e → p = s.prd.go t →
    (s.otu.invalid = false → s.otu.job? tag = none → exec (.hangDetected tag e) s = .next (s.withOtu g)) ∧
    (s.otu.invalid = false → ∀ j, s.otu.job? tag = some j → OtuR.flag s.otu OTU_HANG_CTRL 0 = true → s.otu.clk.st ≠ 0 → j.hang = false →
        g.pendingWork tag = true → OtuR.fld s.otu OTU_HANG_CTRL 1 14 * 4000000 ≤ g.clk.ft - j.lastProgress →
      (∀ b, s.otu.acc.freeSet = some b → ∃ o sh c, exec (.hangDetected tag e) s = .next (s.withOtu o) ∧
        o = { g with jobs := (g.updJob tag fun j => { j with hang := true }).jobs, regs := o.regs, acc := { (g.acc.setShadow b (some sh)) with lastB := b }, cyc := o.cyc, dctr := o.dctr, mirror := o.mirror, staleDue := o.staleDue } ∧
        sh.kind = 2 ∧ sh.hang = some c ∧ c.cause = 0 ∧ c.id = g.ft ∧ c.waits = (g.hangTable tag).map (·.1) ∧ c.whole = (g.hangTable tag).filterMap (·.2) ∧
        c.queues = (g.hangQueues tag g.ft).flatten ∧ sh.lt = g.lt ∧ sh.image = g.settleMarks.latch ∧
        OtuR.flag o OTU_SYNC_EVENTS 1 = true ∧ OtuR.get o OTU_HANG_LAST_T = g.ft % 2 ^ 64) ∧
      (s.otu.acc.freeSet = none → ∃ o, exec (.hangDetected tag e) s = .next (s.withOtu o) ∧
        o = { g with jobs := (g.updJob tag fun j => { j with hang := true }).jobs, regs := o.regs, cyc := o.cyc, acc := { g.acc with hangPending := s.otu.acc.hangPending ++ [(tag, 0, absent)] } } ∧
        OtuR.flag o OTU_SYNC_EVENTS 1 = true ∧ ∀ a, a ≠ OTU_SYNC_EVENTS → OtuR.get o a = OtuR.get s.otu a)) ∧
    (s.otu.invalid = false → ∀ j b, s.otu.job? tag = some j → g.due j.hangAt = true → s.otu.acc.freeSet = some b → ∃ o sh c,
      exec (.hangCut tag e) s = .next (s.withOtu o) ∧
      o = { g with jobs := (g.updJob tag fun j => { j with hangAt := absent }).jobs, regs := o.regs, acc := { (g.acc.setShadow b (some sh)) with lastB := b }, cyc := o.cyc, dctr := o.dctr, mirror := o.mirror, staleDue := o.staleDue } ∧
      sh.kind = 2 ∧ sh.hang = some c ∧ c.cause = 1 ∧ c.id = j.hangAt ∧ c.waits = (g.hangTable tag).map (·.1) ∧ c.queues = (g.hangQueues tag g.ft).flatten ∧
      OtuR.get o OTU_HANG_LAST_T = g.ft % 2 ^ 64) ∧
    (s.otu.invalid = false → (∀ j, s.otu.job? tag = some j → g.due j.hangAt = false) → s.otu.acc.hangPending = [] →
      exec (.hangCut tag e) s = .next (s.withOtu g)) ∧
    (s.prd.tree.reqs = [] → s.prd.tree.switches = [] →
      (∀ n (x : HangNotice), x.cause = 0 → x.rank < 2 ^ 17 → p.isRoot = false → p.awayHome (.port n) x.tag x.rank = none → ∃ o,
        exec (.hangNoticeRx (.port n) x t) s = .next (s.withPrd o) ∧ o = { p with regs := o.regs, ulq := o.ulq, cyc := o.cyc } ∧
        PrdR.flag o PRD_HANG_EVENTS 0 = true ∧ ∀ a, a ≠ PRD_HANG_EVENTS → PrdR.get o a = PrdR.get p a) ∧
      (∀ src (x : HangNotice), 2 ^ 17 ≤ x.rank → exec (.hangNoticeRx src x t) s = .next (s.withPrd p)) ∧
      (p.isRoot = false → exec (.hangProbe tag t) s = .next (s.withPrd p)) ∧
      (∀ h, s.prd.tree.probes.lookup tag = some h → p.ft < h → exec (.hangProbe tag t) s = .next (s.withPrd p)) ∧
      (∀ h, p.isRoot = true → s.prd.tree.probes.lookup tag = none → h = p.ft + PrdR.fld s.prd PRD_HANG_CFG 0 16 * tickUs → ∃ o,
        exec (.hangProbe tag t) s = .next (s.withPrd o) ∧
        o.tree.probes.lookup tag = some (h + PrdR.fld s.prd PRD_HANG_CFG 16 16 * 1000 * tickUs) ∧ o.tree.count = s.prd.tree.count + 1 ∧
        ∃ x, x ∈ o.tree.bcasts ∧ x.body.kind = 5 ∧ x.body.hdr.tag = tag ∧ x.body.hdr.tAct = h ∧ x.body.hangId = h) ∧
      (∀ (src : RecSrc) (x : HangNotice) (y : HangSt), x.cause ≠ 0 → x.rank < 2 ^ 17 → p.awayHome src x.tag x.rank = none → p.hang? x.hangId 0 = some y → y.tag = x.tag →
          y.done = false → y.ranks.contains x.rank = false → x.rank ∈ y.expect → y.missing.contains x.rank = false → 0 < x.nOpen → ∃ o,
        exec (.hangNoticeRx src x t) s = .next (s.withPrd o) ∧ o = { p with hangs := o.hangs } ∧
        o.hang? x.hangId 0 = some (HangSt.complete { y with owed := (x.rank, x.nOpen) :: y.owed.filter (·.1 != x.rank) })) ∧
      (∀ (c : HangComp) (l : Nat) (y : HangSt), (p.childTrays p.tree.roles).find? (fun x => x.2 == c.child) = some (l, c.child) →
          p.hang? c.hangId (l + 1) = some y → y.done = false → y.tag = c.tag → (y.take c).lacks ≠ [] → ∃ o,
        exec (.hangComponentRx c t) s = .next (s.withPrd o) ∧ o = { p with hangs := o.hangs } ∧ o.hang? c.hangId (l + 1) = some (y.take c)) ∧
      (∀ (c : HangComp), (∀ x ∈ p.childTrays p.tree.roles, x.2 ≠ c.child) → exec (.hangComponentRx c t) s = .next (s.withPrd p)) ∧
      (∀ level id, p.hang? id level = none → exec (.hangGraphDeadline level id t) s = .next (s.withPrd p)) ∧
      (∀ level id y, p.hang? id level = some y → y.done = false →
        (p.ft < y.t + PrdR.fld s.prd PRD_HANG_DEADLINES (8 * level) 8 * 1000 * tickUs →
          exec (.hangGraphDeadline level id t) s = .next (s.withPrd p)) ∧
        (y.t + PrdR.fld s.prd PRD_HANG_DEADLINES (8 * level) 8 * 1000 * tickUs ≤ p.ft → ∃ o y',
          exec (.hangGraphDeadline level id t) s = .next (s.withPrd o) ∧ o.hang? id level = some y' ∧ y'.done = true)))

/-- For a sequencer of whose streams nothing is due from an earlier cycle. SIL_INSTR_RETIRE with the sequencer's trace
off changes that sequencer's position and what its engine's counters count of the instruction, no stream. With the
trace on, at job level, in a stream with no other job's data, its job's start shown, no record lost and no SYNC due:
an instruction of no class puts nothing into the stream; a branch adds its outcome to fewer than 32 pending ones; an
indirect with no outcomes pending puts IND with the zigzag difference of the targets. SPAN_ENTRY at level 1 or 2 with
no grant live makes that the sequencer's level; SPAN_EXIT of a span not split puts PGAP with the differences to the
departure and to the resumption and the cycles between, and the level is 0 again. OUT_FLUSH after its 16-cycle units
puts the pending outcomes as one OUT packet. No other stream and no other sequencer changes. -/
def Obligations.TraceTakesWhatRetires : Prop :=
  ∀ (s : State) (n : Nat) (i : SilInstr) (e : Edge) (g : Otu) (q : SilSeq) (x : SilSt), s.otu.invalid = false → g = s.otu.go e → n < 64 →
      q = s.otu.seqSt n → x = s.otu.silSt n → x.due = none → x.endDue = none → (s.otu.silSt (64 + n)).due = none → (s.otu.silSt (64 + n)).endDue = none →
    (s.otu.silOn n = false → ∃ o, exec (.silInstrRetire n i e) s = .next (s.withOtu o) ∧
      o = { g with silSeq := o.silSeq, regs := o.regs, engs := o.engs, cyc := o.cyc } ∧
      o.seqSt n = { q with nextIa := i.next % 2 ^ 48, lastIa := if i.level = 0 then some i.ia else q.lastIa, lastLt := if i.level = 0 then g.lt else q.lastLt } ∧
      (∀ m, m ≠ n → o.seqSt m = s.otu.seqSt m) ∧ (∀ m, m ≠ seqEngine n → o.eng m = s.otu.eng m)) ∧
    (s.otu.silOn n = true → i.level = 0 → x.tag = s.otu.seqOwner n → (∀ j, s.otu.job? (s.otu.seqOwner n) = some j → x.began = j.bseq + 1) →
        x.lost = false → x.ovfDue = false → x.counted < 4095 → x.run = none → ∃ o,
      exec (.silInstrRetire n i e) s = .next (s.withOtu o) ∧ o = { g with silSeq := o.silSeq, sil := o.sil, regs := o.regs, engs := o.engs, cyc := o.cyc } ∧
      o.seqSt n = { q with nextIa := i.next % 2 ^ 48, lastIa := some i.ia, lastLt := g.lt } ∧ (∀ k, k ≠ n → o.silSt k = s.otu.silSt k) ∧
      (i.kind ≠ 1 → i.kind ≠ 2 → o.silSt n = x) ∧
      (i.kind = 1 → x.pend.length < 32 → o.silSt n = { x with lastOut := g.lt, pend := x.pend ++ [i.taken] }) ∧
      (i.kind = 2 → x.pend = [] → x.buf.length < 4040 →
        (o.silSt n).buf = x.buf ++ (le 1 0x10 ++ leb (zigzag 45 x.lit (i.target / 8))) ∧ (o.silSt n).lit = i.target / 8 ∧
        (o.silSt n).pktCount = (x.pktCount + 1) % 2 ^ 32 ∧ (o.silSt n).counted = x.counted + 1)) ∧
    (∀ l ia, (l = 1 ∨ l = 2) → (s.otu.silOn n = false ∨ g.silLiveAt g.ftBefore n l = false) → (s.otu.silSt (64 + n)).live = false → ∃ o,
      exec (.spanEntry n l ia e) s = .next (s.withOtu o) ∧ o = { g with silSeq := o.silSeq } ∧
      o.seqSt n = (if q.level = 0 then { q with level := l, span := l, split := false, partLt := q.lastLt, nextIa := ia }
        else { q with level := l, span := q.span ||| l, nextIa := ia }) ∧ ∀ m, m ≠ n → o.seqSt m = s.otu.seqSt m) ∧
    (∀ a ia, q.level ≠ 0 → q.split = false → q.lastIa = some a → (s.otu.silSt (64 + n)).live = false → s.otu.silOn n = true → x.lost = false → x.ovfDue = false →
        x.counted < 4095 → x.run = none → x.pend = [] → x.waitSync = none → x.buf.length < 4000 → g.lt < 2 ^ 64 → ∃ o,
      exec (.spanExit n ia e) s = .next (s.withOtu o) ∧ o = { g with silSeq := o.silSeq, sil := o.sil } ∧
      o.seqSt n = { q with level := 0, span := 0, split := false, nextIa := ia } ∧
      (o.silSt n).buf = x.buf ++ (le 1 (0x20 + q.span % 4) ++ leb (zigzag 45 x.lit (a / 8)) ++ leb (g.lt - q.partLt - 1) ++ leb (zigzag 45 (a / 8) (ia / 8))) ∧
      (o.silSt n).lit = ia / 8 ∧ ∀ k, k ≠ n → o.silSt k = s.otu.silSt k) ∧
    (∀ ia, q.level = 0 → exec (.spanExit n ia e) s = .next (s.withOtu g)) ∧
    (∀ k y, (k = n ∨ k = 64 + n) → y = s.otu.silSt k → y.lost = false → y.ovfDue = false → y.counted < 4095 → y.run = none → y.pend ≠ [] → y.pend.length ≤ 32 → y.buf.length < 4000 →
        y.lastOut + 16 * OtuR.fld s.otu OTU_SIL_CTRL 24 8 ≤ g.lt → ∃ o,
      exec (.outFlush k e) s = .next (s.withOtu o) ∧ o = { g with sil := o.sil } ∧ (o.silSt k).buf = y.buf ++ outPacket y.pend ∧ (o.silSt k).pend = [] ∧
      ∀ j, j ≠ k → o.silSt j = s.otu.silSt j) ∧
    (∀ k, (k = n ∨ k = 64 + n) → g.lt < (s.otu.silSt k).lastOut + 16 * OtuR.fld s.otu OTU_SIL_CTRL 24 8 → exec (.outFlush k e) s = .next (s.withOtu g))

/-- For a stream of which nothing is due from an earlier cycle. SIL_REC_TIMEOUT, past the timeout, of an open record
for which the staging buffer has room: its record with the payload so far waits in the stream's egress queue, the
payload is empty and RSEQ is one higher. SIL_RESUME of a LOST stream with RESUME_FREE free, no open payload and no
outcomes: the stream is LOST no more, its payload is OVF with the totals lost, which start afresh, and a SYNC with
reason 4 is due at the end of this cycle. SYNC_REQ and a write of SIL_SEQ_EN that turns one sequencer on: a SYNC with
reason 5 or 6 is due in the job stream at the end of this cycle, and the mask is the one written; a write that turns
on none and off none changes the register alone. Other streams are as before. -/
def Obligations.TraceStreamsSyncCloseAndResume : Prop :=
  ∀ (s : State) (k : Nat) (e : Edge) (g : Otu) (x : SilSt), s.otu.invalid = false → g = s.otu.go e → x = s.otu.silSt k → x.due = none → x.endDue = none →
    (k < 128 → x.openAt + 2000 * OtuR.fld s.otu OTU_SIL_CTRL 4 8 ≤ g.lt → x.buf ≠ [] → s.otu.queuedBytes 3 + 32 + x.buf.length ≤ 8388608 → ∃ o r,
      exec (.silRecTimeout k e) s = .next (s.withOtu o) ∧ o = { g with sil := o.sil, eq := o.eq, eqs := o.eqs } ∧
      o.eqGet (128 + k) = s.otu.eqGet (128 + k) ++ [r] ∧ r.rtype = 4 ∧ r.kind = 3 ∧ r.inst = k ∧ r.pk = x.pk ∧ r.body.drop 32 = x.buf ∧
      (o.silSt k).buf = [] ∧ (o.silSt k).rseq = (x.rseq + 1) % 2 ^ 32 ∧ (o.silSt k).dropped = 0 ∧ ∀ j, j ≠ k → o.silSt j = s.otu.silSt j) ∧
    (k < 128 → g.lt < x.openAt + 2000 * OtuR.fld s.otu OTU_SIL_CTRL 4 8 → exec (.silRecTimeout k e) s = .next (s.withOtu g)) ∧
    (k < 128 → x.lost = true → x.buf = [] → x.run = none → x.pend = [] → (64 ≤ k ∨ (s.otu.seqSt k).level = 0) → x.lostPkts < 2 ^ 64 → x.lostBytes < 2 ^ 64 →
        s.otu.queuedBytes 3 + OtuR.fld s.otu OTU_SIL_CTRL 12 12 * 1024 ≤ 8388608 →
      ∃ o, exec (.silResume k e) s = .next (s.withOtu o) ∧ o = { g with sil := o.sil } ∧ (o.silSt k).lost = false ∧
      (o.silSt k).buf = le 1 0x50 ++ leb x.lostPkts ++ leb x.lostBytes ∧ (o.silSt k).due = some (g.dueNow 4) ∧ (o.silSt k).lostPkts = 0 ∧
      (o.silSt k).lostBytes = 0 ∧ ∀ j, j ≠ k → o.silSt j = s.otu.silSt j) ∧
    (k < 128 → x.lost = false → exec (.silResume k e) s = .next (s.withOtu g)) ∧
    (k < 64 → x.syncAt ≠ some g.lt → (s.otu.seqSt k).level = 0 → (s.otu.silSt (64 + k)).due = none → (s.otu.silSt (64 + k)).endDue = none →
      (s.otu.silOn k = true → (s.otu.silSt (64 + k)).live = false → exec (.syncReq (2 ^ k) e) s = .next (s.withOtu (g.setSil k { x with due := some (g.dueNow 5) }))) ∧
      (OtuR.flag s.otu OTU_SIL_CTRL 0 = true → OtuR.get s.otu OTU_SIL_SEQ_EN = 0 → ∃ o, exec (.silSeqEnWrite (2 ^ k) e) s = .next (s.withOtu o) ∧
        o = { (g.setSil k { x with due := some (g.dueNow 6) }) with regs := o.regs } ∧ OtuR.get o OTU_SIL_SEQ_EN = 2 ^ k ∧
        ∀ a, a ≠ OTU_SIL_SEQ_EN → OtuR.get o a = OtuR.get s.otu a)) ∧
    (∀ v, (∀ m, m < 64 → bit v m = true → s.otu.silOn m = false) → exec (.syncReq v e) s = .next (s.withOtu g)) ∧
    (∀ v, (OtuR.flag s.otu OTU_SIL_CTRL 0 = false ∨ OtuR.get s.otu OTU_SIL_SEQ_EN = v) → ∃ o, exec (.silSeqEnWrite v e) s = .next (s.withOtu o) ∧
      o = { g with regs := o.regs } ∧ OtuR.get o OTU_SIL_SEQ_EN = v % 2 ^ 64 ∧ ∀ a, a ≠ OTU_SIL_SEQ_EN → OtuR.get o a = OtuR.get s.otu a)

/-- GRANT_WRITE of an entry whose DIE is this die's and whose EXPIRY lies ahead: the entry is the one written from the
next cycle on, not in this one, and CHANGED is set. For another die, in NO_TIME or with EXPIRY not ahead, the write is
refused with REFUSED set and its event, and no entry changes. GRANT_REVOKE of a valid entry leaves it in force in this
cycle and invalid from the next. GRANT_EXPIRED at EXPIRY marks the entry ended and sets EXPIRED. The other entries are
as before; beyond them only trace streams, sequencers' spans, the selections that the grants admitted, registers,
events and what the streams send can change. -/
def Obligations.GrantsTakeEffectNextCycle : Prop :=
  ∀ (s : State) (n : Nat) (e : Edge) (g : Otu) (d : Delayed Grant), s.otu.invalid = false → g = s.otu.go e → n < 4 →
      d = Tbl.get (fun _ => ⟨{}, {}, 0⟩) s.otu.grants n →
    (∀ x : GrantReq, x.die = OtuR.get s.otu OTU_DIE_UID → s.otu.clk.st ≠ 0 → g.clk.ft < x.expiry → ∃ o,
      exec (.grantWrite n x e) s = .next (s.withOtu o) ∧
      o = { g with grants := o.grants, sil := o.sil, silSeq := o.silSeq, engs := o.engs, cyc := o.cyc, eq := o.eq, eqs := o.eqs, jobs := o.jobs, regs := o.regs, evr := o.evr } ∧
      (∀ lt, g.lt < lt → (Tbl.get (fun _ => ⟨{}, {}, 0⟩) o.grants n).inForce lt =
        { id := x.id, scope := x.scope % 32, tag := x.tag, die := x.die, expiry := x.expiry, seqMask := x.seqMask, valid := true }) ∧
      (Tbl.get (fun _ => ⟨{}, {}, 0⟩) o.grants n).inForce g.lt = d.inForce g.lt ∧ OtuR.flag o OTU_SIL_EVENTS 2 = true ∧
      ∀ m, m ≠ n → Tbl.get (fun _ => ⟨{}, {}, 0⟩) o.grants m = Tbl.get (fun _ => ⟨{}, {}, 0⟩) s.otu.grants m) ∧
    (∀ x : GrantReq, (x.die ≠ OtuR.get s.otu OTU_DIE_UID ∨ s.otu.clk.st = 0 ∨ x.expiry ≤ g.clk.ft) → ∃ o,
      exec (.grantWrite n x e) s = .next (s.withOtu o) ∧ o = { g with regs := o.regs, evr := o.evr, cyc := o.cyc } ∧ OtuR.flag o OTU_SIL_EVENTS 3 = true) ∧
    (d.cur.valid = true → ∃ o, exec (.grantRevoke n e) s = .next (s.withOtu o) ∧
      o = { g with grants := o.grants, sil := o.sil, silSeq := o.silSeq, engs := o.engs, cyc := o.cyc, eq := o.eq, eqs := o.eqs, jobs := o.jobs, regs := o.regs, evr := o.evr } ∧
      (∀ lt, g.lt < lt → ((Tbl.get (fun _ => ⟨{}, {}, 0⟩) o.grants n).inForce lt).valid = false) ∧
      (Tbl.get (fun _ => ⟨{}, {}, 0⟩) o.grants n).inForce g.lt = d.inForce g.lt ∧ OtuR.flag o OTU_SIL_EVENTS 2 = true ∧
      ∀ m, m ≠ n → Tbl.get (fun _ => ⟨{}, {}, 0⟩) o.grants m = Tbl.get (fun _ => ⟨{}, {}, 0⟩) s.otu.grants m) ∧
    (d.cur.valid = false → exec (.grantRevoke n e) s = .next (s.withOtu g)) ∧
    (d.cur.valid = true → d.cur.ended = false →
      (g.due d.cur.expiry = true → ∃ o, exec (.grantExpired n e) s = .next (s.withOtu o) ∧
        o = { g with grants := o.grants, sil := o.sil, silSeq := o.silSeq, engs := o.engs, cyc := o.cyc, eq := o.eq, eqs := o.eqs, jobs := o.jobs, regs := o.regs, evr := o.evr } ∧
        (Tbl.get (fun _ => ⟨{}, {}, 0⟩) o.grants n).cur = { d.cur with ended := true } ∧ OtuR.flag o OTU_SIL_EVENTS 4 = true ∧
        ∀ m, m ≠ n → Tbl.get (fun _ => ⟨{}, {}, 0⟩) o.grants m = Tbl.get (fun _ => ⟨{}, {}, 0⟩) s.otu.grants m) ∧
      (g.due d.cur.expiry = false → exec (.grantExpired n e) s = .next (s.withOtu g)))

/-- FLC_SW_TRIG of scope TRAY: a trigger that a flacon covers is attached to it (the lowest such slot counts one
more); one that neither a flacon nor a queued freeze covers, in NO_TIME, is refused with REFUSED; otherwise, with a
slot free, FREEZE_LEAD above 0 no held segment in its window, no reclaim in this cycle and room in the open segment,
the first free slot is ARMED for T = now + FREEZE_LEAD. Of scope 0 it does nothing; of scope JOB or FLEET, at a node
that is not the root, it only asks the root. FREEZE_REQ at a node that is not the root changes nothing; at the root,
in an issued freeze's window, it is attached; otherwise, with time, a FREEZE for now + FREEZE_LEAD is broadcast.
FREEZE_FIRE at T makes an ARMED flacon CAPTURING, with HEAD_LOST where data of its window has been reclaimed;
CAPTURE_END, SETTLE after the window's end, makes it HELD. FLC_RELEASE that names a HELD flacon's FREEZE_T, with none
queued, empties its slot and gives its segments back; one that does not name it changes nothing. -/
def Obligations.FreezesTakeSlotsAndAreReleased : Prop :=
  ∀ (s : State) (n t : Nat) (p : Prd), p = s.prd.go t →
    (∀ v x, getF v 0 2 = 1 → x = { source := 0, scope := 1, tag := getF v 16 16, tTrig := p.ft, rank := getF v 32 20 : Trigger } →
      ((List.range 4).find? (fun m => (p.flacon m).covers x) = some n → ∃ o, exec (.flcSwTrig v t) s = .next (s.withPrd o) ∧
        o = { p with hnr := o.hnr, regs := o.regs, evr := o.evr, cyc := o.cyc } ∧ o.flacon n = { p.flacon n with attached := satAdd 16 (p.flacon n).attached 1 } ∧
        (∀ m, m ≠ n → o.flacon m = p.flacon m) ∧ PrdR.flag o PRD_FLC_EVENTS 6 = true) ∧
      ((List.range 4).find? (fun m => (p.flacon m).covers x) = none → p.hnr.queue.any (·.covers x) = false → s.prd.clk.st = 0 → ∃ o,
        exec (.flcSwTrig v t) s = .next (s.withPrd o) ∧ o = { p with regs := o.regs, evr := o.evr, cyc := o.cyc } ∧ PrdR.flag o PRD_FLC_EVENTS 4 = true) ∧
      ((List.range 4).find? (fun m => (p.flacon m).covers x) = none → p.hnr.queue.any (·.covers x) = false → s.prd.clk.st ≠ 0 → p.freeSlot = some n →
          0 < PrdR.fld p PRD_FLC_CTRL 8 16 → (∀ y, y ∈ p.hnr.ring → (p.newFlacon x).meets y = false) → p.hnr.goneAt ≠ p.ft → p.hnr.open_.used + 1024 ≤ 8388608 → ∃ o, exec (.flcSwTrig v t) s = .next (s.withPrd o) ∧
        o = { p with hnr := o.hnr, regs := o.regs, rings := o.rings, cyc := o.cyc } ∧
        o.flacon n = { p.newFlacon x with settle := PrdR.get p PRD_FLC_SETTLE, st := 2 } ∧ (∀ m, m ≠ n → o.flacon m = p.flacon m) ∧
        o.hnr.ring = p.hnr.ring ∧ PrdR.flag o PRD_FLC_EVENTS 0 = true ∧ ∀ a, a ≠ PRD_FLC_EVENTS → PrdR.get o a = PrdR.get p a)) ∧
    (∀ v, getF v 0 2 = 0 → exec (.flcSwTrig v t) s = .next (s.withPrd p)) ∧
    (∀ v, 2 ≤ getF v 0 2 → p.isRoot = false → ∃ o, exec (.flcSwTrig v t) s = .next (s.withPrd o) ∧ o = { p with ulq := o.ulq }) ∧
    (∀ x : Trigger, (x.scope = 2 ∨ x.scope = 3) →
      (p.isRoot = false → exec (.freezeReq x t) s = .next (s.withPrd p)) ∧
      (∀ f, p.isRoot = true → p.tree.freezes.find? (·.covers x) = some f → ∃ o, exec (.freezeReq x t) s = .next (s.withPrd o) ∧
        o = { p with hnr := o.hnr, regs := o.regs, evr := o.evr, cyc := o.cyc, tree := { p.tree with freezes := o.tree.freezes } } ∧ PrdR.flag o PRD_FLC_EVENTS 6 = true) ∧
      (p.isRoot = true → p.tree.freezes.find? (·.covers x) = none → s.prd.clk.st ≠ 0 → ∃ o b, exec (.freezeReq x t) s = .next (s.withPrd o) ∧
        o.tree.freezes = ({ p.newFlacon x with st := 2 } :: p.tree.freezes).take 64 ∧ o.tree.count = p.tree.count + 1 ∧
        b ∈ o.tree.bcasts ∧ b.body.kind = 4 ∧ b.body.hdr.tAct = p.ft + PrdR.fld p PRD_FLC_CTRL 8 16 * tickUs)) ∧
    (n < 4 → (p.flacon n).st = 2 →
      (p.ft < (p.flacon n).freezeT → exec (.freezeFire n t) s = .next (s.withPrd p)) ∧
      ((p.flacon n).freezeT ≤ p.ft → ∃ o, exec (.freezeFire n t) s = .next (s.withPrd o) ∧ o = { p with hnr := o.hnr, regs := o.regs, rings := o.rings, cyc := o.cyc } ∧
        o.flacon n = { p.flacon n with st := 3, flags := if p.hnr.lostNow ≠ 0 ∧ (p.flacon n).lo ≤ p.hnr.lostNow then setBit (p.flacon n).flags 1 else (p.flacon n).flags } ∧
        ∀ m, m ≠ n → o.flacon m = p.flacon m)) ∧
    (n < 4 → (p.flacon n).st = 3 → (p.flacon n).hi + (p.flacon n).settle * tickUs ≤ p.ft → ∃ o, exec (.captureEnd n t) s = .next (s.withPrd o) ∧
      o = { p with hnr := o.hnr, regs := o.regs, evr := o.evr, rings := o.rings, accs := o.accs, goneAccs := o.goneAccs, cyc := o.cyc } ∧ (o.flacon n).st = 4 ∧ (o.flacon n).freezeT = (p.flacon n).freezeT) ∧
    (∀ v, n < 4 → (p.flacon n).st = 4 → (p.flacon n).freezeT = v % 2 ^ 64 → p.hnr.queue = [] → ∃ o, exec (.flcRelease n v t) s = .next (s.withPrd o) ∧
      o = { p with hnr := { p.hnr with flc := o.hnr.flc, free := p.hnr.free + (p.flacon n).segs.length },
                   tree := { p.tree with freezes := o.tree.freezes }, accs := o.accs } ∧ o.flacon n = {} ∧ ∀ m, m ≠ n → o.flacon m = p.flacon m) ∧
    (∀ v, ((p.flacon n).st ≠ 4 ∨ (p.flacon n).freezeT ≠ v % 2 ^ 64) → exec (.flcRelease n v t) s = .next (s.withPrd p))

/-- DRAIN_OUTPUT with sentinels on, at an engine kind that has them: an element of class c counts one in the die
counter of class and kind (an origin NaN in counter 0x32 too), and a NaN or infinity sets its event bit; an engine's
PMCs may count it; an element of no class, or with sentinels off, changes nothing. FIRST_NAN at an engine whose latch
is armed for the step in force: the latch is taken, FIRST_NAN and its fleet time are shown; with streaming on and
fewer than 64 queued the record waits in the fleet's queue and counter 0x30 counts, with 64 queued it is lost and
counted in 0x31; a second one in the step changes nothing. An error report at the OTU asks for its event (severity 6,
the first request of its cycle, takes one of 64 entries, uncounted by rate limits), a corrected one counts die counter
3 too; at Priord a corrected one asks for its event there, an uncorrected one of severity 6 as well. A first-NaN
record delivered at its rank home waits for the accord; a mismatch record's fleet copy raises its trigger, its job's
copy none. -/
def Obligations.SentinelsAndFirstNans : Prop :=
  ∀ (s : State) (n : Nat) (e : Edge) (g : Otu) (p : Prd), g = s.otu.go e → p = s.prd.go e.ft →
    (s.otu.invalid = false → n < 512 →
      (∀ (x : OutElem) k c, OtuR.flag s.otu OTU_NUM_CTRL 0 = true → sentinelKind (engKind n) = some k → x.cls = some c → ∃ o,
        exec (.drainOutput n x e) s = .next (s.withOtu o) ∧ o = { g with dctr := o.dctr, regs := o.regs, engs := o.engs, cyc := o.cyc } ∧ (∀ m, m ≠ n → o.eng m = s.otu.eng m) ∧
        (c < 4 → k < 4 → o.dctrGet (0x20 + 4 * c + k) = (addWord 48 (s.otu.dctrGet (0x20 + 4 * c + k)) 1).1) ∧
        (c = 0 → OtuR.flag o OTU_NUM_EVENTS 0 = true) ∧ (c = 1 → OtuR.flag o OTU_NUM_EVENTS 1 = true) ∧
        (∀ a, a ≠ OTU_NUM_EVENTS → a ≠ OTU_ENG_EVENTS n → (∀ j, j < 8 → a ≠ OTU_ENG_CTR n (j + 1)) → OtuR.get o a = OtuR.get s.otu a)) ∧
      (∀ x : OutElem, (x.cls = none ∨ sentinelKind (engKind n) = none ∨ OtuR.flag s.otu OTU_NUM_CTRL 0 = false) → exec (.drainOutput n x e) s = .next (s.withOtu g)) ∧
      (∀ x : FirstNan, (sentinelKind (engKind n) = none ∨ OtuR.flag s.otu OTU_NUM_CTRL 1 = false) → exec (.firstNan n x e) s = .next (s.withOtu g)) ∧
      (∀ x : FirstNan, sentinelKind (engKind n) ≠ none → OtuR.flag s.otu OTU_NUM_CTRL 1 = true →
        ((s.otu.eng n).nanGen = some (s.otu.step.inForce g.lt).1 → exec (.firstNan n x e) s = .next (s.withOtu g)) ∧
        ((s.otu.eng n).nanGen ≠ some (s.otu.step.inForce g.lt).1 → ∃ o, exec (.firstNan n x e) s = .next (s.withOtu o) ∧
          o = { g with engs := o.engs, regs := o.regs, evr := o.evr, dctr := o.dctr, eq := o.eq, eqs := o.eqs, cyc := o.cyc } ∧
          o.eng n = { s.otu.eng n with nanGen := some (s.otu.step.inForce g.lt).1 } ∧ (∀ m, m ≠ n → o.eng m = s.otu.eng m) ∧
          OtuR.flag o OTU_NUM_EVENTS 2 = true ∧ OtuR.get o OTU_NUM_LAST_FT = g.ft % 2 ^ 64 ∧
          (OtuR.flag s.otu OTU_NUM_CTRL 2 = true → s.otu.firstNansQueued < 64 → o.dctrGet 0x30 = (addWord 48 (s.otu.dctrGet 0x30) 1).1 ∧
            ∃ r, r ∈ o.eqGet (g.eqOf 7 0 0) ∧ r.rtype = 9 ∧ r.tag = 0 ∧ r.ft = g.now) ∧
          (OtuR.flag s.otu OTU_NUM_CTRL 2 = true → 64 ≤ s.otu.firstNansQueued → o.dctrGet 0x31 = (addWord 48 (s.otu.dctrGet 0x31) 1).1 ∧
            OtuR.flag o OTU_NUM_EVENTS 3 = true ∧ o.eq = s.otu.eq)))) ∧
    (∀ x : ErrReport,
      (s.otu.invalid = false → s.otu.evr.inflight.length < 64 → (∀ c, s.otu.evr.cyc = some c → c.at_ ≠ g.lt) → ∃ o r, r.code = 0x90 ∧ r.sev = 6 ∧ r.tag = x.tag ∧ r.ft = g.ft ∧
        exec (.uncorrectedError .otu x e) s = .next (s.withOtu o) ∧ o = { g with evr := o.evr, regs := o.regs, cyc := o.cyc } ∧
        o.evr.inflight = s.otu.evr.inflight ++ [r] ∧ ∀ a, a ≠ OTU_EVR_DROPPED → OtuR.get o a = OtuR.get s.otu a) ∧
      (s.otu.invalid = false → ∃ o, exec (.correctedError .otu x e) s = .next (s.withOtu o) ∧ o = { g with dctr := o.dctr, evr := o.evr, regs := o.regs, cyc := o.cyc } ∧
        o.dctrGet 3 = (addWord 48 (s.otu.dctrGet 3) 1).1 ∧ ∀ i, i ≠ 3 → o.dctrGet i = s.otu.dctrGet i) ∧
      (∃ o, exec (.correctedError .prd x e) s = .next (s.withPrd o) ∧ o = { p with evr := o.evr, regs := o.regs, cyc := o.cyc }) ∧
      (x.tag = 0 → p.srcScope 6 = 0 → s.prd.pw.fail = none → s.prd.evr.inflight.length < 64 → (∀ c, s.prd.evr.cyc = some c → c.at_ ≠ p.ft) →
        ∃ o r, r.code = 0x90 ∧ r.sev = 6 ∧ r.ft = p.ft ∧ exec (.uncorrectedError .prd x e) s = .next (s.withPrd o) ∧
        o = { p with evr := o.evr, regs := o.regs, cyc := o.cyc } ∧ o.evr.inflight = s.prd.evr.inflight ++ [r])) ∧
    (∀ (src : RecSrc) (tag rank : Nat) (body : List Byte),
      (2 ^ 17 ≤ rank → exec (.firstNanRx src tag rank body e.ft) s = .next (s.withPrd p)) ∧
      (rank < 2 ^ 17 → p.awayHome src tag rank = none → (p.slotOf tag).isSome = true → ∃ o, exec (.firstNanRx src tag rank body e.ft) s = .next (s.withPrd o) ∧
        o.nans = s.prd.nans ++ [(tag, rank, body)] ∧
        (∀ t, src = .fwd t → p.srcScope 1 = 0 → o = { p with nans := o.nans })) ∧
      (tag ≠ 0 → exec (.mismatchRecordRx src tag rank body e.ft) s = .next (s.withPrd p)) ∧
      (tag = 0 → p.srcScope 2 = 1 → exec (.mismatchRecordRx src tag rank body e.ft) s = .next (s.withPrd
        (p.trayTrigger { source := 2, scope := 1, tag := fieldAt body 4 2, tTrig := fieldAt body 24 8, rank }).1)))

/-- Beside the mirror candidates that an earlier cycle made stale, which these commands discard first: CANARY_START on
an engine that is not idle changes nothing; on an idle one the first choice in the order of preference that budget and
abort window allow occupies it and counter 0x40 counts one; with a choice but none allowed, counter 0x49 counts one
and the engine stays free. CANARY_ABORT with no canary notes the arrival alone; in a canary's first cycle it takes
back the start; in a later one it counts in the window's aborts (to 1,023) and in counter 0x42 and frees the engine
unless the canary is in its final cycle. CANARY_COMPLETE of a library canary whose output's fingerprint matches its
EXPECT frees the engine, counts 0x41 and moves its kind's pointer past the entry; one that differs counts 0x46 too,
sets MISMATCH and leaves the mismatch record in the fleet's queue. ABORT_WINDOW at a new window clears the engine's
aborts. No other engine changes. -/
def Obligations.CanariesRunInIdleTime : Prop :=
  ∀ (s : State) (n : Nat) (e : Edge) (g : Otu), s.otu.invalid = false → g = (s.otu.go e).settleMarks → n < 512 →
    (∀ pred drained sib,
      ((g.canIdle n drained = false ∨ (s.otu.eng n).arrived = some g.lt) → exec (.canaryStart n pred ⟨drained, sib⟩ e) s = .next (s.withOtu g)) ∧
      (∀ cs, g.canIdle n drained = true → (s.otu.eng n).arrived ≠ some g.lt →
          cs = (g.canChoices n pred).filter (fun c => !(c.1.mirror && g.lowerSibling n sib)) →
        (∀ c, cs.find? (fun c => (g.canAllowed n c.2).1 && (g.canAllowed n c.2).2) = some c → ∃ o,
          exec (.canaryStart n pred ⟨drained, sib⟩ e) s = .next (s.withOtu o) ∧ o = { g with engs := o.engs, dctr := o.dctr } ∧
          o.eng n = { s.otu.eng n with canary := some { c.1 with lt := g.lt } } ∧ (∀ m, m ≠ n → o.eng m = s.otu.eng m) ∧
          o.dctrGet 0x40 = (addWord 48 (g.dctrGet 0x40) 1).1 ∧ ∀ i, i ≠ 0x40 → o.dctrGet i = g.dctrGet i) ∧
        (cs ≠ [] → cs.find? (fun c => (g.canAllowed n c.2).1 && (g.canAllowed n c.2).2) = none → ∃ o,
          exec (.canaryStart n pred ⟨drained, sib⟩ e) s = .next (s.withOtu o) ∧ o = { g with dctr := o.dctr, regs := o.regs, cyc := o.cyc } ∧
          o.dctrGet 0x49 = (addWord 48 (g.dctrGet 0x49) 1).1 ∧ ∀ a, a ≠ OTU_CAN_EVENTS → OtuR.get o a = OtuR.get g a) ∧
        (cs = [] → exec (.canaryStart n pred ⟨drained, sib⟩ e) s = .next (s.withOtu g)))) ∧
    ((s.otu.eng n).canary = none → ∀ f, exec (.canaryAbort n f e) s = .next (s.withOtu (g.setEng n { s.otu.eng n with arrived := some g.lt }))) ∧
    (∀ r f, (s.otu.eng n).canary = some r → r.lt = g.lt →
      exec (.canaryAbort n f e) s = .next (s.withOtu (g.setEng n { s.otu.eng n with arrived := some g.lt, canary := none }).unstart)) ∧
    (∀ r f, (s.otu.eng n).canary = some r → r.lt ≠ g.lt → ∃ o, exec (.canaryAbort n f e) s = .next (s.withOtu o) ∧
      o = { g with engs := o.engs, dctr := o.dctr, regs := o.regs, cyc := o.cyc } ∧
      (o.eng n).aborts = min 1023 ((s.otu.eng n).aborts + 1) ∧ (o.eng n).canary = (if f then some r else none) ∧ (o.eng n).abort = some (g.lt, f) ∧
      (∀ m, m ≠ n → o.eng m = s.otu.eng m) ∧ o.dctrGet 0x42 = (addWord 48 (g.dctrGet 0x42) 1).1) ∧
    ((s.otu.eng n).canary = none → ∀ out c, exec (.canaryComplete n out c e) s = .next (s.withOtu g)) ∧
    (∀ r out c, (s.otu.eng n).canary = some r → r.mirror = false →
      (g.canaryFp r.idx out = g.libExpect r.idx → ∃ o, exec (.canaryComplete n out c e) s = .next (s.withOtu o) ∧
        o = { g with engs := o.engs, dctr := o.dctr, canPtr := Tbl.put (fun _ => 0) s.otu.canPtr (engKind n) ((r.idx + 1) % 256) } ∧
        o.eng n = { s.otu.eng n with canary := none, canLast := some g.lt } ∧ (∀ m, m ≠ n → o.eng m = s.otu.eng m) ∧
        o.dctrGet 0x41 = (addWord 48 (g.dctrGet 0x41) 1).1 ∧ ∀ i, i ≠ 0x41 → o.dctrGet i = g.dctrGet i) ∧
      (g.canaryFp r.idx out ≠ g.libExpect r.idx → ∃ o q, exec (.canaryComplete n out c e) s = .next (s.withOtu o) ∧
        o = { g with engs := o.engs, dctr := o.dctr, canPtr := Tbl.put (fun _ => 0) s.otu.canPtr (engKind n) ((r.idx + 1) % 256),
                     eq := o.eq, eqs := o.eqs, regs := o.regs, evr := o.evr, cyc := o.cyc } ∧
        o.eng n = { s.otu.eng n with canary := none, canLast := some g.lt } ∧ o.dctrGet 0x46 = (addWord 48 (g.dctrGet 0x46) 1).1 ∧
        OtuR.flag o OTU_CAN_EVENTS 0 = true ∧ o.eqGet (g.eqOf 8 0 0) = s.otu.eqGet (g.eqOf 8 0 0) ++ [q] ∧ q.rtype = 0xA ∧ q.tag = 0)) ∧
    (∀ h, h = s.otu.go e →
      ((s.otu.eng n).canWin ≠ OtuR.get s.otu (OTU_ENG_CTR n 0) / 2 ^ 20 → exec (.abortWindow n e) s = .next (s.withOtu (h.setEng n { s.otu.eng n with
        canWin := OtuR.get s.otu (OTU_ENG_CTR n 0) / 2 ^ 20, aborts := 0 }))) ∧
      ((s.otu.eng n).canWin = OtuR.get s.otu (OTU_ENG_CTR n 0) / 2 ^ 20 → exec (.abortWindow n e) s = .next (s.withOtu h)))

/-- Beside the candidates that an earlier cycle made stale, which these commands discard first: MIRROR_CAPTURE of an
eligible command: before the MIRROR_EVERY-th only the cluster's count moves; at it the count is 0 and the command is
the candidate, with its operands and the fingerprint of its output, unless one stands already. A mirror canary that
completes with the candidate's own fingerprint frees the candidate and counts 0x45; one that differs counts 0x47 and,
with tie-breaks on, waits as tie; the third engine's run counts 0x48 and gives the verdict with a mismatch record, and
frees it. TIEBREAK_WAIT after 10 ms with no third run gives verdict 0 and frees it; before that it changes nothing.
Other clusters are as before. -/
def Obligations.MirrorsJudgeBetweenSiblings : Prop :=
  ∀ (s : State) (n : Nat) (e : Edge) (g : Otu), s.otu.invalid = false → g = (s.otu.go e).settleMarks → n < 512 →
    (s.otu.job? (s.otu.eng n).tag = none → ∀ seq len bytes out c ft, exec (.mirrorCapture n seq len bytes out c ft e) s = .next (s.withOtu g)) ∧
    (∀ j seq len bytes out c ft m, s.otu.job? (s.otu.eng n).tag = some j → j.noMirror = false → (engKind n = 0 ∨ engKind n = 1 ∨ engKind n = 4) →
        bytes.length ≤ 65536 → OtuR.flag g OTU_CAN_CTRL 8 = true → m = g.mir (n / 16) →
      (m.count + 1 < OtuR.fld g OTU_CAN_TIMING 16 16 → exec (.mirrorCapture n seq len bytes out c ft e) s = .next (s.withOtu
        (g.setMir (n / 16) { m with count := m.count + 1 }))) ∧
      (OtuR.fld g OTU_CAN_TIMING 16 16 ≤ m.count + 1 → exec (.mirrorCapture n seq len bytes out c ft e) s = .next (s.withOtu
        (g.setMir (n / 16) { count := 0, cand := if m.cand.isSome then m.cand else some { eng := n, seq := seq % 2 ^ 32, tag := (s.otu.eng n).tag, len, fp := g.mirrorFp (s.otu.eng n).tag out, bytes, cond := { r := c, sig := cmdSig (s.otu.eng n).sigs, ft } } })))) ∧
    (∀ r out c k fp, (s.otu.eng n).canary = some r → r.mirror = true → (g.mir r.idx).cand = some k → fp = g.mirrorFp k.tag out →
      (k.tie = none → fp = k.fp → ∃ o, exec (.canaryComplete n out c e) s = .next (s.withOtu o) ∧
        o = { g with engs := o.engs, dctr := o.dctr, mirror := o.mirror, regs := o.regs, cyc := o.cyc } ∧ o.mir r.idx = { g.mir r.idx with cand := none } ∧
        (∀ i, i ≠ r.idx → o.mir i = g.mir i) ∧ o.dctrGet 0x45 = (addWord 48 (g.dctrGet 0x45) 1).1 ∧ (o.eng n).canary = none) ∧
      (k.tie = none → fp ≠ k.fp → OtuR.flag g OTU_CAN_CTRL 9 = true → ∃ o b, exec (.canaryComplete n out c e) s = .next (s.withOtu o) ∧
        o = { g with engs := o.engs, dctr := o.dctr, mirror := o.mirror, regs := o.regs, cyc := o.cyc } ∧ o.mir r.idx = { g.mir r.idx with cand := some { k with tie := some b } } ∧
        b.eng = n ∧ b.fp = fp ∧ b.at_ = g.ft ∧ o.dctrGet 0x47 = (addWord 48 (g.dctrGet 0x47) 1).1) ∧
      (∀ b, k.tie = some b → ∃ o, exec (.canaryComplete n out c e) s = .next (s.withOtu o) ∧
        o = { g with engs := o.engs, dctr := o.dctr, mirror := o.mirror, eq := o.eq, eqs := o.eqs, regs := o.regs, evr := o.evr, cyc := o.cyc } ∧
        o.mir r.idx = { g.mir r.idx with cand := none } ∧ o.dctrGet 0x48 = (addWord 48 (g.dctrGet 0x48) 1).1 ∧
        OtuR.flag o OTU_CAN_EVENTS 0 = true ∧
        (fp = k.fp → OtuR.flag o OTU_CAN_EVENTS 1 = true) ∧ (fp ≠ k.fp → OtuR.flag o OTU_CAN_EVENTS 2 = true))) ∧
    (∀ c, (g.mir c).cand = none → exec (.tiebreakWait c e) s = .next (s.withOtu g)) ∧
    (∀ c k b, (g.mir c).cand = some k → k.tie = some b → s.otu.clk.st ≠ 0 → s.otu.engs.any (fun x => x.2.canary.any fun r => r.mirror && r.idx == c) = false →
      (g.clk.ft < b.at_ + 40000000 → exec (.tiebreakWait c e) s = .next (s.withOtu g)) ∧
      (b.at_ + 40000000 ≤ g.clk.ft → ∃ o, exec (.tiebreakWait c e) s = .next (s.withOtu o) ∧
        o = { g with mirror := o.mirror, eq := o.eq, eqs := o.eqs, regs := o.regs, evr := o.evr, cyc := o.cyc } ∧ o.mir c = { g.mir c with cand := none } ∧
        (∀ i, i ≠ c → o.mir i = g.mir i) ∧ OtuR.flag o OTU_CAN_EVENTS 0 = true))

/-- WEIGHT_LOAD_DONE with hashing on: the shard, with its length and BLAKE3 digest, is being hashed, in place of an
earlier load of the tensor. WEIGHT_HASH_DONE of a shard being hashed, with no mark pending: it is in the weight list,
hashed no more, and OTU_DIG_WEIGHTS shows the rank weight digest of that list. INPUT_INGEST: with fewer than 4,096
entries the shard is in its place in the input list; with 4,096 INPUT_OVF is set and the list is as before. TILE_DRAIN
into slot f exclusive-ors the tile's contribution into the slot's fingerprint, counts the tile with its last byte, and
changes no other register. RESULT_MARK through the privileged range with none pending: the mark waits with the slots
selected; with one pending, it is dropped and MARK_BUSY set; the open job's tenant window marks alike, another's does
nothing. With its CTRL bit clear a load, an input or a tile changes nothing. Nothing else of the OTU changes. -/
def Obligations.DigestsFollowLoadsInputsAndTiles : Prop :=
  ∀ (s : State) (e : Edge) (g : Otu), s.otu.invalid = false → g = s.otu.go e →
    (∀ tensor format bytes, OtuR.flag s.otu OTU_DIG_CTRL 0 = true → exec (.weightLoadDone tensor format bytes e) s = .next (s.withOtu { g with
      hashing := (s.otu.hashing.filter fun y => y.tensor != tensor % 2 ^ 32) ++
        [{ tensor := tensor % 2 ^ 32, part := format % 256, len := bytes.length, digest := blake3 bytes }] })) ∧
    (∀ tensor format bytes, OtuR.flag s.otu OTU_DIG_CTRL 0 = false → exec (.weightLoadDone tensor format bytes e) s = .next (s.withOtu g)) ∧
    (∀ tensor x, s.otu.hashing.find? (·.tensor == tensor) = some x → s.otu.resMark = none → ∃ o, exec (.weightHashDone tensor e) s = .next (s.withOtu o) ∧
      o = { g with hashing := s.otu.hashing.filter (·.tensor != tensor), weights := putWeight s.otu.weights x, regs := o.regs } ∧
      (∀ i, i < 4 → OtuR.get o (OTU_DIG_WEIGHTS + 8 * i) = weightDigest o.weights / 2 ^ (64 * i) % 2 ^ 64) ∧
      ∀ a, (∀ i, i < 4 → a ≠ OTU_DIG_WEIGHTS + 8 * i) → OtuR.get o a = OtuR.get s.otu a) ∧
    (∀ tensor part bytes, OtuR.flag s.otu OTU_DIG_CTRL 1 = true →
      (s.otu.inputs.length < 4096 → exec (.inputIngest tensor part bytes e) s = .next (s.withOtu { g with
        inputs := insertBy Shard.key { tensor := tensor % 2 ^ 32, part := part % 2 ^ 32, len := bytes.length, digest := blake3 bytes } s.otu.inputs })) ∧
      (4096 ≤ s.otu.inputs.length → ∃ o, exec (.inputIngest tensor part bytes e) s = .next (s.withOtu o) ∧ o = { g with inputOvf := true, regs := o.regs, cyc := o.cyc } ∧
        OtuR.flag o OTU_DIG_EVENTS 2 = true ∧ ∀ a, a ≠ OTU_DIG_EVENTS → OtuR.get o a = OtuR.get s.otu a)) ∧
    (∀ x : TilePart, OtuR.flag s.otu OTU_DIG_CTRL 2 = true → x.slot < 64 → ∃ o, exec (.tileDrain x e) s = .next (s.withOtu o) ∧ o = { g with regs := o.regs } ∧
      o.fp x.slot = (s.otu.fp x.slot ^^^ tileContribution (tileData x.format x.elems x.scales) x.off x.len x.tile x.tensor ((g.openJob.map (·.rank)).getD 0)) % 2 ^ 128 ∧
      OtuR.get o (OTU_DIG_FP_TILES x.slot) = (OtuR.get s.otu (OTU_DIG_FP_TILES x.slot) + b2n x.len.isSome) % 2 ^ 64 ∧
      ∀ a, a ≠ OTU_DIG_FP x.slot → a ≠ OTU_DIG_FP x.slot + 8 → a ≠ OTU_DIG_FP_TILES x.slot → OtuR.get o a = OtuR.get s.otu a) ∧
    (∀ value, s.otu.resMark = none → exec (.resultMark .otu value e) s = .next (s.withOtu { g with resMark := some { id := value % 2 ^ 32, mask := OtuR.get s.otu OTU_DIG_MARK_SLOTS, lt := g.lt, tag := (g.openJob.map (·.tag)).getD 0 } })) ∧
    (∀ value m, s.otu.resMark = some m → ∃ o, exec (.resultMark .otu value e) s = .next (s.withOtu o) ∧ o = { g with regs := o.regs, cyc := o.cyc } ∧
      OtuR.flag o OTU_DIG_EVENTS 1 = true ∧ ∀ a, a ≠ OTU_DIG_EVENTS → OtuR.get o a = OtuR.get s.otu a) ∧
    (∀ value w tag, g.winTag w = some tag →
      (tag = (g.openJob.map (·.tag)).getD 0 → exec (.resultMark (.tenant w) value e) s = exec (.resultMark .otu value e) s) ∧
      (tag ≠ 0 → tag ≠ (g.openJob.map (·.tag)).getD 0 → exec (.resultMark (.tenant w) value e) s = .next (s.withOtu g))) ∧
    (∀ tensor, s.otu.hashing.find? (·.tensor == tensor) = none → exec (.weightHashDone tensor e) s = .next (s.withOtu g)) ∧
    (∀ tensor part bytes, OtuR.flag s.otu OTU_DIG_CTRL 1 = false → exec (.inputIngest tensor part bytes e) s = .next (s.withOtu g)) ∧
    (∀ x : TilePart, OtuR.flag s.otu OTU_DIG_CTRL 2 = false → exec (.tileDrain x e) s = .next (s.withOtu g))

/-- At the holder of the role of a job's top node, RANK_DIGEST_RX of a rank's first record for a result that still
lacks another rank: the record joins the result. The same record again changes nothing; another record of the rank
marks the result CONFLICT and keeps the first. A record for a result already assembled is LATE and leaves every result
as it was. RESULT_TIMEOUT assembles a result that is not done at its timeout, whole or with its missing ranks, and
does nothing before. BUCKET_ORDER_RX at the rank home, with another rank awaited: the rank's CRC joins the comparison,
which waits for the tray deadline of the next cut; a rank's second record changes nothing. BUCKET_ORDER_DEADLINE
compares what has come and does nothing before. What an INCOMPLETE result's job digests hold is a free value (log
entry 66). -/
def Obligations.ResultsAndOrdersAreAssembled : Prop :=
  ∀ (s : State) (tag rank c t : Nat) (src : RecSrc) (p : Prd), p = s.prd.go t → tag ≠ 0 → p.slotOf tag = some c → p.awayHome src tag rank = none →
    (∀ (body : List Byte) (x : ResAsm), rank < (p.slot c).nRanks → rank < 2 ^ 17 → p.topHolder tag = some p.tray →
        p.results.find? (fun y => y.tag == tag && y.id == fieldAt body 8 4) = some x →
      (x.done = false → x.recs.find? (·.rank == rank) = none → ({ x with recs := x.recs ++ [{ rank, body }] } : ResAsm).missing ≠ [] →
        exec (.rankDigestRx src tag rank body t) s = .next (s.withPrd { p with
          results := updFirst (fun y => y.tag == tag && y.id == fieldAt body 8 4) (fun _ => { x with recs := x.recs ++ [{ rank, body }] }) p.results })) ∧
      (∀ r, x.done = false → x.recs.find? (·.rank == rank) = some r → r.body = body → exec (.rankDigestRx src tag rank body t) s = .next (s.withPrd p)) ∧
      (∀ r, x.done = false → x.recs.find? (·.rank == rank) = some r → r.body ≠ body → ∃ o, exec (.rankDigestRx src tag rank body t) s = .next (s.withPrd o) ∧
        o = { p with results := updFirst (fun y => y.tag == tag && y.id == fieldAt body 8 4) (fun y => { y with conflict := true }) p.results, regs := o.regs, evr := o.evr, cyc := o.cyc } ∧
        PrdR.flag o PRD_RESULT_EVENTS 2 = true) ∧
      (x.done = true → ∃ o, exec (.rankDigestRx src tag rank body t) s = .next (s.withPrd o) ∧ o = { p with regs := o.regs, evr := o.evr, cyc := o.cyc } ∧
        PrdR.flag o PRD_RESULT_EVENTS 3 = true)) ∧
    (∀ id x, p.results.find? (fun x => x.tag == tag && x.id == id && !x.done) = some x →
      (p.ft < x.timeout → exec (.resultTimeout tag id t) s = .next (s.withPrd p)) ∧
      (x.timeout ≤ p.ft → ∃ o, exec (.resultTimeout tag id t) s = .next (s.withPrd o) ∧ PrdR.flag o PRD_RESULT_EVENTS 0 = true ∧
        (x.missing ≠ [] → PrdR.flag o PRD_RESULT_EVENTS 1 = true) ∧
        o = { p with results := updFirst (fun y => y.tag == x.tag && y.id == x.id) (fun y => { y with done := true }) p.results, free := p.free + 1, hnr := o.hnr, regs := o.regs, evr := o.evr, rings := o.rings, accs := o.accs, ingest := o.ingest, goneAccs := o.goneAccs, cyc := o.cyc })) ∧
    (∀ id, p.results.find? (fun x => x.tag == tag && x.id == id && !x.done) = none → exec (.resultTimeout tag id t) s = .next (s.withPrd p)) ∧
    (∀ (b : BucketOrder) (r' : Nat), b.tag = tag → b.rank = rank → rank < 2 ^ 17 → rank ∈ (p.slot c).homed p.tray → r' ∈ (p.slot c).homed p.tray → r' ≠ rank →
      (p.orders.any (fun y => y.tag == tag && y.coll == b.collSeq) = false → exec (.bucketOrderRx src b t) s = .next (s.withPrd { p with
        orders := { tag, coll := b.collSeq, deadline := p.nextCut + p.deadline 0, recs := [(rank, b.orderCrc)] } :: p.orders })) ∧
      (∀ x, p.orders.find? (fun y => y.tag == tag && y.coll == b.collSeq) = some x →
        (x.recs.any (·.1 == rank) = true → exec (.bucketOrderRx src b t) s = .next (s.withPrd p)) ∧
        (x.done = false → x.recs.any (·.1 == rank) = false → x.recs.any (·.1 == r') = false → exec (.bucketOrderRx src b t) s = .next (s.withPrd { p with
          orders := updFirst (fun y => y.tag == tag && y.coll == b.collSeq) (fun _ => { x with recs := x.recs ++ [(rank, b.orderCrc)] }) p.orders })))) ∧
    (∀ coll, p.orders.find? (fun x => x.tag == tag && x.coll == coll && !x.done) = none → exec (.bucketOrderDeadline tag coll t) s = .next (s.withPrd p)) ∧
    (∀ coll x, p.orders.find? (fun x => x.tag == tag && x.coll == coll && !x.done) = some x →
      (p.ft < x.deadline → exec (.bucketOrderDeadline tag coll t) s = .next (s.withPrd p)) ∧
      (x.deadline ≤ p.ft → ∃ o, exec (.bucketOrderDeadline tag coll t) s = .next (s.withPrd o) ∧
        o = { p with orders := updFirst (fun y => y.tag == x.tag && y.coll == x.coll) (fun y => { y with done := true }) p.orders, divs := o.divs, regs := o.regs, evr := o.evr, cyc := o.cyc } ∧
        ((∀ r, r ∈ x.recs → r.2 = x.reference) → o.divs = p.divs)))

/-- PARTIAL_RX that is damaged, malformed, or of no accord held here changes nothing. One of a child that an open
accord of this node awaits, of its item epoch, in time, with another child still awaited: the accord takes the partial
and those of its fragments that share no leaf with one it holds, and only heart notes (and the event, forgotten
accords and subscribers that they bring) change besides; a second one of the same sender, late or not, changes
nothing. After the level's deadline or the closure it is LATE: counted, with the LATE event. FWD_ENVELOPE_RX with a
failed CRC, a rank of 131,072 or more, or a sequence behind the one expected, is discarded and counted in FWD_BAD
alone. Otherwise the next expected sequence of the sender is one more; of a reserved type only FWD_RECV (and the skip
count, when some were missed) moves besides. -/
def Obligations.PartialsAndEnvelopesArrive : Prop :=
  ∀ (s : State) (t : Nat) (p : Prd), p = s.prd.go t →
    (∀ x : Partial, (x.crcOk = false ∨ x.level = 0 ∨ 3 < x.level ∨ (∃ m ∈ x.missing, 2 ^ 17 ≤ m.1) ∨ p.acc? x.tag 0 x.no x.level = none) →
      exec (.partialRx x t) s = .next (s.withPrd p)) ∧
    (∀ (x : Partial) (a : AccNode) (u : Nat), x.crcOk = true → 1 ≤ x.level → x.level ≤ 3 → (∀ m ∈ x.missing, m.1 < 2 ^ 17) →
        p.acc? x.tag 0 x.no x.level = some a → x.itemEpoch = a.epoch → a.unitOf x ∈ a.units →
      ((a.parts.any (·.from_ == x.from_) || a.lateFrom.contains x.from_) = true → exec (.partialRx x t) s = .next (s.withPrd p)) ∧
      ((a.parts.any (·.from_ == x.from_) || a.lateFrom.contains x.from_) = false → a.st = 0 → p.ft < a.t + p.deadline a.level → u ∈ a.units → u ≠ a.unitOf x →
          a.parts.any (fun y => a.unitOf y == u) = false → ∃ o, exec (.partialRx x t) s = .next (s.withPrd o) ∧
        o = { p with accs := o.accs, hnr := o.hnr, ingest := o.ingest, regs := o.regs, evr := o.evr, rings := o.rings, goneAccs := o.goneAccs, cyc := o.cyc } ∧
        (p.phase < 2 → o = p.setAcc x.tag 0 x.no x.level fun a => a.take x) ∧ o.acc? x.tag 0 x.no x.level = some (a.take x)) ∧
      ((a.parts.any (·.from_ == x.from_) || a.lateFrom.contains x.from_) = false → (a.st ≠ 0 ∨ a.t + p.deadline a.level ≤ p.ft) → ∃ o,
        exec (.partialRx x t) s = .next (s.withPrd o) ∧
        o = { p with accs := o.accs, hnr := o.hnr, ingest := o.ingest, regs := o.regs, evr := o.evr, rings := o.rings, goneAccs := o.goneAccs, cyc := o.cyc } ∧
        PrdR.fld o PRD_ACC_LATE 0 32 = min (PrdR.fld p PRD_ACC_LATE 0 32 + 1) 0xFFFFFFFF ∧ PrdR.flag o PRD_ACC_EVENTS 1 = true)) ∧
    (∀ (x : FwdEnv) (next : Nat), x.fseq < 2 ^ 64 → next = (p.tree.fwdRx.lookup x.from_).getD x.fseq →
      ((x.crcOk = false ∨ 2 ^ 17 ≤ x.rank ∨ 2 ^ 63 ≤ wsub 64 x.fseq next) → ∃ o, exec (.fwdEnvelopeRx x t) s = .next (s.withPrd o) ∧
        o = { p with regs := o.regs, cyc := o.cyc } ∧
        PrdR.fld o PRD_FWD_BAD 0 32 = min (PrdR.fld p PRD_FWD_BAD 0 32 + 1) 0xFFFFFFFF ∧ PrdR.flag o PRD_TREE_EVENTS 4 = true ∧
        ∀ a, a ≠ PRD_FWD_BAD → a ≠ PRD_TREE_EVENTS → PrdR.get o a = PrdR.get p a) ∧
      (x.crcOk = true → x.rank < 2 ^ 17 → wsub 64 x.fseq next < 2 ^ 63 → p.tree.reqs = [] → p.tree.switches = [] → ∃ o, exec (.fwdEnvelopeRx x t) s = .next (s.withPrd o) ∧
        o.tree.fwdRx.lookup x.from_ = some ((x.fseq + 1) % 2 ^ 64) ∧
        (8 ≤ x.rtype → x.rtype ≠ 0x80 → o = { p with regs := o.regs, cyc := o.cyc, tree := { p.tree with fwdRx := o.tree.fwdRx } } ∧
          PrdR.fld o PRD_FWD_RECV 0 32 = min (PrdR.fld p PRD_FWD_RECV 0 32 + 1) 0xFFFFFFFF ∧
          (x.fseq = next → ∀ a, a ≠ PRD_FWD_RECV → PrdR.get o a = PrdR.get p a)) ∧
        (x.rtype = 0x80 → o = { p with regs := o.regs, cyc := o.cyc, dp := o.dp, tree := { p.tree with fwdRx := o.tree.fwdRx } })))

/-- START, RETRACT, CONFIG, HANG_FREEZE and JOB_FAULT at the OTU. A duplicate (its BSEQ is in the map, or below it)
changes the egress queues alone. A new one is in the map afterwards. A START comes after the job-end records that are
due (R421): one whose port map names this die and that nothing forbids arms it for S with its tag, rank and sequence;
one that is forbidden leaves it unarmed; one whose port map does not name it is answered alone. RETRACT of the armed
START before S disarms it. CONFIG with a CANARY entry sets the job's two permissions. HANG_FREEZE of a job on the die
ahead of T_h keeps T_h with the job. JOB_FAULT of the armed job before S disarms it. Beyond that, only the map, the
answers and the egress queues change. -/
def Obligations.MessagesAtTheDie : Prop :=
  ∀ (s : State) (h : AtHdr) (e : Edge) (g k : Otu), s.otu.invalid = false → g = s.otu.go e → k = g.jobs.foldl (fun o j => o.jobEndRecord j.tag) g →
    ((bmapOf s.otu.bmaps h.tag).seen h.bseq = true →
      (∀ m, ∃ o, exec (.start .otu h m e) s = .next (s.withOtu o) ∧ o = { k with eq := o.eq, eqs := o.eqs } ∧ ∃ r, r ∈ o.eqGet (g.eqOf 0xC 0 0) ∧ r.rtype = 0x10) ∧
      ∀ i, i = .retract .otu h e ∨ (∃ l, i = .config .otu h l e) ∨ (∃ id, i = .hangFreeze .otu h id e) ∨ (∃ x, i = .jobFault .otu h x e) →
        ∃ o, exec i s = .next (s.withOtu o) ∧ o = { g with eq := o.eq, eqs := o.eqs } ∧ ∃ r, r ∈ o.eqGet (g.eqOf 0xC 0 0) ∧ r.rtype = 0x10) ∧
    ((bmapOf s.otu.bmaps h.tag).seen h.bseq = false → h.bseq ≠ 0 →
      (∀ m, s.otu.mapRank m = none → ∃ o, exec (.start .otu h m e) s = .next (s.withOtu o) ∧
        o = { k with bmaps := o.bmaps, answers := o.answers, eq := o.eq, eqs := o.eqs } ∧ (bmapOf o.bmaps h.tag).seen h.bseq = true) ∧
      (∀ m rank, s.otu.mapRank m = some rank → m.config = [] → ∃ o, exec (.start .otu h m e) s = .next (s.withOtu o) ∧
        (bmapOf o.bmaps h.tag).seen h.bseq = true ∧
        (k.startStatus h m = 0 → o = { k with armed := o.armed, bmaps := o.bmaps, answers := o.answers, eq := o.eq, eqs := o.eqs } ∧
          o.armed = some { bseq := h.bseq, tag := h.tag, rank, s := h.tAct, nRanks := m.nRanks, audit := m.audit, subst := m.subst, noCanary := false, noMirror := false }) ∧
        (k.startStatus h m ≠ 0 → o.armed = s.otu.armed ∧ o.jobs = k.jobs)) ∧
      (∀ a, s.otu.armed = some a → a.bseq = h.ref → g.due a.s = false → ∃ o, exec (.retract .otu h e) s = .next (s.withOtu o) ∧
        o = { g with armed := none, bmaps := o.bmaps, answers := o.answers, eq := o.eq, eqs := o.eqs } ∧ (bmapOf o.bmaps h.tag).seen h.bseq = true) ∧
      (∀ a b, ∃ o, exec (.config .otu h [.canary a b] e) s = .next (s.withOtu o) ∧
        o = { g with jobs := (g.updJob h.tag fun j => { j with noCanary := a, noMirror := b }).jobs, bmaps := o.bmaps, answers := o.answers, eq := o.eq, eqs := o.eqs } ∧
        (bmapOf o.bmaps h.tag).seen h.bseq = true) ∧
      (∀ j id, s.otu.job? h.tag = some j → s.otu.clk.st ≠ 0 → g.clk.ft < h.tAct → ∃ o, exec (.hangFreeze .otu h id e) s = .next (s.withOtu o) ∧
        o = { g with jobs := (g.updJob h.tag fun j => { j with hangAt := h.tAct }).jobs, bmaps := o.bmaps, answers := o.answers, eq := o.eq, eqs := o.eqs } ∧
        (bmapOf o.bmaps h.tag).seen h.bseq = true) ∧
      (∀ a x, s.otu.armed = some a → a.tag = h.tag → g.due a.s = false → ∃ o, exec (.jobFault .otu h x e) s = .next (s.withOtu o) ∧
        o = { g with armed := none, bmaps := o.bmaps, answers := o.answers, eq := o.eq, eqs := o.eqs } ∧ (bmapOf o.bmaps h.tag).seen h.bseq = true))

/-- START_BARRIER with nothing armed, or before S, changes nothing. At S, with no JOB_FAULT noted, after the cuts of
this cycle and the trace packets of earlier ones: the job is open with its tag, rank, S and the first window that no
job has, the window is bound, the engines named carry its tag and the others are as before, its fingerprints are zero,
and OTU_TIME_JOB_START shows S. DIE_JOB_END of an open job: the job is closed and ended with its cause, and no wait of
it is open; of a job that is not open nothing changes. JOB_END_RECORD of a job that has not ended changes nothing; of
one that has, with the waits begun since closed and past trace packets out: while something of the job is held nothing
more; else the job is gone, its engines belong to no job, its window is unbound and OTU_TIME_JOB_START is all ones. -/
def Obligations.AJobStartsEndsAndIsReleasedAtTheDie : Prop :=
  ∀ (s : State) (tag : Nat) (e : Edge) (g k : Otu), s.otu.invalid = false → g = s.otu.go e →
    (∀ engs imgs ucs,
      (s.otu.armed = none → exec (.startBarrier engs imgs ucs e) s = .next (s.withOtu g)) ∧
      (∀ a, s.otu.armed = some a → g.due a.s = false → exec (.startBarrier engs imgs ucs e) s = .next (s.withOtu g)) ∧
      (∀ a w, s.otu.armed = some a → g.due a.s = true → a.fault = false → k = g.fastCutIfDue.cutIfDue.silSettleAll → k.freeWindow = some w → ∃ o j,
        exec (.startBarrier engs imgs ucs e) s = .next (s.withOtu o) ∧
        o = { k with armed := none, jobs := o.jobs, txSeq := o.txSeq, acc := { k.acc with refs := o.acc.refs, stepNo := absent }, pageOld := o.pageOld, regs := o.regs, engs := o.engs, queues := o.queues, sil := o.sil, silSeq := o.silSeq, step := o.step, weights := [], hashing := [], inputs := [], inputOvf := false, eq := o.eq, eqs := o.eqs, evr := o.evr, cyc := o.cyc } ∧
        j ∈ o.jobs ∧ o.jobs.map (·.tag) = k.jobs.map (·.tag) ++ [a.tag] ∧ j.tag = a.tag ∧ j.rank = a.rank ∧ j.s = a.s ∧ j.open_ = true ∧ j.ended = false ∧ j.window = some w ∧ j.bseq = a.bseq ∧
        OtuR.get o (OTU_TW_BIND w) = (a.tag + 2 ^ 16) % 2 ^ 64 ∧ OtuR.get o OTU_TIME_JOB_START = a.s % 2 ^ 64 ∧
        (∀ x, x ∈ engs → x < 512 → (o.eng x).tag = a.tag) ∧ (∀ x, x ∉ engs → o.eng x = k.eng x) ∧
        ∀ f, f < 64 → OtuR.get o (OTU_DIG_FP f) = 0 ∧ OtuR.get o (OTU_DIG_FP_TILES f) = 0)) ∧
    (∀ cause, (s.otu.job? tag = none ∨ ∃ j, s.otu.job? tag = some j ∧ j.open_ = false) → exec (.dieJobEnd tag cause e) s = .next (s.withOtu g)) ∧
    (∀ cause j, s.otu.job? tag = some j → j.open_ = true → ∃ o j', exec (.dieJobEnd tag cause e) s = .next (s.withOtu o) ∧
      o.job? tag = some j' ∧ j'.open_ = false ∧ j'.ended = true ∧ j'.cause = (if cause = 0 then 0 else 2) ∧ (∀ x, x ∈ o.waits → x.2.tag ≠ tag) ∧
      o.armed = s.otu.armed ∧ o.clk = g.clk ∧ o.queues = s.otu.queues) ∧
    (s.otu.job? tag = none → exec (.jobEndRecord tag e) s = .next (s.withOtu g)) ∧
    (∀ j, s.otu.job? tag = some j →
      (j.ended = false → exec (.jobEndRecord tag e) s = .next (s.withOtu g)) ∧
      (j.ended = true → k = (g.closeWaitsOf tag).silSettleAll →
        (k.jobHolds tag = true → exec (.jobEndRecord tag e) s = .next (s.withOtu k)) ∧
        (∀ w, k.jobHolds tag = false → j.window = some w → w < 64 → ∃ o, exec (.jobEndRecord tag e) s = .next (s.withOtu o) ∧
          o = { k with jobs := o.jobs, engs := o.engs, queues := o.queues, pageOld := o.pageOld, winGone := o.winGone, sil := o.sil, silSeq := o.silSeq, cyc := o.cyc, regs := o.regs, eq := o.eq, eqs := o.eqs, evr := o.evr } ∧
          o.job? tag = none ∧ (∀ x, (s.otu.eng x).tag = tag → (o.eng x).tag = 0) ∧ OtuR.get o (OTU_TW_BIND w) = 0 ∧ OtuR.get o OTU_TIME_JOB_START = 2 ^ 64 - 1)))

/-- START, RETRACT, CONFIG, FREEZE, HANG_FREEZE, JOB_FAULT and TREE at a Priord before TREE_WAIT, or in the safe
profile with failed straps, change nothing. From then on, with no START request unanswered at the root and no switch
followed, a new one is in the map of its context, LAST_BSEQ is the greatest number seen and the broadcast is kept.
TREE makes its roles the next ones, its epoch the tree's, and the node joined. A START that nothing forbids takes the
first free slot, ARMED with its tag, S, ranks and homes. RETRACT of an ARMED context frees its slot. CONFIG with an
item table keeps it for its instant. FREEZE of the fleet with a slot free takes that slot. HANG_FREEZE opens the hang
graph of each level that has ranks. JOB_FAULT drains an OPEN context. A duplicate is counted in DUPS and applied to
nothing. -/
def Obligations.MessagesAtANode : Prop :=
  ∀ (s : State) (h : AtHdr) (e : Edge) (p : Prd), p = s.prd.go e.ft →
    ((p.phase < 3 ∨ (p.safe = true ∧ p.strapsOk = false)) → ∀ i, (∃ m, i = .start .prd h m e) ∨ i = .retract .prd h e ∨ (∃ l, i = .config .prd h l e) ∨
        (∃ x, i = .freeze h x e.ft) ∨ (∃ id, i = .hangFreeze .prd h id e) ∨ (∃ x, i = .jobFault .prd h x e) ∨ (∃ n r, i = .tree h n r e.ft) →
      exec i s = .next (s.withPrd p)) ∧
    (3 ≤ p.phase → (p.safe = false ∨ p.strapsOk = true) → p.tree.reqs = [] → p.tree.switches = [] →
      ((bmapOf p.tree.bmaps h.tag).seen h.bseq = true → ∀ i, (∃ m, i = .start .prd h m e) ∨ i = .retract .prd h e ∨ (∃ l, i = .config .prd h l e) ∨
          (∃ x, i = .freeze h x e.ft) ∨ (∃ id, i = .hangFreeze .prd h id e) ∨ (∃ x, i = .jobFault .prd h x e) ∨ (∃ n r, i = .tree h n r e.ft) →
        ∃ o, exec i s = .next (s.withPrd o) ∧ o = { p with regs := o.regs, cyc := o.cyc, ulq := o.ulq, dp := o.dp, tree := { p.tree with bcasts := o.tree.bcasts } } ∧
          PrdR.fld o PRD_ATM_DUPS 0 32 = min (PrdR.fld p PRD_ATM_DUPS 0 32 + 1) 0xFFFFFFFF) ∧
      ((bmapOf p.tree.bmaps h.tag).seen h.bseq = false → h.bseq ≠ 0 →
        (∀ n r, ∃ o, exec (.tree h n r e.ft) s = .next (s.withPrd o) ∧ (bmapOf o.tree.bmaps h.tag).seen h.bseq = true ∧
          PrdR.get o PRD_ATM_LAST_BSEQ = max (PrdR.get p PRD_ATM_LAST_BSEQ) h.bseq % 2 ^ 64 ∧
          o.tree.next = some r ∧ o.tree.epoch = n ∧ o.tree.joined = true ∧ PrdR.flag o PRD_TREE_EVENTS 1 = true ∧
          ∃ b, b ∈ o.tree.bcasts ∧ b.body.kind = 7 ∧ b.body.hdr = h) ∧
        (∀ m c, p.tree.retracted.contains h.bseq = false → p.answerRanks m ≠ [] → itemsOk m.items = true → p.homesOk m.nRanks m.homes = true →
            p.badPorts m.nRanks (m.ports.filter fun q => q.1 / 32 == p.tray) = [] → p.slotOf h.tag = none → p.freeCtx true = some c → m.config = [] →
            (s.prd.clk.st = 0 ∨ p.ft < h.tAct) → ∃ o, exec (.start .prd h m e) s = .next (s.withPrd o) ∧ (bmapOf o.tree.bmaps h.tag).seen h.bseq = true ∧
          (o.slot c).st = 1 ∧ (o.slot c).tag = h.tag ∧ (o.slot c).s = h.tAct ∧ (o.slot c).nRanks = m.nRanks ∧ (o.slot c).homes = m.homes ∧
          (o.slot c).items = m.items ∧ ∀ d, d ≠ c → o.slot d = p.slot d) ∧
        (∀ c, p.slotOf h.tag = some c → c ≠ 0 → (p.slot c).bseq = h.ref → (p.slot c).st = 1 → ∃ o, exec (.retract .prd h e) s = .next (s.withPrd o) ∧
          (bmapOf o.tree.bmaps h.tag).seen h.bseq = true ∧ o.slot c = {} ∧ ∀ d, d ≠ c → o.slot d = p.slot d) ∧
        (∀ l c, p.slotOf h.tag = some c → itemsOk l = true → p.ft < h.tAct → ∃ o, exec (.config .prd h [.itemTable l] e) s = .next (s.withPrd o) ∧
          (bmapOf o.tree.bmaps h.tag).seen h.bseq = true ∧ o.slot c = { p.slot c with nextItems := sortBy (·.1) ((p.slot c).nextItems ++ [(h.tAct, l)]) } ∧ ∀ d, d ≠ c → o.slot d = p.slot d) ∧
        (∀ x n, h.scope = 3 → p.freeSlot = some n → ∃ o, exec (.freeze h x e.ft) s = .next (s.withPrd o) ∧ (bmapOf o.tree.bmaps h.tag).seen h.bseq = true ∧
          (o.flacon n).freezeT = x.freezeT ∧ (o.flacon n).scope = 3 ∧ (o.flacon n).st ≠ 0) ∧
        (∀ id c, p.slotOf h.tag = some c → p.subtreeRanks (p.slot c) 0 ≠ [] → p.hang? id 0 = none → ∃ o y, exec (.hangFreeze .prd h id e) s = .next (s.withPrd o) ∧
          (bmapOf o.tree.bmaps h.tag).seen h.bseq = true ∧ o.hang? id 0 = some y ∧ y.tag = h.tag ∧ y.t = h.tAct ∧ y.expect = p.subtreeRanks (p.slot c) 0) ∧
        (∀ x c, p.slotOf h.tag = some c → c ≠ 0 → c < 64 → (p.slot c).st = 2 → ∃ o, exec (.jobFault .prd h x e) s = .next (s.withPrd o) ∧
          (bmapOf o.tree.bmaps h.tag).seen h.bseq = true ∧ o.slot c = { p.slot c with st := 3, since := p.ft } ∧ ∀ d, d ≠ c → o.slot d = p.slot d)))

/-- HOP_ACK of a die, or at a node that is not the root, marks the child's acknowledgement. With no START request at
the root and no switch followed: DONE of a child, with no duplicate to answer, while another has neither answered nor
failed, is kept for it and changes nothing else. HOP_ACK_TIMEOUT and DONE_TIMEOUT before the limit change nothing;
after it the die has failed for that broadcast and the event is set. HOP_FAIL at the root of another tray, not failed
so far: the tray has failed and the tree's epoch is one higher; at another node nothing changes. FAULT_NOTICE at the
root for a job not faulted since its start: JOB_FAULT is issued; for one that is, or at another node, nothing changes.
RETRACT_DEADLINE from 200 us before S with the START not closed issues a RETRACT; RESCHED_WAIT after its wait issues
the START again; before that neither changes anything. -/
def Obligations.AnswersTimeoutsAndRequests : Prop :=
  ∀ (s : State) (t bseq : Nat) (p : Prd), p = s.prd.go t →
    (∀ n, exec (.hopAck (.port n) bseq t) s = .next (s.withPrd (p.setBcast bseq fun b =>
      { b with children := updFirst (·.child == .port n) (fun k => { k with ack := true }) b.children }))) ∧
    (∀ i, p.isRoot = false → exec (.hopAck (.tray i) bseq t) s = .next (s.withPrd (p.setBcast bseq fun b =>
      { b with children := updFirst (·.child == .tray i) (fun k => { k with ack := true }) b.children }))) ∧
    (p.tree.reqs = [] → p.tree.switches = [] →
      (∀ c d, p.bcast? bseq = none → exec (.done c bseq d t) s = .next (s.withPrd p)) ∧
      (∀ c, p.bcast? bseq = none → exec (.hopAckTimeout c bseq t) s = .next (s.withPrd p) ∧ exec (.doneTimeout c bseq t) s = .next (s.withPrd p)) ∧
      (∀ c d b k, p.bcast? bseq = some b → b.dups = [] → k ∈ b.children → k.child ≠ c → k.done = none → k.failed = false → ∃ o, exec (.done c bseq d t) s = .next (s.withPrd o) ∧
        o = { p with tree := { p.tree with bcasts := o.tree.bcasts } } ∧
        o.bcast? bseq = some { b with children := updFirst (·.child == c) (fun k => if k.failed then k else { k with done := some d }) b.children }) ∧
      (∀ n b k, p.bcast? bseq = some b → p.waiting bseq (.port n) = some k →
        (k.ack = true ∨ p.ft < k.sent + PrdR.fld p PRD_ATM_TIMEOUTS 0 8 * tickUs → exec (.hopAckTimeout (.port n) bseq t) s = .next (s.withPrd p)) ∧
        (k.done.isSome = true ∨ p.ft < k.sent + PrdR.fld p PRD_ATM_TIMEOUTS 8 8 * tickUs → exec (.doneTimeout (.port n) bseq t) s = .next (s.withPrd p)) ∧
        (k.ack = false → k.sent + PrdR.fld p PRD_ATM_TIMEOUTS 0 8 * tickUs ≤ p.ft → ∃ o b', exec (.hopAckTimeout (.port n) bseq t) s = .next (s.withPrd o) ∧
          o = { p with regs := o.regs, cyc := o.cyc, ulq := o.ulq, tree := { p.tree with bcasts := o.tree.bcasts } } ∧ PrdR.flag o PRD_ATM_EVENTS 0 = true ∧
          o.bcast? bseq = some b' ∧ b'.children.any (fun x => x.child == .port n && x.failed) = true) ∧
        (k.done = none → k.sent + PrdR.fld p PRD_ATM_TIMEOUTS 8 8 * tickUs ≤ p.ft → ∃ o b', exec (.doneTimeout (.port n) bseq t) s = .next (s.withPrd o) ∧
          o = { p with regs := o.regs, cyc := o.cyc, ulq := o.ulq, tree := { p.tree with bcasts := o.tree.bcasts } } ∧ PrdR.flag o PRD_ATM_EVENTS 1 = true ∧
          o.bcast? bseq = some b' ∧ b'.children.any (fun x => x.child == .port n && x.failed) = true)) ∧
      (∀ i, (p.isRoot = false ∨ i = p.tray ∨ p.tree.failed.contains i = true) → exec (.hopFail i t) s = .next (s.withPrd p)) ∧
      (∀ i, p.isRoot = true → i ≠ p.tray → p.tree.failed.contains i = false → ∃ o, exec (.hopFail i t) s = .next (s.withPrd o) ∧
        o.tree.failed = i :: p.tree.failed ∧ o.tree.epoch = p.tree.epoch + 1 ∧ o.tree.next = some (moveRoles p.atRoles (i :: p.tree.failed) i)) ∧
      (∀ tag x, (p.isRoot = false ∨ p.tree.faulted.contains tag = true) →
        exec (.faultNotice tag x t) s = .next (s.withPrd p)) ∧
      (∀ tag x, p.isRoot = true → p.tree.faulted.contains tag = false → ∃ o b, exec (.faultNotice tag x t) s = .next (s.withPrd o) ∧
        tag ∈ o.tree.faulted ∧ o.tree.count = p.tree.count + 1 ∧ b ∈ o.tree.bcasts ∧ b.body.kind = 6 ∧ b.body.hdr.tag = tag ∧ b.body.fault = some x)) ∧
    (∀ tag r, p.tree.reqs.find? (fun r => r.tag == tag && r.result.isNone) = some r →
      (p.isRoot = false → exec (.retractDeadline tag t) s = .next (s.withPrd p) ∧ exec (.reschedWait tag t) s = .next (s.withPrd p)) ∧
      (p.ft + 200 * tickUs < r.s → exec (.retractDeadline tag t) s = .next (s.withPrd p)) ∧
      (p.isRoot = true → r.retract = 0 → r.wait = none → r.s ≤ p.ft + 200 * tickUs → (p.bcast? r.bseq).any (·.closed.isNone) = true → ∃ o,
        exec (.retractDeadline tag t) s = .next (s.withPrd o) ∧ PrdR.flag o PRD_ATM_EVENTS 3 = true ∧ p.tree.count < o.tree.count) ∧
      (∀ w, r.wait = some w → p.isRoot = true →
        (p.ft < w + p.atmCfg 24 8 * 100 * tickUs → exec (.reschedWait tag t) s = .next (s.withPrd p)) ∧
        (w + p.atmCfg 24 8 * 100 * tickUs ≤ p.ft → ∃ o, exec (.reschedWait tag t) s = .next (s.withPrd o) ∧ p.tree.count < o.tree.count)))

/-- HEARTBEAT_TX at the root, 10 us or more after the last: it is sent now, and only uplink queues change besides;
earlier, or at another node, nothing changes. HEARTBEAT at the standby root keeps the outstanding broadcasts, the time
and the greater root epoch; at another node it changes nothing. ROOT_TAKEOVER at the standby without a HEARTBEAT for
50 us: the root epoch is higher, the held broadcasts are taken up, and TAKEOVER is set; otherwise nothing changes.
TREE_PROBE at a node that is not the root changes nothing; at a root whose tree has not started, at grade 0 or 1, it
issues TREE with the next epoch; 100 ms after the last probe it probes; before that it changes nothing. -/
def Obligations.TheRootAndItsStandby : Prop :=
  ∀ (s : State) (t : Nat) (p : Prd), p = s.prd.go t →
    ((p.isRoot = false ∨ p.ft < p.tree.hbSent + 10 * tickUs) → exec (.heartbeatTx t) s = .next (s.withPrd p)) ∧
    (p.isRoot = true → p.tree.hbSent + 10 * tickUs ≤ p.ft → ∃ o, exec (.heartbeatTx t) s = .next (s.withPrd o) ∧
      o = { p with ulq := o.ulq, tree := { p.tree with hbSent := p.ft } } ∧ (roleHolder p.atRoles 4 0 = none → o.ulq = p.ulq)) ∧
    (∀ l n, roleBit p.atRoles p.tray 4 = true → exec (.heartbeat l n t) s = .next (s.withPrd { p with
      tree := { p.tree with held := l, hbAt := p.ft, rootEpoch := max p.tree.rootEpoch n } })) ∧
    (∀ l n, roleBit p.atRoles p.tray 4 = false → exec (.heartbeat l n t) s = .next (s.withPrd p)) ∧
    ((roleBit p.atRoles p.tray 4 = false ∨ p.isRoot = true ∨ p.ft < p.tree.hbAt + 50 * tickUs) → exec (.rootTakeover t) s = .next (s.withPrd p)) ∧
    (roleBit p.atRoles p.tray 4 = true → p.isRoot = false → p.tree.hbAt + 50 * tickUs ≤ p.ft → ∃ o, exec (.rootTakeover t) s = .next (s.withPrd o) ∧
      o.tree.tookOver = true ∧ o.tree.held = [] ∧ p.tree.rootEpoch < o.tree.rootEpoch ∧ PrdR.flag o PRD_TREE_EVENTS 2 = true) ∧
    (p.isRoot = false → exec (.treeProbe t) s = .next (s.withPrd p)) ∧
    (p.isRoot = true → p.tree.joined = false → 1 < p.clk.grade → exec (.treeProbe t) s = .next (s.withPrd p)) ∧
    (p.isRoot = true → p.tree.joined = false → p.clk.grade ≤ 1 → ∃ o, exec (.treeProbe t) s = .next (s.withPrd o) ∧
      o.tree.joined = true ∧ o.tree.epoch = p.tree.epoch + 1 ∧ o.tree.next = some p.atRoles) ∧
    (p.isRoot = true → p.tree.joined = true → p.ft < p.tree.probeAt + 400000000 → exec (.treeProbe t) s = .next (s.withPrd p)) ∧
    (p.isRoot = true → p.tree.joined = true → p.tree.probeAt + 400000000 ≤ p.ft → ∃ o, exec (.treeProbe t) s = .next (s.withPrd o) ∧
      o = { p with ulq := o.ulq, tree := { p.tree with probeAt := p.ft } })

/-- JOB_END_RX of the fleet context or a malformed rank changes nothing; of a rank of an OPEN or DRAINING context, not
ended so far and homed here: the rank has its end, and the context is DRAINING, or HELD where every rank that the tray
serves or homes has ended; a second record of the rank changes nothing but, from a port with cause WITHDRAWN, that
port's mark. DRAIN_LIMIT of a DRAINING context after its limit: the context is HELD, and UNDRAINED counts the ranks
without a record; before, nothing changes. CTX_HOLD of a HELD context after its time frees the slot; before, nothing
changes. No other slot changes. -/
def Obligations.ContextsDrainAndEnd : Prop :=
  ∀ (s : State) (c t : Nat) (p : Prd) (x : Ctx), p = s.prd.go t → x = p.slot c → c ≠ 0 →
    (∀ src tag rank body, (tag = 0 ∨ 2 ^ 17 ≤ rank) → exec (.jobEndRx src tag rank body t) s = .next (s.withPrd p)) ∧
    (∀ src tag rank body x3, tag ≠ 0 → rank < 2 ^ 17 → p.slotOf tag = some c → p.awayHome src tag rank = none → 2 ≤ x.st → x.ended.lookup rank = none →
        (∀ n, src = .port n → fieldAt body 1 1 ≠ 2) → x3 = { x with ended := x.ended ++ [(rank, fieldAt body 8 8)], st := if x.st = 2 then 3 else x.st, since := if x.st = 2 then p.ft else x.since } →
      exec (.jobEndRx src tag rank body t) s = .next (s.withPrd (p.setSlot c (if x3.st = 3 ∧ p.allEnded x3 = true then { x3 with st := 4, since := p.ft } else x3)))) ∧
    (∀ src tag rank body, tag ≠ 0 → rank < 2 ^ 17 → p.slotOf tag = some c → p.awayHome src tag rank = none → (x.ended.lookup rank).isSome = true →
        (∀ n, src = .port n → fieldAt body 1 1 ≠ 2) → exec (.jobEndRx src tag rank body t) s = .next (s.withPrd p)) ∧
    (x.st = 3 → x.since + PrdR.fld p PRD_CTX_CFG 0 16 * 400000 ≤ p.ft → ∃ o, exec (.drainLimit c t) s = .next (s.withPrd o) ∧
      o = { p.setSlot c { x with st := 4, since := p.ft } with regs := o.regs, cyc := o.cyc } ∧
      PrdR.fld o PRD_CTX_UNDRAINED 0 32 = min (PrdR.fld p PRD_CTX_UNDRAINED 0 32 +
        (((x.served.map (·.2) ++ x.homed p.tray).eraseDups).filter fun r => (x.ended.lookup r).isNone).length) 0xFFFFFFFF ∧
      ∀ a, a ≠ PRD_CTX_UNDRAINED → PrdR.get o a = PrdR.get p a) ∧
    ((x.st ≠ 3 ∨ p.ft < x.since + PrdR.fld p PRD_CTX_CFG 0 16 * 400000) → exec (.drainLimit c t) s = .next (s.withPrd p)) ∧
    (x.st = 4 → x.since + PrdR.fld p PRD_CTX_CFG 16 16 * 400000 < p.ft → ∃ o, exec (.ctxHold c t) s = .next (s.withPrd o) ∧
      o.slot c = {} ∧ ∀ d, d ≠ c → o.slot d = p.slot d) ∧
    ((x.st ≠ 4 ∨ p.ft ≤ x.since + PrdR.fld p PRD_CTX_CFG 16 16 * 400000) → exec (.ctxHold c t) s = .next (s.withPrd p))

/-- NOSE_EVAL of the accord that has waited longest, with no evaluation under way and no copy running, starts it; of
another accord, or while the Nose is busy or copies a model, it changes nothing. NOSE_EVAL_DONE with no evaluation
under way changes nothing. Otherwise the Nose is free again, the scores kept of the context are those of this accord,
one for each stream, the model stands, LAST_EVAL shows an accord of the fleet context, and, unless a baseline waits
for the context, each stream evaluated has its new state. -/
def Obligations.TheNoseEvaluatesInOrder : Prop :=
  ∀ (s : State) (t : Nat) (p : Prd), p = s.prd.go t →
    (∀ c no r, p.nose.waiting = (c, no) :: r → p.nose.busy = none → p.nose.copying = false →
      exec (.noseEval c no t) s = .next (s.withPrd { p with nose := { p.nose with busy := some (c, no), waiting := r } })) ∧
    (∀ c no, (p.nose.waiting.head? ≠ some (c, no) ∨ p.nose.busy.isSome = true ∨ p.nose.copying = true) →
      exec (.noseEval c no t) s = .next (s.withPrd p)) ∧
    (p.nose.busy = none → exec (.noseEvalDone t) s = .next (s.withPrd p)) ∧
    (∀ c no tag m a outs, p.nose.busy = some (c, no) → tag = (if c = 0 then 0 else (p.slot c).tag) → p.nose.model = some m → p.acc? tag 0 no 0 = some a →
        outs = evalAccord { image := m.image, digest := m.digest, macerate := p.macerate m.image, emitAll := PrdR.flag p PRD_NOSE_CTRL 1, replay := false, tag, no }
          (p.noseRanks a) p.nose.streams → ∃ o, exec (.noseEvalDone t) s = .next (s.withPrd o) ∧
      o.nose.busy = none ∧ o.nose.model = some m ∧ o.nose.next = p.nose.next ∧ o.nose.copying = p.nose.copying ∧
      o.nose.scores = (outs.map fun x => { tag, no, id := x.key.id, v := x.score }) ++ p.nose.scores.filter (fun x => x.tag != tag) ∧
      (tag = 0 → PrdR.get o PRD_NOSE_LAST_EVAL = no % 2 ^ 64) ∧
      (p.nose.baseNext.lookup tag = none → o.nose.streams = outs.map (fun x => x.st) ++
        p.nose.streams.filter fun x => !(x.tag == tag && outs.any fun y => y.key.id == x.id)))

/-- The register commands of the Nose in the safe profile change nothing. LOAD_MODEL while another load is in
progress, from an address that is not aligned or lies outside the software area, or of an image that a check refuses,
only sets LOAD_RESULT (and NEEDED and AVAILABLE) and its event: the Nose stands. An image without a baseline that
passes waits for its copy. MODEL_COPY_START starts the copy once no accord is evaluated or waits, else nothing
changes. MODEL_COPY_DONE makes the image the model, discards every stream's state unless the image has a baseline, and
shows its mode and its resident experts; without a copy it changes nothing. LOAD_BASELINE without a model, or of one
that does not match, is refused with 11; one that matches a context not under evaluation takes the place of the
context's streams. SAVE_BASELINE without a model is refused with 11; with one it writes the context's state to the
address, with a GENERATION that is free (log entry 73). UNLOAD with nothing waiting leaves no model, stream or score. -/
def Obligations.ModelsAndBaselinesOfTheNose : Prop :=
  ∀ (s : State) (t : Nat) (p : Prd) (addr len : Nat), p = s.prd.go t → addr = PrdR.get p PRD_NOSE_LOAD_ADDR → len = PrdR.get p PRD_NOSE_LOAD_LEN →
    (p.safe = true → ∀ i, (∃ b, i = .loadModel none b t) ∨ i = .loadBaseline none t ∨ i = .saveBaseline none t ∨ i = .unload none t → exec i s = .next (s.withPrd p)) ∧
    (p.safe = false →
      (∀ sig, (p.nose.next.isSome = true ∨ addr % 64 ≠ 0 ∨ inSoftware addr len = false) → ∃ o, exec (.loadModel none sig t) s = .next (s.withPrd o) ∧
        o = { p with regs := o.regs, cyc := o.cyc, evr := o.evr } ∧ PrdR.get o PRD_NOSE_LOAD_RESULT = (if p.nose.next.isSome = true then 10 else 5) ∧
        PrdR.flag o PRD_NOSE_EVENTS 1 = true) ∧
      (∀ sig, p.nose.next = none → addr % 64 = 0 → inSoftware addr len = true →
        (∀ c n a, checkImage (p.hbm.read addr len) len (blake3 (p.hbm.read addr len)) p.cfg.signed sig = .refused c n a → ∃ o,
          exec (.loadModel none sig t) s = .next (s.withPrd o) ∧ o = { p with regs := o.regs, cyc := o.cyc, evr := o.evr } ∧
          PrdR.get o PRD_NOSE_LOAD_RESULT = c % 2 ^ 64 ∧ PrdR.flag o PRD_NOSE_EVENTS 1 = true ∧
          (n ≠ 0 → PrdR.get o PRD_NOSE_NEEDED = n % 2 ^ 64 ∧ PrdR.get o PRD_NOSE_AVAILABLE = a % 2 ^ 64)) ∧
        (∀ m, checkImage (p.hbm.read addr len) len (blake3 (p.hbm.read addr len)) p.cfg.signed sig = .ok m → imgSect (p.hbm.read addr len) 9 = none →
          exec (.loadModel none sig t) s = .next (s.withPrd { p with nose := { p.nose with next := some { m with addr } } }))) ∧
      (p.nose.model = none → (∃ o, exec (.loadBaseline none t) s = .next (s.withPrd o) ∧ o = { p with regs := o.regs, cyc := o.cyc } ∧
          PrdR.get o PRD_NOSE_LOAD_RESULT = 11 ∧ PrdR.flag o PRD_NOSE_EVENTS 6 = true) ∧
        ∃ o, exec (.saveBaseline none t) s = .next (s.withPrd o) ∧ o = { p with regs := o.regs, cyc := o.cyc } ∧
          PrdR.get o PRD_NOSE_LOAD_RESULT = 11 ∧ PrdR.flag o PRD_NOSE_EVENTS 6 = true) ∧
      (∀ m b tag, p.nose.model = some m → b = p.hbm.read addr len → tag = fieldAt b 2 2 → addr % 64 = 0 → inSoftware addr len = true →
        (baseOk b (nFeat m.image) p.baseTag (some m.digest) = false → ∃ o, exec (.loadBaseline none t) s = .next (s.withPrd o) ∧ o = { p with regs := o.regs, cyc := o.cyc } ∧
          PrdR.get o PRD_NOSE_LOAD_RESULT = 11) ∧
        (baseOk b (nFeat m.image) p.baseTag (some m.digest) = true → p.nose.busy = none → ∃ o, exec (.loadBaseline none t) s = .next (s.withPrd o) ∧
          o = { p with regs := o.regs, cyc := o.cyc, nose := { p.nose with streams := baseStreams b ++ p.nose.streams.filter (fun x => x.tag != tag) } } ∧
          PrdR.get o PRD_NOSE_LOAD_RESULT = 13 ∧ PrdR.flag o PRD_NOSE_EVENTS 5 = true)) ∧
      (∀ m b c, p.nose.model = some m → c = PrdR.get p PRD_NOSE_BASE_CTX → (c = 0 ∨ (p.slot c).st ≠ 0) → addr % 64 = 0 → p.mramProt = false →
          b = baseBytes (if c = 0 then 0 else (p.slot c).tag) (nFeat m.image) (Config.baselineGeneration p.free) m.digest p.nose.streams → inSoftware addr b.length = true →
        ∃ o, exec (.saveBaseline none t) s = .next (s.withPrd o) ∧ o = { p with regs := o.regs, cyc := o.cyc, hbm := p.hbm.write addr b, free := p.free + 1 } ∧
          PrdR.get o PRD_NOSE_LOAD_RESULT = 13) ∧
      (p.nose.busy = none → p.nose.waiting = [] → ∃ o, exec (.unload none t) s = .next (s.withPrd o) ∧
        o = { p with regs := o.regs, rings := o.rings, nose := { p.nose with model := none, next := none, copying := false, streams := [], baseNext := [], persist := [], scores := [] } } ∧
        PrdR.get o PRD_NOSE_LOAD_RESULT = 0 ∧ PrdR.get o PRD_NOSE_RESIDENT = 0)) ∧
    (p.nose.next.isSome = true → p.nose.copying = false → p.nose.busy = none → p.nose.waiting = [] →
      exec (.modelCopyStart t) s = .next (s.withPrd { p with nose := { p.nose with copying := true } })) ∧
    ((p.nose.next = none ∨ p.nose.copying = true ∨ p.nose.busy.isSome = true ∨ p.nose.waiting ≠ []) → exec (.modelCopyStart t) s = .next (s.withPrd p)) ∧
    ((p.nose.next = none ∨ p.nose.copying = false) → exec (.modelCopyDone t) s = .next (s.withPrd p)) ∧
    (∀ m, p.nose.next = some m → p.nose.copying = true → ∃ o, exec (.modelCopyDone t) s = .next (s.withPrd o) ∧
      o = { p with regs := o.regs, cyc := o.cyc, rings := o.rings, nose := { p.nose with model := some m, next := none, copying := false, baseNext := [], persist := [], scores := [], streams := (if (imgSect m.image 9).isSome then baseStreams (sectBytes m.image 9) else []) } } ∧
      PrdR.get o PRD_NOSE_LOAD_RESULT = m.mode % 2 ^ 64 ∧ PrdR.get o PRD_NOSE_RESIDENT = m.resident % 2 ^ 64 ∧ PrdR.flag o PRD_NOSE_EVENTS 0 = true)

/-- PORT_TRAIN: the link is UP on both lanes with nothing held, its sequences at 0, and the OTU says whether it has
come out of reset since and its fault, takes its location, leaves fallback and asks for KEY records; Priord, unless
its links are squelched, forgets the port's expected sequences and HUNT; a fault that the OTU reports stands as its
failure. PORT_DOWN of a link whose flits passed within 2 µs, or at Priord of one that is DOWN, changes nothing; else
what was in flight is lost, with the event, and an OTU that is DOWN with FB_EN is in fallback on the first relay that
accepts, and without one leaves it. RETRAIN_REQ that passes the link check: the link is TRAINING, with the event.
FB_SETTLE returns a class to the direct port after the settling time, and changes nothing before. UPLINK_DOWN clears
LINK_UP of an uplink that is up; UPLINK_UP sets it where its cage is powered and no link is squelched. FAULT_WAIT of a
populated port that is DOWN and silent for the time says that its OTU has failed; else nothing changes. A port that
does not exist changes nothing. -/
def Obligations.LinksTrainGoDownAndRetrain : Prop :=
  ∀ (s : State) (e : Edge) (g : Otu) (p : Prd), s.otu.invalid = false → g = s.otu.go e → p = s.prd.go e.ft →
    (∀ loc fr x cr, ∃ o, exec (.portTrain .otu loc fr x cr e) s = .next (s.withOtu o) ∧
      o = { g with told := some (g.fresh, g.faultCause), fresh := false, rxNext := none, rxHunt := false, link := g.link.train cr g.now, txSeq := [], resync := [], fb := false, acc := { g.acc.keyAll with fastKey := true }, regs := o.regs, cyc := o.cyc } ∧
      OtuR.get o OTU_PORT_LOC = loc % 2 ^ 17 ∧ o.link.st = 2 ∧ o.link.lanes = 3 ∧ o.link.txSeq = 0 ∧ o.link.rxSeq = 0 ∧ o.link.held = [] ∧
      ∀ a, a ≠ OTU_PORT_LOC → a ≠ OTU_PORT_EVENTS → OtuR.get o a = OtuR.get g a) ∧
    (∀ n loc fr x cr, n < 32 → p.squelched = false → ∃ o, exec (.portTrain (.prd n) loc fr x cr e) s = .next (s.withPrd o) ∧
      (fr = false → x = 0 → o = p.setPort n { p.port n with link := (p.port n).link.train cr p.ft, expect := [], hunt := [], txNext := none, withdrawn := false, failedOtu := none }) ∧
      (x ≠ 0 → (o.port n).failedOtu = some x)) ∧
    (∀ n loc fr x cr, (32 ≤ n ∨ p.squelched = true) → exec (.portTrain (.prd n) loc fr x cr e) s = .next (s.withPrd p)) ∧
    (∀ ans, g.link.st ≠ 0 → g.link.dead g.now = false → exec (.portDown .otu ans e) s = .next (s.withOtu g)) ∧
    (∀ ans, (g.link.st = 0 ∨ g.link.dead g.now = true) → ∃ o, exec (.portDown .otu ans e) s = .next (s.withOtu o) ∧
      o = { g with link := o.link, fb := o.fb, relay := o.relay, regs := o.regs, evr := o.evr, dctr := o.dctr, cyc := o.cyc } ∧
      o.link = (if g.link.st = 0 then g.link else g.link.lose 0) ∧ (g.link.st ≠ 0 → OtuR.flag o OTU_PORT_EVENTS 0 = true) ∧
      (OtuR.flag g OTU_FB_CTRL 0 = false → o.fb = g.fb ∧ o.relay = g.relay ∧ o.dctr = g.dctr) ∧
      (∀ i, OtuR.flag g OTU_FB_CTRL 0 = true → g.pickRelay ans = some i → o.fb = true ∧ o.relay = i ∧ (g.fb = false → OtuR.flag o OTU_PORT_EVENTS 6 = true)) ∧
      (OtuR.flag g OTU_FB_CTRL 0 = true → g.pickRelay ans = none → o.fb = false ∧ o.relay = g.relay ∧ (g.fb = true → OtuR.flag o OTU_PORT_EVENTS 7 = true))) ∧
    (∀ n ans, n < 32 → (p.port n).link.dead p.ft = true → bit (p.portCfg n) 2 = true → ∃ o, exec (.portDown (.prd n) ans e) s = .next (s.withPrd o) ∧
      o = { p.setPort n { p.port n with link := (p.port n).link.lose 0, downSince := p.ft } with regs := o.regs, evr := o.evr, cyc := o.cyc } ∧
      PrdR.flag o (PRD_DP_EVENTS n) 0 = true) ∧
    (∀ n ans, (32 ≤ n ∨ (p.port n).link.dead p.ft = false) → exec (.portDown (.prd n) ans e) s = .next (s.withPrd p)) ∧
    (∀ x, g.link.st = 2 → g.link.checks x = true → ctrlType x.bytes 4 = true → ∃ o, exec (.retrainReq ⟨.otu, x⟩ e) s = .next (s.withOtu o) ∧
      o = { g with link := (g.link.hear g.now x).lose 1, dctr := (g.hear x).dctr, regs := o.regs, cyc := o.cyc } ∧ OtuR.flag o OTU_PORT_EVENTS 1 = true) ∧
    (∀ n x, n < 32 → (p.port n).link.st = 2 → (p.port n).link.checks x = true → ctrlType x.bytes 4 = true → ∃ o, exec (.retrainReq ⟨.prd n, x⟩ e) s = .next (s.withPrd o) ∧
      o = { p.setPort n { p.port n with link := ((p.port n).link.hear p.ft x).lose 1 } with regs := o.regs, cyc := o.cyc } ∧ PrdR.flag o (PRD_DP_EVENTS n) 1 = true) ∧
    (∀ c x, g.fbLast.lookup c = some x → g.link.st = 2 → x + OtuR.fld g OTU_FB_CTRL 16 8 * 4000 ≤ g.now →
      exec (.fbSettle c e) s = .next (s.withOtu { g with fbLast := Tbl.del g.fbLast c })) ∧
    (∀ c, (g.fbLast.lookup c = none ∨ g.link.st ≠ 2 ∨ ∃ x, g.fbLast.lookup c = some x ∧ g.now < x + OtuR.fld g OTU_FB_CTRL 16 8 * 4000) →
      exec (.fbSettle c e) s = .next (s.withOtu g)) ∧
    (∀ u, u < 4 → PrdR.flag p (PRD_UL_STATUS u) 0 = true → ∃ o, exec (.uplinkDown u e.ft) s = .next (s.withPrd o) ∧
      o = { p with regs := o.regs, cyc := o.cyc, evr := o.evr, src := o.src } ∧ PrdR.flag o (PRD_UL_STATUS u) 0 = false ∧ PrdR.flag o (PRD_UL_EVENTS u) 0 = true) ∧
    (∀ u, (4 ≤ u ∨ PrdR.flag p (PRD_UL_STATUS u) 0 = false) → exec (.uplinkDown u e.ft) s = .next (s.withPrd p)) ∧
    (∀ u, u < 4 → PrdR.flag p PRD_PWR_OSFP_CTRL u = true → p.squelched = false → ∃ o, exec (.uplinkUp u e.ft) s = .next (s.withPrd o) ∧
      o = { p with regs := o.regs, cyc := o.cyc, evr := o.evr, src := o.src } ∧ PrdR.flag o (PRD_UL_STATUS u) 0 = true) ∧
    (∀ u, (4 ≤ u ∨ PrdR.flag p PRD_PWR_OSFP_CTRL u = false ∨ p.squelched = true) → exec (.uplinkUp u e.ft) s = .next (s.withPrd p)) ∧
    (∀ n, p.populated n = true → (p.port n).link.st = 0 → (p.port n).failedOtu = none →
        max (p.port n).downSince (p.port n).fbAt + PrdR.get p PRD_OTU_FAULT_WAIT * tickUs ≤ p.ft → ∃ o,
      exec (.faultWait n e.ft) s = .next (s.withPrd o) ∧ (o.port n).failedOtu = some 0 ∧ (o.port n).link = (p.port n).link) ∧
    (∀ n, (p.populated n = false ∨ (p.port n).link.st ≠ 0 ∨ (p.port n).failedOtu.isSome = true ∨
        p.ft < max (p.port n).downSince (p.port n).fbAt + PrdR.get p PRD_OTU_FAULT_WAIT * tickUs) → exec (.faultWait n e.ft) s = .next (s.withPrd p))

/-- A flit at an end that is not UP changes nothing; one that passes the link check but is not of the row's type only
moves the FEC stream on and brings its acknowledgement and credit. DATA_FLIT_RX of the expected FSEQ with the next
ALIVE: FSEQ and ALIVE advance, one credit more is owed, and the end takes flits again. With the same ALIVE: FSEQ
advances and nothing is assembled, with ALIVE_REPEAT and its count. A duplicate is not assembled, nor does FSEQ move.
One that fails its check leaves FSEQ, and a NAK for it waits. At the OTU only the link, its counts and the atomiser
message that has come whole change besides. NAK of a held flit, but for the third time in a row: that flit and those
after it are resent, with REPLAY and its count. Otherwise the link retrains and the other end is asked to. NAK_REPEAT
queues the NAK again 1 µs after the last while the end awaits a flit, and changes nothing before. RESYNC_REQ and
KEY_REQ mark the stream and the next records. FLIT_SLOT of a port that is not UP changes nothing; with no IDLE due it
sends the oldest CTRL message, else a flit to be resent; an IDLE that is due carries a time word. -/
def Obligations.FlitsAreTakenInOrder : Prop :=
  (∀ (l : LinkSt) (f : Flit) (now last k : Nat), last = Tbl.get (fun _ => 0) l.rxAlive f.vl → k = (l.rxSeq + 4096 - f.fseq % 4096) % 4096 →
    (k = 0 → f.alive = (last + 1) % 256 → (l.dataIn f true now).rxSeq = (l.rxSeq + 1) % 4096 ∧ Tbl.get (fun _ => 0) (l.dataIn f true now).rxAlive f.vl = f.alive ∧
      (l.dataIn f true now).discarding = false ∧ Tbl.get (fun _ => 0) (l.dataIn f true now).ret f.vl = Tbl.get (fun _ => 0) l.ret f.vl + 1 ∧
      (l.dataIn f true now).ctrl = l.ctrl ∧ (l.dataIn f true now).txSeq = l.txSeq ∧ ∃ fs, (l.dataIn f true now).inbox = l.inbox ++ fs) ∧
    (k = 0 → f.alive = last → last < 256 → (l.dataIn f true now).rxSeq = (l.rxSeq + 1) % 4096 ∧ (l.dataIn f true now).inbox = l.inbox ∧ (l.dataIn f true now).part = l.part) ∧
    (0 < k → k ≤ 2048 → (l.dataIn f true now).rxSeq = l.rxSeq ∧ (l.dataIn f true now).inbox = l.inbox ∧ (l.dataIn f true now).part = l.part ∧ (l.dataIn f true now).ctrl = l.ctrl) ∧
    (l.discarding = false → (l.dataIn f false now) = { l with ctrl := (l.dataIn f false now).ctrl, discarding := true, nakAt := now } ∧ nakMsg l.rxSeq ∈ (l.dataIn f false now).ctrl) ∧
    (l.discarding = true → l.dataIn f false now = l)) ∧
  ∀ (s : State) (e : Edge) (g : Otu) (p : Prd), s.otu.invalid = false → g = s.otu.go e → p = s.prd.go e.ft →
    (∀ x i k, ((k = 1 ∧ i = .nak .otu x e) ∨ (k = 2 ∧ i = .resyncReq x.bytes x.errs e) ∨ (k = 3 ∧ i = .keyReq x e) ∨ (k = 4 ∧ i = .retrainReq ⟨.otu, x⟩ e)) →
      (g.link.st ≠ 2 → exec i s = .next (s.withOtu g)) ∧ (g.link.st = 2 → (g.link.checks x && ctrlType x.bytes k) = false → exec i s = .next (s.withOtu (g.hear x)))) ∧
    (∀ n x i k, ((k = 1 ∧ i = .nak (.prd n) x e) ∨ (k = 4 ∧ i = .retrainReq ⟨.prd n, x⟩ e)) → ((32 ≤ n ∨ (p.port n).link.st ≠ 2) → exec i s = .next (s.withPrd p)) ∧
      (n < 32 → (p.port n).link.st = 2 → ((p.port n).link.checks x && ctrlType x.bytes k) = false →
        exec i s = .next (s.withPrd (p.setPort n { p.port n with link := (p.port n).link.hear p.ft x })))) ∧
    (∀ x, (g.link.st ≠ 2 → exec (.dataFlitRx .otu x.bytes x.errs e) s = .next (s.withOtu g)) ∧
      (g.link.st = 2 → g.link.checks x = true → flitType x.bytes 1 = false → exec (.dataFlitRx .otu x.bytes x.errs e) s = .next (s.withOtu (g.hear x)))) ∧
    (∀ x f ok h, g.link.st = 2 → f = flitOf x.bytes → ok = g.link.checks x → h = g.link.hear g.now x → (ok = false ∨ flitType x.bytes 1 = true) → ∃ o, exec (.dataFlitRx .otu x.bytes x.errs e) s = .next (s.withOtu o) ∧
      o = { g with link := { h.dataIn f ok g.now with inbox := [] }, regs := o.regs, dctr := o.dctr, cyc := o.cyc, rxNext := o.rxNext, rxHunt := o.rxHunt, rxMsg := o.rxMsg } ∧
      (h.verdict f ok = .accept → o.regs = g.regs ∧ o.dctr = (g.hear x).dctr) ∧
      (h.verdict f ok = .repeat → OtuR.flag o OTU_PORT_EVENTS 4 = true ∧ o.dctrGet 0x65 = (addWord 48 (g.dctrGet 0x65) 1).1)) ∧
    (∀ n x, ((32 ≤ n ∨ (p.port n).link.st ≠ 2) → exec (.dataFlitRx (.prd n) x.bytes x.errs e) s = .next (s.withPrd p)) ∧
      (n < 32 → (p.port n).link.st = 2 → (p.port n).link.checks x = true → flitType x.bytes 1 = false →
        exec (.dataFlitRx (.prd n) x.bytes x.errs e) s = .next (s.withPrd (p.setPort n { p.port n with link := (p.port n).link.hear p.ft x })))) ∧
    (∀ n x f ok h, n < 32 → (p.port n).link.st = 2 → f = flitOf x.bytes → ok = (p.port n).link.checks x → h = (p.port n).link.hear p.ft x → (ok = false ∨ flitType x.bytes 1 = true) → ∃ o,
      exec (.dataFlitRx (.prd n) x.bytes x.errs e) s = .next (s.withPrd o) ∧
      o = { p.setPort n { p.port n with link := h.dataIn f ok p.ft } with regs := o.regs, cyc := o.cyc } ∧ (h.verdict f ok = .accept → o.regs = p.regs)) ∧
    (∀ x q h, g.link.st = 2 → g.link.checks x = true → ctrlType x.bytes 1 = true → q = fieldAt x.bytes 9 2 → h = g.link.hear g.now x →
      (h.held.any (fun f => f.fseq == q) = true → (h.nakSeq ≠ some q ∨ h.nakCount < 2) → ∃ o, exec (.nak .otu x e) s = .next (s.withOtu o) ∧
        o = { g with link := o.link, regs := o.regs, dctr := o.dctr, cyc := o.cyc } ∧ o.link.resend = h.held.dropWhile (fun x => x.fseq != q) ∧ o.link.held = h.held ∧
        o.link.nakSeq = some q ∧ OtuR.flag o OTU_PORT_EVENTS 2 = true ∧ o.dctrGet 0 = (addWord 48 (g.dctrGet 0) 1).1) ∧
      ((h.held.any (fun f => f.fseq == q) = false ∨ (h.nakSeq = some q ∧ 2 ≤ h.nakCount)) → ∃ o, exec (.nak .otu x e) s = .next (s.withOtu o) ∧
        o = { g with link := h.askRetrain, dctr := (g.hear x).dctr, regs := o.regs, cyc := o.cyc } ∧ OtuR.flag o OTU_PORT_EVENTS 1 = true)) ∧
    (∀ n x q h, n < 32 → (p.port n).link.st = 2 → (p.port n).link.checks x = true → ctrlType x.bytes 1 = true → q = fieldAt x.bytes 9 2 → h = (p.port n).link.hear p.ft x →
      (h.held.any (fun f => f.fseq == q) = true → h.nakSeq ≠ some q → ∃ o, exec (.nak (.prd n) x e) s = .next (s.withPrd o) ∧
        (o.port n).link.resend = h.held.dropWhile (fun x => x.fseq != q) ∧ PrdR.flag o (PRD_DP_EVENTS n) 2 = true ∧
        PrdR.fld o (PRD_DP_REPLAYS n) 0 32 = min (PrdR.fld p (PRD_DP_REPLAYS n) 0 32 + 1) 0xFFFFFFFF) ∧
      (h.held.any (fun f => f.fseq == q) = false → ∃ o, exec (.nak (.prd n) x e) s = .next (s.withPrd o) ∧ (o.port n).link = h.askRetrain ∧ PrdR.flag o (PRD_DP_EVENTS n) 1 = true)) ∧
    (∃ o, exec (.nakRepeat .otu e) s = .next (s.withOtu o) ∧
      (g.link.st = 2 → g.link.discarding = true → g.link.nakAt + tickUs ≤ g.now → o = { g with link := { g.link with ctrl := o.link.ctrl, nakAt := g.now } } ∧ nakMsg g.link.rxSeq ∈ o.link.ctrl) ∧
      ((g.link.st ≠ 2 ∨ g.link.discarding = false ∨ g.now < g.link.nakAt + tickUs) → o = g)) ∧
    (∀ n, n < 32 → (p.port n).link.st = 2 → (p.port n).link.discarding = true → (p.port n).link.nakAt + tickUs ≤ p.ft → ∃ o, exec (.nakRepeat (.prd n) e) s = .next (s.withPrd o) ∧
      nakMsg (p.port n).link.rxSeq ∈ (o.port n).link.ctrl) ∧
    (∀ x stream tag, g.link.st = 2 → g.link.checks x = true → ctrlType x.bytes 2 = true → stream = fieldAt x.bytes 9 2 → tag = fieldAt x.bytes 11 2 → ∃ o, exec (.resyncReq x.bytes x.errs e) s = .next (s.withOtu o) ∧
      o = { g with link := g.link.hear g.now x, resync := o.resync, regs := o.regs, dctr := o.dctr, cyc := o.cyc } ∧
      (stream, tag) ∈ o.resync ∧ (∀ x, x ∈ g.resync → x ∈ o.resync) ∧ OtuR.flag o OTU_PORT_EVENTS 5 = true ∧ o.dctrGet 0x68 = (addWord 48 (g.dctrGet 0x68) 1).1) ∧
    (∀ x v, g.link.st = 2 → g.link.checks x = true → ctrlType x.bytes 3 = true → v = fieldAt x.bytes 9 1 → ∃ o, exec (.keyReq x e) s = .next (s.withOtu o) ∧ OtuR.flag o OTU_ACC_EVENTS 5 = true ∧
      o = { g with link := g.link.hear g.now x, dctr := (g.hear x).dctr, regs := o.regs, cyc := o.cyc, acc := { g.acc with keyReg := g.acc.keyReg || bit v 0, fastKey := g.acc.fastKey || bit v 1 } }) ∧
    (g.link.st ≠ 2 → exec (.flitSlot .otu e) s = .next (s.withOtu g)) ∧
    (g.link.st = 2 → g.link.idleAt + 3600 ≤ g.now → ∃ o, exec (.flitSlot .otu e) s = .next (s.withOtu o) ∧
      o = { g with link := o.link, dctr := o.dctr } ∧ o.link.idleAt = g.now ∧ o.link.held = g.link.held ∧ o.link.ctrl = g.link.ctrl ∧ o.link.resend = g.link.resend ∧ o.dctrGet 0x67 = (addWord 48 (g.dctrGet 0x67) 1).1) ∧
    (∀ m r, g.link.st = 2 → g.now < g.link.idleAt + 3600 → g.link.ctrl = m :: r → exec (.flitSlot .otu e) s = .next (s.withOtu { g with link := ({ g.link with ctrl := r } : LinkSt).putCtrl m })) ∧
    (∀ f r, g.link.st = 2 → g.now < g.link.idleAt + 3600 → g.link.ctrl = [] → g.link.resend = f :: r → ∃ o, exec (.flitSlot .otu e) s = .next (s.withOtu o) ∧
      o = { g with link := ({ g.link with resend := r } : LinkSt).putData f, dctr := o.dctr } ∧
      o.dctrGet 0x62 = (addWord 48 (g.dctrGet 0x62) 1).1) ∧
    (∀ n m r, n < 32 → (p.port n).link.st = 2 → p.ft < (p.port n).link.idleAt + 3600 → (p.port n).link.ctrl = m :: r →
      exec (.flitSlot (.prd n) e) s = .next (s.withPrd (p.setPort n { p.port n with link := ({ (p.port n).link with ctrl := r } : LinkSt).putCtrl m })))

/-- GATE_ENTRY_BEGIN: with gating off every gate is open; in NO_TIME with gating on the OTU's are closed.
CHANGE_T_WRITE takes an instant that is ahead and not before ADMIN_BASE, or all ones; any other is refused with its
event. GATE_CHANGE at CHANGE_T makes the ADMIN list the list in force and CHANGE_T all ones; before, nothing changes.
SHAPER_WRITE of a CIR in range stores it and fills the queue's buckets; a register that does not exist changes
nothing. POLICER_WRITE of a CIR from 1 to 400,000 and at most PIR stores it and fills the buckets; of another, nothing
changes. INGEST_WINDOW in its window changes nothing; after it, the rate is that of the window that ended.
EGRESS_FRAME_START: an uplink that is down, or still sends, starts nothing; with one message that its shaper lets go,
that message leaves. The fallback path sends nothing in NO_TIME or while it still sends; with one record that may go,
a packet of its class leaves. FALLBACK_PACKET_RX keeps a packet until the last of its frame, and then queues the frame
as a relay frame; it does nothing while the relay's port is DOWN. -/
def Obligations.GatesShapersAndPolicers : Prop :=
  ∀ (s : State) (e : Edge) (g : Otu) (p : Prd), s.otu.invalid = false → g = s.otu.go e → p = s.prd.go e.ft →
    (∃ o, exec (.gateEntryBegin .otu e) s = .next (s.withOtu o) ∧ o = { g with gate := { g.gate with entry := g.operList.entry g.clk.ft, gates := o.gate.gates } } ∧
      (g.operList.en = false → o.gate.gates = 0xFF) ∧ (g.operList.en = true → g.clk.st = 0 → o.gate.gates = 0)) ∧
    (∀ u, u < 4 → ∃ o, exec (.gateEntryBegin (.uplink u) e) s = .next (s.withPrd o) ∧ o = { p with ulq := o.ulq } ∧
      (o.uplink u).gate.gates = (p.operList u).gates p.ft ∧ (o.uplink u).q = (p.uplink u).q ∧ ∀ v, v ≠ u → o.uplink v = p.uplink v) ∧
    (∀ v, v < 2 ^ 64 → ((v = absent ∨ (OtuR.get g OTU_GCL_ADMIN_BASE ≤ v ∧ g.clk.st ≠ 0 ∧ g.clk.ft < v)) →
        exec (.changeTWrite .otu v e) s = .next (s.withOtu (OtuR.set g OTU_GCL_CHANGE_T v))) ∧
      (v ≠ absent → (v < OtuR.get g OTU_GCL_ADMIN_BASE ∨ (g.clk.st ≠ 0 ∧ v ≤ g.clk.ft)) → ∃ o, exec (.changeTWrite .otu v e) s = .next (s.withOtu o) ∧
        o = { g with regs := o.regs, evr := o.evr, cyc := o.cyc } ∧ OtuR.flag o OTU_PORT_EVENTS 8 = true ∧ OtuR.get o OTU_GCL_CHANGE_T = OtuR.get g OTU_GCL_CHANGE_T)) ∧
    (∀ n, g.due (OtuR.get g OTU_GCL_CHANGE_T) = true → n = OtuR.fld g OTU_GCL_CTRL 1 9 → n ≤ 256 → ∃ o, exec (.gateChange .otu e) s = .next (s.withOtu o) ∧
      o = { g with regs := o.regs, gate := o.gate } ∧ OtuR.get o OTU_GCL_CHANGE_T = absent ∧ OtuR.get o OTU_GCL_OPER_BASE = OtuR.get g OTU_GCL_ADMIN_BASE ∧
      OtuR.get o OTU_GCL_OPER_CYCLE = OtuR.get g OTU_GCL_ADMIN_CYCLE ∧ (∀ i, i < n → OtuR.get o (OTU_GCL_OPER i) = OtuR.get g (OTU_GCL_ADMIN i)) ∧ o.gate.operN = n) ∧
    (g.due (OtuR.get g OTU_GCL_CHANGE_T) = false → exec (.gateChange .otu e) s = .next (s.withOtu g)) ∧
    (∀ u, (4 ≤ u ∨ p.ub u 0x58 = absent ∨ p.ft < p.ub u 0x58) → exec (.gateChange (.uplink u) e) s = .next (s.withPrd p)) ∧
    (∀ q v, q < 1024 → v ≤ 400000 → ∃ o, exec (.shaperWrite .otu q 0 v e) s = .next (s.withOtu o) ∧ o = { g with regs := o.regs, eqs := o.eqs } ∧
      OtuR.get o (OTU_EQ_CIR q) = v ∧ o.eqSt q = (g.eqSt q).refill (g.eqReg q) g.now ∧ ∀ a, a ≠ OTU_EQ_CIR q → OtuR.get o a = OtuR.get g a) ∧
    (∀ gs q r v, (1024 ≤ q ∨ 4 ≤ r) → (gs = .otu → exec (.shaperWrite gs q r v e) s = .next (s.withOtu g)) ∧
      (∀ u, gs = .uplink u → exec (.shaperWrite gs q r v e) s = .next (s.withPrd p))) ∧
    (∀ n v, n < 32 → 1 ≤ v → v ≤ 400000 → v ≤ PrdR.get p (PRD_DP_POL_PIR n) → ∃ o, exec (.policerWrite n 0 v e.ft) s = .next (s.withPrd o) ∧
      o = { p.setPort n { p.port n with polFull := true } with regs := o.regs } ∧ PrdR.get o (PRD_DP_POL_CIR n) = v) ∧
    (∀ n v, v < 2 ^ 32 → (32 ≤ n ∨ v = 0 ∨ 400000 < v ∨ PrdR.get p (PRD_DP_POL_PIR n) < v) → exec (.policerWrite n 0 v e.ft) s = .next (s.withPrd p)) ∧
    (p.ft < p.ingestAt + 40000 → exec (.ingestWindow e.ft) s = .next (s.withPrd p)) ∧
    (p.ingestAt + 40000 ≤ p.ft → p.ft < p.ingestAt + 80000 → ∃ o, exec (.ingestWindow e.ft) s = .next (s.withPrd o) ∧
      o = { p with ingest := 0, ingestRate := p.ingest, ingestAt := p.ingestAt + 40000, regs := o.regs } ∧ PrdR.get o PRD_INGEST_RATE = p.ingest / 10000 % 2 ^ 64 ∧
      PrdR.get o PRD_INGEST_STATUS = if PrdR.get p PRD_INGEST_LIMIT * 10000 < p.ingest then 1 else 0) ∧
    (∀ u, (4 ≤ u ∨ PrdR.flag p (PRD_UL_STATUS u) 0 = false ∨ p.ft < (p.uplink u).gate.busyTill) → exec (.egressFrameStart (.uplink u) e) s = .next (s.withPrd p)) ∧
    (∀ u q m r, u < 4 → q < 1024 → PrdR.flag p (PRD_UL_STATUS u) 0 = true → (p.uplink u).gate.busyTill ≤ p.ft → (p.uplink u).q = [(q, m :: r)] → (p.operList u).en = false →
        (Tbl.get (fun _ => {}) (p.uplink u).qs q : EqSt).eligible (p.eqReg u q) p.ft (effLen m.body.length (getF (p.ub u 8) 0 9)) ≠ 0 → ∃ o,
      exec (.egressFrameStart (.uplink u) e) s = .next (s.withPrd o) ∧ o = { p with ulq := o.ulq } ∧ (o.uplink u).last = some m ∧
      Tbl.get (fun _ => []) (o.uplink u).q q = r ∧ ∀ v, v ≠ u → o.uplink v = p.uplink v) ∧
    ((g.clk.st = 0 ∨ g.now < g.gate.busyTill ∨ g.now < g.gate.aggAt) → exec (.egressFrameStart .otu e) s = .next (s.withOtu g)) ∧
    (∀ q x r, g.clk.st ≠ 0 → g.gate.busyTill ≤ g.now → g.gate.aggAt ≤ g.now → q < 1024 → g.eq = [(q, x :: r)] → g.fbPart = [] → g.fb = true → bit (OtuR.fld g OTU_FB_CTRL 8 8) (q / 128) = true →
        g.operList.en = false →
        (g.eqSt q).eligible (g.eqReg q) g.now (effLen (min (OtuR.get g (OTU_EQ_CLASS (q / 128))) (g.recLen x)) (OtuR.fld g OTU_PORT_OVH 16 9)) ≠ 0 → ∃ o pk,
      exec (.egressFrameStart .otu e) s = .next (s.withOtu o) ∧ o.fbOut = g.fbOut ++ [pk] ∧ pk.cls = q / 128 ∧ pk.first = true ∧ pk.origin = OtuR.fld g OTU_PORT_LOC 0 5 ∧
      o.eqGet q = r) ∧
    (∀ pk, (g.link.st = 0 ∨ 32 ≤ pk.origin ∨ 8 ≤ pk.cls) → exec (.fallbackPacketRx pk e) s = .next (s.withOtu g)) ∧
    (∀ pk b, g.link.st ≠ 0 → pk.origin < 32 → pk.cls < 8 → b = (if pk.first then [] else Tbl.get (fun _ => []) g.relayPart (8 * pk.origin + pk.cls)) ++ pk.bytes →
      (pk.last = false → ∃ o, exec (.fallbackPacketRx pk e) s = .next (s.withOtu o) ∧ o = { g with relayPart := o.relayPart } ∧
        Tbl.get (fun _ => []) o.relayPart (8 * pk.origin + pk.cls) = b) ∧
      (pk.last = true → ∃ o x, exec (.fallbackPacketRx pk e) s = .next (s.withOtu o) ∧ o = { g with relayPart := o.relayPart, eq := o.eq, eqs := o.eqs, dctr := o.dctr } ∧
        o.eqGet (128 * pk.cls + 127) = g.eqGet (128 * pk.cls + 127) ++ [x] ∧ x.rtype = 0x20 ∧ x.body = le 4 pk.origin ++ zeros 4 ++ b ∧
        Tbl.get (fun _ => []) o.relayPart (8 * pk.origin + pk.cls) = []))

/-- HNR_RECORD_WRITE, SIL_RECORD_RX and RELAY_FRAME_RX on a port that does not exist, or of another row's record type,
change nothing. A malformed header sends every pair that the port expects on its virtual lane to HUNT. A frame of a
context without a rank on the port is counted as an orphan, and only its place among the arrivals changes besides. A
frame that passes the check: the next sequence is expected of its pair, and, with the policer off, room in the open
segment, HBM still written and PHASE at TIME or later, the record stands last in that segment, with its rank, location
and bytes; records of RTYPE 9 and 0x0D are not written by this row. One that fails: its count and event, the pair in
HUNT and one failure more; nothing is written. RELAY_FRAME_RX checks the inner frame against its own port, notes the
relay, and writes the record with the location of the die that it comes from. -/
def Obligations.FramesAreCheckedAndWritten : Prop :=
  ∀ (s : State) (n vl : Nat) (b : List Byte) (t : Nat) (p : Prd), p = s.prd.go t →
    (∀ i, (i = .hnrRecordWrite n vl b t ∨ i = .silRecordRx n vl b t ∨ i = .relayFrameRx n vl b t) →
      (32 ≤ n → exec i s = .next (s.withPrd p)) ∧
      (n < 32 → Frame.parse b = none → ∃ o, exec i s = .next (s.withPrd o) ∧ o = { p with dp := o.dp, regs := o.regs, cyc := o.cyc } ∧
        ∀ x, x ∈ (p.port n).expect → (x.1.1 / 256 = 0xF ∨ kindClass (x.1.1 / 256) = vl) → (x.1.1, x.1.2) ∈ (o.port n).hunt)) ∧
    (∀ f, Frame.parse b = some f → (f.rtype ≠ 4 → exec (.silRecordRx n vl b t) s = .next (s.withPrd p)) ∧ (f.rtype ≠ 0x20 → exec (.relayFrameRx n vl b t) s = .next (s.withPrd p)) ∧
      ((f.rtype = 4 ∨ f.rtype = 0x20) → exec (.hnrRecordWrite n vl b t) s = .next (s.withPrd p))) ∧
    (∀ f i, n < 32 → Frame.parse b = some f → f.rtype ≠ 0x20 → ((f.rtype = 4 ∧ i = .silRecordRx n vl b t) ∨ (f.rtype ≠ 4 ∧ i = .hnrRecordWrite n vl b t)) →
      (p.portRank n f.tag = none → ∃ o, exec i s = .next (s.withPrd o) ∧ o = { p.setPort n { p.port n with link := (p.port n).link.taken vl b } with regs := o.regs, cyc := o.cyc } ∧
        PrdR.fld o PRD_CTX_ORPHANS 0 32 = min (PrdR.fld p PRD_CTX_ORPHANS 0 32 + 1) 0xFFFFFFFF) ∧
      (∀ rank next, p.portRank n f.tag = some rank → f.check rank (p.location n) ((p.port n).expect.lookup (f.stream, f.tag)) ((p.port n).hunt.contains (f.stream, f.tag)) = .pass next →
          PrdR.flag p (PRD_DP_POL_CTRL n) 0 = false → p.mramProt = false → 2 ≤ p.phase → p.hnr.open_.used + 16 + (f.body.length + 7) / 8 * 8 ≤ 8388608 → (f.rtype ≠ 6 ∨ f.stream / 256 ≠ 2) → ∃ o,
        exec i s = .next (s.withPrd o) ∧ (o.port n).expect.lookup (f.stream, f.tag) = some next ∧ (o.port n).fails = 0 ∧
        ((f.rtype = 9 ∨ f.rtype = 0xD) → o.hnr = p.hnr) ∧
        (f.rtype ≠ 9 → f.rtype ≠ 0xD → ∃ r, o.hnr.open_.recs = p.hnr.open_.recs ++ [r] ∧ r.rtype = f.rtype ∧ r.stream = f.stream ∧ r.tag = f.tag ∧ r.rank = rank ∧
          r.loc = p.location n ∧ r.body = f.body ∧ r.seq = (next + 2 ^ 32 - 1) % 2 ^ 32 ∧ r.ft = recStamp f.rtype f.body ∧ r.at_ = p.ft ∧ r.fwd = false)) ∧
      (∀ rank, p.portRank n f.tag = some rank → f.check rank (p.location n) ((p.port n).expect.lookup (f.stream, f.tag)) ((p.port n).hunt.contains (f.stream, f.tag)) = .fail → ∃ o,
        exec i s = .next (s.withPrd o) ∧ o = { p with dp := o.dp, regs := o.regs, evr := o.evr, cyc := o.cyc } ∧ (f.stream, f.tag) ∈ (o.port n).hunt ∧ (o.port n).fails = (p.port n).fails + 1 ∧
        PrdR.flag o (PRD_DP_EVENTS n) 5 = true ∧ PrdR.flag o (PRD_DP_EVENTS n) 6 = true ∧
        PrdR.fld o (PRD_DP_RCRC_FAIL n) 0 32 = min (PrdR.fld p (PRD_DP_RCRC_FAIL n) 0 32 + 1) 0xFFFFFFFF)) ∧
    (∀ f g' m rank next rank' next', n < 32 → Frame.parse b = some f → f.rtype = 0x20 → Frame.parse (f.body.drop 8) = some g' → m = fieldAt f.body 0 4 % 32 → m = f.stream % 256 → m ≠ n →
        g'.rtype ≠ 0x20 → g'.rtype ≠ 4 → g'.rtype ≠ 6 → g'.rtype ≠ 9 → g'.rtype ≠ 0xD → p.portRank n f.tag = some rank → p.portRank m g'.tag = some rank' →
        f.check rank (p.location n) ((p.port n).expect.lookup (f.stream, f.tag)) ((p.port n).hunt.contains (f.stream, f.tag)) = .pass next →
        g'.check rank' (p.location m) ((p.port m).expect.lookup (g'.stream, g'.tag)) ((p.port m).hunt.contains (g'.stream, g'.tag)) = .pass next' →
        PrdR.flag p (PRD_DP_POL_CTRL n) 0 = false → p.mramProt = false → 2 ≤ p.phase → p.hnr.open_.used + 16 + (g'.body.length + 7) / 8 * 8 ≤ 8388608 → ∃ o r, exec (.relayFrameRx n vl b t) s = .next (s.withPrd o) ∧
      (o.port m).fbRelay = some n ∧ (o.port m).fbAt = p.ft ∧ o.hnr.open_.recs = p.hnr.open_.recs ++ [r] ∧ r.rtype = g'.rtype ∧ r.rank = rank' ∧ r.loc = p.location m ∧ r.body = g'.body)

/-- EVENT_REQUEST changes the recorder's queue, buckets and requests of the cycle, with their counts, and nothing
else; the first of its cycle, of severity 6 or more with fewer than 64 entries in flight, joins the queue; with 64 in
flight it is dropped, and the event and the count say so. At Priord none is admitted from PWR_FAIL on. EVENT_COMMIT
with nothing in flight, or in the cycle of another (at Priord within 250 ns of it), changes nothing. With recording
enabled and a slot before the last free, the oldest record takes the frontier slot with its number and session, and
the frontier moves on; at Priord the MRAM journal holds it as well. In the cycle of a clear at the OTU it goes into
the old session, and the new one stays as it is. In the last slot RECORDER_FULL is stored instead and the recorder has
stopped. With recording disabled, or stopped, the oldest record is discarded and counted. EVENT_RECORD_RX of a
severity other than 6 writes, from PHASE TIME on, the record at the end of heart notes; one below DIE_MIN_SEV leaves
the recorder as it is; one that reaches it, the first of its cycle under an entry without a rate and with room, joins
what is in flight, marked as the die's. -/
def Obligations.EventsAreQueuedAndCommitted : Prop :=
  ∀ (s : State) (e : Edge) (g : Otu) (p : Prd), s.otu.invalid = false → g = s.otu.go e → p = s.prd.go e.ft →
    (∀ r : EvReq,
      (∃ o, exec (.eventRequest .otu r e) s = .next (s.withOtu o) ∧ o = { g with regs := o.regs, cyc := o.cyc, evr := { g.evr with inflight := o.evr.inflight, rl := o.evr.rl, cyc := o.evr.cyc } } ∧
        (∀ a, a ≠ OTU_EVR_DROPPED → a ≠ OTU_EVR_EVENTS → OtuR.get o a = OtuR.get g a) ∧
        (6 ≤ r.sev → (∀ c, g.evr.cyc = some c → c.at_ ≠ g.lt) → o.evr.rl = g.evr.rl ∧
          (g.evr.inflight.length < 64 → o.evr.inflight = g.evr.inflight ++ [g.stampEv r]) ∧
          (64 ≤ g.evr.inflight.length → o.evr.inflight = g.evr.inflight ∧ OtuR.flag o OTU_EVR_EVENTS 2 = true ∧
            OtuR.fld o OTU_EVR_DROPPED 16 16 = min (OtuR.fld g OTU_EVR_DROPPED 16 16 + 1) 0xFFFF))) ∧
      (p.pw.fail = none → ∃ o, exec (.eventRequest .prd r e) s = .next (s.withPrd o) ∧
        o = { p with regs := o.regs, cyc := o.cyc, evr := { p.evr with inflight := o.evr.inflight, rl := o.evr.rl, cyc := o.evr.cyc } } ∧
        (∀ a, a ≠ PRD_EVR_DROPPED → a ≠ PRD_EVR_EVENTS → PrdR.get o a = PrdR.get p a) ∧
        (6 ≤ r.sev → (∀ c, p.evr.cyc = some c → c.at_ ≠ p.ft) → p.evr.inflight.length < 64 → o.evr.inflight = p.evr.inflight ++ [p.stampEv r])) ∧
      (p.pw.fail.isSome = true → exec (.eventRequest .prd r e) s = .next (s.withPrd p))) ∧
    (∀ ok, (g.evr.inflight = [] ∨ g.evr.lastFt = g.lt + 1) → exec (.eventCommit .otu ok e) s = .next (s.withOtu g)) ∧
    (∀ ok r l w, g.evr.inflight = r :: l → g.evr.lastFt ≠ g.lt + 1 → g.evr.was = some w → w.at_ = g.lt → ∃ o, exec (.eventCommit .otu ok e) s = .next (s.withOtu o) ∧
      o.evr.inflight = l ∧ o.evr.slots = g.evr.slots ∧ o.evr.full = g.evr.full ∧ OtuR.get o OTU_EVR_FRONTIER = OtuR.get g OTU_EVR_FRONTIER ∧
      OtuR.get o OTU_EVR_SESSION = OtuR.get g OTU_EVR_SESSION) ∧
    (∀ ok r l n, g.evr.inflight = r :: l → g.evr.lastFt ≠ g.lt + 1 → (∀ w, g.evr.was = some w → w.at_ ≠ g.lt) → n = OtuR.get g OTU_EVR_FRONTIER → ∃ o, exec (.eventCommit .otu ok e) s = .next (s.withOtu o) ∧
      o = { g with evr := { g.evr with inflight := l, slots := o.evr.slots, full := o.evr.full, hot := o.evr.hot, cyc := none, lastFt := g.lt + 1 }, regs := o.regs, cyc := o.cyc, eq := o.eq, eqs := o.eqs } ∧
      (OtuR.flag g OTU_EVR_CTRL 0 = true → g.evr.full = false → n < 4095 → o.evr.slots.lookup n = some { r with seq := n, valid := OtuR.get g OTU_EVR_SESSION } ∧
        OtuR.get o OTU_EVR_FRONTIER = n + 1 ∧ o.evr.full = false) ∧
      (OtuR.flag g OTU_EVR_CTRL 0 = true → g.evr.full = false → n = 4095 → o.evr.full = true ∧ OtuR.get o OTU_EVR_FRONTIER = 4096 ∧ OtuR.flag o OTU_EVR_EVENTS 0 = true ∧
        ∃ x, o.evr.slots.lookup 4095 = some x ∧ x.code = 2 ∧ x.seq = 4095) ∧
      ((OtuR.flag g OTU_EVR_CTRL 0 = false ∨ g.evr.full = true) → o.evr.slots = g.evr.slots ∧ OtuR.get o OTU_EVR_FRONTIER = n ∧
        OtuR.fld o OTU_EVR_DROPPED 0 16 = min (OtuR.fld g OTU_EVR_DROPPED 0 16 + 1) 0xFFFF)) ∧
    (∀ ok, (p.evr.inflight = [] ∨ (p.evr.lastFt ≠ 0 ∧ p.ft < p.evr.lastFt + 1000)) → exec (.eventCommit .prd ok e) s = .next (s.withPrd p)) ∧
    (∀ r l n, p.evr.inflight = r :: l → n = PrdR.get p PRD_EVR_FRONTIER → n < 262143 → PrdR.flag p PRD_EVR_CTRL 0 = true → p.evr.full = false →
        (p.evr.lastFt = 0 ∨ p.evr.lastFt + 1000 ≤ p.ft) → (∀ w, p.evr.was = some w → w.at_ ≠ p.ft) → p.mramProt = false → ∃ o x, exec (.eventCommit .prd true e) s = .next (s.withPrd o) ∧
      x = { r with seq := n, valid := PrdR.get p PRD_EVR_SESSION } ∧ o.evr.slots.lookup n = some x ∧ o.jnl.lookup (jnlKey p.jnlBank n) = some x ∧
      PrdR.get o PRD_EVR_FRONTIER = n + 1 ∧ o.clk = p.clk ∧ o.tree = p.tree ∧ o.ctx = p.ctx) ∧
    (∀ (n : Nat) (r : EvRec), r.sev ≠ 6 → p.mramProt = false → 2 ≤ p.phase → p.hnr.open_.used + 80 ≤ 8388608 → ∃ o x, exec (.eventRecordRx n r e.ft) s = .next (s.withPrd o) ∧
      o = { p with regs := o.regs, cyc := o.cyc, evr := o.evr, rings := o.rings, ingest := p.ingest + 80, hnr := { p.hnr with open_ := o.hnr.open_ } } ∧
      o.hnr.open_.recs = p.hnr.open_.recs ++ [x] ∧ x.body = r.bytes ∧ x.rcls = 1 ∧ x.key = r.code ∧ x.tag = r.tag ∧ x.loc = p.location n ∧ x.rtype = 0x0D ∧
      ((PrdR.flag p PRD_EVR_CTRL 0 = false ∨ r.sev < PrdR.fld p PRD_EVR_CTRL 1 3) → o.evr = p.evr) ∧
      (PrdR.flag p PRD_EVR_CTRL 0 = true → PrdR.fld p PRD_EVR_CTRL 1 3 ≤ r.sev → r.sev < 6 → p.pw.fail = none → rlKey p.rlEntries r.code = 65536 →
        PrdR.fld p PRD_EVR_RL_DEFAULT 32 16 = 0 → (∀ c, p.evr.cyc = some c → c.at_ ≠ p.ft) → p.evr.inflight.length < 56 → ∃ y, o.evr.inflight = p.evr.inflight ++ [y] ∧ y.fromDie = true ∧ y.code = r.code ∧ y.payload = r.payload))

/-- EVR_CLEAR with the current session's number starts the session after it with RECORDER_START in slot 0, at the OTU
alone; at Priord the other slots keep the bytes of the old session and the journal moves to the other bank; with
another number it changes nothing. BLOT_CURSOR_WRITE takes effect from the next cycle. RL_ENTRY_WRITE of a word that
keeps CODEs apart stores it and fills the entry's bucket; of one that does not, or of a default without a BURST, it
changes nothing. PREV_FRONTIER_SCAN outside LINKS shows the first slot of the other bank that holds no valid record.
DIE_RESET and ALWAYS_ON_POWER_UP leave the die's HBM, and every register but the session and the frontier at its reset
value; the session is the next one, or 1, and RECORDER_START is in slot 0. -/
def Obligations.RecorderRegistersAndResets : Prop :=
  (∀ (s : State) (e : Edge) (i : Instr) (n : Nat), ((i = .dieReset e ∧ n = nextSession [] (OtuR.get s.otu OTU_EVR_SESSION)) ∨ (i = .alwaysOnPowerUp e ∧ n = 1)) → ∃ o x,
    exec i s = .next (s.withOtu o) ∧ o = { hbm := s.otu.hbm, free := s.otu.free, evr := { slots := [(0, x)] }, regs := o.regs } ∧ x.code = 1 ∧ x.seq = 0 ∧ x.valid = n ∧
    OtuR.get o OTU_EVR_SESSION = n % 2 ^ 64 ∧ OtuR.get o OTU_EVR_FRONTIER = 1 ∧ ∀ a, a ≠ OTU_EVR_SESSION → a ≠ OTU_EVR_FRONTIER → OtuR.get o a = (otuReset a).toNat) ∧
  ∀ (s : State) (e : Edge) (g : Otu) (p : Prd), s.otu.invalid = false → g = s.otu.go e → p = s.prd.go e.ft →
    (∀ v, v < 2 ^ 32 → (v ≠ OtuR.get g OTU_EVR_SESSION → exec (.evrClear .otu v e) s = .next (s.withOtu g)) ∧
      (v ≠ PrdR.get p PRD_EVR_SESSION → exec (.evrClear .prd v e) s = .next (s.withPrd p)) ∧
      (v = OtuR.get g OTU_EVR_SESSION → ∃ o x, exec (.evrClear .otu v e) s = .next (s.withOtu o) ∧ o = { g with regs := o.regs, cyc := o.cyc, evr := { g.evr with slots := [(0, x)], full := false, hot := none, was := o.evr.was } } ∧
        x.code = 1 ∧ x.seq = 0 ∧ OtuR.get o OTU_EVR_SESSION = (if 0xFFFFFFFE ≤ v then 1 else v + 1) ∧ OtuR.get o OTU_EVR_FRONTIER = 1 ∧ OtuR.flag o OTU_EVR_EVENTS 3 = true) ∧
      (v = PrdR.get p PRD_EVR_SESSION → ∃ o x, exec (.evrClear .prd v e) s = .next (s.withPrd o) ∧
        o = { p with regs := o.regs, cyc := o.cyc, evr := { p.evr with slots := o.evr.slots, full := false, hot := none, was := o.evr.was }, jnl := o.jnl, jnlBank := 1 - p.jnlBank } ∧
        o.evr.slots.lookup 0 = some x ∧ (∀ i, i ≠ 0 → o.evr.slots.lookup i = p.evr.slots.lookup i) ∧ x.code = 1 ∧ x.seq = 0 ∧ x.valid = PrdR.get o PRD_EVR_SESSION ∧
        PrdR.get o PRD_EVR_FRONTIER = 1 ∧ PrdR.flag o PRD_EVR_EVENTS 3 = true)) ∧
    (∀ v, ∃ o, exec (.blotCursorWrite .otu v e) s = .next (s.withOtu o) ∧ o = { g with regs := o.regs, evr := { g.evr with cursor := o.evr.cursor } } ∧
      OtuR.fld o OTU_BLOT_CURSOR 0 12 = v % 4096 ∧ o.evr.cursor.inForce g.lt = g.evr.cursor.inForce g.lt ∧ o.evr.cursor.inForce (g.lt + 1) = OtuR.get o OTU_BLOT_CURSOR) ∧
    (∀ v, ∃ o, exec (.blotCursorWrite .prd v e) s = .next (s.withPrd o) ∧ o = { p with regs := o.regs, evr := { p.evr with cursor := o.evr.cursor } } ∧
      PrdR.fld o PRD_BLOT_CURSOR 0 18 = v % 2 ^ 18 ∧ o.evr.cursor.inForce p.ft = p.evr.cursor.inForce p.ft) ∧
    (∀ k v, (k < 64 → rlWordOk g.rlEntries k v = true → ∃ o, exec (.rlEntryWrite .otu (some k) v e) s = .next (s.withOtu o) ∧ o = { g with regs := o.regs, evr := g.evr.rlReset k } ∧
        OtuR.fld o (OTU_EVR_RL k) 0 17 = v % 2 ^ 17 ∧ OtuR.fld o (OTU_EVR_RL k) 32 32 = v / 2 ^ 32 % 2 ^ 32 ∧ ∀ a, a ≠ OTU_EVR_RL k → OtuR.get o a = OtuR.get g a) ∧
      ((64 ≤ k ∨ rlWordOk g.rlEntries k v = false) → exec (.rlEntryWrite .otu (some k) v e) s = .next (s.withOtu g)) ∧
      ((256 ≤ k ∨ rlWordOk p.rlEntries k v = false) → exec (.rlEntryWrite .prd (some k) v e) s = .next (s.withPrd p)) ∧
      (v / 2 ^ 48 % 2 ^ 16 = 0 → exec (.rlEntryWrite .otu none v e) s = .next (s.withOtu g) ∧ exec (.rlEntryWrite .prd none v e) s = .next (s.withPrd p))) ∧
    (∀ n, p.phase ≠ 1 → n < 262144 → (∀ i, i < n → ∃ r, p.jnl.lookup (jnlKey (1 - p.jnlBank) i) = some r ∧ r.valid = PrdR.get p PRD_JNL_PREV_SESSION ∧ r.seq = i) →
        (∀ r, p.jnl.lookup (jnlKey (1 - p.jnlBank) n) = some r → r.valid ≠ PrdR.get p PRD_JNL_PREV_SESSION ∨ r.seq ≠ n) →
      exec (.prevFrontierScan e.ft) s = .next (s.withPrd (PrdR.set p PRD_JNL_PREV_FRONTIER n)))

/-- CMP_START and DEC_START of an engine that does not exist change nothing. Of one that runs, or that serves rings,
only the conflict event is set. Otherwise parameters out of range end the job with code 3, a range outside the memory
with code 4, and else the job runs with its counts at 0. CMP_JOB_END of an engine at work whose blocks all fit: the
destination holds the container blocks of the source and no other byte changes, the counts are those of the blocks,
and the job is DONE. CMP_ABORT before the first block of a source that has some: code 2, nothing written; a memory
error at the OTU before a first block that fits: code 13. DEC_JOB_END of a source whose blocks all check: the
destination holds what they decode to. With a block that fails: its code, and what the destination holds past the good
blocks is free (log entry 57 names the free values). DEC_ABORT before the first block: code 2. End and abort of an
engine that does not run change nothing. CMP_ASSIGN sets the assignment. -/
def Obligations.CompressorsAndDecompressorsRunJobs : Prop :=
  ∀ (s : State) (at_ : Part) (k : Nat) (e : Edge) (t0 : State), (at_ = .otu → s.otu.invalid = false) → t0 = s.goTo at_ e →
    (∀ (dec : Bool) (i : Instr), ((dec = false ∧ i = .cmpStart at_ k e) ∨ (dec = true ∧ at_ = .prd ∧ i = .decStart k e.ft)) →
      (engBase at_ dec k = none → exec i s = .next t0) ∧
      (∀ b, engBase at_ dec k = some b → ∃ t, exec i s = .next t ∧ s.engineOnly t at_ e ∧
        ((t0.running at_ b = true ∨ t0.direct at_ dec k = false) → bit (t.rd at_ (b + 0x2C)) 2 = true ∧ ∀ a, a ≠ b + 0x2C → t.rd at_ a = t0.rd at_ a) ∧
        (t0.running at_ b = false → t0.direct at_ dec k = true →
          (t0.paramsOk at_ dec b = false → t.rd at_ (b + 0x28) = 3 + 256 * 3 ∧ t.rd at_ (b + 0x38) = 0) ∧
          (t0.paramsOk at_ dec b = true → (t0.inMem at_ (t0.rd at_ b) (t0.rd at_ (b + 0x8)) = false ∨ t0.inMem at_ (t0.rd at_ (b + 0x10)) (t0.rd at_ (b + 0x18)) = false) →
            t.rd at_ (b + 0x28) = 3 + 256 * 4 ∧ t.rd at_ (b + 0x38) = 0) ∧
          (t0.paramsOk at_ dec b = true → t0.inMem at_ (t0.rd at_ b) (t0.rd at_ (b + 0x8)) = true → t0.inMem at_ (t0.rd at_ (b + 0x10)) (t0.rd at_ (b + 0x18)) = true →
            t.rd at_ (b + 0x28) = 1 ∧ t.rd at_ (b + 0x30) = 0 ∧ t.rd at_ (b + 0x38) = 0)))) ∧
    ((∀ b, engBase at_ false k = some b → t0.running at_ b = false) →
      (∀ n, exec (.cmpAbort at_ k n e) s = .next t0) ∧ ∀ m, exec (.cmpJobEnd at_ k m e) s = .next t0) ∧
    (∀ b v all out, engBase at_ false k = some b → t0.running at_ b = true → v = t0.rd at_ (b + 0x20) →
        all = containerBlocks (getF v 0 2) (getF v 2 3) (1024 * getF v 8 9) (bit v 17) (t0.rd at_ (b + 0x8) + 1) (t0.rd at_ (b + 0x40)) ((t0.mem at_).read (t0.rd at_ b) (t0.rd at_ (b + 0x8))) →
        out = all.flatMap (fun x => x.1) →
      (out.length ≤ t0.rd at_ (b + 0x18) → ∃ t, exec (.cmpJobEnd at_ k none e) s = .next t ∧ s.engineOnly t at_ e ∧ t.rd at_ (b + 0x28) = 2 ∧
        t.rd at_ (b + 0x38) = out.length ∧ t.rd at_ (b + 0x30) = (all.map fun x => x.2.1).sum % 2 ^ 64 ∧ bit (t.rd at_ (b + 0x2C)) 0 = true ∧
        (t.mem at_).read (t0.rd at_ (b + 0x10)) out.length = out ∧
        ∀ a, (a < t0.rd at_ (b + 0x10) ∨ t0.rd at_ (b + 0x10) + out.length ≤ a) → (t.mem at_).byte a = (t0.mem at_).byte a) ∧
      (all ≠ [] → ∃ t, exec (.cmpAbort at_ k 0 e) s = .next t ∧ s.engineOnly t at_ e ∧ t.rd at_ (b + 0x28) = 3 + 256 * 2 ∧ t.rd at_ (b + 0x38) = 0 ∧
        ∀ a, (t.mem at_).byte a = (t0.mem at_).byte a) ∧
      (∀ x r, at_ = .otu → all = x :: r → x.1.length ≤ t0.rd at_ (b + 0x18) → ∃ t, exec (.cmpJobEnd at_ k (some 0) e) s = .next t ∧ t.rd at_ (b + 0x28) = 3 + 256 * 13 ∧ t.rd at_ (b + 0x38) = 0 ∧
        ∀ a, (t.mem at_).byte a = (t0.mem at_).byte a)) ∧
    (at_ = .prd →
      ((∀ b, engBase .prd true k = some b → t0.running .prd b = false) →
        (∀ n, exec (.decAbort k n e.ft) s = .next t0) ∧ ∀ m, exec (.decJobEnd k m e.ft) s = .next t0) ∧
      (∀ b src dst room out used next n c, engBase .prd true k = some b → t0.running .prd b = true → src = t0.prd.hbm.read (t0.rd .prd b) (t0.rd .prd (b + 0x8)) →
          dst = t0.rd .prd (b + 0x10) → room = t0.rd .prd (b + 0x18) →
          decodeBlocks (bit (t0.rd .prd (b + 0x20)) 0) room (min (src.length + 1) (src.length / 32 + 1)) (t0.rd .prd (b + 0x40)) 0 src 0 0 = (out, used, next, n, some c) →
        ∃ t, exec (.decJobEnd k none e.ft) s = .next t ∧ s.engineOnly t .prd e ∧ t.rd .prd (b + 0x38) = out.length % 2 ^ 64 ∧ t.rd .prd (b + 0x40) = next % 2 ^ 64 ∧
          t.prd.hbm.read dst out.length = out ∧ (∀ a, (a < dst ∨ dst + max room out.length ≤ a) → t.prd.hbm.byte a = t0.prd.hbm.byte a) ∧
          (c = 0 → t.rd .prd (b + 0x28) = 2 ∧ ∀ a, dst + out.length ≤ a → t.prd.hbm.byte a = t0.prd.hbm.byte a) ∧
          (c ≠ 0 → c ≠ 2 → n < src.length + 1 → t.rd .prd (b + 0x28) = (3 + 256 * c) % 2 ^ 64 ∧
            ∀ x, x < room - out.length → t.prd.hbm.byte (dst + out.length + x) = Config.undefinedByte t0.prd.free x)) ∧
      (∀ b, engBase .prd true k = some b → t0.running .prd b = true → ∃ t, exec (.decAbort k 0 e.ft) s = .next t ∧ s.engineOnly t .prd e ∧ t.rd .prd (b + 0x28) = 3 + 256 * 2 ∧
        ∀ a, t.prd.hbm.byte a = t0.prd.hbm.byte a)) ∧
    (at_ = .prd → ∀ v, ∃ o, exec (.cmpAssign v e.ft) s = .next (s.withPrd o) ∧ o = { s.prd.go e.ft with regs := o.regs } ∧ PrdR.fld o PRD_CMP_ASSIGN 0 16 = v % 2 ^ 16)

/-- The register commands of a check-value context that does not exist change nothing; while a feed runs in it, each
only sets CONFLICT. Otherwise CV_CTRL_WRITE takes the algorithm and its initial value, CV_VALUE_WRITE the value (32
bits of it for CRC-32C), and CV_DATA64, CV_DATA32 and CV_DATA_TAIL advance the value by 8, 4 or up to 3 bytes, lowest
first. FEED_START of an idle context over a range in the memory runs the feed; over another range it sets its event.
FEED_DONE advances the value by the bytes of the range, says so in FED and its event, and ends the feed; FEED_ABORT
after so many whole beats does so for the bytes fed, and ends a feed whose last beat completes as done. Both change
nothing where no feed runs. -/
def Obligations.CheckValuesAdvance : Prop :=
  ∀ (s : State) (at_ : Part) (c v : Nat) (e : Edge) (t0 : State), (at_ = .otu → s.otu.invalid = false) → t0 = s.goTo at_ e →
    (∀ i, (i = .cvCtrlWrite at_ c v e ∨ i = .cvValueWrite at_ c v e ∨ i = .cvData64 at_ c v e ∨ i = .cvData32 at_ c v e ∨ i = .cvDataTail at_ c v e) →
      (cvBase at_ c = none → exec i s = .next t0) ∧
      (∀ b, cvBase at_ c = some b → ∃ t, exec i s = .next t ∧ s.engineOnly t at_ e ∧
        (bit (t0.rd at_ (b + 0x28)) 0 = true → bit (t.rd at_ (b + 0x2C)) 0 = true ∧ ∀ a, a ≠ b + 0x2C → t.rd at_ a = t0.rd at_ a) ∧
        (bit (t0.rd at_ (b + 0x28)) 0 = false → (∀ a, a ≠ b → a ≠ b + 0x8 → t.rd at_ a = t0.rd at_ a) ∧
          (i = .cvCtrlWrite at_ c v e → t.rd at_ b = v % 2 ∧ t.rd at_ (b + 0x8) = if v % 2 = 0 then 0xFFFFFFFF else 0) ∧
          (i = .cvValueWrite at_ c v e → t.rd at_ b = t0.rd at_ b ∧ t.rd at_ (b + 0x8) = if t0.rd at_ b = 0 then v % 2 ^ 32 else v % 2 ^ 64) ∧
          (i = .cvData64 at_ c v e → t.rd at_ b = t0.rd at_ b ∧
            t.rd at_ (b + 0x8) = (if t0.rd at_ b = 0 then crc32cFeed (t0.rd at_ (b + 0x8)) (le 8 v) else crc64Feed (t0.rd at_ (b + 0x8)) (le 8 v)) % 2 ^ 64) ∧
          (i = .cvData32 at_ c v e → t.rd at_ b = t0.rd at_ b ∧
            t.rd at_ (b + 0x8) = (if t0.rd at_ b = 0 then crc32cFeed (t0.rd at_ (b + 0x8)) (le 4 v) else crc64Feed (t0.rd at_ (b + 0x8)) (le 4 v)) % 2 ^ 64) ∧
          (i = .cvDataTail at_ c v e → t.rd at_ b = t0.rd at_ b ∧
            t.rd at_ (b + 0x8) = (if t0.rd at_ b = 0 then crc32cFeed (t0.rd at_ (b + 0x8)) (le (getF v 24 2) v) else crc64Feed (t0.rd at_ (b + 0x8)) (le (getF v 24 2) v)) % 2 ^ 64)))) ∧
    (cvBase at_ c = none → exec (.feedStart at_ c e) s = .next t0 ∧ exec (.feedDone at_ c e) s = .next t0 ∧ ∀ n, exec (.feedAbort at_ c n e) s = .next t0) ∧
    ((t0.feeds at_).lookup c = none → exec (.feedDone at_ c e) s = .next t0 ∧ ∀ n, exec (.feedAbort at_ c n e) s = .next t0) ∧
    (∀ b, cvBase at_ c = some b →
      (bit (t0.rd at_ (b + 0x28)) 0 = true → exec (.feedStart at_ c e) s = .next t0) ∧
      (bit (t0.rd at_ (b + 0x28)) 0 = false → ∃ t, exec (.feedStart at_ c e) s = .next t ∧ s.engineOnly t at_ e ∧ t.rd at_ (b + 0x8) = t0.rd at_ (b + 0x8) ∧ t.rd at_ (b + 0x40) = 0 ∧
        (t0.inMem at_ (t0.rd at_ (b + 0x30)) (t0.rd at_ (b + 0x38)) = true → t.rd at_ (b + 0x28) = 1 ∧ (t.feeds at_).lookup c = some (t0.rd at_ (b + 0x30), t0.rd at_ (b + 0x38))) ∧
        (t0.inMem at_ (t0.rd at_ (b + 0x30)) (t0.rd at_ (b + 0x38)) = false → bit (t.rd at_ (b + 0x2C)) 3 = true ∧ t.feeds at_ = t0.feeds at_)) ∧
      (∀ src len fed n i, (t0.feeds at_).lookup c = some (src, len) → n = min len ((fed + 63) / 64 * 64) →
          ((i = .feedAbort at_ c fed e) ∨ (i = .feedDone at_ c e ∧ n = len)) → ∃ t, exec i s = .next t ∧ s.engineOnly t at_ e ∧
        t.rd at_ (b + 0x8) = (if t0.rd at_ b = 0 then crc32cFeed (t0.rd at_ (b + 0x8)) ((t0.mem at_).read src n) else crc64Feed (t0.rd at_ (b + 0x8)) ((t0.mem at_).read src n)) % 2 ^ 64 ∧
        t.rd at_ (b + 0x28) = 0 ∧ t.rd at_ (b + 0x40) = n % 2 ^ 64 ∧ (t.feeds at_).lookup c = none ∧ t.mem at_ = t0.mem at_ ∧
        bit (t.rd at_ (b + 0x2C)) (if n = len then 1 else 2) = true))

/-- A chip without power or in reset leaves any request alone. While a command holds the engine, and before RUNNING
but for GET_INFO and GET_STATUS, a request is answered BUSY with the command that holds it, and so is an MCTP request
in the cycle in which the engine has taken a mailbox one. A request with the CMD and SEQ of the last one completed
gets the same response again. Otherwise a command that needs every job context closed is CTX_OPEN while one is open,
and one whose parameters are out of range is INVALID. To complete is to give the response of R392 over the request's
path and to keep it; the mailbox also shows STATUS done and its event. GET_INFO, GET_STATUS and GET_TIME change
nothing besides, nor does STAGE_READ, which gives the bytes staged; STAGE_WRITE puts its bytes into the staging area;
TIME_RESET takes fleet time to PROVISIONAL. The PLDM commands answer with their code: not ready while the engine is
occupied, a sensor's reading, a transfer's bytes staged. -/
def Obligations.ManagementRequestsAreAnswered : Prop :=
  ∀ (s : State) (m : MgmtPath) (seq off len lvl t : Nat) (bytes : List Byte) (p : Prd), p = s.prd.go t → seq < 2 ^ 16 →
    (∀ cmd cc b, ∃ o, p.complete m cmd seq cc b = o ∧ o = { p with regs := o.regs, cyc := o.cyc, mgmt := { p.mgmt with last := some (cmd, seq, cc, b), rsp := o.mgmt.rsp, mctp := o.mgmt.mctp } } ∧
      (m = .mailbox → o.mgmt.rsp = le 1 cmd ++ le 1 cc ++ le 2 seq ++ le 4 b.length ++ le 2 0 ++ le 1 0 ++ zeros 5 ++ b ∧ o.mgmt.mctp = p.mgmt.mctp ∧
        PrdR.fld o PRD_MBX_STATUS 0 2 = 2 ∧ PrdR.flag o PRD_MBX_EVENTS 0 = true ∧ ∀ a, a ≠ PRD_MBX_STATUS → a ≠ PRD_MBX_EVENTS → PrdR.get o a = PrdR.get p a) ∧
      (m = .mctp → o.mgmt.mctp = le 1 cmd ++ le 1 cc ++ le 2 seq ++ le 4 b.length ++ le 2 0 ++ le 1 0 ++ zeros 5 ++ b ∧ o.mgmt.rsp = p.mgmt.rsp ∧ o.regs = p.regs)) ∧
    (∀ x : Instr × Nat × Bool × Bool, x ∈ [(.getInfo m seq t, 0x01, false, true), (.getStatus m seq t, 0x02, false, true), (.getTime m seq t, 0x03, false, true),
          (.stageWrite m seq off bytes t, 0x04, false, decide (1 ≤ bytes.length ∧ bytes.length ≤ 4096 ∧ off + bytes.length ≤ 67108864)),
          (.stageRead m seq off len t, 0x05, false, decide (1 ≤ len ∧ len ≤ 4096 ∧ off + len ≤ 67108864)), (.flashUpdate m seq len t, 0x10, false, decide (len ≤ 50331648)),
          (.reconfigure m seq t, 0x11, true, true), (.selfTest m seq lvl t, 0x12, true, decide (lvl ≤ 2)), (.journalDump m seq t, 0x13, false, true), (.timeReset m seq t, 0x14, true, true)] →
      (p.alive = false → exec x.1 s = .next (s.withPrd p)) ∧
      (∀ b, p.alive = true → ((p.phase ≠ 4 ∧ 3 ≤ x.2.1 ∧ b = 0x11) ∨ (p.phase = 4 ∧ ∃ r, p.mgmt.run = some r ∧ r.cmd = b) ∨ (p.phase = 4 ∧ p.mgmt.run = none ∧ m = .mctp ∧ p.mgmt.taken = some (p.ft, b))) → ∃ o, exec x.1 s = .next (s.withPrd o) ∧
        o = { p with regs := o.regs, cyc := o.cyc, free := p.free + 1, mgmt := { p.mgmt with rsp := o.mgmt.rsp, mctp := o.mgmt.mctp } } ∧ ∃ y, y ≤ 1000 ∧
        (m = .mailbox → o.mgmt.rsp = le 1 x.2.1 ++ le 1 1 ++ le 2 seq ++ le 4 0 ++ le 2 y ++ le 1 b ++ zeros 5 ∧ PrdR.flag o PRD_MBX_EVENTS 1 = true) ∧
        (m = .mctp → o.mgmt.mctp = le 1 x.2.1 ++ le 1 1 ++ le 2 seq ++ le 4 0 ++ le 2 y ++ le 1 b ++ zeros 5 ∧ o.regs = p.regs)) ∧
      (p.alive = true → p.phase = 4 → p.mgmt.run = none → (m = .mctp → ∀ y, p.mgmt.taken = some y → y.1 ≠ p.ft) → 
        (∀ cc b, p.mgmt.last = some (x.2.1, seq, cc, b) → exec x.1 s = .next (s.withPrd (p.complete m x.2.1 seq cc b))) ∧
        ((∀ cc b, p.mgmt.last ≠ some (x.2.1, seq, cc, b)) →
          (x.2.2.1 = true → p.jobOpen = true → exec x.1 s = .next (s.withPrd ((p.mgmtTakes m x.2.1).complete m x.2.1 seq 3 []))) ∧
          ((x.2.2.1 = false ∨ p.jobOpen = false) → x.2.2.2 = false → exec x.1 s = .next (s.withPrd ((p.mgmtTakes m x.2.1).complete m x.2.1 seq 2 [])))))) ∧
    (p.alive = true → p.phase = 4 → p.mgmt.run = none → (m = .mctp → ∀ y, p.mgmt.taken = some y → y.1 ≠ p.ft) → (∀ cmd cc b, p.mgmt.last ≠ some (cmd, seq, cc, b)) →
      exec (.getInfo m seq t) s = .next (s.withPrd ((p.mgmtTakes m 0x01).complete m 0x01 seq 0 (le 2 0x0100 ++ le 2 p.tray ++ le 4 p.roleBits ++ le 1 (if p.safe then 1 else 0) ++ zeros 1 ++
        le 2 (PrdR.fld p PRD_BOOT_STATUS 16 16) ++ zeros 4 ++ le 8 (PrdR.get p PRD_BOOT_IMAGE_ID) ++ le 8 (PrdR.get p PRD_BOOT_IMAGE_SHA)))) ∧
      (∀ c q cc b, p.mgmt.last = some (c, q, cc, b) → exec (.getStatus m seq t) s = .next (s.withPrd ((p.mgmtTakes m 0x02).complete m 0x02 seq 0 (le 1 c ++ le 1 cc ++ le 2 q)))) ∧
      (p.mgmt.last = none → exec (.getStatus m seq t) s = .next (s.withPrd ((p.mgmtTakes m 0x02).complete m 0x02 seq 0 (zeros 4)))) ∧
      exec (.getTime m seq t) s = .next (s.withPrd ((p.mgmtTakes m 0x03).complete m 0x03 seq 0 (le 4 p.timeStatus ++ le 4 p.clk.err ++ le 8 (PrdR.get p PRD_TIME_GM_ID)))) ∧
      (1 ≤ bytes.length → bytes.length ≤ 4096 → off + bytes.length ≤ 67108864 → exec (.stageWrite m seq off bytes t) s =
        .next (s.withPrd ({ p.mgmtTakes m 0x04 with hbm := p.hbm.write (PrdR.get p PRD_MBX_STAGE_BASE + off) bytes }.complete m 0x04 seq 0 []))) ∧
      (1 ≤ len → len ≤ 4096 → off + len ≤ 67108864 → exec (.stageRead m seq off len t) s =
        .next (s.withPrd ((p.mgmtTakes m 0x05).complete m 0x05 seq 0 (p.hbm.read (PrdR.get p PRD_MBX_STAGE_BASE + off) len)))) ∧
      (p.jobOpen = false → ∃ o : Prd, exec (.timeReset m seq t) s = .next (s.withPrd (o.complete m 0x14 seq 0 [])) ∧
        o = { p with clk := o.clk, ul := o.ul, stepPending := false, ptpRestart := false, regs := o.regs, cyc := o.cyc, evr := o.evr, mgmt := (p.mgmtTakes m 0x14).mgmt } ∧ o.clk.st = 0)) ∧
    (p.alive = false → ∀ i, i ∈ [Instr.pldmBase lvl t, .pldmPlatform lvl t, .pldmFwUpdate off bytes true len t, .pldmFwUpdate off bytes false len t] → exec i s = .next (s.withPrd p)) ∧
    (p.alive = true → (p.phase ≠ 4 ∨ p.mgmt.run ≠ none ∨ ∃ c, p.mgmt.taken = some (p.ft, c)) → ∀ i, i ∈ [Instr.pldmBase lvl t, .pldmPlatform lvl t, .pldmFwUpdate off bytes true len t, .pldmFwUpdate off bytes false len t] →
      exec i s = .next (s.withPrd { p with mgmt := { p.mgmt with pldm := [4] } })) ∧
    (p.alive = true → p.phase = 4 → p.mgmt.run = none → (∀ y, p.mgmt.taken = some y → y.1 ≠ p.ft) →
      (∃ b, exec (.pldmBase lvl t) s = .next (s.withPrd { p with mgmt := { p.mgmt with pldm := 0 :: b } })) ∧
      exec (.pldmPlatform 3 t) s = .next (s.withPrd { p with mgmt := { p.mgmt with pldm := 0 :: le 4 p.clk.grade } }) ∧
      exec (.pldmPlatform 0 t) s = .next (s.withPrd { p with mgmt := { p.mgmt with pldm := 0 :: le 4 (PrdR.get p PRD_THERM_HOTSPOT) } }) ∧
      exec (.pldmPlatform 1 t) s = .next (s.withPrd { p with mgmt := { p.mgmt with pldm := 0 :: le 4 (p.measured PRD_PWR_INPUT) } }) ∧
      exec (.pldmPlatform 2 t) s = .next (s.withPrd { p with mgmt := { p.mgmt with pldm := 0 :: le 4 (p.measured PRD_PWR_VIN) } }) ∧
      (off + bytes.length ≤ 67108864 → exec (.pldmFwUpdate off bytes false len t) s =
        .next (s.withPrd { p with hbm := p.hbm.write (PrdR.get p PRD_MBX_STAGE_BASE + off) bytes, mgmt := { p.mgmt with pldm := [0] } })) ∧
      (off + bytes.length ≤ 67108864 → len ≤ 50331648 → ∃ o, exec (.pldmFwUpdate off bytes true len t) s = .next (s.withPrd o) ∧
        o = { p with regs := o.regs, hbm := p.hbm.write (PrdR.get p PRD_MBX_STAGE_BASE + off) bytes, mgmt := { p.mgmt with pldm := [0], run := some { cmd := 0x10, seq := 0, path := .mctp, arg := len, pldm := true } } } ∧
        PrdR.fld o PRD_MBX_STATUS 8 8 = 0x10))

/-- A long command that is admitted holds the engine: PRD_MBX_STATUS shows it occupied by the command's code, pending
over the mailbox; RECONFIGURE begins PHASE IMAGE. Nothing else changes, but that SELF_TEST of level 2 takes the ports
down. LONG_COMMAND_DONE with no command holding the engine changes nothing. Otherwise the engine is free: FLASH_UPDATE
has written the staged image over the NOR and completes with OK or BAD_IMAGE, as the image's checks say; JOURNAL_DUMP
has put both banks into the staging area and completes with both sessions and frontiers; SELF_TEST of level 1 or more
has measured the hold-up bank, and completes with its result; RECONFIGURE is in PHASE LINKS with RECONFIGURED set, and
completes with OK. A firmware update over PLDM answers PLDM alone. -/
def Obligations.LongCommandsHoldTheEngine : Prop :=
  ∀ (s : State) (m : MgmtPath) (seq len t : Nat) (p : Prd), p = s.prd.go t → seq < 2 ^ 16 →
    (p.alive = true → p.phase = 4 → p.mgmt.run = none → (m = .mctp → ∀ y, p.mgmt.taken = some y → y.1 ≠ p.ft) → (∀ cmd cc b, p.mgmt.last ≠ some (cmd, seq, cc, b)) →
      (∀ x : Instr × MgmtCmd, x ∈ [(.flashUpdate m seq len t, { cmd := 0x10, seq, path := m, arg := len }), (.journalDump m seq t, { cmd := 0x13, seq, path := m }),
            (.reconfigure m seq t, { cmd := 0x11, seq, path := m }), (.selfTest m seq 1 t, { cmd := 0x12, seq, path := m, arg := 1 }), (.selfTest m seq 0 t, { cmd := 0x12, seq, path := m, arg := 0 })] →
          len ≤ 50331648 → p.jobOpen = false → ∃ o, exec x.1 s = .next (s.withPrd o) ∧
        o = { p with regs := o.regs, mgmt := { (p.mgmtTakes m x.2.cmd).mgmt with run := some x.2 } } ∧ PrdR.flag o PRD_MBX_STATUS 2 = true ∧ PrdR.fld o PRD_MBX_STATUS 8 8 = x.2.cmd ∧
        (m = .mailbox → PrdR.fld o PRD_MBX_STATUS 0 2 = 1) ∧ (x.2.cmd = 0x11 → PrdR.fld o PRD_BOOT_STATUS 0 3 = 0) ∧ (∀ a, a ≠ PRD_MBX_STATUS → a ≠ PRD_BOOT_STATUS → PrdR.get o a = PrdR.get p a)) ∧
      (p.jobOpen = false → ∃ o, exec (.selfTest m seq 2 t) s = .next (s.withPrd o) ∧ o.mgmt.run = some { cmd := 0x12, seq, path := m, arg := 2 } ∧ ∀ n, n < 32 → (o.port n).link.st = 0)) ∧
    (∀ x, p.mgmt.run = none → exec (.longCommandDone x t) s = .next (s.withPrd p)) ∧
    (∀ x r, p.mgmt.run = some r → ∃ o, exec (.longCommandDone x t) s = .next (s.withPrd o) ∧ o.mgmt.run = none ∧
      PrdR.flag o PRD_MBX_STATUS 2 = false ∧ PrdR.fld o PRD_MBX_STATUS 8 8 = 0 ∧
      (r.pldm = false → ∃ cc b, o.mgmt.last = some (r.cmd, r.seq, cc, b) ∧ o.mgmt.pldm = p.mgmt.pldm ∧
        (r.cmd = 0x10 → o = { p with regs := o.regs, cyc := o.cyc, pw := { p.pw with nor := p.hbm.read (PrdR.get p PRD_MBX_STAGE_BASE) r.arg ++ p.pw.nor.drop r.arg }, mgmt := o.mgmt } ∧ b = [] ∧
          cc = (if cfgCheck o.pw.nor p.tray x.flashOk x.sigOk = 0 then 0 else 4)) ∧
        (r.cmd = 0x13 → o = { p with regs := o.regs, cyc := o.cyc, hbm := p.dumpJournal.hbm, mgmt := o.mgmt } ∧ cc = 0 ∧ b = le 4 (PrdR.get p PRD_EVR_SESSION) ++ le 4 (PrdR.get p PRD_EVR_FRONTIER) ++
          le 4 (PrdR.get p PRD_JNL_PREV_SESSION) ++ le 4 (PrdR.get p PRD_JNL_PREV_FRONTIER)) ∧
        (r.cmd = 0x12 → o = { p with regs := o.regs, cyc := o.cyc, mgmt := o.mgmt } ∧ cc = 0 ∧ b = x.test.bytes r.arg ∧
          (1 ≤ r.arg → PrdR.get o PRD_PWR_HOLDUP = min 65535 x.test.bank ∧ PrdR.flag o PRD_PWR_STATUS 11 = decide (3530 ≤ x.test.bank))) ∧
        (r.cmd = 0x11 → cc = 0 ∧ b = [] ∧ PrdR.fld o PRD_BOOT_STATUS 0 3 = 1 ∧ PrdR.flag o PRD_BOOT_EVENTS 2 = true)) ∧
      (r.pldm = true → r.cmd = 0x10 → o.mgmt.last = p.mgmt.last ∧ o.mgmt.rsp = p.mgmt.rsp ∧ o.pw.nor = p.hbm.read (PrdR.get p PRD_MBX_STAGE_BASE) r.arg ++ p.pw.nor.drop r.arg ∧
        o.mgmt.pldm = le 1 (if cfgCheck o.pw.nor p.tray x.flashOk x.sigOk = 0 then 0 else 1)))

/-- RING_SEL stages the selected ring's configuration from the next cycle on. RING_COMMIT without its bit leaves the
registers as they are staged; of a configuration that R361, R362 or R400 forbids it sets COMMIT_REFUSED alone; one
that enables a disabled ring makes it ACTIVE with its four counts at 0. TAIL_WRITE sets TAIL; more than the ring's
entries ahead of DESC_HEAD it sets the ring's OVERRUN and its state ERROR. CMPL_HEAD_WRITE sets CMPL_HEAD and, in the
subscriptions of the ring, frees the bytes of deliveries passed. DESC_FETCH with no ring to serve changes nothing;
with no slot free it sets SLOTS_FULL; where the read fails the ring enters ERROR with FETCH_ERR; otherwise DESC_HEAD
is one further and the operation is in flight, already finished with TAG_BUSY where its TAG is in flight on the ring,
or with BAD_OPCODE where the ring's type does not serve its opcode. -/
def Obligations.RingsAreConfiguredAndRung : Prop :=
  ∀ (s : State) (t v : Nat) (p : Prd), p = s.prd.go t → v < 2 ^ 32 →
    (∀ k d, k < 65536 → d = p.staged → ∃ o, exec (.ringSel k t) s = .next (s.withPrd o) ∧ o = { d with regs := o.regs, rings := { d.rings with selAt := some p.ft } } ∧
      PrdR.get o PRD_RING_SEL = k ∧ (∀ a, a ≠ PRD_RING_SEL → PrdR.get o a = PrdR.get d a) ∧ o.staged = o ∧
      ∀ u z, p.ft < u → z = ({ o with clk := { o.clk with ft := u } } : Prd).staged →
        PrdR.get z PRD_RING_STAGE_CFG = (p.ring k).cfg % 2 ^ 64 ∧ PrdR.get z PRD_RING_STAGE_LIMITS = (p.ring k).limits % 2 ^ 64 ∧
        PrdR.get z PRD_RING_STAGE_DESC_BASE = (p.ring k).descBase % 2 ^ 64 ∧ PrdR.get z PRD_RING_STAGE_CMPL_BASE = (p.ring k).cmplBase % 2 ^ 64 ∧
        ∀ a, a ∉ [PRD_RING_STAGE_CFG, PRD_RING_STAGE_LIMITS, PRD_RING_STAGE_DESC_BASE, PRD_RING_STAGE_CMPL_BASE] → PrdR.get z a = PrdR.get o a) ∧
    (v % 2 = 0 → exec (.ringCommit v t) s = .next (s.withPrd p.staged)) ∧
    (∀ d k c, d = p.staged → v % 2 = 1 → PrdR.get d PRD_RING_SEL = k → k < 65536 → c = { d.ring k with cfg := PrdR.get d PRD_RING_STAGE_CFG, limits := PrdR.get d PRD_RING_STAGE_LIMITS, descBase := PrdR.get d PRD_RING_STAGE_DESC_BASE, cmplBase := PrdR.get d PRD_RING_STAGE_CMPL_BASE } →
      ((4 < c.type ∨ 2 < c.origin ∨ getF c.cfg 5 5 < 6 ∨ 16 < getF c.cfg 5 5 ∨ 32 < c.slot ∨ c.descBase % 64 ≠ 0 ∨ c.cmplBase % 32 ≠ 0 ∨
          (256 ≤ k ∧ (c.slot = 0 ∨ c.type = 3 ∨ c.type = 4 ∨ p.safe = true))) → ∃ o, exec (.ringCommit v t) s = .next (s.withPrd o) ∧
        o = { d with regs := o.regs, cyc := o.cyc } ∧ PrdR.flag o PRD_RING_EVENTS 0 = true ∧ ∀ a, a ≠ PRD_RING_EVENTS → PrdR.get o a = PrdR.get d a) ∧
      (d.commitOk k c = true → c.enabled = true → (d.ring k).enabled = false → d.ringState k ≠ 2 → ∃ o, exec (.ringCommit v t) s = .next (s.withPrd o) ∧
        o = { d with regs := o.regs, rings := { d.rings with cfg := o.rings.cfg, moved := o.rings.moved } } ∧ o.ring k = { c with autoFrom := p.ft, autoAt := p.ft } ∧
        (∀ j, j ≠ k → o.ring j = d.ring j) ∧ o.ringState k = 1 ∧ o.ringMoved k = p.ft ∧ PrdR.get o (PRD_RING_TAIL k) = 0 ∧ PrdR.get o (PRD_RING_DESC_HEAD k) = 0 ∧
        PrdR.get o (PRD_RING_CMPL_TAIL k) = 0 ∧ PrdR.get o (PRD_RING_CMPL_HEAD k) = 0) ∧
      (d.commitOk k c = true → c.enabled = false → (d.ring k).enabled = true → (∀ q, q ∈ d.rings.ops → q.ring ≠ k) → ∃ o,
        exec (.ringCommit v t) s = .next (s.withPrd o) ∧ o = { d with regs := o.regs, rings := { d.rings with cfg := o.rings.cfg, moved := o.rings.moved } } ∧ o.ring k = c ∧ o.ringState k = 0)) ∧
    (∀ k, k < 65536 →
      ((p.ringState k ≠ 1 ∨ sub32 v (PrdR.get p (PRD_RING_DESC_HEAD k)) ≤ (p.ring k).size) → ∃ o, exec (.tailWrite k v t) s = .next (s.withPrd o) ∧
        o = { p with regs := o.regs } ∧ PrdR.get o (PRD_RING_TAIL k) = v ∧ ∀ a, a ≠ PRD_RING_TAIL k → PrdR.get o a = PrdR.get p a) ∧
      (p.ringState k = 1 → (p.ring k).size < sub32 v (PrdR.get p (PRD_RING_DESC_HEAD k)) → p.openChain k = 0 → ∃ o, exec (.tailWrite k v t) s = .next (s.withPrd o) ∧
        o = { p with regs := o.regs, cyc := o.cyc, rings := { p.rings with moved := o.rings.moved } } ∧ PrdR.get o (PRD_RING_TAIL k) = v ∧ o.ringState k = 3 ∧ PrdR.flag o (PRD_RING_K_EVENTS k) 0 = true) ∧
      (∃ o, exec (.cmplHeadWrite k v t) s = .next (s.withPrd o) ∧ o = { p with regs := o.regs, rings := { p.rings with ops := o.rings.ops } } ∧
        PrdR.get o (PRD_RING_CMPL_HEAD k) = v ∧ (∀ a, a ≠ PRD_RING_CMPL_HEAD k → PrdR.get o a = PrdR.get p a) ∧
        (∀ (i : Nat) (q : Op), p.rings.ops[i]? = some q → (q.ring ≠ k ∨ ∀ x, q.wait ≠ .sub x) → o.rings.ops[i]? = some q) ∧
        ∀ (i : Nat) (q : Op) x, p.rings.ops[i]? = some q → q.ring = k → q.wait = .sub x →
          o.rings.ops[i]? = some { q with wait := .sub { x with live := x.live.filter fun y => decide (sub32 y.1 v < 2 ^ 31) } })) ∧
    (∀ host, p.nextRing = none → exec (.descFetch host t) s = .next (s.withPrd p)) ∧
    (∀ host k, p.nextRing = some k →
      (p.slotFree k = false → ∃ o, exec (.descFetch host t) s = .next (s.withPrd o) ∧ o = { p with regs := o.regs, cyc := o.cyc } ∧ PrdR.flag o PRD_RING_EVENTS 1 = true) ∧
      (p.slotFree k = true → (p.ring k).origin = 0 → host = none → p.openChain k = 0 → ∃ o, exec (.descFetch host t) s = .next (s.withPrd o) ∧
        o = { p with regs := o.regs, cyc := o.cyc, rings := { p.rings with moved := o.rings.moved } } ∧ o.ringState k = 3 ∧ PrdR.flag o (PRD_RING_K_EVENTS k) 4 = true) ∧
      (∀ d h, p.slotFree k = true → p.readDesc k host = some d → p.openChain k = 0 → bit (dFlags d) 0 = false → h = PrdR.get p (PRD_RING_DESC_HEAD k) →
          (∀ q, q ∈ p.rings.ops → q.ring = k → q.idx ≠ h) → ∃ o y, exec (.descFetch host t) s = .next (s.withPrd o) ∧
        o = { p with regs := o.regs, rings := { p.rings with ops := p.rings.ops ++ [y], rrPriv := o.rings.rrPriv, rrTen := o.rings.rrTen, fins := o.rings.fins } } ∧
        PrdR.get o (PRD_RING_DESC_HEAD k) = (h + 1) % 2 ^ 32 ∧ (∀ a, a ≠ PRD_RING_DESC_HEAD k → PrdR.get o a = PrdR.get p a) ∧
        y.ring = k ∧ y.idx = h ∧ y.desc = d ∧ y.chain = 0 ∧ y.last = true ∧ y.acc = none ∧
        y.wait = (if p.rings.ops.any (fun q => q.ring == k && dTag q.desc == dTag d) then .done { status := 0x07 }
          else if opcodeOk (p.ring k).type (dOpc d) then .fetched else .done { status := 0x04 })))

/-- An operation whose descriptor is not in flight with its TAG and opcode, or whose turn has not come, changes
nothing; with RECONFIGURE or SELF_TEST running it finishes with BUSY. To finish is to hold the completion, in the
order of finishing. A query of READ_ITEM, READ_SUMMARY, REDUCE or READ_COUNTERS outside a SAME_ACCORD chain: what its
selector breaks is its status; with WAIT and an accord to come it waits; a selector with no accord gives its status
and ACCORD_NO; one accord whose block fits the buffer is written there, of a PCIE ring to host memory, and the
completion says OK, one answer, its ACCORD_NO, state, level and bytes; an uncorrected error is UNCORRECTABLE, and is
reported as a memory error of Priord's own. READ_RECORDS writes the records that its selector answers, a tenant's out
of flacons of its own job alone, whole, as many as fit, and says TRUNCATED, with the number left over, where some do
not. -/
def Obligations.OperationsTakeTheirTurn : Prop :=
  ∀ (s : State) (k tag t : Nat) (err : Bool) (l : List CfgEntry) (j : Nat) (m : StartMsg) (p : Prd), p = s.prd.go t →
    (∀ q c a b, p.rings.ops = a ++ q :: b → (∀ y, y ∈ a → ¬(y.ring = q.ring ∧ y.idx = q.idx)) →
      p.finish q.ring q.idx c = { p with rings := { p.rings with fins := p.rings.fins + 1, ops := a ++ { q with wait := .done c, fin := p.rings.fins + 1 } :: b } }) ∧
    (∀ x, x ∈ [(Instr.readItem k tag err t, 0x01), (.readSummary k tag err t, 0x02), (.reduce k tag err t, 0x03), (.readCounters k tag err t, 0x04),
          (.readRecords k tag err t, 0x05), (.subAccord k tag t, 0x11), (.subRecords k tag t, 0x12), (.cancel k tag t, 0x1F), (.trigger k tag t, 0x21),
          (.release k tag t, 0x22), (.controlConfig k tag l t, 0x23), (.startJob k tag j m t, 0x24), (.exportHeart k tag t, 0x31), (.exportFlacon k tag t, 0x32)] →
        (∀ q, q ∈ p.rings.ops → q.wait ≠ .accord) →
      (p.opOf k tag (· == x.2) = none → exec x.1 s = .next (s.withPrd p)) ∧
      (∀ q, p.opOf k tag (· == x.2) = some q → p.canStart q = false → exec x.1 s = .next (s.withPrd p)) ∧
      (∀ q, p.opOf k tag (· == x.2) = some q → p.canStart q = true → p.ringsBusy = true → exec x.1 s = .next (s.withPrd (p.finish k q.idx { status := 0x0A })))) ∧
    (∀ x q, x ∈ [(Instr.readItem k tag err t, 0x01), (.readSummary k tag err t, 0x02), (.reduce k tag err t, 0x03), (.readCounters k tag err t, 0x04)] →
        (∀ y, y ∈ p.rings.ops → y.wait ≠ .accord) → p.starts k tag x.2 q →
      (∀ st, p.selectorStop q x.2 = some st → exec x.1 s = .next (s.withPrd (p.finish k q.idx { status := st }))) ∧
      (p.selectorStop q x.2 = none → p.rangeOk (b2n (bit (dQf q.desc) 2)) (dFirst q.desc) (dLast q.desc) = false →
        exec x.1 s = .next (s.withPrd (p.finish k q.idx { status := 0x05 }))) ∧
      (∀ r code, p.selectorStop q x.2 = none → p.rangeOk (b2n (bit (dQf q.desc) 2)) (dFirst q.desc) (dLast q.desc) = true → code = p.levelCode (dJob q.desc) (dLevel q.desc) →
          r = p.resolve (dJob q.desc) (b2n (bit (dQf q.desc) 2)) code (dFirst q.desc) (dLast q.desc) (bit (dQf q.desc) 1) →
        (r = .wait → exec x.1 s = .next (s.withPrd (p.setOp k q.idx fun y => { y with wait := .accord }))) ∧
        (∀ st no, r = .stop st no → exec x.1 s = .next (s.withPrd (p.finish k q.idx { status := st, accNo := no }))) ∧
        (∀ a b, r = .accords [a] → (x.2 = 1 → dRcls q.desc < a.items.length) → b = p.answerBlock k x.2 code q.desc a →
          (err = true → exec x.1 s = .next (s.withPrd (p.memError.finish k q.idx { status := 0x0D }))) ∧
          (err = false → b.length ≤ dLen q.desc → (p.ring k).origin = 0 → ∃ o, exec x.1 s = .next (s.withPrd o) ∧
            o = { p with rings := { p.rings with host := p.rings.host.write (dBuf q.desc) b, fins := p.rings.fins + 1, ops := o.rings.ops } } ∧
            ∃ y, y ∈ o.rings.ops ∧ y.ring = k ∧ y.idx = q.idx ∧ y.acc = some a.no ∧ y.wait = .done { status := 0, nAnswers := 1, accNo := a.no, bytes := b.length, cstate := (if code = 0 then a.local_.state else a.sum.state) % 16 + 16 * code })))) ∧
    (∀ q, p.starts k tag 0x05 q →
      (∀ st, p.recordStop q = some st → exec (.readRecords k tag err t) s = .next (s.withPrd (p.finish k q.idx { status := st }))) ∧
      (p.recordStop q = none → err = true → exec (.readRecords k tag err t) s = .next (s.withPrd (p.memError.finish k q.idx { status := 0x0D }))) ∧
      (∀ all got, p.recordStop q = none → err = false → (p.ring k).origin = 0 → all = ((p.notesOf fun f => privRing k || (f.scope == 2 && f.tag == dJob q.desc)).filter fun r => r.answers k q.desc).map (p.recordBytes k) →
          got = wholeBlocks (dLen q.desc) all → ∃ o, exec (.readRecords k tag err t) s = .next (s.withPrd o) ∧
        o = { p with rings := { p.rings with host := p.rings.host.write (dBuf q.desc) got.flatten, fins := p.rings.fins + 1, ops := o.rings.ops } } ∧
        ∃ y, y ∈ o.rings.ops ∧ y.ring = k ∧ y.idx = q.idx ∧ y.wait = .done { status := if got.length < all.length then 0x01 else 0x00, nAnswers := got.length, info := all.length - got.length, bytes := got.flatten.length }))

/-- SUB_RECORDS and SUB_ACCORD with a legal selector run, with nothing due; with an illegal one they finish with its
status. CANCEL of a subscription of its ring finishes it with ENDED and itself with OK; of none, with BAD_SELECTOR.
CMPL_WRITE with no request open at the root: with nothing in flight on its ring it changes nothing; a ring's one
finished operation, of a PCIE ring whose completion ring has a slot, has its 32 bytes written at its slot, leaves,
moves CMPL_TAIL by one and, with SIGNAL, signals its vector, or sets the pending bit of a masked one; with no slot it
sets CMPL_FULL and waits. A subscription with an item due and room for it gets the bytes at its offset and a
completion with MORE, BYTES and the offset; with no room, or an accord held no more, the delivery is dropped and
counted, with DROPPED set; one whose accord is not yet visible waits. -/
def Obligations.SubscriptionsDeliverAndCompletionsAreWritten : Prop :=
  ∀ (s : State) (k tag t : Nat) (p : Prd), p = s.prd.go t →
    (∀ q, p.starts k tag 0x12 q →
      (p.recordStop q = none → exec (.subRecords k tag t) s = .next (s.withPrd (p.setOp k q.idx fun y => { y with wait := .sub {} }))) ∧
      (∀ st, p.recordStop q = some st → exec (.subRecords k tag t) s = .next (s.withPrd (p.finish k q.idx { status := st })))) ∧
    (∀ q, p.starts k tag 0x11 q →
      (∀ opc, opc = fieldAt q.desc 8 1 → 1 ≤ opc → opc ≤ 3 → fieldAt q.desc 9 15 = 0 → p.selectorStop q opc = none →
          (opc = 1 → p.indexOk (dJob q.desc) (dRcls q.desc) [] = true) →
        exec (.subAccord k tag t) s = .next (s.withPrd (p.setOp k q.idx fun y => { y with wait := .sub {} }))) ∧
      (p.ctxStop q = none → (fieldAt q.desc 8 1 = 0 ∨ 3 < fieldAt q.desc 8 1 ∨ fieldAt q.desc 9 15 ≠ 0) →
        exec (.subAccord k tag t) s = .next (s.withPrd (p.finish k q.idx { status := 0x05 }))) ∧
      (∀ st, p.ctxStop q = some st → exec (.subAccord k tag t) s = .next (s.withPrd (p.finish k q.idx { status := st })))) ∧
    (∀ q, p.starts k tag 0x1F q → p.ctxStop q = none →
      (∀ y x, p.rings.ops.find? (fun z => z.ring == k && dTag z.desc == dKey q.desc % 65536 && (match z.wait with | .sub _ => true | _ => false)) = some y → y.wait = .sub x →
        exec (.cancel k tag t) s = .next (s.withPrd ((p.finish k y.idx { status := 0x0E }).finish k q.idx {}))) ∧
      ((∀ y x, y ∈ p.rings.ops → y.ring = k → y.wait ≠ .sub x) → exec (.cancel k tag t) s = .next (s.withPrd (p.finish k q.idx { status := 0x05 })))) ∧
    (p.tree.reqs = [] → p.tree.switches = [] →
      ((∀ q, q ∈ p.rings.ops → q.ring ≠ k) → exec (.cmplWrite k t) s = .next (s.withPrd p)) ∧
      (∀ q c n, p.rings.ops.filter (·.ring == k) = [q] → q.wait = .done c → q.chain = 0 → c.cflags = 0 → n = PrdR.get p (PRD_RING_CMPL_TAIL k) →
        (p.cmplFree k = false → ∃ o, exec (.cmplWrite k t) s = .next (s.withPrd o) ∧ o = { p with regs := o.regs, cyc := o.cyc } ∧ PrdR.flag o (PRD_RING_K_EVENTS k) 2 = true ∧
          ∀ a, a ≠ PRD_RING_K_EVENTS k → PrdR.get o a = PrdR.get p a) ∧
        (p.cmplFree k = true → (p.ring k).origin = 0 → p.ringState k ≠ 2 → ∀ v, v = getF (p.ring k).limits 16 11 → ∃ o b, exec (.cmplWrite k t) s = .next (s.withPrd o) ∧
          b = le 2 (dTag q.desc) ++ le 1 c.status ++ le 1 c.cstate ++ le 2 (dJob q.desc) ++ le 2 c.nAnswers ++ le 8 c.accNo ++ le 4 c.bytes ++ le 4 c.info ++ le 4 q.idx ++
            le 2 (if n / (p.ring k).size % 2 = 0 then 1 else 0) ++ le 2 k ∧
          o = { p with regs := o.regs, rings := { p.rings with ops := p.rings.ops.filter (fun y => y.ring != k), msix := o.rings.msix, host := p.rings.host.write ((p.ring k).cmplBase + 32 * (n % (p.ring k).size)) b } } ∧
          o.rings.msix = (if bit (dFlags q.desc) 2 && !bit (PrdR.get p (PRD_MSIX v + 8)) 32 then v :: p.rings.msix else p.rings.msix) ∧
          PrdR.get o (PRD_RING_CMPL_TAIL k) = (n + 1) % 2 ^ 32 ∧
          ((bit (dFlags q.desc) 2 && bit (PrdR.get p (PRD_MSIX v + 8)) 32) = true → PrdR.flag o (PRD_MSIX_PBA + 8 * (v / 64)) (v % 64) = true) ∧
          ∀ a, a ≠ PRD_RING_CMPL_TAIL k → ((bit (dFlags q.desc) 2 && bit (PrdR.get p (PRD_MSIX v + 8)) 32) = true → a ≠ PRD_MSIX_PBA + 8 * (v / 64)) → PrdR.get o a = PrdR.get p a)) ∧
      (∀ q x i d b c, p.rings.ops.filter (·.ring == k) = [q] → q.wait = .sub x → x.due = i :: d → p.delivery q i = .ready b c → (p.ring k).origin = 0 →
        (∀ a, p.cmplFree k = true → x.lost = 0 → x.place b.length (dLen q.desc) = some a → ∃ o, exec (.cmplWrite k t) s = .next (s.withPrd o) ∧
          o = { p with regs := o.regs, rings := { p.rings with ops := o.rings.ops, msix := o.rings.msix, host := o.rings.host } } ∧
          o.rings.host = (p.rings.host.write (dBuf q.desc + a) b).write ((p.ring k).cmplBase + 32 * (PrdR.get p (PRD_RING_CMPL_TAIL k) % (p.ring k).size))
            (p.cmplBytes k (PrdR.get p (PRD_RING_CMPL_TAIL k)) q { c with bytes := b.length, info := a, cflags := 2 }) ∧
          (∃ y, y ∈ o.rings.ops ∧ y.ring = k ∧ y.idx = q.idx ∧ y.wait = .sub { x with due := d, off := a + b.length, live := x.live ++ [(PrdR.get p (PRD_RING_CMPL_TAIL k), a, b.length)] }) ∧
          PrdR.get o (PRD_RING_CMPL_TAIL k) = (PrdR.get p (PRD_RING_CMPL_TAIL k) + 1) % 2 ^ 32)) ∧
      (∀ q x i d, p.rings.ops.filter (·.ring == k) = [q] → q.wait = .sub x → x.due = i :: d → (p.ring k).origin = 0 →
        (p.delivery q i = .later → exec (.cmplWrite k t) s = .next (s.withPrd p)) ∧
        ((p.delivery q i = .gone ∨ ∃ b c, p.delivery q i = .ready b c ∧ (p.cmplFree k = false ∨ x.place b.length (dLen q.desc) = none)) → k < 65536 → ∃ o, exec (.cmplWrite k t) s = .next (s.withPrd o) ∧
          o = { p with regs := o.regs, cyc := o.cyc, rings := { p.rings with ops := o.rings.ops } } ∧ PrdR.flag o (PRD_RING_K_EVENTS k) 3 = true ∧
          PrdR.fld o (PRD_RING_LOST k) 0 32 = min (PrdR.fld p (PRD_RING_LOST k) 0 32 + 1) (2 ^ 32 - 1) ∧
          ∃ y, y ∈ o.rings.ops ∧ y.ring = k ∧ y.idx = q.idx ∧ y.wait = .sub { x with due := d, lost := min (x.lost + 1) (2 ^ 32 - 1) })))

/-- TRIGGER with a legal scope hands the trigger to its decider, and INFO says whether it was accepted, attached or
refused; a tenant's with another scope than JOB is DENIED. RELEASE of a HELD flacon by its FREEZE_T empties the slot
and completes OK; one that does not name it is REFUSED; a tenant's of a flacon that is not its job's is DENIED. CONFIG
at the root broadcasts its entries and waits for the DONE; at another node it is NOT_HERE; a tenant's with a key that
jobs may not set is DENIED; one with an item table that fails, or an instant less than START_LEAD ahead, is REFUSED.
START_JOB at the root of a legal job that has no request open keeps the request, with S START_LEAD ahead, and waits;
at another node it is NOT_HERE, of a tenant DENIED, of a tag with an open request REFUSED with INFO 7. A NOSE
operation of a tenant is DENIED, one while FLASH_UPDATE runs is BUSY, and UNLOAD leaves no model and completes OK. -/
def Obligations.ControlOperationsAct : Prop :=
  ∀ (s : State) (k tag t : Nat) (q : Op) (p : Prd), p = s.prd.go t →
    (p.starts k tag 0x21 q → p.ctxStop q = none → ∀ v, v = fieldAt q.desc 8 8 →
      (256 ≤ k → getF v 0 2 ≠ 2 → exec (.trigger k tag t) s = .next (s.withPrd (p.finish k q.idx { status := 0x06 }))) ∧
      ((k < 256 ∨ getF v 0 2 = 2) → getF v 0 2 ≠ 0 → getF v 2 30 = 0 → getF v 52 12 = 0 → (getF v 0 2 = 2 → dJob q.desc ≠ 0) → dFlags q.desc < 16 → fieldAt q.desc 7 1 = 0 →
        ∀ o i, p.trigger { source := 0, scope := getF v 0 2, tag := if getF v 0 2 = 2 then dJob q.desc else 0, tTrig := p.ft, rank := getF v 32 20 } = (o, i) →
          exec (.trigger k tag t) s = .next (s.withPrd (o.finish k q.idx { info := i })))) ∧
    (p.starts k tag 0x22 q → p.ctxStop q = none → dFlags q.desc < 16 → fieldAt q.desc 7 1 = 0 → ∀ n f, n = fieldAt q.desc 8 1 → f = p.flacon n →
      (4 ≤ n → exec (.release k tag t) s = .next (s.withPrd (p.finish k q.idx { status := 0x05 }))) ∧
      (n < 4 → 256 ≤ k → (f.st = 0 ∨ f.scope ≠ 2 ∨ f.tag ≠ dJob q.desc) → exec (.release k tag t) s = .next (s.withPrd (p.finish k q.idx { status := 0x06 }))) ∧
      (n < 4 → (k < 256 ∨ (f.scope = 2 ∧ f.tag = dJob q.desc)) → f.st = 4 → f.freezeT = fieldAt q.desc 16 8 → p.hnr.queue = [] → ∃ o, exec (.release k tag t) s = .next (s.withPrd o) ∧
        o = { p with hnr := { p.hnr with flc := o.hnr.flc, free := p.hnr.free + f.segs.length }, accs := o.accs, goneAccs := o.goneAccs, tree := { p.tree with freezes := o.tree.freezes }, rings := o.rings } ∧
        o.flacon n = {} ∧ (∀ m, m ≠ n → o.flacon m = p.flacon m) ∧ o.rings = (p.finish k q.idx {}).rings) ∧
      (n < 4 → k < 256 → (f.st ≠ 4 ∨ f.freezeT ≠ fieldAt q.desc 16 8) → exec (.release k tag t) s = .next (s.withPrd (p.finish k q.idx { status := 0x0B })))) ∧
    (p.starts k tag 0x23 q → p.ctxStop q = none → ∀ l,
      (256 ≤ k → l.all jobKey = false → exec (.controlConfig k tag l t) s = .next (s.withPrd (p.finish k q.idx { status := 0x06 }))) ∧
      ((k < 256 ∨ l.all jobKey = true) → dFlags q.desc < 16 → fieldAt q.desc 7 1 = 0 → p.isRoot = false →
        exec (.controlConfig k tag l t) s = .next (s.withPrd (p.finish k q.idx { status := 0x09 }))) ∧
      ((k < 256 ∨ l.all jobKey = true) → dFlags q.desc < 16 → fieldAt q.desc 7 1 = 0 → p.isRoot = true →
        (∀ c, p.configRefused (fieldAt q.desc 8 8) l = some c → exec (.controlConfig k tag l t) s = .next (s.withPrd (p.finish k q.idx { status := 0x0B, info := c }))) ∧
        (p.configRefused (fieldAt q.desc 8 8) l = none → p.tree.reqs = [] → p.tree.switches = [] →
          (∃ o n y, exec (.controlConfig k tag l t) s = .next (s.withPrd o) ∧ y ∈ o.rings.ops ∧ y.ring = k ∧ y.idx = q.idx ∧ y.wait = .bcast n) ∧
          ((dJob q.desc ≠ 0 ∨ cfgSwitch l = none) → ∃ o b y, exec (.controlConfig k tag l t) s = .next (s.withPrd o) ∧
            b ∈ o.tree.bcasts ∧ b.body.kind = 3 ∧ b.body.config = l ∧ b.body.hdr.tag = dJob q.desc ∧ b.body.hdr.tAct = fieldAt q.desc 8 8 ∧
            y ∈ o.rings.ops ∧ y.ring = k ∧ y.idx = q.idx ∧ y.wait = .bcast b.body.hdr.bseq)))) ∧
    (p.starts k tag 0x24 q → ∀ j m,
      (256 ≤ k → exec (.startJob k tag j m t) s = .next (s.withPrd (p.finish k q.idx { status := 0x06 }))) ∧
      (k < 256 → dFlags q.desc < 16 → fieldAt q.desc 7 1 = 0 → 0 < j → j < 65536 →
        (p.isRoot = false → exec (.startJob k tag j m t) s = .next (s.withPrd (p.finish k q.idx { status := 0x09 }))) ∧
        (p.isRoot = true → itemsOk m.items = true → p.homesOk m.nRanks m.homes = true → p.portsOk m.nRanks m.ports = true →
          (∀ r, r ∈ p.tree.reqs → r.tag = j → r.result = none → exec (.startJob k tag j m t) s = .next (s.withPrd (p.finish k q.idx { status := 0x0B, info := 0x07 }))) ∧
          ((∀ r, r ∈ p.tree.reqs → r.tag = j → r.result ≠ none) → ∃ o r y, exec (.startJob k tag j m t) s = .next (s.withPrd o) ∧
            r ∈ o.tree.reqs ∧ r.tag = j ∧ r.msg = m ∧ r.s = p.ft + PrdR.fld p PRD_ATM_CFG 0 16 * tickUs ∧
            y ∈ o.rings.ops ∧ y.ring = k ∧ y.idx = q.idx ∧ y.wait = .start j)))) ∧
    (p.starts k tag 0x25 q → ∀ x ok, x ∈ [(Instr.loadModel (some (k, tag)) ok t, 1), (.loadBaseline (some (k, tag)) t, 2), (.saveBaseline (some (k, tag)) t, 4), (.unload (some (k, tag)) t, 8)] →
      (256 ≤ k → exec x.1 s = .next (s.withPrd (p.finish k q.idx { status := 0x06 }))) ∧
      (k < 256 → dFlags q.desc < 16 → fieldAt q.desc 7 1 = 0 → fieldAt q.desc 8 8 = x.2 → fieldAt q.desc 32 8 ≤ 32 →
        (p.safe = true → exec x.1 s = .next (s.withPrd (p.finish k q.idx { status := 0x0B }))) ∧
        (p.safe = false → p.flashing = true → exec x.1 s = .next (s.withPrd (p.finish k q.idx { status := 0x0A }))) ∧
        (p.safe = false → p.flashing = false → x.2 = 8 → p.nose.busy = none → p.nose.waiting = [] → ∃ o y, exec x.1 s = .next (s.withPrd o) ∧ o.nose.model = none ∧ o.nose.next = none ∧
          PrdR.get o PRD_NOSE_RESIDENT = 0 ∧ y ∈ o.rings.ops ∧ y.ring = k ∧ y.idx = q.idx ∧ y.wait = .done {})))

/-- EXPORT_HEART of a window sends the export object of the records whose time lies in it to the fleet store, in
frames of its class, and completes with their number and the object's length; EXPORT_FLACON of a HELD flacon sends
that of its records, with its times and tag, and marks it exported; of one that is not HELD, or with another FREEZE_T,
it is REFUSED. A GAP mark goes out with the next object and is used up. EXPORT_PERIOD of an active EXPORT ring with
automatic export, PRD_EXPORT_PERIOD after the last, sends what was written since; before that, or on another ring, it
changes nothing. With no compressor for rings an export waits. REPLAY waits while a live accord is under evaluation;
without the model that it names it is REFUSED; with it, it writes the records of the evaluation, and the live streams
are as before. -/
def Obligations.ExportsAndReplays : Prop :=
  ∀ (s : State) (k tag t : Nat) (q : Op) (p : Prd), p = s.prd.go t →
    (p.starts k tag 0x31 q → (p.compressors = false ∨ p.pw.fail.isSome = true) → exec (.exportHeart k tag t) s = .next (s.withPrd p)) ∧
    (p.starts k tag 0x31 q → p.compressors = true → p.pw.fail = none → p.ctxStop q = none → ∀ a b, a = fieldAt q.desc 8 8 → b = fieldAt q.desc 16 8 →
      (b < a → exec (.exportHeart k tag t) s = .next (s.withPrd (p.finish k q.idx { status := 0x05 }))) ∧
      (∀ rs obj u c, dFlags q.desc < 16 → fieldAt q.desc 7 1 = 0 → a ≤ b → rs = p.notes.filter (fun r => decide (a ≤ r.stamp && r.stamp ≤ b)) →
          obj = exportObject { kind := 0, flags := if p.buddy.gap then 2 ^ 15 else 0, tray := p.tray, first := a, last := b } (rs.flatMap (p.recordBytes 0)) →
          u = p.outUplink → c = 256 + (p.slotOf (dJob q.desc)).getD 0 → ∃ o, exec (.exportHeart k tag t) s = .next (s.withPrd o) ∧
        o = { p with ulq := o.ulq, rings := o.rings, buddy := { p.buddy with gap := false, lastExport := some b, out := o.buddy.out } } ∧
        o.rings = (p.finish k q.idx { nAnswers := rs.length, bytes := obj.length }).rings ∧
        Tbl.get (fun _ => []) (o.uplink u).q c = Tbl.get (fun _ => []) (p.uplink u).q c ++ ((upFrames (PrdR.fld p (PRD_UL u + 0x2008) 0 16) obj.length obj).map fun x => { dst := 2 ^ 17, body := x, ft := p.ft }))) ∧
    (p.starts k tag 0x32 q → p.compressors = true → p.pw.fail = none → p.ctxStop q = none → dFlags q.desc < 16 → fieldAt q.desc 7 1 = 0 → ∀ n f, n = fieldAt q.desc 8 1 → n < 4 → f = p.flacon n →
      ((f.st ≠ 4 ∨ f.freezeT ≠ fieldAt q.desc 16 8) → exec (.exportFlacon k tag t) s = .next (s.withPrd (p.finish k q.idx { status := 0x0B }))) ∧
      (∀ rs obj u c, f.st = 4 → f.freezeT = fieldAt q.desc 16 8 → p.buddy.gap = false → rs = f.segs.flatMap (·.recs) →
          obj = exportObject { kind := 1, flags := f.flags, tray := p.tray, first := f.startActual, last := f.endActual, freezeT := f.freezeT, tag := f.tag } (rs.flatMap (p.recordBytes 0)) →
          u = p.outUplink → c = 256 + (p.slotOf (dJob q.desc)).getD 0 → ∃ o, exec (.exportFlacon k tag t) s = .next (s.withPrd o) ∧
        o = { p with ulq := o.ulq, rings := o.rings, hnr := { p.hnr with flc := o.hnr.flc }, buddy := { p.buddy with out := o.buddy.out } } ∧
        o.rings = (p.finish k q.idx { nAnswers := rs.length, bytes := obj.length }).rings ∧ o.flacon n = { f with flags := setBit f.flags 4 } ∧ (∀ m, m ≠ n → o.flacon m = p.flacon m) ∧
        Tbl.get (fun _ => []) (o.uplink u).q c = Tbl.get (fun _ => []) (p.uplink u).q c ++ ((upFrames (PrdR.fld p (PRD_UL u + 0x2008) 0 16) obj.length obj).map fun x => { dst := 2 ^ 17, body := x, ft := p.ft }))) ∧
    ((p.ringState k ≠ 1 ∨ (p.ring k).type ≠ 3 ∨ bit (p.ring k).cfg 17 = false ∨ p.ft < (p.ring k).autoAt + PrdR.get p PRD_EXPORT_PERIOD * 400000) →
      exec (.exportPeriod k t) s = .next (s.withPrd p)) ∧
    (∀ rs obj u, p.ringState k = 1 → (p.ring k).type = 3 → bit (p.ring k).cfg 17 = true → p.ringsBusy = false → p.compressors = true → p.pw.fail = none →
        (p.ring k).autoAt + PrdR.get p PRD_EXPORT_PERIOD * 400000 ≤ p.ft → p.buddy.gap = false → rs = p.notes.filter (fun r => decide ((p.ring k).autoFrom ≤ r.at_ && r.at_ < p.ft)) →
        obj = exportObject { kind := 0, flags := 0, tray := p.tray, first := (p.ring k).autoFrom, last := p.ft - 1 } (rs.flatMap (p.recordBytes 0)) → u = p.outUplink → ∃ o,
      exec (.exportPeriod k t) s = .next (s.withPrd o) ∧
      o = { p with ulq := o.ulq, rings := { p.rings with cfg := o.rings.cfg }, buddy := { p.buddy with lastExport := some (p.ft - 1), out := o.buddy.out } } ∧
      o.ring k = { p.ring k with autoFrom := p.ft, autoAt := p.ft } ∧ (∀ j, j ≠ k → o.ring j = p.ring j) ∧
      Tbl.get (fun _ => []) (o.uplink u).q 256 = Tbl.get (fun _ => []) (p.uplink u).q 256 ++ ((upFrames (PrdR.fld p (PRD_UL u + 0x2008) 0 16) obj.length obj).map fun x => { dst := 2 ^ 17, body := x, ft := p.ft })) ∧
    ((p.ring k).type = 4 → p.opOf k tag (fun _ => true) = some q → p.canStart q = true → p.ringsBusy = false → p.sameAccord q = false →
      ((p.nose.busy ≠ none ∨ p.nose.waiting ≠ [] ∨ PrdR.fld p PRD_CMP_ASSIGN 8 8 = 0xFF) → exec (.replay k tag t) s = .next (s.withPrd p)) ∧
      (∀ a n obj, p.nose.busy = none → p.nose.waiting = [] → PrdR.fld p PRD_CMP_ASSIGN 8 8 ≠ 0xFF → p.ctxStop q = none → dFlags q.desc < 16 → fieldAt q.desc 7 1 = 0 → a = fieldAt q.desc 8 8 →
          n = fieldAt q.desc 16 8 → inSoftware a n = true → obj = p.hbm.read a n → exHeadOk obj = true →
        ((∀ m, p.nose.model = some m → fieldAt q.desc 32 8 ≠ m.digest % 2 ^ 64) → exec (.replay k tag t) s = .next (s.withPrd (p.finish k q.idx { status := 0x0B, info := 0xFF }))) ∧
        (∀ m raw x y z c fs rs st all got, p.nose.model = some m → fieldAt q.desc 32 8 = m.digest % 2 ^ 64 → fieldAt q.desc 24 8 = 0 → (p.ring k).origin = 0 →
            decodeBlocks true (fieldAt obj 32 8) (fieldAt obj 12 4) 0 0 (obj.drop 64) 0 0 = (raw, x, y, z, c) → c.any (· ≠ 0) = false → fs = exportFrames raw.length raw →
            (∀ f, f ∈ fs → f.rtype = 0x82 → fieldAt f.body 48 8 = m.digest % 2 ^ 64) → p.replayRun m (fieldAt obj 8 4 % 4096) fs [] = (rs, st) → all = rs.map (p.recordBytes 0) → got = wholeBlocks (dLen q.desc) all →
          ∃ o y, exec (.replay k tag t) s = .next (s.withPrd o) ∧
          o = { p with nose := { p.nose with replay := st }, rings := { p.rings with host := p.rings.host.write (dBuf q.desc) got.flatten, fins := p.rings.fins + 1, ops := o.rings.ops } } ∧
          y ∈ o.rings.ops ∧ y.ring = k ∧ y.idx = q.idx ∧ y.wait = .done { status := if got.length < all.length then 0x01 else 0x00, nAnswers := got.length, info := all.length - got.length, bytes := got.flatten.length })))

/-- With the query protocol disabled, QP_OPEN and packets change nothing. QP_OPEN that fails is counted in
QP_AUTH_FAIL; one that succeeds for a REMOTE ring without a session opens one with the next number and sends OPEN_ACK.
A packet of no session changes nothing; one whose AUTH fails is counted. With nothing unacknowledged: QP_DESC in
sequence, of 1 to 128 descriptors for which the ring has room, writes them at TAIL, moves TAIL and raises the sequence
received; one that leaves a gap changes nothing. QP_ACK takes the packets up to ACK_SEQ out of the window, and moves
CMPL_HEAD by the completions that they end. QP_CLOSE removes the session. QP_RETX before PRD_QP_RETX changes nothing;
after it, it sends the packet again; after the 8th send the session closes and the ring's operation in flight
completes with ABORTED. -/
def Obligations.QuerySessionsCarryPackets : Prop :=
  ∀ (s : State) (t : Nat) (p : Prd), p = s.prd.go t →
    (∀ k id n a l ok, PrdR.flag p PRD_QP_CFG 16 = false → ∀ i, i ∈ [Instr.qpOpen k ok t, .qpDesc id n a l ok t, .qpAck id a ok t, .qpClose id ok t] → exec i s = .next (s.withPrd p)) ∧
    (∀ k, PrdR.flag p PRD_QP_CFG 16 = true →
      (∃ o, exec (.qpOpen k false t) s = .next (s.withPrd o) ∧ o = { p with regs := o.regs, cyc := o.cyc } ∧
        PrdR.fld o PRD_QP_AUTH_FAIL 0 32 = min (PrdR.fld p PRD_QP_AUTH_FAIL 0 32 + 1) (2 ^ 32 - 1) ∧ ∀ a, a ≠ PRD_QP_AUTH_FAIL → PrdR.get o a = PrdR.get p a) ∧
      (∀ c, p.rings.cfg.lookup k = some c → c.origin = 1 → (∀ x, x ∈ p.rings.qp → x.ring ≠ k) → ∃ o, exec (.qpOpen k true t) s = .next (s.withPrd o) ∧
        o = { p with ulq := o.ulq, rings := { p.rings with qpNext := (p.rings.qpNext + 1) % 2 ^ 32, qp := { id := p.rings.qpNext, ring := k, rx := 1, tx := 1, unacked := [{ seq := 1, ptype := 2, slot := c.slot, sends := 1, at_ := p.ft }] } :: p.rings.qp } })) ∧
    (∀ id n a l ok, PrdR.flag p PRD_QP_CFG 16 = true → ∀ i, i ∈ [Instr.qpDesc id n a l ok t, .qpAck id a ok t, .qpClose id ok t] →
      ((∀ x, x ∈ p.rings.qp → x.id ≠ id) → exec i s = .next (s.withPrd p)) ∧
      ((∃ x, x ∈ p.rings.qp ∧ x.id = id) → ok = false → ∃ o, exec i s = .next (s.withPrd o) ∧ o = { p with regs := o.regs, cyc := o.cyc } ∧
        PrdR.fld o PRD_QP_AUTH_FAIL 0 32 = min (PrdR.fld p PRD_QP_AUTH_FAIL 0 32 + 1) (2 ^ 32 - 1))) ∧
    (∀ (id : Nat) (q : Qp), p.rings.qp.find? (·.id == id) = some q →
      (∀ n a l, PrdR.flag p PRD_QP_CFG 16 = true → q.unacked = [] → q.wait = [] →
        (q.rx + 1 < n → exec (.qpDesc id n a l true t) s = .next (s.withPrd p)) ∧
        (n ≤ q.rx → ∃ o, exec (.qpDesc id n a l true t) s = .next (s.withPrd o) ∧ o = { p with ulq := o.ulq }) ∧
        (∀ c tail, n = q.rx + 1 → c = p.ring q.ring → tail = PrdR.get p (PRD_RING_TAIL q.ring) → q.ring < 65536 → 1 ≤ l.length → l.length ≤ 128 →
            sub32 tail (PrdR.get p (PRD_RING_DESC_HEAD q.ring)) + l.length ≤ c.size → inSoftware c.descBase (64 * c.size) = true → ∃ o, exec (.qpDesc id n a l true t) s = .next (s.withPrd o) ∧
          o = { p with regs := o.regs, hbm := (p.putDescs c tail l).hbm, ulq := o.ulq, rings := { p.rings with qp := o.rings.qp } } ∧
          o.rings.qp.find? (·.id == id) = some { q with rx := n } ∧ PrdR.get o (PRD_RING_TAIL q.ring) = (tail + l.length) % 2 ^ 32 ∧
          ∀ b, b ≠ PRD_RING_TAIL q.ring → PrdR.get o b = PrdR.get p b)) ∧
      (∀ a f, PrdR.flag p PRD_QP_CFG 16 = true → q.wait = [] → f = (q.unacked.filter fun x => decide (x.seq ≤ a) && x.frees).length → ∃ o, exec (.qpAck id a true t) s = .next (s.withPrd o) ∧
        o = { p with regs := o.regs, rings := { p.rings with qp := o.rings.qp, ops := o.rings.ops } } ∧
        o.rings.qp.find? (·.id == id) = some { q with unacked := q.unacked.filter fun x => decide (a < x.seq) } ∧
        PrdR.get o (PRD_RING_CMPL_HEAD q.ring) = (if f = 0 then PrdR.get p (PRD_RING_CMPL_HEAD q.ring) else (PrdR.get p (PRD_RING_CMPL_HEAD q.ring) + f) % 2 ^ 32) ∧
        ∀ b, b ≠ PRD_RING_CMPL_HEAD q.ring → PrdR.get o b = PrdR.get p b) ∧
      (PrdR.flag p PRD_QP_CFG 16 = true → ∃ o, exec (.qpClose id true t) s = .next (s.withPrd o) ∧ o = { p with regs := o.regs, rings := { p.rings with qp := o.rings.qp, ops := o.rings.ops } } ∧
        o.rings.qp = p.rings.qp.filter fun x => x.id != id) ∧
      (∀ n x, q.unacked.find? (·.seq == n) = some x →
        (p.ft < x.at_ + PrdR.get p PRD_QP_RETX * tickUs → exec (.qpRetx id n t) s = .next (s.withPrd p)) ∧
        (x.at_ + PrdR.get p PRD_QP_RETX * tickUs ≤ p.ft → x.sends < 8 → ∃ o y, exec (.qpRetx id n t) s = .next (s.withPrd o) ∧
          o = { p with ulq := o.ulq, rings := { p.rings with qp := o.rings.qp } } ∧ o.rings.qp.find? (·.id == id) = some y ∧ y.unacked.find? (·.seq == n) = some { x with sends := x.sends + 1, at_ := p.ft }) ∧
        (∀ y, x.at_ + PrdR.get p PRD_QP_RETX * tickUs ≤ p.ft → 8 ≤ x.sends → p.rings.ops.filter (·.ring == q.ring) = [y] → y.wait.isDone = false → ∃ o z, exec (.qpRetx id n t) s = .next (s.withPrd o) ∧
          o = { p with regs := o.regs, rings := { p.rings with qp := p.rings.qp.filter (fun w => w.id != id), ops := o.rings.ops, fins := p.rings.fins + 1 } } ∧
          z ∈ o.rings.ops ∧ z.ring = q.ring ∧ z.idx = y.idx ∧ z.wait = .done { status := 0x0C })))

/-- RESET_RELEASE of a chip with power good that is in reset latches position, parity and whether the parity is odd,
and begins PHASE IMAGE; otherwise it changes nothing. IMAGE_READ_DONE outside PHASE IMAGE, or while a management
command runs, changes nothing; with a valid image PHASE is LINKS, without the safe profile, and the roles, ports and
policy are the image's; with failed straps, or an image that fails a check, the safe profile is on with its reason,
this Priord serves its tray alone with no heart-note ring, and PHASE is LINKS. PREV_FRONTIER_SCAN in PHASE LINKS ends
it, from when the ring accepts records, and asks the buddy under the next recovery epoch but in the safe profile.
OTU_DESCRIPTOR once one has been taken changes nothing; one that fails its CRC, its header or the HBM it claims is
invalid with its reason; a valid one without entries sets the dump carve-out and FB_RATE, and the self-test's outcome
shows. -/
def Obligations.StartUpReadsStrapsImageAndDescriptor : Prop :=
  (∀ (s : State) (t : Nat) (p : Prd), p = s.prd.go t →
    (∀ pos par, pos < 4096 →
      (p.pw.on = 2 → p.pw.inReset = true → ∃ o, exec (.resetRelease pos par t) s = .next (s.withPrd o) ∧ o = { p with regs := o.regs, pw := { p.pw with inReset := false } } ∧
        PrdR.fld o PRD_BOOT_STRAPS 0 12 = pos ∧ PrdR.flag o PRD_BOOT_STRAPS 12 = par ∧
        PrdR.flag o PRD_BOOT_STRAPS 13 = decide (((List.range 12).filter (bit pos)).length % 2 ≠ (if par then 1 else 0)) ∧ PrdR.fld o PRD_BOOT_STATUS 0 3 = 0 ∧
        ∀ a, a ≠ PRD_BOOT_STRAPS → a ≠ PRD_BOOT_STATUS → PrdR.get o a = PrdR.get p a) ∧
      ((p.pw.on ≠ 2 ∨ p.pw.inReset = false) → exec (.resetRelease pos par t) s = .next (s.withPrd p))) ∧
    (∀ fl sg, ((p.pw.on ≠ 2 ∨ p.pw.inReset = true ∨ p.phase ≠ 0 ∨ p.mgmt.run ≠ none) → exec (.imageReadDone fl sg t) s = .next (s.withPrd p)) ∧
      (p.pw.on = 2 → p.pw.inReset = false → p.phase = 0 → p.mgmt.run = none →
        (p.strapsOk = true → cfgCheck p.pw.nor p.tray fl sg = 0 → ∃ o, exec (.imageReadDone fl sg t) s = .next (s.withPrd o) ∧ PrdR.get o PRD_BOOT_STATUS = 1 ∧
          o.cfg = { roles := cfgRoles p.pw.nor, ports := ((cfgPorts p.pw.nor).zipIdx.map fun x => (x.2, x.1)).filter (fun x => decide (x.2 ≠ 0)), buddyEn := bit (cfgPolicy p.pw.nor) 1, signed := bit (cfgPolicy p.pw.nor) 0 }) ∧
        (∀ r, r = (if p.strapsOk then cfgCheck p.pw.nor p.tray fl sg else 0x0A) → r ≠ 0 → ∃ o, exec (.imageReadDone fl sg t) s = .next (s.withPrd o) ∧
          PrdR.fld o PRD_BOOT_STATUS 0 3 = 1 ∧ PrdR.flag o PRD_BOOT_STATUS 3 = true ∧ PrdR.fld o PRD_BOOT_STATUS 16 16 = r ∧ PrdR.flag o PRD_BOOT_EVENTS 0 = true ∧
          o.cfg = { roles := [(p.tray, 1)], ports := (List.range 32).map fun n => (n, 5) } ∧ o.hnr = {} ∧ o.tree.roles = [(p.tray, 1)] ∧ PrdR.get o PRD_MBX_STAGE_BASE = 0xF36800000))) ∧
    (p.phase = 1 → ∃ o, exec (.prevFrontierScan t) s = .next (s.withPrd o) ∧ o = { p with regs := o.regs, cyc := o.cyc, evr := o.evr, buddy := { p.buddy with ringAt := p.ft, askedAt := o.buddy.askedAt, since := o.buddy.since } } ∧
      PrdR.fld o PRD_BOOT_STATUS 0 3 = (if p.clk.grade ≤ 1 then 3 else 2) ∧
      PrdR.get o PRD_JNL_PREV_FRONTIER = p.firstInvalid (1 - p.jnlBank) (PrdR.get p PRD_JNL_PREV_SESSION) 0 262144 % 2 ^ 64 ∧
      (p.safe = true → PrdR.get o PRD_RCV_EPOCH = PrdR.get p PRD_RCV_EPOCH ∧ o.evr = p.evr) ∧
      (p.safe = false → PrdR.get o PRD_RCV_EPOCH = (PrdR.get p PRD_RCV_EPOCH + 1) % 2 ^ 32 ∧ PrdR.get o PRD_RBLD_STATUS = 1 ∧ o.buddy.askedAt = p.ft ∧ PrdR.flag o PRD_RCV_EVENTS 0 = true))) ∧
  ∀ (s : State) (d : List Byte) (n : Nat) (ok : Bool) (e : Edge) (g : Otu), s.otu.invalid = false → g = s.otu.go e →
    (OtuR.get g OTU_DESC_STATUS ≠ 0 → exec (.otuDescriptor d n ok e) s = .next (s.withOtu g)) ∧
    (OtuR.get g OTU_DESC_STATUS = 0 →
      (∀ r, ((descCrcOk d = false ∧ r = 1) ∨ (descCrcOk d = true ∧ descHeader d = none ∧ r = 2) ∨
          (descCrcOk d = true ∧ (∃ l, descHeader d = some l) ∧ n < fieldAt d 16 8 + fieldAt d 24 8 ∧ r = 3)) → ∃ o, exec (.otuDescriptor d n ok e) s = .next (s.withOtu o) ∧
        o = { g with regs := o.regs } ∧ OtuR.get o OTU_DESC_STATUS = 2 + 256 * r ∧ OtuR.get o OTU_SELFTEST = (if ok then 3 else 1) ∧
        ∀ a, a ≠ OTU_DESC_STATUS → a ≠ OTU_SELFTEST → OtuR.get o a = OtuR.get g a) ∧
      (descCrcOk d = true → descHeader d = some [] → fieldAt d 16 8 + fieldAt d 24 8 ≤ n → ∃ o, exec (.otuDescriptor d n ok e) s = .next (s.withOtu o) ∧
        o = { g with regs := o.regs } ∧ OtuR.get o OTU_DESC_STATUS = 1 ∧ OtuR.get o OTU_SELFTEST = (if ok then 3 else 1) ∧ OtuR.get o OTU_ACC_DUMP_BASE = fieldAt d 16 8 ∧
        OtuR.get o OTU_ACC_DUMP_SIZE = fieldAt d 24 8 ∧ OtuR.get o OTU_FB_RATE = fieldAt d 32 2 % 4096))

/-- MIRROR_RX over BUDDY_0, while that port is up outside the safe profile, keeps the item as the newest that fit in 1
GiB; over BUDDY_1 outside a rebuild from the buddy, of another tray or over a port that is not up, it changes nothing;
an export header makes that export the last one known. The end of an answer that reaches back, SKIP_STORE and a
FROM_STORE that finds no object end the rebuild: the gap is declared, the recovery ends and REBUILDING clears. An
answer that does not reach back, BUDDY_TIMEOUT after 10 ms, and BUDDY_PORT_DOWN of port 1 during a rebuild begin the
recovery again under the next epoch and wait for the store. BUDDY_REQUEST below the epoch last seen is discarded with
an event; another is served with the items asked for. BUDDY_PORT_UP, unless the links are squelched, shows the peer
and whether it is the right one. RECOVERY_STEP_REQ below the epoch in force is discarded; another records its step and
its epoch. -/
def Obligations.BuddiesMirrorServeAndRebuild : Prop :=
  ∀ (s : State) (t : Nat) (p : Prd), p = s.prd.go t →
    (∀ x, (p.safe = true ∨ PrdR.fld p PRD_BUDDY_STATUS 0 2 ≠ 1) → exec (.mirrorRx 0 x t) s = .next (s.withPrd p)) ∧
    (∀ x, p.safe = false → PrdR.fld p PRD_BUDDY_STATUS 0 2 = 1 → ∃ o, exec (.mirrorRx 0 x t) s = .next (s.withPrd o) ∧
      o = { p with buddy := { p.buddy with store := newestItems (2 ^ 30) (x :: p.buddy.store), epochs := o.buddy.epochs } }) ∧
    (∀ x, (p.rebuild ≠ 1 ∨ PrdR.fld p PRD_BUDDY_STATUS 2 2 ≠ 1 ∨ x.tray ≠ p.tray) → exec (.mirrorRx 1 x t) s = .next (s.withPrd p)) ∧
    (∀ ft h, p.rebuild = 1 → PrdR.fld p PRD_BUDDY_STATUS 2 2 = 1 → fieldAt h 5 1 = 0 → exec (.mirrorRx 1 (.export_ p.tray ft h) t) s =
      .next (s.withPrd { p with buddy := { p.buddy with askedAt := p.ft, lastExport := some (max (fieldAt h 24 8) (p.buddy.lastExport.getD 0)) } })) ∧
    (∀ i, ((i = .mirrorRx 1 (.done p.tray true) t ∧ p.rebuild = 1 ∧ PrdR.fld p PRD_BUDDY_STATUS 2 2 = 1) ∨ (i = .skipStore t ∧ p.rebuild = 2) ∨
        (i = .fromStore t ∧ p.rebuild = 2 ∧ inSoftware (PrdR.get p PRD_RBLD_STORE_ADDR) (PrdR.get p PRD_RBLD_STORE_LEN) = true ∧
          storeObjects (PrdR.get p PRD_RBLD_STORE_LEN / 64 + 1) (p.hbm.read (PrdR.get p PRD_RBLD_STORE_ADDR) (PrdR.get p PRD_RBLD_STORE_LEN)) = [])) → ∃ o, exec i s = .next (s.withPrd o) ∧
      o = { p with regs := o.regs, cyc := o.cyc, evr := o.evr, ulq := o.ulq, buddy := { p.buddy with askedAt := o.buddy.askedAt, gap := true, lastExport := some (p.buddy.ringAt - 1), out := o.buddy.out } } ∧
      PrdR.get o PRD_RBLD_GAP_FIRST = (match p.buddy.lastExport with | some x => x + 1 | none => 0) % 2 ^ 64 ∧ PrdR.get o PRD_RBLD_GAP_LAST = (p.buddy.ringAt - 1) % 2 ^ 64 ∧
      PrdR.get o PRD_RBLD_STATUS = 4 ∧ PrdR.flag o PRD_BOOT_STATUS 4 = false ∧ PrdR.fld o PRD_RCV_STATUS 0 4 = 0 ∧ PrdR.fld o PRD_RCV_STATUS 16 16 = 0xC ∧ PrdR.flag o PRD_RCV_EVENTS 2 = true ∧
      PrdR.get o PRD_RCV_EPOCH = PrdR.get p PRD_RCV_EPOCH) ∧
    (∀ i, ((i = .mirrorRx 1 (.done p.tray false) t ∧ p.rebuild = 1 ∧ PrdR.fld p PRD_BUDDY_STATUS 2 2 = 1) ∨ (i = .buddyTimeout t ∧ p.rebuild = 1 ∧ p.buddy.askedAt + 10000 * tickUs ≤ p.ft) ∨
        (i = .buddyPortDown 1 t ∧ p.rebuild = 1)) → ∃ o, exec i s = .next (s.withPrd o) ∧ o = { p with regs := o.regs, cyc := o.cyc, evr := o.evr, buddy := { p.buddy with askedAt := o.buddy.askedAt } } ∧
      PrdR.get o PRD_RCV_EPOCH = (PrdR.get p PRD_RCV_EPOCH + 1) % 2 ^ 32 ∧ PrdR.get o PRD_RBLD_STATUS = 2 ∧ PrdR.flag o PRD_BOOT_STATUS 4 = true ∧ PrdR.flag o PRD_RCV_STATUS 0 = true ∧
      PrdR.flag o PRD_RCV_EVENTS 1 = true) ∧
    (∀ i, ((i = .buddyTimeout t ∧ (p.rebuild ≠ 1 ∨ p.ft < p.buddy.askedAt + 10000 * tickUs)) ∨ (i = .skipStore t ∧ p.rebuild ≠ 2) ∨
        (i = .fromStore t ∧ (p.rebuild ≠ 2 ∨ inSoftware (PrdR.get p PRD_RBLD_STORE_ADDR) (PrdR.get p PRD_RBLD_STORE_LEN) = false)) ∨ (∃ n, 2 ≤ n ∧ (i = .buddyPortDown n t ∨ ∃ x, i = .buddyPortUp n x t)) ∨ (p.squelched = true ∧ ∃ n x, i = .buddyPortUp n x t)) →
      exec i s = .next (s.withPrd p)) ∧
    (∀ from_ ep since, ((p.safe = true ∨ PrdR.fld p PRD_BUDDY_STATUS 0 2 ≠ 1) → exec (.buddyRequest from_ ep since t) s = .next (s.withPrd p)) ∧
      (p.safe = false → PrdR.fld p PRD_BUDDY_STATUS 0 2 = 1 → ep < (p.buddy.epochs.lookup from_).getD 0 → ∃ o, exec (.buddyRequest from_ ep since t) s = .next (s.withPrd o) ∧
        o = { p with regs := o.regs, cyc := o.cyc } ∧ PrdR.flag o PRD_RCV_EVENTS 3 = true ∧ ∀ a, a ≠ PRD_RCV_EVENTS → PrdR.get o a = PrdR.get p a) ∧
      (∀ l, p.safe = false → PrdR.fld p PRD_BUDDY_STATUS 0 2 = 1 → (p.buddy.epochs.lookup from_).getD 0 ≤ ep → l = p.buddy.store.filter (fun x => x.tray == from_) →
          ∃ o r, exec (.buddyRequest from_ ep since t) s = .next (s.withPrd o) ∧ o = { p with buddy := { p.buddy with epochs := Tbl.ins p.buddy.epochs from_ ep, served := o.buddy.served } } ∧
        (since = none → r = true ∧ o.buddy.served = .done from_ r :: (l ++ p.buddy.served)) ∧
        (∀ x, since = some x → r = l.any (fun y => decide (y.ft ≤ x)) ∧ o.buddy.served = .done from_ r :: (l.filter (fun y => decide (x < y.ft)) ++ p.buddy.served)))) ∧
    (∀ n, n < 2 → (n = 0 ∨ p.rebuild ≠ 1) → ∃ o, exec (.buddyPortDown n t) s = .next (s.withPrd o) ∧ o = { p with regs := o.regs } ∧ PrdR.fld o PRD_BUDDY_STATUS (2 * n) 2 = 0 ∧
      ∀ a, a ≠ PRD_BUDDY_STATUS → PrdR.get o a = PrdR.get p a) ∧
    (∀ n peer, n < 2 → peer < 4096 → p.squelched = false → ∃ o, exec (.buddyPortUp n peer t) s = .next (s.withPrd o) ∧ o = { p with regs := o.regs } ∧ PrdR.fld o PRD_BUDDY_PEERS (16 * n) 12 = peer ∧
      PrdR.fld o PRD_BUDDY_STATUS (2 * n) 2 = (if peer = p.tray / 8 * 8 + (p.tray % 8 + (if n = 0 then 7 else 1)) % 8 then 1 else 2)) ∧
    (∀ (e : Edge) (g : Otu) from_ ep level step slots, s.otu.invalid = false → g = s.otu.go e →
      ((level = 0 ∨ 6 < level ∨ step = 0 ∨ 12 < step ∨ ep < OtuR.get g OTU_RCV_EPOCH) → exec (.recoveryStepReq .otu from_ ep level step slots e) s = .next (s.withOtu g)) ∧
      (1 ≤ level → level ≤ 6 → 1 ≤ step → step ≤ 12 → OtuR.get g OTU_RCV_EPOCH ≤ ep → ep < 2 ^ 32 → ∃ o, exec (.recoveryStepReq .otu from_ ep level step slots e) s = .next (s.withOtu o) ∧
        o = { g with regs := o.regs, cyc := o.cyc, evr := o.evr } ∧ OtuR.get o OTU_RCV_EPOCH = ep) ∧
      (e.ft = t → ep < (p.buddy.epochs.lookup from_).getD 0 → 1 ≤ level → level ≤ 6 → 1 ≤ step → step ≤ 12 → ∃ o, exec (.recoveryStepReq .prd from_ ep level step slots e) s = .next (s.withPrd o) ∧
        o = { p with regs := o.regs, cyc := o.cyc } ∧ PrdR.flag o PRD_RCV_EVENTS 3 = true) ∧
      (e.ft = t → (p.buddy.epochs.lookup from_).getD 0 ≤ ep → 1 ≤ level → level ≤ 6 → 1 ≤ step → step ≤ 12 → step ≠ 3 → p.rebuild = 0 → ∃ o,
        exec (.recoveryStepReq .prd from_ ep level step slots e) s = .next (s.withPrd o) ∧ o = { p with regs := o.regs, cyc := o.cyc, evr := o.evr, buddy := { p.buddy with epochs := Tbl.ins p.buddy.epochs from_ ep } } ∧
        PrdR.fld o PRD_RCV_STATUS 0 4 = (if step = 12 then 0 else 1 + 2 * level) ∧ PrdR.fld o PRD_RCV_STATUS 16 16 = step))

/-- MODULE_POWER_ON of a module without power brings up the rails in reset; of another it changes nothing. POWER_GOOD
then shows power good, the cages present and powered, and the PLLs locked; without power or after PWR_FAIL it changes
nothing. PWR_FAIL, RAIL_FAULT and PLL_UNLOCK with power good assert PWR_FAIL once, with their own event; a later one
keeps the first instant. MRAM_WRITE_PROTECT 20 us after it commits the records in flight and protects MRAM; before, or
without PWR_FAIL, it changes nothing. PRD_RESET with power good before PWR_FAIL, and HOLDUP_END 2 ms after it, leave
the journal (with the records in flight), the NOR and the recovery epoch (a reset the HBM, the power and clock status
and the last hold-up measurement too), and everything else as after reset; otherwise they change nothing. -/
def Obligations.PowerComesFailsAndFalls : Prop :=
  ∀ (s : State) (t : Nat) (p : Prd), p = s.prd.go t →
    (p.pw.on = 0 → exec (.modulePowerOn t) s = .next (s.withPrd { p with pw := { p.pw with on := 1, inReset := true } })) ∧
    (p.pw.on ≠ 0 → exec (.modulePowerOn t) s = .next (s.withPrd p)) ∧
    (∀ x, x < 16 → ((p.pw.on = 0 ∨ p.pw.fail.isSome = true) → exec (.powerGood x t) s = .next (s.withPrd p)) ∧
      (p.pw.on ≠ 0 → p.pw.fail = none → ∃ o, exec (.powerGood x t) s = .next (s.withPrd o) ∧ o = { p with regs := o.regs, pw := { p.pw with on := 2 } } ∧
        PrdR.flag o PRD_PWR_STATUS 0 = true ∧ PrdR.fld o PRD_PWR_STATUS 3 4 = x ∧ (∀ u, u < 4 → PrdR.flag o PRD_PWR_STATUS (7 + u) = (bit x u && PrdR.flag p PRD_PWR_OSFP_CTRL u)) ∧
        PrdR.fld o PRD_CLK_STATUS 0 4 = (if p.pw.ocxoFail then 0xE else 0xF) ∧ ∀ a, a ≠ PRD_PWR_STATUS → a ≠ PRD_CLK_STATUS → PrdR.get o a = PrdR.get p a)) ∧
    (∀ x : Instr × Nat × Nat, x ∈ [(.pwrFail true t, PRD_PWR_STATUS, 2), (.railFault t, PRD_PWR_EVENTS, 1), (.pllUnlock t, PRD_PWR_EVENTS, 8)] → ∃ o, exec x.1 s = .next (s.withPrd o) ∧
      o = { p with regs := o.regs, cyc := o.cyc, pw := { p.pw with fail := if p.pw.on = 2 ∧ p.pw.fail = none then some p.ft else p.pw.fail } } ∧ PrdR.flag o x.2.1 x.2.2 = true ∧
      (p.pw.on = 2 → p.pw.fail = none → PrdR.flag o PRD_PWR_STATUS 1 = true ∧ PrdR.flag o PRD_PWR_EVENTS 0 = true) ∧
      ∀ a, a ∉ [PRD_PWR_STATUS, PRD_PWR_EVENTS, PRD_CLK_STATUS] → PrdR.get o a = PrdR.get p a) ∧
    (∃ o, exec (.pwrFail false t) s = .next (s.withPrd o) ∧ o = { p with regs := o.regs, cyc := o.cyc, pw := { p.pw with fail := if p.pw.on = 2 ∧ p.pw.fail = none then some p.ft else p.pw.fail } } ∧
      PrdR.flag o PRD_PWR_STATUS 0 = false) ∧
    ((∀ f, p.pw.fail = some f → p.ft < f + 20 * tickUs ∨ p.mramProt = true) → exec (.mramWriteProtect t) s = .next (s.withPrd p)) ∧
    (∀ f, p.pw.fail = some f → f + 20 * tickUs ≤ p.ft → p.mramProt = false → ∃ o, exec (.mramWriteProtect t) s = .next (s.withPrd o) ∧
      o = { p with mramProt := true, evr := o.evr, jnl := o.jnl, regs := o.regs, cyc := o.cyc } ∧ (p.evr.inflight = [] → o = { p with mramProt := true, evr := { p.evr with lastFt := 0 } })) ∧
    ((p.pw.on ≠ 2 ∨ p.pw.fail.isSome = true) → exec (.prdReset t) s = .next (s.withPrd p)) ∧
    (p.pw.on = 2 → p.pw.fail = none → ∃ o, exec (.prdReset t) s = .next (s.withPrd o) ∧
      (p.evr.inflight = [] → o.jnl = p.jnl) ∧ o = { jnl := o.jnl, jnlBank := p.jnlBank, free := p.free, hbm := p.hbm, cyc := o.cyc, pw := { on := 2, inReset := true, why := 1, tripLast := p.pw.tripLast, nor := p.pw.nor }, regs := o.regs } ∧
      PrdR.get o PRD_RCV_EPOCH = PrdR.get p PRD_RCV_EPOCH ∧ PrdR.get o PRD_PWR_STATUS = PrdR.get p PRD_PWR_STATUS ∧ PrdR.get o PRD_CLK_STATUS = PrdR.get p PRD_CLK_STATUS ∧
      PrdR.get o PRD_PWR_HOLDUP = PrdR.get p PRD_PWR_HOLDUP ∧
      PrdR.flag o PRD_PWR_EVENTS 6 = p.pw.tripLast ∧ ∀ a, a ∉ [PRD_RCV_EPOCH, PRD_PWR_STATUS, PRD_CLK_STATUS, PRD_PWR_HOLDUP, PRD_PWR_EVENTS] → PrdR.get o a = (prdReset a).toNat) ∧
    ((∀ f, p.pw.fail = some f → p.ft < f + 2000 * tickUs) → exec (.holdupEnd t) s = .next (s.withPrd p)) ∧
    (∀ f, p.pw.fail = some f → f + 2000 * tickUs ≤ p.ft → ∃ o, exec (.holdupEnd t) s = .next (s.withPrd o) ∧ (p.mramProt = true ∨ p.evr.inflight = [] → o.jnl = p.jnl) ∧
      o = { jnl := o.jnl, jnlBank := p.jnlBank, free := p.free, cyc := o.cyc, pw := { on := 0, inReset := true, why := 0, tripLast := p.pw.tripLast, nor := p.pw.nor }, regs := o.regs } ∧
      PrdR.get o PRD_RCV_EPOCH = PrdR.get p PRD_RCV_EPOCH ∧ PrdR.flag o PRD_PWR_EVENTS 6 = p.pw.tripLast ∧
      ∀ a, a ∉ [PRD_RCV_EPOCH, PRD_PWR_EVENTS] → PrdR.get o a = (prdReset a).toNat)

/-- THERM_WARN and THERM_THROTTLE show the reading and hold their action from the sensor's threshold until 3 C below
it; a sensor without that threshold has its reading shown alone. THERM_TRIP at the threshold, with power good, asserts
PWR_FAIL and marks the trip; below it, it shows the reading alone. OSFP_OVERCURRENT and a cleared OSFP_CTRL bit switch
the cage off. OCXO_FAIL takes a LOCKED clock to HOLDOVER with its grade at 3 or worse; OCXO_RETURN and OCXO_WARM show
in PRD_CLK_STATUS. TMUX_CFG_WRITE takes effect in PHASE IMAGE alone and never at the OTU; TMUX_SEL_WRITE of a defined
source is stored, of another discarded; a grant for this chip with TESTMUX in scope is live until TMUX_GRANT_EXPIRED.
TAP_INSTRUCTION that drives pins outside reset loads BYPASS; any other is loaded. -/
def Obligations.ThermalClockCageAndTestEvents : Prop :=
  ∀ (s : State) (t : Nat) (p : Prd), p = s.prd.go t →
    (∀ (n : Nat) (v : Int) (a : Nat), (n, a) ∈ [(0, PRD_THERM_HOTSPOT), (1, PRD_THERM_HBM 0), (2, PRD_THERM_HBM 1), (3, PRD_THERM_OCXO), (4, PRD_THERM_INLET)] →
      (∀ lim, (n, lim) ∈ [(0, PrdR.fld p PRD_THERM_CFG 0 8), (1, 85), (2, 85), (3, 75), (4, 40)] → ∃ o, exec (.thermWarn n v t) s = .next (s.withPrd o) ∧
        o = { p with regs := o.regs, cyc := o.cyc, pw := { p.pw with warn := if 16 * (lim : Int) ≤ v then setBit p.pw.warn n else if v ≤ 16 * ((lim : Int) - 3) then clrBit p.pw.warn n else p.pw.warn } } ∧
        PrdR.get o a = (v % 65536).toNat ∧ (o.pw.warn = 0 → PrdR.flag o PRD_PWR_EVENTS 4 = false) ∧ (16 * (lim : Int) ≤ v → bit p.pw.warn n = false → p.pw.warn < 32 → PrdR.flag o PRD_PWR_EVENTS 4 = true) ∧
        ∀ b, b ≠ a → b ≠ PRD_PWR_EVENTS → PrdR.get o b = PrdR.get p b) ∧
      (∀ lim, (n, lim) ∈ [(0, 105), (1, 95), (2, 95)] → ∃ o, exec (.thermThrottle n v t) s = .next (s.withPrd o) ∧
        o = { p with regs := o.regs, cyc := o.cyc, pw := { p.pw with throttle := if 16 * (lim : Int) ≤ v then setBit p.pw.throttle n else if v ≤ 16 * ((lim : Int) - 3) then clrBit p.pw.throttle n else p.pw.throttle } } ∧
        PrdR.get o a = (v % 65536).toNat ∧ (o.pw.throttle = 0 → PrdR.flag o PRD_PWR_EVENTS 5 = false)) ∧
      (3 ≤ n → ∀ i, i ∈ [Instr.thermThrottle n v t, .thermTrip n v t] → exec i s = .next (s.withPrd (PrdR.set p a (v % 65536).toNat))) ∧
      (∀ lim, (n, lim) ∈ [(0, 115), (1, 105), (2, 105)] → (v < 16 * (lim : Int) → exec (.thermTrip n v t) s = .next (s.withPrd (PrdR.set p a (v % 65536).toNat))) ∧
        (16 * (lim : Int) ≤ v → ∃ o, exec (.thermTrip n v t) s = .next (s.withPrd o) ∧
          o = { p with regs := o.regs, cyc := o.cyc, pw := { p.pw with tripLast := p.pw.tripLast || !p.mramProt, fail := if p.pw.on = 2 ∧ p.pw.fail = none then some p.ft else p.pw.fail } } ∧
          PrdR.get o a = (v % 65536).toNat ∧ PrdR.flag o PRD_PWR_EVENTS 6 = true))) ∧
    (∀ u, (4 ≤ u → exec (.osfpOvercurrent u t) s = .next (s.withPrd p)) ∧
      (u < 4 → ∃ o, exec (.osfpOvercurrent u t) s = .next (s.withPrd o) ∧ PrdR.flag o PRD_PWR_EVENTS 2 = true ∧ PrdR.flag o PRD_PWR_STATUS (7 + u) = false ∧ PrdR.flag o (PRD_UL_STATUS u) 0 = false ∧
        o.pw = p.pw ∧ o.rings = p.rings ∧ o.hnr = p.hnr)) ∧
    (∀ v, v < 16 → ∃ o, exec (.osfpCtrlWrite v t) s = .next (s.withPrd o) ∧ PrdR.fld o PRD_PWR_OSFP_CTRL 0 4 = v ∧ o.pw = p.pw ∧ o.rings = p.rings ∧
      ∀ u, u < 4 → PrdR.flag p PRD_PWR_OSFP_CTRL u = true → bit v u = false → PrdR.flag o PRD_PWR_STATUS (7 + u) = false ∧ PrdR.flag o (PRD_UL_STATUS u) 0 = false) ∧
    (∃ o, exec (.ocxoFail t) s = .next (s.withPrd o) ∧ o = { p with regs := o.regs, cyc := o.cyc, evr := o.evr, clk := o.clk, pw := { p.pw with ocxoFail := true } } ∧ o.clk.ft = p.clk.ft ∧
      (p.clk.st = 2 → o.clk.st = 3) ∧ 3 ≤ o.clk.grade ∧ PrdR.flag o PRD_PWR_EVENTS 7 = true ∧ PrdR.flag o PRD_CLK_STATUS 0 = false) ∧
    (∃ o, exec (.ocxoReturn t) s = .next (s.withPrd o) ∧ o = { p with regs := o.regs, pw := { p.pw with ocxoFail := false } } ∧ PrdR.flag o PRD_PWR_EVENTS 7 = false ∧ PrdR.flag o PRD_CLK_STATUS 0 = true ∧
      ∀ a, a ≠ PRD_PWR_EVENTS → a ≠ PRD_CLK_STATUS → PrdR.get o a = PrdR.get p a) ∧
    (∃ o, exec (.ocxoWarm t) s = .next (s.withPrd o) ∧ o = { p with regs := o.regs, cyc := o.cyc } ∧ PrdR.flag o PRD_CLK_STATUS 4 = true ∧ ∀ a, a ≠ PRD_CLK_STATUS → PrdR.get o a = PrdR.get p a) ∧
    (∀ i, exec (.tapInstruction i t) s = .next (s.withPrd { p with pw := { p.pw with
      tap := if i.drives && !p.pw.inReset then .bypass else i, tapRefused := i.drives && !p.pw.inReset } })) ∧
    (∀ id sc uid ex (live : Bool), id < 2 ^ 32 → sc < 256 → uid < 2 ^ 64 → ex < 2 ^ 64 → live = (bit sc 3 && decide (uid = PrdR.get p PRD_UID) && decide (p.ft < ex)) → ∃ o,
      exec (.tmuxGrantWrite id sc uid ex true t) s = .next (s.withPrd o) ∧ o = { p with regs := o.regs, pw := { p.pw with pinLive := o.pw.pinLive } } ∧ PrdR.get o PRD_TMUX_GRANT_ID = id ∧ PrdR.get o PRD_TMUX_GRANT_UID = uid ∧
      PrdR.get o PRD_TMUX_GRANT_EXPIRY = ex ∧ PrdR.fld o PRD_TMUX_GRANT_CTRL 0 8 = sc ∧ PrdR.flag o PRD_TMUX_GRANT_CTRL 9 = live ∧ PrdR.flag o PRD_TMUX_CTRL 1 = (live && PrdR.flag p PRD_TMUX_CTRL 0)) ∧
    (PrdR.get p PRD_TMUX_GRANT_EXPIRY ≤ p.ft → ∃ o, exec (.tmuxGrantExpired t) s = .next (s.withPrd o) ∧ o = { p with regs := o.regs, pw := { p.pw with pinLive := o.pw.pinLive } } ∧ PrdR.flag o PRD_TMUX_GRANT_CTRL 9 = false ∧
      PrdR.flag o PRD_TMUX_CTRL 1 = false ∧ ∀ a, a ≠ PRD_TMUX_GRANT_CTRL → a ≠ PRD_TMUX_CTRL → PrdR.get o a = PrdR.get p a) ∧
    (∀ (e : Edge) (g : Otu) k v, e.ft = t → s.otu.invalid = false → g = s.otu.go e → v < 2 ^ 32 →
      exec (.tmuxCfgWrite .otu v e) s = .next (s.withOtu g) ∧
      (p.phase ≠ 0 → exec (.tmuxCfgWrite .prd v e) s = .next (s.withPrd p)) ∧
      (p.phase = 0 → ∃ o, exec (.tmuxCfgWrite .prd v e) s = .next (s.withPrd o) ∧ o = { p with regs := o.regs, pw := { p.pw with pinLive := o.pw.pinLive } } ∧ PrdR.flag o PRD_TMUX_CTRL 0 = bit v 0) ∧
      ((8 ≤ k ∨ otuSource (v % 4096) = false) → exec (.tmuxSelWrite .otu k v e) s = .next (s.withOtu g)) ∧
      ((16 ≤ k ∨ prdSource (v % 4096) = false) → exec (.tmuxSelWrite .prd k v e) s = .next (s.withPrd p)) ∧
      (k < 8 → otuSource (v % 4096) = true → ∃ o, exec (.tmuxSelWrite .otu k v e) s = .next (s.withOtu o) ∧ o = { g with regs := o.regs } ∧ OtuR.fld o (OTU_TMUX_SEL k) 0 12 = v % 4096 ∧
        ∀ a, a ≠ OTU_TMUX_SEL k → OtuR.get o a = OtuR.get g a) ∧
      (k < 16 → prdSource (v % 4096) = true → ∃ o, exec (.tmuxSelWrite .prd k v e) s = .next (s.withPrd o) ∧ o = { p with regs := o.regs } ∧ PrdR.fld o (PRD_TMUX_SEL k) 0 12 = v % 4096 ∧
        ∀ a, a ≠ PRD_TMUX_SEL k → PrdR.get o a = PrdR.get p a))

/-- REGISTER_WRITE and RC_READ at an address that no window of the path holds, or through a tenant window that is
bound to no job, only move the clock. A 4-byte write of PRD_EXPORT_PERIOD or OTU_FB_PIR stores a value in its range
and discards one outside it, another width is discarded, and a write of an identity register changes nothing; a 4-byte
write of a half of PRD_NOSE_LOAD_ADDR leaves the other half; a write of PRD_BOOT_EVENTS clears the bits written as 1
that no event sets in its cycle. RC_READ of PRD_QP_AUTH_FAIL or OTU_EVR_DROPPED returns the count as it was before its
cycle and leaves what the cycle added; of a register without RC fields it changes nothing. TW_BIND binds a free tag,
refuses tag 0 and one that another window holds, and an access in the cycle of the write still sees the old binding;
so does TW_PAGE_WRITE, in a bound window and with a page in range. BAR4_WIN_WRITE of less than 64 moves the window
from the next cycle. BAR4_WRITE stores its bytes within the software area, and outside it sets an event alone. -/
def Obligations.RegisterAccessesFollowTheTables : Prop :=
  ∀ (s : State) (e : Edge) (g : Otu) (p : Prd) (a v w : Nat), s.otu.invalid = false → g = s.otu.go e → p = s.prd.go e.ft →
    (∀ i, i ∈ [Instr.registerWrite .prd a w v e, .rcRead .prd a e] → 2 ^ 26 ≤ a → exec i s = .next (s.withPrd p)) ∧
    (∀ i, i ∈ [Instr.registerWrite .bar2 a w v e, .rcRead .bar2 a e] → 2 ^ 22 ≤ a → exec i s = .next (s.withPrd p)) ∧
    (∀ i, i ∈ [Instr.registerWrite .otu a w v e, .rcRead .otu a e] → 0x400000 ≤ a → exec i s = .next (s.withOtu g)) ∧
    (∀ n i, i ∈ [Instr.registerWrite (.tenant n) a w v e, .rcRead (.tenant n) a e] → (0x8000 ≤ a ∨ g.winTag n = none) → exec i s = .next (s.withOtu g)) ∧
    (v < 2 ^ 32 → ∃ q, exec (.registerWrite .prd PRD_EXPORT_PERIOD 4 v e) s = .next { s with prd := q } ∧ q = { p with regs := q.regs, buddy := q.buddy } ∧
      PrdR.fld q PRD_EXPORT_PERIOD 0 32 = (if 1000 ≤ v ∧ v ≤ 600000 then v else PrdR.fld p PRD_EXPORT_PERIOD 0 32) ∧ ∀ b, b ≠ PRD_EXPORT_PERIOD → PrdR.get q b = PrdR.get p b) ∧
    ((w = 1 ∨ w = 2 ∨ w = 8) → ∃ q, exec (.registerWrite .prd PRD_EXPORT_PERIOD w v e) s = .next { s with prd := q } ∧ q = { p with buddy := q.buddy }) ∧
    (∃ q, exec (.registerWrite .prd PRD_UID 8 v e) s = .next { s with prd := q } ∧ q = { p with regs := q.regs, buddy := q.buddy } ∧ ∀ b, PrdR.get q b = PrdR.get p b) ∧
    (v < 2 ^ 32 → ∃ q, exec (.registerWrite .prd (PRD_NOSE_LOAD_ADDR + 4) 4 v e) s = .next { s with prd := q } ∧ q = { p with regs := q.regs, buddy := q.buddy } ∧
      PrdR.get q PRD_NOSE_LOAD_ADDR = PrdR.get p PRD_NOSE_LOAD_ADDR % 2 ^ 32 + 2 ^ 32 * v ∧ ∀ b, b ≠ PRD_NOSE_LOAD_ADDR → PrdR.get q b = PrdR.get p b) ∧
    (∃ q, exec (.registerWrite .prd PRD_BOOT_EVENTS 4 v e) s = .next { s with prd := q } ∧ q = { p with regs := q.regs, buddy := q.buddy } ∧
      (∀ k, k < 4 → PrdR.flag q PRD_BOOT_EVENTS k = (PrdR.flag p PRD_BOOT_EVENTS k && (!bit v k || bit (PrdR.hw p PRD_BOOT_EVENTS).2 k))) ∧ ∀ b, b ≠ PRD_BOOT_EVENTS → PrdR.get q b = PrdR.get p b) ∧
    (v < 2 ^ 32 → ∃ o, exec (.registerWrite .otu OTU_FB_PIR 4 v e) s = .next (s.withOtu o) ∧ o = { g with regs := o.regs } ∧
      OtuR.fld o OTU_FB_PIR 0 32 = (if 1000 ≤ v ∧ v ≤ 400000 then v else OtuR.fld g OTU_FB_PIR 0 32) ∧ ∀ b, b ≠ OTU_FB_PIR → OtuR.get o b = OtuR.get g b) ∧
    (∃ q, exec (.rcRead .prd PRD_QP_AUTH_FAIL e) s = .next { s with prd := q } ∧ q = { p with regs := q.regs, buddy := q.buddy, readOut := q.readOut } ∧
      q.readOut % 2 ^ 32 = (PrdR.hw p PRD_QP_AUTH_FAIL).1 % 2 ^ 32 ∧ PrdR.fld q PRD_QP_AUTH_FAIL 0 32 = (PrdR.hw p PRD_QP_AUTH_FAIL).2 % 2 ^ 32 ∧
      ∀ b, b ≠ PRD_QP_AUTH_FAIL → PrdR.get q b = PrdR.get p b) ∧
    (∃ o, exec (.rcRead .otu OTU_EVR_DROPPED e) s = .next (s.withOtu o) ∧ o = { g with regs := o.regs, readOut := o.readOut } ∧
      o.readOut % 2 ^ 32 = (OtuR.hw g OTU_EVR_DROPPED).1 % 2 ^ 32 ∧ OtuR.fld o OTU_EVR_DROPPED 0 32 = (OtuR.hw g OTU_EVR_DROPPED).2 % 2 ^ 32 ∧
      ∀ b, b ≠ OTU_EVR_DROPPED → OtuR.get o b = OtuR.get g b) ∧
    exec (.rcRead .prd PRD_EXPORT_PERIOD e) s = .next (s.withPrd p) ∧
    (∀ n, n < 64 → v < 2 ^ 32 →
      (bit v 16 = true → (v % 2 ^ 16 = 0 ∨ ∃ m, m < 64 ∧ m ≠ n ∧ g.boundTag m = some (v % 2 ^ 16)) → ∃ o, exec (.twBind n v e) s = .next (s.withOtu o) ∧
        o = { g with regs := o.regs, cyc := o.cyc } ∧ OtuR.flag o OTU_GLB_EVENTS 0 = true ∧ ∀ b, b ≠ OTU_GLB_EVENTS → OtuR.get o b = OtuR.get g b) ∧
      (bit v 16 = true → v % 2 ^ 16 ≠ 0 → (∀ m, m < 64 → m ≠ n → g.boundTag m ≠ some (v % 2 ^ 16)) → ∃ o, exec (.twBind n v e) s = .next (s.withOtu o) ∧
        o = { g with regs := o.regs, pageOld := o.pageOld } ∧ o.boundTag n = some (v % 2 ^ 16) ∧ o.winTag n = g.winTag n ∧ ∀ b, b ≠ OTU_TW_BIND n → OtuR.get o b = OtuR.get g b) ∧
      (bit v 16 = false → ∃ o, exec (.twBind n v e) s = .next (s.withOtu o) ∧ o = { g with regs := o.regs, pageOld := o.pageOld, winGone := o.winGone } ∧ o.winGone.lookup n = some g.lt ∧ o.boundTag n = none ∧ o.winTag n = g.winTag n ∧
        OtuR.get o (OTU_TW_ENG_PAGE n) = 0 ∧ OtuR.get o (OTU_TW_Q_PAGE n) = 0)) ∧
    (∀ n pg, pg < 2 ^ 32 →
      ((g.winTag n = none ∨ 32 ≤ pg) → exec (.twPageWrite n false pg e) s = .next (s.withOtu g)) ∧ ((g.winTag n = none ∨ 16 ≤ pg) → exec (.twPageWrite n true pg e) s = .next (s.withOtu g)) ∧
      (g.winTag n ≠ none → pg < 32 → ∃ o, exec (.twPageWrite n false pg e) s = .next (s.withOtu o) ∧ o = { g with regs := o.regs, pageOld := o.pageOld } ∧ OtuR.get o (OTU_TW_ENG_PAGE n) = pg ∧
        o.winReg (2 * n) (OTU_TW_ENG_PAGE n) = g.winReg (2 * n) (OTU_TW_ENG_PAGE n) ∧ ∀ b, b ≠ OTU_TW_ENG_PAGE n → OtuR.get o b = OtuR.get g b) ∧
      (g.winTag n ≠ none → pg < 16 → ∃ o, exec (.twPageWrite n true pg e) s = .next (s.withOtu o) ∧ o = { g with regs := o.regs, pageOld := o.pageOld } ∧ OtuR.get o (OTU_TW_Q_PAGE n) = pg ∧
        o.winReg (2 * n + 1) (OTU_TW_Q_PAGE n) = g.winReg (2 * n + 1) (OTU_TW_Q_PAGE n))) ∧
    (v < 2 ^ 32 → (64 ≤ v → exec (.bar4WinWrite v e.ft) s = .next (s.withPrd p)) ∧
      (v < 64 → ∃ q, exec (.bar4WinWrite v e.ft) s = .next (s.withPrd q) ∧ q = { p with regs := q.regs, bar4 := q.bar4 } ∧ PrdR.get q PRD_BAR4_WIN = v ∧ q.bar4.inForce p.ft = p.bar4.inForce p.ft ∧
        (∀ x, p.ft < x → q.bar4.inForce x = v) ∧ ∀ b, b ≠ PRD_BAR4_WIN → PrdR.get q b = PrdR.get p b)) ∧
    (∀ off l b, 1 ≤ l.length → off + l.length ≤ 2 ^ 32 → b = p.bar4.inForce p.ft * 2 ^ 30 + off →
      (inSoftware b l.length = true → p.meetsStreamed b l.length = false → exec (.bar4Write off l e.ft) s = .next (s.withPrd (if p.mramProt then p else { p with hbm := p.hbm.write b l }))) ∧
      ((inSoftware b l.length = false ∨ p.meetsStreamed b l.length = true) → ∃ q, exec (.bar4Write off l e.ft) s = .next (s.withPrd q) ∧ q = { p with regs := q.regs, cyc := q.cyc } ∧
        PrdR.flag q PRD_GLB_EVENTS 0 = true ∧ ∀ c, c ≠ PRD_GLB_EVENTS → PrdR.get q c = PrdR.get p c))
end

