-- ==== Sys2Proof/Laws/Bits.lean ====
section
/-!
SUPPORT. Laws/Bits.lean: byte sequences, bit fields and saturating counts.
-/
namespace Sys2Proof.Machine
open Sys2Proof

@[simp] theorem le_length (n v : Nat) : (le n v).length = n := by
  induction n generalizing v with
  | zero => rfl
  | succ n ih => simp [le, ih]

/-- A little-endian sequence holds its number, modulo its width. -/
theorem unle_le (n v : Nat) : unle (le n v) = v % 256 ^ n := by
  induction n generalizing v with
  | zero => simp [le, unle, Nat.mod_one]
  | succ n ih =>
    simp only [le, unle, ih, BitVec.toNat_ofNat, Nat.shiftRight_eq_div_pow]
    rw [show (2 : Nat) ^ 8 = 256 from rfl, pow_succ' 256 n, Nat.mod_mul]

/-- A little-endian sequence of a number that fits holds it. -/
theorem unle_le_of_lt {n v : Nat} (h : v < 256 ^ n) : unle (le n v) = v := by
  rw [unle_le, Nat.mod_eq_of_lt h]

/-- Taking the bytes of a field from where it stands. -/
theorem fieldAt_append_right (a b : List Byte) (o n : Nat) (h : a.length ≤ o) :
    fieldAt (a ++ b) o n = fieldAt b (o - a.length) n := by
  simp [fieldAt, List.drop_append, List.drop_eq_nil_of_le h]

/-- A field at the very start. -/
theorem fieldAt_le (n v : Nat) (b : List Byte) : fieldAt (le n v ++ b) 0 n = v % 256 ^ n := by
  simp [fieldAt, unle_le]

/-- A field that ends within the first part. -/
theorem fieldAt_append_left (a b : List Byte) (o n : Nat) (h : o + n ≤ a.length) :
    fieldAt (a ++ b) o n = fieldAt a o n := by
  have h1 : n ≤ (a.drop o).length := by simp; omega
  simp only [fieldAt]
  rw [List.drop_append_of_le_length (by omega), List.take_append_of_le_length h1]

@[simp] theorem zeros_length (n : Nat) : (zeros n).length = n := by simp [zeros]

/-- What a field of a byte sequence can hold. -/
theorem unle_lt (l : List Byte) : unle l < 256 ^ l.length := by
  induction l with
  | nil => simp [unle]
  | cons b r ih =>
    simp only [unle, List.length_cons, Nat.pow_succ]
    have := b.isLt
    omega

@[simp] theorem getF_lt (v lo w : Nat) : getF v lo w < 2 ^ w := Nat.mod_lt _ (Nat.two_pow_pos w)

/-- A saturating count never exceeds its width. -/
theorem satAdd_lt (w v n : Nat) : satAdd w v n < 2 ^ w := by
  have := Nat.two_pow_pos w
  simp only [satAdd]
  omega

/-- Wrapping addition stays in its width. -/
theorem wadd_lt (w a b : Nat) : wadd w a b < 2 ^ w := Nat.mod_lt _ (Nat.two_pow_pos w)

/-- Wrapping subtraction undoes wrapping addition. -/
theorem wsub_wadd (w a b : Nat) (h : a < 2 ^ w) : wsub w (wadd w a b) b = a := by
  have hp := Nat.two_pow_pos w
  have hb : b % 2 ^ w < 2 ^ w := Nat.mod_lt _ hp
  have h1 : (a + b) % 2 ^ w = (a + b % 2 ^ w) % 2 ^ w := by rw [Nat.add_mod_mod]
  simp only [wsub, wadd, h1]
  by_cases hc : a + b % 2 ^ w < 2 ^ w
  · rw [Nat.mod_eq_of_lt hc, show a + b % 2 ^ w + (2 ^ w - b % 2 ^ w) = a + 2 ^ w by omega, Nat.add_mod_right, Nat.mod_eq_of_lt h]
  · have h2 : (a + b % 2 ^ w) % 2 ^ w = a + b % 2 ^ w - 2 ^ w := by
      rw [Nat.mod_eq_sub_mod (by omega), Nat.mod_eq_of_lt (by omega)]
    rw [h2, show a + b % 2 ^ w - 2 ^ w + (2 ^ w - b % 2 ^ w) = a by omega, Nat.mod_eq_of_lt h]

/-! ### Bits and fields -/

theorem bit_testBit (v k : Nat) : bit v k = v.testBit k := by
  simp only [bit, Nat.testBit, Nat.one_and_eq_mod_two]
  rcases Nat.mod_two_eq_zero_or_one (v >>> k) with h | h <;> simp [h]

/-- A bit that was set reads 1; the others read as before. -/
theorem bit_setBit (v k j : Nat) : bit (setBit v k) j = (decide (k = j) || bit v j) := by
  simp only [bit_testBit, setBit, Nat.testBit_or, Nat.testBit_two_pow]
  rw [Bool.or_comm]

/-- Bits below a register's width survive its storage. -/
theorem bit_mod (v w k : Nat) (h : k < w) : bit (v % 2 ^ w) k = bit v k := by
  simp [bit_testBit, Nat.testBit_mod_two_pow, h]

/-- A field that was replaced holds its new value. -/
theorem getF_setF_same (v lo w x : Nat) : getF (setF v lo w x) lo w = x % 2 ^ w := by
  have hp := Nat.two_pow_pos lo
  have hw := Nat.two_pow_pos w
  simp only [getF, setF, Nat.shiftRight_eq_div_pow]
  have h1 : v / 2 ^ lo % 2 ^ w * 2 ^ lo ≤ v := le_trans (Nat.mul_le_mul_right _ (Nat.mod_le _ _)) (Nat.div_mul_le_self v _)
  rw [Nat.add_mul_div_right _ _ hp]
  have h2 : (v - v / 2 ^ lo % 2 ^ w * 2 ^ lo) / 2 ^ lo = v / 2 ^ lo - v / 2 ^ lo % 2 ^ w := by
    rw [mul_comm, Nat.sub_mul_div]
  rw [h2, Nat.add_mod]
  have h3 : (v / 2 ^ lo - v / 2 ^ lo % 2 ^ w) % 2 ^ w = 0 := Nat.sub_mod_eq_zero_of_mod_eq (by simp)
  rw [h3]
  simp

/-- Updating the first element that satisfies `p` with an `f` that keeps `p`. -/
theorem find?_updFirst {α : Type} (p : α → Bool) (f : α → α) (l : List α) (g : α) (h : l.find? p = some g) (hf : p (f g) = p g) :
    (updFirst p f l).find? p = some (f g) := by
  induction l with
  | nil => simp at h
  | cons x r ih =>
    by_cases c : p x = true
    · rw [List.find?_cons_of_pos (p := p) c] at h
      cases h
      simp only [updFirst, c, if_true]
      exact List.find?_cons_of_pos (p := p) (by rw [hf]; exact c)
    · rw [List.find?_cons_of_neg (p := p) c] at h
      simp only [updFirst, c, Bool.false_eq_true, if_false]
      rw [List.find?_cons_of_neg (p := p) c]
      exact ih h

theorem insertBy_length {α : Type} (k : α → Nat) (x : α) (l : List α) : (insertBy k x l).length = l.length + 1 := by
  induction l with
  | nil => rfl
  | cons y r ih => unfold insertBy; split <;> simp [ih]

@[simp] theorem sortBy_length {α : Type} (k : α → Nat) (l : List α) : (sortBy k l).length = l.length := by
  have f : ∀ (l a : List α), (l.foldl (fun a x => insertBy k x a) a).length = a.length + l.length := by
    intro l
    induction l with
    | nil => intro a; rfl
    | cons x r ih => intro a; simp only [List.foldl_cons, ih, insertBy_length, List.length_cons]; omega
  simpa [sortBy] using f l []

theorem insertBy_perm {α : Type} (k : α → Nat) (x : α) (l : List α) : (insertBy k x l).Perm (x :: l) := by
  induction l with
  | nil => exact List.Perm.refl _
  | cons y r ih =>
    unfold insertBy
    split
    · exact List.Perm.refl _
    · exact (List.Perm.cons y ih).trans (List.Perm.swap x y r)

/-- Sorting keeps the elements. -/
theorem sortBy_perm {α : Type} (k : α → Nat) (l : List α) : (sortBy k l).Perm l := by
  have f : ∀ (l a : List α), (l.foldl (fun a x => insertBy k x a) a).Perm (a ++ l) := by
    intro l
    induction l with
    | nil => intro a; simp
    | cons x r ih =>
      intro a
      simp only [List.foldl_cons]
      exact ((ih _).trans ((insertBy_perm k x a).append_right r)).trans (by simpa using (List.perm_middle).symm)
  simpa [sortBy] using f l []

/-- What each step of a fold keeps, the fold keeps. -/
theorem foldl_keeps {α β γ : Type} (g : β → γ) (f : β → α → β) (h : ∀ b a, g (f b a) = g b) (l : List α) : ∀ b, g (l.foldl f b) = g b := by
  induction l with
  | nil => intro b; rfl
  | cons x r ih => intro b; rw [List.foldl_cons, ih, h]

end Sys2Proof.Machine
end

