-- ==== Sys2Proof/Laws/Tbl.lean ====
section
/-!
SUPPORT. Laws/Tbl.lean: sparse tables and byte memories: what a read after a write gives, and that each operation keeps the
canonical form.
-/
namespace Sys2Proof.Machine
open Sys2Proof

variable {α : Type}

/-! ### Reads after writes -/

@[simp] theorem Tbl.get_ins_same (d : Nat → α) (t : List (Nat × α)) (k : Nat) (v : α) : Tbl.get d (Tbl.ins t k v) k = v := by
  induction t with
  | nil => simp [Tbl.ins, Tbl.get]
  | cons e r ih =>
    simp only [Tbl.ins]
    split
    · simp [Tbl.get]
    · split
      · simp [Tbl.get]
      · simp [Tbl.get, *]

theorem Tbl.get_ins_ne (d : Nat → α) (t : List (Nat × α)) {k j : Nat} (v : α) (h : k ≠ j) :
    Tbl.get d (Tbl.ins t k v) j = Tbl.get d t j := by
  induction t with
  | nil => simp [Tbl.ins, Tbl.get, h]
  | cons e r ih =>
    simp only [Tbl.ins]
    split
    · simp_all [Tbl.get]
    · split
      · simp [Tbl.get, h]
      · simp [Tbl.get, ih]

theorem Tbl.get_del_ne (d : Nat → α) (t : List (Nat × α)) {k j : Nat} (h : k ≠ j) : Tbl.get d (Tbl.del t k) j = Tbl.get d t j := by
  induction t with
  | nil => rfl
  | cons e r ih =>
    simp only [Tbl.del]
    split
    · simp_all [Tbl.get]
    · simp [Tbl.get, ih]

@[simp] theorem Tbl.get_del_same (d : Nat → α) (t : List (Nat × α)) (k : Nat) : Tbl.get d (Tbl.del t k) k = d k := by
  induction t with
  | nil => rfl
  | cons e r ih =>
    simp only [Tbl.del]
    split
    · exact ih
    · simp [Tbl.get, *]

/-- A read of what was written. -/
@[simp] theorem Tbl.get_put_same [DecidableEq α] (d : Nat → α) (t : List (Nat × α)) (k : Nat) (v : α) :
    Tbl.get d (Tbl.put d t k v) k = v := by
  simp only [Tbl.put]
  split
  · simp [*]
  · simp

/-- A write leaves every other key alone. -/
theorem Tbl.get_put_ne [DecidableEq α] (d : Nat → α) (t : List (Nat × α)) {k j : Nat} (v : α) (h : k ≠ j) :
    Tbl.get d (Tbl.put d t k v) j = Tbl.get d t j := by
  simp only [Tbl.put]
  split
  · exact Tbl.get_del_ne d t h
  · exact Tbl.get_ins_ne d t v h

/-! ### The canonical form -/

theorem Tbl.sortedFrom_mono (t : List (Nat × α)) {lo lo' : Nat} (h : Tbl.sortedFrom lo t) (hl : lo' ≤ lo) : Tbl.sortedFrom lo' t := by
  cases t with
  | nil => rfl
  | cons e r =>
    simp only [Tbl.sortedFrom, Bool.and_eq_true, decide_eq_true_eq] at h ⊢
    exact ⟨by omega, h.2⟩

theorem Tbl.sortedFrom_del (t : List (Nat × α)) (k : Nat) {lo : Nat} (h : Tbl.sortedFrom lo t) : Tbl.sortedFrom lo (Tbl.del t k) := by
  induction t generalizing lo with
  | nil => rfl
  | cons e r ih =>
    simp only [Tbl.sortedFrom, Bool.and_eq_true, decide_eq_true_eq] at h
    simp only [Tbl.del]
    split
    · exact ih (Tbl.sortedFrom_mono r h.2 (by omega))
    · simp only [Tbl.sortedFrom, Bool.and_eq_true, decide_eq_true_eq]
      exact ⟨h.1, ih h.2⟩

theorem Tbl.sortedFrom_ins (t : List (Nat × α)) (k : Nat) (v : α) {lo : Nat} (h : Tbl.sortedFrom lo t) (hk : lo ≤ k) :
    Tbl.sortedFrom lo (Tbl.ins t k v) := by
  induction t generalizing lo with
  | nil => simp [Tbl.ins, Tbl.sortedFrom, hk]
  | cons e r ih =>
    simp only [Tbl.sortedFrom, Bool.and_eq_true, decide_eq_true_eq] at h
    simp only [Tbl.ins]
    split
    · subst_vars
      simp only [Tbl.sortedFrom, Bool.and_eq_true, decide_eq_true_eq]
      exact ⟨hk, h.2⟩
    · split
      · simp only [Tbl.sortedFrom, Bool.and_eq_true, decide_eq_true_eq]
        exact ⟨hk, by omega, h.2⟩
      · simp only [Tbl.sortedFrom, Bool.and_eq_true, decide_eq_true_eq]
        exact ⟨h.1, ih h.2 (by omega)⟩

theorem Tbl.all_del (p : Nat × α → Bool) (t : List (Nat × α)) (k : Nat) (h : t.all p) : (Tbl.del t k).all p := by
  induction t with
  | nil => rfl
  | cons e r ih =>
    simp only [List.all_cons, Bool.and_eq_true] at h
    simp only [Tbl.del]
    split
    · exact ih h.2
    · simp only [List.all_cons, Bool.and_eq_true]
      exact ⟨h.1, ih h.2⟩

theorem Tbl.all_ins (p : Nat × α → Bool) (t : List (Nat × α)) (k : Nat) (v : α) (h : t.all p) (hv : p (k, v)) :
    (Tbl.ins t k v).all p := by
  induction t with
  | nil => simp [Tbl.ins, hv]
  | cons e r ih =>
    have h0 := h
    simp only [List.all_cons, Bool.and_eq_true] at h
    simp only [Tbl.ins]
    split
    · simp only [List.all_cons, Bool.and_eq_true]
      exact ⟨hv, h.2⟩
    · split
      · simp only [List.all_cons, Bool.and_eq_true]
        exact ⟨hv, h.1, h.2⟩
      · simp only [List.all_cons, Bool.and_eq_true]
        exact ⟨h.1, ih h.2⟩

/-- Below its first key a table holds nothing. -/
theorem Tbl.get_of_lt (d : Nat → α) (t : List (Nat × α)) {k lo : Nat} (h : Tbl.sortedFrom lo t) (hk : k < lo) :
    Tbl.get d t k = d k := by
  induction t generalizing lo with
  | nil => rfl
  | cons e r ih =>
    simp only [Tbl.sortedFrom, Bool.and_eq_true, decide_eq_true_eq] at h
    simp only [Tbl.get]
    rw [if_neg (by omega)]
    exact ih h.2 (by omega)

/-- A write keeps the canonical form. -/
theorem Tbl.wf_put [DecidableEq α] (d : Nat → α) (t : List (Nat × α)) (k : Nat) (v : α) (h : Tbl.wf d t) :
    Tbl.wf d (Tbl.put d t k v) := by
  simp only [Tbl.wf, Bool.and_eq_true] at h ⊢
  simp only [Tbl.put]
  split
  · exact ⟨Tbl.sortedFrom_del t k h.1, Tbl.all_del _ t k h.2⟩
  · exact ⟨Tbl.sortedFrom_ins t k v h.1 (by omega), Tbl.all_ins _ t k v h.2 (by simpa using ‹_›)⟩

/-! ### Byte memories -/

theorem Mem.byte_setByte_same (m : Mem) (a : Nat) (b : Byte) : (m.setByte a b).byte a = b :=
  Tbl.get_put_same _ m a b

theorem Mem.byte_setByte_ne (m : Mem) {a k : Nat} (b : Byte) (h : a ≠ k) : (m.setByte a b).byte k = m.byte k :=
  Tbl.get_put_ne _ m b h

theorem Mem.wf_setByte (m : Mem) (a : Nat) (b : Byte) (h : m.wf) : (m.setByte a b).wf := Tbl.wf_put _ m a b h

/-- A write of bytes keeps the canonical form. -/
theorem Mem.wf_write (m : Mem) (a : Nat) (l : List Byte) (h : m.wf) : (m.write a l).wf := by
  induction l generalizing m a with
  | nil => exact h
  | cons b r ih => exact ih _ _ (Mem.wf_setByte m a b h)

/-- A write of bytes leaves every byte outside it alone. -/
theorem Mem.byte_write_outside (m : Mem) (a : Nat) (l : List Byte) (k : Nat) (h : k < a ∨ a + l.length ≤ k) :
    (m.write a l).byte k = m.byte k := by
  induction l generalizing m a with
  | nil => rfl
  | cons b r ih =>
    simp only [List.length_cons] at h
    simp only [Mem.write]
    rw [ih _ _ (by omega), Mem.byte_setByte_ne _ _ (by omega)]

/-- A write of bytes gives each of them. -/
theorem Mem.byte_write_inside (m : Mem) (a : Nat) (l : List Byte) (i : Nat) (hi : i < l.length) :
    (m.write a l).byte (a + i) = l[i] := by
  induction l generalizing m a i with
  | nil => simp at hi
  | cons b r ih =>
    simp only [Mem.write]
    cases i with
    | zero => simpa using (Mem.byte_write_outside _ (a + 1) r a (by omega)).trans (Mem.byte_setByte_same m a b)
    | succ i =>
      have := ih (m.setByte a b) (a + 1) i (by simpa using hi)
      simpa [Nat.add_assoc, Nat.add_comm 1 i] using this

/-- Reading back what was written. -/
theorem Mem.read_write (m : Mem) (a : Nat) (l : List Byte) : (m.write a l).read a l.length = l := by
  have key : ∀ (n : Nat) (c : Mem) (k : Nat), (c.read k n).length = n := by
    intro n
    induction n with
    | zero => intros; rfl
    | succ n ih => intros; simp [Mem.read, ih]
  have get : ∀ (n : Nat) (c : Mem) (k i : Nat) (hi : i < n), (c.read k n)[i]'(by rw [key]; exact hi) = c.byte (k + i) := by
    intro n
    induction n with
    | zero => intro _ _ i hi; omega
    | succ n ih =>
      intro c k i hi
      cases i with
      | zero => simp [Mem.read]
      | succ i =>
        simp only [Mem.read, List.getElem_cons_succ]
        rw [ih c (k + 1) i (by omega)]
        congr 1
        omega
  apply List.ext_getElem (key _ _ _)
  intro i h1 h2
  rw [get _ _ _ _ h2, Mem.byte_write_inside m a l i h2]

end Sys2Proof.Machine
end

