-- ==== Sys2Proof/Laws/State.lean ====
section
/-!
SUPPORT. Laws/State.lean: what each of the shared updates of the state leaves alone, field by field.
-/
namespace Sys2Proof.Machine
open Sys2Proof

/-! ### A command at one part (R412, R422) -/

@[simp] theorem State.onOtu_prd (s : State) (f : Otu → Otu) : (s.onOtu f).prd = s.prd := rfl
@[simp] theorem State.onOtu_pending (s : State) (f : Otu → Otu) : (s.onOtu f).pending = s.pending := rfl
@[simp] theorem State.onPrd_otu (s : State) (f : Prd → Prd) : (s.onPrd f).otu = s.otu := rfl
@[simp] theorem State.onPrd_pending (s : State) (f : Prd → Prd) : (s.onPrd f).pending = s.pending := rfl
@[simp] theorem State.onPrd_prd (s : State) (f : Prd → Prd) : (s.onPrd f).prd = s.prd.mirrored (f s.prd) := rfl

/-- An OTU whose descriptor is not INVALID takes the whole effect. -/
theorem Otu.contained_valid (a b : Otu) (h : a.invalid = false) : a.contained b = b := by simp [Otu.contained, h]

/-- So does one that a command brings out of that state. -/
theorem Otu.contained_left (a b : Otu) (h : b.invalid = false) : a.contained b = b := by simp [Otu.contained, h]

/-- A command at an OTU whose descriptor is not INVALID. -/
theorem State.onOtu_valid (s : State) (f : Otu → Otu) (h : s.otu.invalid = false) : s.onOtu f = { s with otu := f s.otu } := by
  simp [State.onOtu, Otu.contained_valid _ _ h]

/-- Two commands' effects at the OTU, one after the other. -/
theorem State.onOtu_otu (s : State) (f : Otu → Otu) : (s.onOtu f).otu = s.otu.contained (f s.otu) := rfl

/-! ### Mirroring changes what Priord has sent to its buddy, and nothing else (R422) -/

@[simp] theorem Prd.mirrored_regs (a b : Prd) : (a.mirrored b).regs = b.regs := rfl
@[simp] theorem Prd.mirrored_clk (a b : Prd) : (a.mirrored b).clk = b.clk := rfl
@[simp] theorem Prd.mirrored_ul (a b : Prd) : (a.mirrored b).ul = b.ul := rfl
@[simp] theorem Prd.mirrored_ptpRestart (a b : Prd) : (a.mirrored b).ptpRestart = b.ptpRestart := rfl
@[simp] theorem Prd.mirrored_stepPending (a b : Prd) : (a.mirrored b).stepPending = b.stepPending := rfl
@[simp] theorem Prd.mirrored_src (a b : Prd) : (a.mirrored b).src = b.src := rfl
@[simp] theorem Prd.mirrored_synceSrc (a b : Prd) : (a.mirrored b).synceSrc = b.synceSrc := rfl
@[simp] theorem Prd.mirrored_tw (a b : Prd) : (a.mirrored b).tw = b.tw := rfl
@[simp] theorem Prd.mirrored_evr (a b : Prd) : (a.mirrored b).evr = b.evr := rfl
@[simp] theorem Prd.mirrored_jnl (a b : Prd) : (a.mirrored b).jnl = b.jnl := rfl
@[simp] theorem Prd.mirrored_jnlBank (a b : Prd) : (a.mirrored b).jnlBank = b.jnlBank := rfl
@[simp] theorem Prd.mirrored_mramProt (a b : Prd) : (a.mirrored b).mramProt = b.mramProt := rfl
@[simp] theorem Prd.mirrored_cfg (a b : Prd) : (a.mirrored b).cfg = b.cfg := rfl
@[simp] theorem Prd.mirrored_hnr (a b : Prd) : (a.mirrored b).hnr = b.hnr := rfl
@[simp] theorem Prd.mirrored_ctx (a b : Prd) : (a.mirrored b).ctx = b.ctx := rfl
@[simp] theorem Prd.mirrored_refs (a b : Prd) : (a.mirrored b).refs = b.refs := rfl
@[simp] theorem Prd.mirrored_accs (a b : Prd) : (a.mirrored b).accs = b.accs := rfl
@[simp] theorem Prd.mirrored_accInt (a b : Prd) : (a.mirrored b).accInt = b.accInt := rfl
@[simp] theorem Prd.mirrored_accNext (a b : Prd) : (a.mirrored b).accNext = b.accNext := rfl
@[simp] theorem Prd.mirrored_accPrev (a b : Prd) : (a.mirrored b).accPrev = b.accPrev := rfl
@[simp] theorem Prd.mirrored_accSwitch (a b : Prd) : (a.mirrored b).accSwitch = b.accSwitch := rfl
@[simp] theorem Prd.mirrored_nans (a b : Prd) : (a.mirrored b).nans = b.nans := rfl
@[simp] theorem Prd.mirrored_tree (a b : Prd) : (a.mirrored b).tree = b.tree := rfl
@[simp] theorem Prd.mirrored_hangs (a b : Prd) : (a.mirrored b).hangs = b.hangs := rfl
@[simp] theorem Prd.mirrored_results (a b : Prd) : (a.mirrored b).results = b.results := rfl
@[simp] theorem Prd.mirrored_resTimeouts (a b : Prd) : (a.mirrored b).resTimeouts = b.resTimeouts := rfl
@[simp] theorem Prd.mirrored_orders (a b : Prd) : (a.mirrored b).orders = b.orders := rfl
@[simp] theorem Prd.mirrored_dp (a b : Prd) : (a.mirrored b).dp = b.dp := rfl
@[simp] theorem Prd.mirrored_ulq (a b : Prd) : (a.mirrored b).ulq = b.ulq := rfl
@[simp] theorem Prd.mirrored_ingest (a b : Prd) : (a.mirrored b).ingest = b.ingest := rfl
@[simp] theorem Prd.mirrored_ingestRate (a b : Prd) : (a.mirrored b).ingestRate = b.ingestRate := rfl
@[simp] theorem Prd.mirrored_ingestAt (a b : Prd) : (a.mirrored b).ingestAt = b.ingestAt := rfl
@[simp] theorem Prd.mirrored_nose (a b : Prd) : (a.mirrored b).nose = b.nose := rfl
@[simp] theorem Prd.mirrored_divs (a b : Prd) : (a.mirrored b).divs = b.divs := rfl
@[simp] theorem Prd.mirrored_clockClass (a b : Prd) : (a.mirrored b).clockClass = b.clockClass := rfl
@[simp] theorem Prd.mirrored_goneAccs (a b : Prd) : (a.mirrored b).goneAccs = b.goneAccs := rfl
@[simp] theorem Prd.mirrored_strobes (a b : Prd) : (a.mirrored b).strobes = b.strobes := rfl
@[simp] theorem Prd.mirrored_cyc (a b : Prd) : (a.mirrored b).cyc = b.cyc := rfl
@[simp] theorem Prd.mirrored_loopCfg (a b : Prd) : (a.mirrored b).loopCfg = b.loopCfg := rfl
@[simp] theorem Prd.mirrored_gapRuns (a b : Prd) : (a.mirrored b).gapRuns = b.gapRuns := rfl
@[simp] theorem Prd.mirrored_hbm (a b : Prd) : (a.mirrored b).hbm = b.hbm := rfl
@[simp] theorem Prd.mirrored_rings (a b : Prd) : (a.mirrored b).rings = b.rings := rfl
@[simp] theorem Prd.mirrored_mgmt (a b : Prd) : (a.mirrored b).mgmt = b.mgmt := rfl
@[simp] theorem Prd.mirrored_pw (a b : Prd) : (a.mirrored b).pw = b.pw := rfl
@[simp] theorem Prd.mirrored_bar4 (a b : Prd) : (a.mirrored b).bar4 = b.bar4 := rfl
@[simp] theorem Prd.mirrored_feeds (a b : Prd) : (a.mirrored b).feeds = b.feeds := rfl
@[simp] theorem Prd.mirrored_readOut (a b : Prd) : (a.mirrored b).readOut = b.readOut := rfl
@[simp] theorem Prd.mirrored_free (a b : Prd) : (a.mirrored b).free = b.free := rfl
@[simp] theorem Prd.mirrored_buddy_store (a b : Prd) : (a.mirrored b).buddy.store = b.buddy.store := by
  simp only [Prd.mirrored]; split <;> rfl
@[simp] theorem Prd.mirrored_buddy_served (a b : Prd) : (a.mirrored b).buddy.served = b.buddy.served := by
  simp only [Prd.mirrored]; split <;> rfl
@[simp] theorem Prd.mirrored_buddy_since (a b : Prd) : (a.mirrored b).buddy.since = b.buddy.since := by
  simp only [Prd.mirrored]; split <;> rfl
@[simp] theorem Prd.mirrored_buddy_askedAt (a b : Prd) : (a.mirrored b).buddy.askedAt = b.buddy.askedAt := by
  simp only [Prd.mirrored]; split <;> rfl
@[simp] theorem Prd.mirrored_buddy_epochs (a b : Prd) : (a.mirrored b).buddy.epochs = b.buddy.epochs := by
  simp only [Prd.mirrored]; split <;> rfl
@[simp] theorem Prd.mirrored_buddy_lastExport (a b : Prd) : (a.mirrored b).buddy.lastExport = b.buddy.lastExport := by
  simp only [Prd.mirrored]; split <;> rfl
@[simp] theorem Prd.mirrored_buddy_gap (a b : Prd) : (a.mirrored b).buddy.gap = b.buddy.gap := by
  simp only [Prd.mirrored]; split <;> rfl
@[simp] theorem Prd.mirrored_buddy_ringAt (a b : Prd) : (a.mirrored b).buddy.ringAt = b.buddy.ringAt := by
  simp only [Prd.mirrored]; split <;> rfl

/-- Without mirroring a command has its effect alone. -/
theorem Prd.mirrored_off (a b : Prd) (h : b.mirrors = false) : a.mirrored b = b := by simp [Prd.mirrored, h]

/-! ### Registers that hardware sets -/

@[simp] theorem OtuR.set_lt (o : Otu) (a v : Nat) : (OtuR.set o a v).lt = o.lt := rfl
@[simp] theorem OtuR.set_clk (o : Otu) (a v : Nat) : (OtuR.set o a v).clk = o.clk := rfl
@[simp] theorem OtuR.set_trayLock (o : Otu) (a v : Nat) : (OtuR.set o a v).trayLock = o.trayLock := rfl
@[simp] theorem OtuR.set_prdGrade (o : Otu) (a v : Nat) : (OtuR.set o a v).prdGrade = o.prdGrade := rfl
@[simp] theorem OtuR.set_prdErr (o : Otu) (a v : Nat) : (OtuR.set o a v).prdErr = o.prdErr := rfl
@[simp] theorem OtuR.set_asym (o : Otu) (a v : Nat) : (OtuR.set o a v).asym = o.asym := rfl
@[simp] theorem OtuR.set_marks (o : Otu) (a v : Nat) : (OtuR.set o a v).marks = o.marks := rfl
@[simp] theorem OtuR.set_lastFw (o : Otu) (a v : Nat) : (OtuR.set o a v).lastFw = o.lastFw := rfl
@[simp] theorem OtuR.set_gch (o : Otu) (a v : Nat) : (OtuR.set o a v).gch = o.gch := rfl
@[simp] theorem OtuR.set_staleDue (o : Otu) (a v : Nat) : (OtuR.set o a v).staleDue = o.staleDue := rfl
@[simp] theorem OtuR.set_rxNext (o : Otu) (a v : Nat) : (OtuR.set o a v).rxNext = o.rxNext := rfl
@[simp] theorem OtuR.set_rxHunt (o : Otu) (a v : Nat) : (OtuR.set o a v).rxHunt = o.rxHunt := rfl
@[simp] theorem OtuR.set_rxMsg (o : Otu) (a v : Nat) : (OtuR.set o a v).rxMsg = o.rxMsg := rfl
@[simp] theorem OtuR.set_fresh (o : Otu) (a v : Nat) : (OtuR.set o a v).fresh = o.fresh := rfl
@[simp] theorem OtuR.set_told (o : Otu) (a v : Nat) : (OtuR.set o a v).told = o.told := rfl
@[simp] theorem OtuR.set_winGone (o : Otu) (a v : Nat) : (OtuR.set o a v).winGone = o.winGone := rfl
@[simp] theorem OtuR.set_strobes (o : Otu) (a v : Nat) : (OtuR.set o a v).strobes = o.strobes := rfl
@[simp] theorem OtuR.set_cyc (o : Otu) (a v : Nat) : (OtuR.set o a v).cyc = o.cyc := rfl
@[simp] theorem OtuR.set_period (o : Otu) (a v : Nat) : (OtuR.set o a v).period = o.period := rfl
@[simp] theorem OtuR.set_jobs (o : Otu) (a v : Nat) : (OtuR.set o a v).jobs = o.jobs := rfl
@[simp] theorem OtuR.set_acc (o : Otu) (a v : Nat) : (OtuR.set o a v).acc = o.acc := rfl
@[simp] theorem OtuR.set_dctr (o : Otu) (a v : Nat) : (OtuR.set o a v).dctr = o.dctr := rfl
@[simp] theorem OtuR.set_engs (o : Otu) (a v : Nat) : (OtuR.set o a v).engs = o.engs := rfl
@[simp] theorem OtuR.set_gchNext (o : Otu) (a v : Nat) : (OtuR.set o a v).gchNext = o.gchNext := rfl
@[simp] theorem OtuR.set_gchSeq (o : Otu) (a v : Nat) : (OtuR.set o a v).gchSeq = o.gchSeq := rfl
@[simp] theorem OtuR.set_grants (o : Otu) (a v : Nat) : (OtuR.set o a v).grants = o.grants := rfl
@[simp] theorem OtuR.set_step (o : Otu) (a v : Nat) : (OtuR.set o a v).step = o.step := rfl
@[simp] theorem OtuR.set_mirror (o : Otu) (a v : Nat) : (OtuR.set o a v).mirror = o.mirror := rfl
@[simp] theorem OtuR.set_canPtr (o : Otu) (a v : Nat) : (OtuR.set o a v).canPtr = o.canPtr := rfl
@[simp] theorem OtuR.set_sil (o : Otu) (a v : Nat) : (OtuR.set o a v).sil = o.sil := rfl
@[simp] theorem OtuR.set_silSeq (o : Otu) (a v : Nat) : (OtuR.set o a v).silSeq = o.silSeq := rfl
@[simp] theorem OtuR.set_armed (o : Otu) (a v : Nat) : (OtuR.set o a v).armed = o.armed := rfl
@[simp] theorem OtuR.set_bmaps (o : Otu) (a v : Nat) : (OtuR.set o a v).bmaps = o.bmaps := rfl
@[simp] theorem OtuR.set_answers (o : Otu) (a v : Nat) : (OtuR.set o a v).answers = o.answers := rfl
@[simp] theorem OtuR.set_retracted (o : Otu) (a v : Nat) : (OtuR.set o a v).retracted = o.retracted := rfl
@[simp] theorem OtuR.set_weights (o : Otu) (a v : Nat) : (OtuR.set o a v).weights = o.weights := rfl
@[simp] theorem OtuR.set_hashing (o : Otu) (a v : Nat) : (OtuR.set o a v).hashing = o.hashing := rfl
@[simp] theorem OtuR.set_inputs (o : Otu) (a v : Nat) : (OtuR.set o a v).inputs = o.inputs := rfl
@[simp] theorem OtuR.set_inputOvf (o : Otu) (a v : Nat) : (OtuR.set o a v).inputOvf = o.inputOvf := rfl
@[simp] theorem OtuR.set_resMark (o : Otu) (a v : Nat) : (OtuR.set o a v).resMark = o.resMark := rfl
@[simp] theorem OtuR.set_queues (o : Otu) (a v : Nat) : (OtuR.set o a v).queues = o.queues := rfl
@[simp] theorem OtuR.set_qsLossy (o : Otu) (a v : Nat) : (OtuR.set o a v).qsLossy = o.qsLossy := rfl
@[simp] theorem OtuR.set_qsLast (o : Otu) (a v : Nat) : (OtuR.set o a v).qsLast = o.qsLast := rfl
@[simp] theorem OtuR.set_qOld (o : Otu) (a v : Nat) : (OtuR.set o a v).qOld = o.qOld := rfl
@[simp] theorem OtuR.set_hbm (o : Otu) (a v : Nat) : (OtuR.set o a v).hbm = o.hbm := rfl
@[simp] theorem OtuR.set_waits (o : Otu) (a v : Nat) : (OtuR.set o a v).waits = o.waits := rfl
@[simp] theorem OtuR.set_waitId (o : Otu) (a v : Nat) : (OtuR.set o a v).waitId = o.waitId := rfl
@[simp] theorem OtuR.set_link (o : Otu) (a v : Nat) : (OtuR.set o a v).link = o.link := rfl
@[simp] theorem OtuR.set_resync (o : Otu) (a v : Nat) : (OtuR.set o a v).resync = o.resync := rfl
@[simp] theorem OtuR.set_txSeq (o : Otu) (a v : Nat) : (OtuR.set o a v).txSeq = o.txSeq := rfl
@[simp] theorem OtuR.set_eq (o : Otu) (a v : Nat) : (OtuR.set o a v).eq = o.eq := rfl
@[simp] theorem OtuR.set_eqs (o : Otu) (a v : Nat) : (OtuR.set o a v).eqs = o.eqs := rfl
@[simp] theorem OtuR.set_gate (o : Otu) (a v : Nat) : (OtuR.set o a v).gate = o.gate := rfl
@[simp] theorem OtuR.set_fb (o : Otu) (a v : Nat) : (OtuR.set o a v).fb = o.fb := rfl
@[simp] theorem OtuR.set_relay (o : Otu) (a v : Nat) : (OtuR.set o a v).relay = o.relay := rfl
@[simp] theorem OtuR.set_fbLast (o : Otu) (a v : Nat) : (OtuR.set o a v).fbLast = o.fbLast := rfl
@[simp] theorem OtuR.set_fbPart (o : Otu) (a v : Nat) : (OtuR.set o a v).fbPart = o.fbPart := rfl
@[simp] theorem OtuR.set_fbOut (o : Otu) (a v : Nat) : (OtuR.set o a v).fbOut = o.fbOut := rfl
@[simp] theorem OtuR.set_relayPart (o : Otu) (a v : Nat) : (OtuR.set o a v).relayPart = o.relayPart := rfl
@[simp] theorem OtuR.set_evr (o : Otu) (a v : Nat) : (OtuR.set o a v).evr = o.evr := rfl
@[simp] theorem OtuR.set_pageOld (o : Otu) (a v : Nat) : (OtuR.set o a v).pageOld = o.pageOld := rfl
@[simp] theorem OtuR.set_feeds (o : Otu) (a v : Nat) : (OtuR.set o a v).feeds = o.feeds := rfl
@[simp] theorem OtuR.set_readOut (o : Otu) (a v : Nat) : (OtuR.set o a v).readOut = o.readOut := rfl
@[simp] theorem OtuR.set_free (o : Otu) (a v : Nat) : (OtuR.set o a v).free = o.free := rfl
@[simp] theorem PrdR.set_clk (o : Prd) (a v : Nat) : (PrdR.set o a v).clk = o.clk := rfl
@[simp] theorem PrdR.set_ul (o : Prd) (a v : Nat) : (PrdR.set o a v).ul = o.ul := rfl
@[simp] theorem PrdR.set_ptpRestart (o : Prd) (a v : Nat) : (PrdR.set o a v).ptpRestart = o.ptpRestart := rfl
@[simp] theorem PrdR.set_stepPending (o : Prd) (a v : Nat) : (PrdR.set o a v).stepPending = o.stepPending := rfl
@[simp] theorem PrdR.set_src (o : Prd) (a v : Nat) : (PrdR.set o a v).src = o.src := rfl
@[simp] theorem PrdR.set_synceSrc (o : Prd) (a v : Nat) : (PrdR.set o a v).synceSrc = o.synceSrc := rfl
@[simp] theorem PrdR.set_tw (o : Prd) (a v : Nat) : (PrdR.set o a v).tw = o.tw := rfl
@[simp] theorem PrdR.set_evr (o : Prd) (a v : Nat) : (PrdR.set o a v).evr = o.evr := rfl
@[simp] theorem PrdR.set_jnl (o : Prd) (a v : Nat) : (PrdR.set o a v).jnl = o.jnl := rfl
@[simp] theorem PrdR.set_jnlBank (o : Prd) (a v : Nat) : (PrdR.set o a v).jnlBank = o.jnlBank := rfl
@[simp] theorem PrdR.set_mramProt (o : Prd) (a v : Nat) : (PrdR.set o a v).mramProt = o.mramProt := rfl
@[simp] theorem PrdR.set_cfg (o : Prd) (a v : Nat) : (PrdR.set o a v).cfg = o.cfg := rfl
@[simp] theorem PrdR.set_hnr (o : Prd) (a v : Nat) : (PrdR.set o a v).hnr = o.hnr := rfl
@[simp] theorem PrdR.set_ctx (o : Prd) (a v : Nat) : (PrdR.set o a v).ctx = o.ctx := rfl
@[simp] theorem PrdR.set_refs (o : Prd) (a v : Nat) : (PrdR.set o a v).refs = o.refs := rfl
@[simp] theorem PrdR.set_accs (o : Prd) (a v : Nat) : (PrdR.set o a v).accs = o.accs := rfl
@[simp] theorem PrdR.set_accInt (o : Prd) (a v : Nat) : (PrdR.set o a v).accInt = o.accInt := rfl
@[simp] theorem PrdR.set_accNext (o : Prd) (a v : Nat) : (PrdR.set o a v).accNext = o.accNext := rfl
@[simp] theorem PrdR.set_accPrev (o : Prd) (a v : Nat) : (PrdR.set o a v).accPrev = o.accPrev := rfl
@[simp] theorem PrdR.set_accSwitch (o : Prd) (a v : Nat) : (PrdR.set o a v).accSwitch = o.accSwitch := rfl
@[simp] theorem PrdR.set_nans (o : Prd) (a v : Nat) : (PrdR.set o a v).nans = o.nans := rfl
@[simp] theorem PrdR.set_tree (o : Prd) (a v : Nat) : (PrdR.set o a v).tree = o.tree := rfl
@[simp] theorem PrdR.set_hangs (o : Prd) (a v : Nat) : (PrdR.set o a v).hangs = o.hangs := rfl
@[simp] theorem PrdR.set_results (o : Prd) (a v : Nat) : (PrdR.set o a v).results = o.results := rfl
@[simp] theorem PrdR.set_resTimeouts (o : Prd) (a v : Nat) : (PrdR.set o a v).resTimeouts = o.resTimeouts := rfl
@[simp] theorem PrdR.set_orders (o : Prd) (a v : Nat) : (PrdR.set o a v).orders = o.orders := rfl
@[simp] theorem PrdR.set_dp (o : Prd) (a v : Nat) : (PrdR.set o a v).dp = o.dp := rfl
@[simp] theorem PrdR.set_ulq (o : Prd) (a v : Nat) : (PrdR.set o a v).ulq = o.ulq := rfl
@[simp] theorem PrdR.set_ingest (o : Prd) (a v : Nat) : (PrdR.set o a v).ingest = o.ingest := rfl
@[simp] theorem PrdR.set_ingestRate (o : Prd) (a v : Nat) : (PrdR.set o a v).ingestRate = o.ingestRate := rfl
@[simp] theorem PrdR.set_ingestAt (o : Prd) (a v : Nat) : (PrdR.set o a v).ingestAt = o.ingestAt := rfl
@[simp] theorem PrdR.set_nose (o : Prd) (a v : Nat) : (PrdR.set o a v).nose = o.nose := rfl
@[simp] theorem PrdR.set_divs (o : Prd) (a v : Nat) : (PrdR.set o a v).divs = o.divs := rfl
@[simp] theorem PrdR.set_clockClass (o : Prd) (a v : Nat) : (PrdR.set o a v).clockClass = o.clockClass := rfl
@[simp] theorem PrdR.set_goneAccs (o : Prd) (a v : Nat) : (PrdR.set o a v).goneAccs = o.goneAccs := rfl
@[simp] theorem PrdR.set_strobes (o : Prd) (a v : Nat) : (PrdR.set o a v).strobes = o.strobes := rfl
@[simp] theorem PrdR.set_cyc (o : Prd) (a v : Nat) : (PrdR.set o a v).cyc = o.cyc := rfl
@[simp] theorem PrdR.set_loopCfg (o : Prd) (a v : Nat) : (PrdR.set o a v).loopCfg = o.loopCfg := rfl
@[simp] theorem PrdR.set_gapRuns (o : Prd) (a v : Nat) : (PrdR.set o a v).gapRuns = o.gapRuns := rfl
@[simp] theorem PrdR.set_hbm (o : Prd) (a v : Nat) : (PrdR.set o a v).hbm = o.hbm := rfl
@[simp] theorem PrdR.set_rings (o : Prd) (a v : Nat) : (PrdR.set o a v).rings = o.rings := rfl
@[simp] theorem PrdR.set_mgmt (o : Prd) (a v : Nat) : (PrdR.set o a v).mgmt = o.mgmt := rfl
@[simp] theorem PrdR.set_buddy (o : Prd) (a v : Nat) : (PrdR.set o a v).buddy = o.buddy := rfl
@[simp] theorem PrdR.set_pw (o : Prd) (a v : Nat) : (PrdR.set o a v).pw = o.pw := rfl
@[simp] theorem PrdR.set_bar4 (o : Prd) (a v : Nat) : (PrdR.set o a v).bar4 = o.bar4 := rfl
@[simp] theorem PrdR.set_feeds (o : Prd) (a v : Nat) : (PrdR.set o a v).feeds = o.feeds := rfl
@[simp] theorem PrdR.set_readOut (o : Prd) (a v : Nat) : (PrdR.set o a v).readOut = o.readOut := rfl
@[simp] theorem PrdR.set_free (o : Prd) (a v : Nat) : (PrdR.set o a v).free = o.free := rfl

/-- A read of the register that was set. -/
theorem OtuR.get_set_same (o : Otu) (a v : Nat) : OtuR.get (OtuR.set o a v) a = v % 2 ^ 64 := by
  simp [OtuR.get, OtuR.set, Tbl.get_put_same]

/-- A read of any other register. -/
theorem OtuR.get_set_ne (o : Otu) {a k : Nat} (v : Nat) (h : a ≠ k) : OtuR.get (OtuR.set o a v) k = OtuR.get o k := by
  simp [OtuR.get, OtuR.set, Tbl.get_put_ne _ _ _ h]

/-- Setting a register keeps the canonical form. -/
theorem OtuR.wf_set (o : Otu) (a v : Nat) (h : Tbl.wf otuReset o.regs) : Tbl.wf otuReset (OtuR.set o a v).regs :=
  Tbl.wf_put _ _ _ _ h


/-- A read of the register that was set. -/
theorem PrdR.get_set_same (o : Prd) (a v : Nat) : PrdR.get (PrdR.set o a v) a = v % 2 ^ 64 := by
  simp [PrdR.get, PrdR.set, Tbl.get_put_same]

/-- A read of any other register. -/
theorem PrdR.get_set_ne (o : Prd) {a k : Nat} (v : Nat) (h : a ≠ k) : PrdR.get (PrdR.set o a v) k = PrdR.get o k := by
  simp [PrdR.get, PrdR.set, Tbl.get_put_ne _ _ _ h]

/-- Setting a register keeps the canonical form. -/
theorem PrdR.wf_set (o : Prd) (a v : Nat) (h : Tbl.wf prdReset o.regs) : Tbl.wf prdReset (PrdR.set o a v).regs :=
  Tbl.wf_put _ _ _ _ h

/-! ### Time moves -/

@[simp] theorem Otu.go_regs (o : Otu) (e : Edge) : (o.go e).regs = o.regs := rfl
@[simp] theorem Otu.go_trayLock (o : Otu) (e : Edge) : (o.go e).trayLock = o.trayLock := rfl
@[simp] theorem Otu.go_prdGrade (o : Otu) (e : Edge) : (o.go e).prdGrade = o.prdGrade := rfl
@[simp] theorem Otu.go_prdErr (o : Otu) (e : Edge) : (o.go e).prdErr = o.prdErr := rfl
@[simp] theorem Otu.go_asym (o : Otu) (e : Edge) : (o.go e).asym = o.asym := rfl
@[simp] theorem Otu.go_marks (o : Otu) (e : Edge) : (o.go e).marks = o.marks := rfl
@[simp] theorem Otu.go_lastFw (o : Otu) (e : Edge) : (o.go e).lastFw = o.lastFw := rfl
@[simp] theorem Otu.go_gch (o : Otu) (e : Edge) : (o.go e).gch = o.gch := rfl
@[simp] theorem Otu.go_staleDue (o : Otu) (e : Edge) : (o.go e).staleDue = o.staleDue := rfl
@[simp] theorem Otu.go_rxNext (o : Otu) (e : Edge) : (o.go e).rxNext = o.rxNext := rfl
@[simp] theorem Otu.go_rxHunt (o : Otu) (e : Edge) : (o.go e).rxHunt = o.rxHunt := rfl
@[simp] theorem Otu.go_rxMsg (o : Otu) (e : Edge) : (o.go e).rxMsg = o.rxMsg := rfl
@[simp] theorem Otu.go_fresh (o : Otu) (e : Edge) : (o.go e).fresh = o.fresh := rfl
@[simp] theorem Otu.go_told (o : Otu) (e : Edge) : (o.go e).told = o.told := rfl
@[simp] theorem Otu.go_winGone (o : Otu) (e : Edge) : (o.go e).winGone = o.winGone := rfl
@[simp] theorem Otu.go_strobes (o : Otu) (e : Edge) : (o.go e).strobes = o.strobes := rfl
@[simp] theorem Otu.go_period (o : Otu) (e : Edge) : (o.go e).period = o.period := rfl
@[simp] theorem Otu.go_jobs (o : Otu) (e : Edge) : (o.go e).jobs = o.jobs := rfl
@[simp] theorem Otu.go_acc (o : Otu) (e : Edge) : (o.go e).acc = o.acc := rfl
@[simp] theorem Otu.go_dctr (o : Otu) (e : Edge) : (o.go e).dctr = o.dctr := rfl
@[simp] theorem Otu.go_engs (o : Otu) (e : Edge) : (o.go e).engs = o.engs := rfl
@[simp] theorem Otu.go_gchNext (o : Otu) (e : Edge) : (o.go e).gchNext = o.gchNext := rfl
@[simp] theorem Otu.go_gchSeq (o : Otu) (e : Edge) : (o.go e).gchSeq = o.gchSeq := rfl
@[simp] theorem Otu.go_grants (o : Otu) (e : Edge) : (o.go e).grants = o.grants := rfl
@[simp] theorem Otu.go_step (o : Otu) (e : Edge) : (o.go e).step = o.step := rfl
@[simp] theorem Otu.go_mirror (o : Otu) (e : Edge) : (o.go e).mirror = o.mirror := rfl
@[simp] theorem Otu.go_canPtr (o : Otu) (e : Edge) : (o.go e).canPtr = o.canPtr := rfl
@[simp] theorem Otu.go_sil (o : Otu) (e : Edge) : (o.go e).sil = o.sil := rfl
@[simp] theorem Otu.go_silSeq (o : Otu) (e : Edge) : (o.go e).silSeq = o.silSeq := rfl
@[simp] theorem Otu.go_armed (o : Otu) (e : Edge) : (o.go e).armed = o.armed := rfl
@[simp] theorem Otu.go_bmaps (o : Otu) (e : Edge) : (o.go e).bmaps = o.bmaps := rfl
@[simp] theorem Otu.go_answers (o : Otu) (e : Edge) : (o.go e).answers = o.answers := rfl
@[simp] theorem Otu.go_retracted (o : Otu) (e : Edge) : (o.go e).retracted = o.retracted := rfl
@[simp] theorem Otu.go_weights (o : Otu) (e : Edge) : (o.go e).weights = o.weights := rfl
@[simp] theorem Otu.go_hashing (o : Otu) (e : Edge) : (o.go e).hashing = o.hashing := rfl
@[simp] theorem Otu.go_inputs (o : Otu) (e : Edge) : (o.go e).inputs = o.inputs := rfl
@[simp] theorem Otu.go_inputOvf (o : Otu) (e : Edge) : (o.go e).inputOvf = o.inputOvf := rfl
@[simp] theorem Otu.go_resMark (o : Otu) (e : Edge) : (o.go e).resMark = o.resMark := rfl
@[simp] theorem Otu.go_queues (o : Otu) (e : Edge) : (o.go e).queues = o.queues := rfl
@[simp] theorem Otu.go_qsLossy (o : Otu) (e : Edge) : (o.go e).qsLossy = o.qsLossy := rfl
@[simp] theorem Otu.go_qsLast (o : Otu) (e : Edge) : (o.go e).qsLast = o.qsLast := rfl
@[simp] theorem Otu.go_qOld (o : Otu) (e : Edge) : (o.go e).qOld = o.qOld := rfl
@[simp] theorem Otu.go_hbm (o : Otu) (e : Edge) : (o.go e).hbm = o.hbm := rfl
@[simp] theorem Otu.go_waits (o : Otu) (e : Edge) : (o.go e).waits = o.waits := rfl
@[simp] theorem Otu.go_waitId (o : Otu) (e : Edge) : (o.go e).waitId = o.waitId := rfl
@[simp] theorem Otu.go_link (o : Otu) (e : Edge) : (o.go e).link = o.link := rfl
@[simp] theorem Otu.go_resync (o : Otu) (e : Edge) : (o.go e).resync = o.resync := rfl
@[simp] theorem Otu.go_txSeq (o : Otu) (e : Edge) : (o.go e).txSeq = o.txSeq := rfl
@[simp] theorem Otu.go_eq (o : Otu) (e : Edge) : (o.go e).eq = o.eq := rfl
@[simp] theorem Otu.go_eqs (o : Otu) (e : Edge) : (o.go e).eqs = o.eqs := rfl
@[simp] theorem Otu.go_gate (o : Otu) (e : Edge) : (o.go e).gate = o.gate := rfl
@[simp] theorem Otu.go_fb (o : Otu) (e : Edge) : (o.go e).fb = o.fb := rfl
@[simp] theorem Otu.go_relay (o : Otu) (e : Edge) : (o.go e).relay = o.relay := rfl
@[simp] theorem Otu.go_fbLast (o : Otu) (e : Edge) : (o.go e).fbLast = o.fbLast := rfl
@[simp] theorem Otu.go_fbPart (o : Otu) (e : Edge) : (o.go e).fbPart = o.fbPart := rfl
@[simp] theorem Otu.go_fbOut (o : Otu) (e : Edge) : (o.go e).fbOut = o.fbOut := rfl
@[simp] theorem Otu.go_relayPart (o : Otu) (e : Edge) : (o.go e).relayPart = o.relayPart := rfl
@[simp] theorem Otu.go_evr (o : Otu) (e : Edge) : (o.go e).evr = o.evr := rfl
@[simp] theorem Otu.go_pageOld (o : Otu) (e : Edge) : (o.go e).pageOld = o.pageOld := rfl
@[simp] theorem Otu.go_feeds (o : Otu) (e : Edge) : (o.go e).feeds = o.feeds := rfl
@[simp] theorem Otu.go_readOut (o : Otu) (e : Edge) : (o.go e).readOut = o.readOut := rfl
@[simp] theorem Otu.go_free (o : Otu) (e : Edge) : (o.go e).free = o.free := rfl
@[simp] theorem Otu.go_lt (o : Otu) (e : Edge) : (o.go e).lt = max o.lt e.lt := rfl
@[simp] theorem Prd.openCtx_regs (o : Prd) : o.openCtx.regs = o.regs := by simp only [Prd.openCtx]; split <;> rfl
@[simp] theorem Prd.openCtx_ul (o : Prd) : o.openCtx.ul = o.ul := by simp only [Prd.openCtx]; split <;> rfl
@[simp] theorem Prd.openCtx_ptpRestart (o : Prd) : o.openCtx.ptpRestart = o.ptpRestart := by simp only [Prd.openCtx]; split <;> rfl
@[simp] theorem Prd.openCtx_stepPending (o : Prd) : o.openCtx.stepPending = o.stepPending := by simp only [Prd.openCtx]; split <;> rfl
@[simp] theorem Prd.openCtx_src (o : Prd) : o.openCtx.src = o.src := by simp only [Prd.openCtx]; split <;> rfl
@[simp] theorem Prd.openCtx_synceSrc (o : Prd) : o.openCtx.synceSrc = o.synceSrc := by simp only [Prd.openCtx]; split <;> rfl
@[simp] theorem Prd.openCtx_tw (o : Prd) : o.openCtx.tw = o.tw := by simp only [Prd.openCtx]; split <;> rfl
@[simp] theorem Prd.openCtx_evr (o : Prd) : o.openCtx.evr = o.evr := by simp only [Prd.openCtx]; split <;> rfl
@[simp] theorem Prd.openCtx_jnl (o : Prd) : o.openCtx.jnl = o.jnl := by simp only [Prd.openCtx]; split <;> rfl
@[simp] theorem Prd.openCtx_jnlBank (o : Prd) : o.openCtx.jnlBank = o.jnlBank := by simp only [Prd.openCtx]; split <;> rfl
@[simp] theorem Prd.openCtx_mramProt (o : Prd) : o.openCtx.mramProt = o.mramProt := by simp only [Prd.openCtx]; split <;> rfl
@[simp] theorem Prd.openCtx_cfg (o : Prd) : o.openCtx.cfg = o.cfg := by simp only [Prd.openCtx]; split <;> rfl
@[simp] theorem Prd.openCtx_hnr (o : Prd) : o.openCtx.hnr = o.hnr := by simp only [Prd.openCtx]; split <;> rfl
@[simp] theorem Prd.openCtx_refs (o : Prd) : o.openCtx.refs = o.refs := by simp only [Prd.openCtx]; split <;> rfl
@[simp] theorem Prd.openCtx_accs (o : Prd) : o.openCtx.accs = o.accs := by simp only [Prd.openCtx]; split <;> rfl
@[simp] theorem Prd.openCtx_accInt (o : Prd) : o.openCtx.accInt = o.accInt := by simp only [Prd.openCtx]; split <;> rfl
@[simp] theorem Prd.openCtx_accNext (o : Prd) : o.openCtx.accNext = o.accNext := by simp only [Prd.openCtx]; split <;> rfl
@[simp] theorem Prd.openCtx_accPrev (o : Prd) : o.openCtx.accPrev = o.accPrev := by simp only [Prd.openCtx]; split <;> rfl
@[simp] theorem Prd.openCtx_accSwitch (o : Prd) : o.openCtx.accSwitch = o.accSwitch := by simp only [Prd.openCtx]; split <;> rfl
@[simp] theorem Prd.openCtx_nans (o : Prd) : o.openCtx.nans = o.nans := by simp only [Prd.openCtx]; split <;> rfl
@[simp] theorem Prd.openCtx_tree (o : Prd) : o.openCtx.tree = o.tree := by simp only [Prd.openCtx]; split <;> rfl
@[simp] theorem Prd.openCtx_hangs (o : Prd) : o.openCtx.hangs = o.hangs := by simp only [Prd.openCtx]; split <;> rfl
@[simp] theorem Prd.openCtx_results (o : Prd) : o.openCtx.results = o.results := by simp only [Prd.openCtx]; split <;> rfl
@[simp] theorem Prd.openCtx_resTimeouts (o : Prd) : o.openCtx.resTimeouts = o.resTimeouts := by simp only [Prd.openCtx]; split <;> rfl
@[simp] theorem Prd.openCtx_orders (o : Prd) : o.openCtx.orders = o.orders := by simp only [Prd.openCtx]; split <;> rfl
@[simp] theorem Prd.openCtx_ulq (o : Prd) : o.openCtx.ulq = o.ulq := by simp only [Prd.openCtx]; split <;> rfl
@[simp] theorem Prd.openCtx_ingest (o : Prd) : o.openCtx.ingest = o.ingest := by simp only [Prd.openCtx]; split <;> rfl
@[simp] theorem Prd.openCtx_ingestRate (o : Prd) : o.openCtx.ingestRate = o.ingestRate := by simp only [Prd.openCtx]; split <;> rfl
@[simp] theorem Prd.openCtx_ingestAt (o : Prd) : o.openCtx.ingestAt = o.ingestAt := by simp only [Prd.openCtx]; split <;> rfl
@[simp] theorem Prd.openCtx_nose (o : Prd) : o.openCtx.nose = o.nose := by simp only [Prd.openCtx]; split <;> rfl
@[simp] theorem Prd.openCtx_divs (o : Prd) : o.openCtx.divs = o.divs := by simp only [Prd.openCtx]; split <;> rfl
@[simp] theorem Prd.openCtx_clockClass (o : Prd) : o.openCtx.clockClass = o.clockClass := by simp only [Prd.openCtx]; split <;> rfl
@[simp] theorem Prd.openCtx_goneAccs (o : Prd) : o.openCtx.goneAccs = o.goneAccs := by simp only [Prd.openCtx]; split <;> rfl
@[simp] theorem Prd.openCtx_strobes (o : Prd) : o.openCtx.strobes = o.strobes := by simp only [Prd.openCtx]; split <;> rfl
@[simp] theorem Prd.openCtx_cyc (o : Prd) : o.openCtx.cyc = o.cyc := by simp only [Prd.openCtx]; split <;> rfl
@[simp] theorem Prd.openCtx_loopCfg (o : Prd) : o.openCtx.loopCfg = o.loopCfg := by simp only [Prd.openCtx]; split <;> rfl
@[simp] theorem Prd.openCtx_gapRuns (o : Prd) : o.openCtx.gapRuns = o.gapRuns := by simp only [Prd.openCtx]; split <;> rfl
@[simp] theorem Prd.openCtx_hbm (o : Prd) : o.openCtx.hbm = o.hbm := by simp only [Prd.openCtx]; split <;> rfl
@[simp] theorem Prd.openCtx_rings (o : Prd) : o.openCtx.rings = o.rings := by simp only [Prd.openCtx]; split <;> rfl
@[simp] theorem Prd.openCtx_mgmt (o : Prd) : o.openCtx.mgmt = o.mgmt := by simp only [Prd.openCtx]; split <;> rfl
@[simp] theorem Prd.openCtx_buddy (o : Prd) : o.openCtx.buddy = o.buddy := by simp only [Prd.openCtx]; split <;> rfl
@[simp] theorem Prd.openCtx_pw (o : Prd) : o.openCtx.pw = o.pw := by simp only [Prd.openCtx]; split <;> rfl
@[simp] theorem Prd.openCtx_bar4 (o : Prd) : o.openCtx.bar4 = o.bar4 := by simp only [Prd.openCtx]; split <;> rfl
@[simp] theorem Prd.openCtx_feeds (o : Prd) : o.openCtx.feeds = o.feeds := by simp only [Prd.openCtx]; split <;> rfl
@[simp] theorem Prd.openCtx_readOut (o : Prd) : o.openCtx.readOut = o.readOut := by simp only [Prd.openCtx]; split <;> rfl
@[simp] theorem Prd.openCtx_free (o : Prd) : o.openCtx.free = o.free := by simp only [Prd.openCtx]; split <;> rfl
@[simp] theorem Prd.openCtx_clk (o : Prd) : o.openCtx.clk = o.clk := by simp only [Prd.openCtx]; split <;> rfl
@[simp] theorem Prd.go_regs (o : Prd) (t : Nat) : (o.go t).regs = o.regs := by simp [Prd.go]
@[simp] theorem Prd.go_ul (o : Prd) (t : Nat) : (o.go t).ul = o.ul := by simp [Prd.go]
@[simp] theorem Prd.go_ptpRestart (o : Prd) (t : Nat) : (o.go t).ptpRestart = o.ptpRestart := by simp [Prd.go]
@[simp] theorem Prd.go_stepPending (o : Prd) (t : Nat) : (o.go t).stepPending = o.stepPending := by simp [Prd.go]
@[simp] theorem Prd.go_src (o : Prd) (t : Nat) : (o.go t).src = o.src := by simp [Prd.go]
@[simp] theorem Prd.go_synceSrc (o : Prd) (t : Nat) : (o.go t).synceSrc = o.synceSrc := by simp [Prd.go]
@[simp] theorem Prd.go_tw (o : Prd) (t : Nat) : (o.go t).tw = o.tw := by simp [Prd.go]
@[simp] theorem Prd.go_evr (o : Prd) (t : Nat) : (o.go t).evr = o.evr := by simp [Prd.go]
@[simp] theorem Prd.go_jnl (o : Prd) (t : Nat) : (o.go t).jnl = o.jnl := by simp [Prd.go]
@[simp] theorem Prd.go_jnlBank (o : Prd) (t : Nat) : (o.go t).jnlBank = o.jnlBank := by simp [Prd.go]
@[simp] theorem Prd.go_mramProt (o : Prd) (t : Nat) : (o.go t).mramProt = o.mramProt := by simp [Prd.go]
@[simp] theorem Prd.go_cfg (o : Prd) (t : Nat) : (o.go t).cfg = o.cfg := by simp [Prd.go]
@[simp] theorem Prd.go_hnr (o : Prd) (t : Nat) : (o.go t).hnr = o.hnr := by simp [Prd.go]
@[simp] theorem Prd.go_refs (o : Prd) (t : Nat) : (o.go t).refs = o.refs := by simp [Prd.go]
@[simp] theorem Prd.go_accs (o : Prd) (t : Nat) : (o.go t).accs = o.accs := by simp [Prd.go]
@[simp] theorem Prd.go_accInt (o : Prd) (t : Nat) : (o.go t).accInt = o.accInt := by simp [Prd.go]
@[simp] theorem Prd.go_accNext (o : Prd) (t : Nat) : (o.go t).accNext = o.accNext := by simp [Prd.go]
@[simp] theorem Prd.go_accPrev (o : Prd) (t : Nat) : (o.go t).accPrev = o.accPrev := by simp [Prd.go]
@[simp] theorem Prd.go_accSwitch (o : Prd) (t : Nat) : (o.go t).accSwitch = o.accSwitch := by simp [Prd.go]
@[simp] theorem Prd.go_nans (o : Prd) (t : Nat) : (o.go t).nans = o.nans := by simp [Prd.go]
@[simp] theorem Prd.go_tree (o : Prd) (t : Nat) : (o.go t).tree = o.tree := by simp [Prd.go]
@[simp] theorem Prd.go_hangs (o : Prd) (t : Nat) : (o.go t).hangs = o.hangs := by simp [Prd.go]
@[simp] theorem Prd.go_results (o : Prd) (t : Nat) : (o.go t).results = o.results := by simp [Prd.go]
@[simp] theorem Prd.go_resTimeouts (o : Prd) (t : Nat) : (o.go t).resTimeouts = o.resTimeouts := by simp [Prd.go]
@[simp] theorem Prd.go_orders (o : Prd) (t : Nat) : (o.go t).orders = o.orders := by simp [Prd.go]
@[simp] theorem Prd.go_ulq (o : Prd) (t : Nat) : (o.go t).ulq = o.ulq := by simp [Prd.go]
@[simp] theorem Prd.go_ingest (o : Prd) (t : Nat) : (o.go t).ingest = o.ingest := by simp [Prd.go]
@[simp] theorem Prd.go_ingestRate (o : Prd) (t : Nat) : (o.go t).ingestRate = o.ingestRate := by simp [Prd.go]
@[simp] theorem Prd.go_ingestAt (o : Prd) (t : Nat) : (o.go t).ingestAt = o.ingestAt := by simp [Prd.go]
@[simp] theorem Prd.go_nose (o : Prd) (t : Nat) : (o.go t).nose = o.nose := by simp [Prd.go]
@[simp] theorem Prd.go_divs (o : Prd) (t : Nat) : (o.go t).divs = o.divs := by simp [Prd.go]
@[simp] theorem Prd.go_clockClass (o : Prd) (t : Nat) : (o.go t).clockClass = o.clockClass := by simp [Prd.go]
@[simp] theorem Prd.go_goneAccs (o : Prd) (t : Nat) : (o.go t).goneAccs = o.goneAccs := by simp [Prd.go]
@[simp] theorem Prd.go_strobes (o : Prd) (t : Nat) : (o.go t).strobes = o.strobes := by simp [Prd.go]
@[simp] theorem Prd.go_loopCfg (o : Prd) (t : Nat) : (o.go t).loopCfg = o.loopCfg := by simp [Prd.go]
@[simp] theorem Prd.go_gapRuns (o : Prd) (t : Nat) : (o.go t).gapRuns = o.gapRuns := by simp [Prd.go]
@[simp] theorem Prd.go_hbm (o : Prd) (t : Nat) : (o.go t).hbm = o.hbm := by simp [Prd.go]
@[simp] theorem Prd.go_rings (o : Prd) (t : Nat) : (o.go t).rings = o.rings := by simp [Prd.go]
@[simp] theorem Prd.go_mgmt (o : Prd) (t : Nat) : (o.go t).mgmt = o.mgmt := by simp [Prd.go]
@[simp] theorem Prd.go_buddy (o : Prd) (t : Nat) : (o.go t).buddy = o.buddy := by simp [Prd.go]
@[simp] theorem Prd.go_pw (o : Prd) (t : Nat) : (o.go t).pw = o.pw := by simp [Prd.go]
@[simp] theorem Prd.go_bar4 (o : Prd) (t : Nat) : (o.go t).bar4 = o.bar4 := by simp [Prd.go]
@[simp] theorem Prd.go_feeds (o : Prd) (t : Nat) : (o.go t).feeds = o.feeds := by simp [Prd.go]
@[simp] theorem Prd.go_readOut (o : Prd) (t : Nat) : (o.go t).readOut = o.readOut := by simp [Prd.go]
@[simp] theorem Prd.go_free (o : Prd) (t : Nat) : (o.go t).free = o.free := by simp [Prd.go]
@[simp] theorem Prd.go_clk (o : Prd) (t : Nat) : (o.go t).clk = { o.clk with ft := max o.clk.ft t } := by simp [Prd.go]
@[simp] theorem Otu.get_go (o : Otu) (e : Edge) (a : Nat) : OtuR.get (o.go e) a = OtuR.get o a := rfl
@[simp] theorem Prd.get_go (o : Prd) (t a : Nat) : PrdR.get (o.go t) a = PrdR.get o a := by simp [PrdR.get]
@[simp] theorem Prd.get_mirrored (a b : Prd) (k : Nat) : PrdR.get (a.mirrored b) k = PrdR.get b k := rfl

end Sys2Proof.Machine
end

