-- ==== Sys2Proof/Laws/Event.lean ====
section
/-!
SUPPORT. Laws/Event.lean: what the shared operations (event requests, records sent, entries of a table set) leave alone.
-/
namespace Sys2Proof.Machine
open Sys2Proof

/-! ### Otu: registers that hardware sets -/

@[simp] theorem OtuR.setFld_lt (o : Otu) (a lo w v : Nat) : (OtuR.setFld o a lo w v).lt = o.lt := rfl
@[simp] theorem OtuR.setFld_clk (o : Otu) (a lo w v : Nat) : (OtuR.setFld o a lo w v).clk = o.clk := rfl
@[simp] theorem OtuR.setFld_trayLock (o : Otu) (a lo w v : Nat) : (OtuR.setFld o a lo w v).trayLock = o.trayLock := rfl
@[simp] theorem OtuR.setFld_prdGrade (o : Otu) (a lo w v : Nat) : (OtuR.setFld o a lo w v).prdGrade = o.prdGrade := rfl
@[simp] theorem OtuR.setFld_prdErr (o : Otu) (a lo w v : Nat) : (OtuR.setFld o a lo w v).prdErr = o.prdErr := rfl
@[simp] theorem OtuR.setFld_asym (o : Otu) (a lo w v : Nat) : (OtuR.setFld o a lo w v).asym = o.asym := rfl
@[simp] theorem OtuR.setFld_marks (o : Otu) (a lo w v : Nat) : (OtuR.setFld o a lo w v).marks = o.marks := rfl
@[simp] theorem OtuR.setFld_lastFw (o : Otu) (a lo w v : Nat) : (OtuR.setFld o a lo w v).lastFw = o.lastFw := rfl
@[simp] theorem OtuR.setFld_gch (o : Otu) (a lo w v : Nat) : (OtuR.setFld o a lo w v).gch = o.gch := rfl
@[simp] theorem OtuR.setFld_staleDue (o : Otu) (a lo w v : Nat) : (OtuR.setFld o a lo w v).staleDue = o.staleDue := rfl
@[simp] theorem OtuR.setFld_rxNext (o : Otu) (a lo w v : Nat) : (OtuR.setFld o a lo w v).rxNext = o.rxNext := rfl
@[simp] theorem OtuR.setFld_rxHunt (o : Otu) (a lo w v : Nat) : (OtuR.setFld o a lo w v).rxHunt = o.rxHunt := rfl
@[simp] theorem OtuR.setFld_rxMsg (o : Otu) (a lo w v : Nat) : (OtuR.setFld o a lo w v).rxMsg = o.rxMsg := rfl
@[simp] theorem OtuR.setFld_fresh (o : Otu) (a lo w v : Nat) : (OtuR.setFld o a lo w v).fresh = o.fresh := rfl
@[simp] theorem OtuR.setFld_told (o : Otu) (a lo w v : Nat) : (OtuR.setFld o a lo w v).told = o.told := rfl
@[simp] theorem OtuR.setFld_winGone (o : Otu) (a lo w v : Nat) : (OtuR.setFld o a lo w v).winGone = o.winGone := rfl
@[simp] theorem OtuR.setFld_strobes (o : Otu) (a lo w v : Nat) : (OtuR.setFld o a lo w v).strobes = o.strobes := rfl
@[simp] theorem OtuR.setFld_cyc (o : Otu) (a lo w v : Nat) : (OtuR.setFld o a lo w v).cyc = o.cyc := rfl
@[simp] theorem OtuR.setFld_period (o : Otu) (a lo w v : Nat) : (OtuR.setFld o a lo w v).period = o.period := rfl
@[simp] theorem OtuR.setFld_jobs (o : Otu) (a lo w v : Nat) : (OtuR.setFld o a lo w v).jobs = o.jobs := rfl
@[simp] theorem OtuR.setFld_acc (o : Otu) (a lo w v : Nat) : (OtuR.setFld o a lo w v).acc = o.acc := rfl
@[simp] theorem OtuR.setFld_dctr (o : Otu) (a lo w v : Nat) : (OtuR.setFld o a lo w v).dctr = o.dctr := rfl
@[simp] theorem OtuR.setFld_engs (o : Otu) (a lo w v : Nat) : (OtuR.setFld o a lo w v).engs = o.engs := rfl
@[simp] theorem OtuR.setFld_gchNext (o : Otu) (a lo w v : Nat) : (OtuR.setFld o a lo w v).gchNext = o.gchNext := rfl
@[simp] theorem OtuR.setFld_gchSeq (o : Otu) (a lo w v : Nat) : (OtuR.setFld o a lo w v).gchSeq = o.gchSeq := rfl
@[simp] theorem OtuR.setFld_grants (o : Otu) (a lo w v : Nat) : (OtuR.setFld o a lo w v).grants = o.grants := rfl
@[simp] theorem OtuR.setFld_step (o : Otu) (a lo w v : Nat) : (OtuR.setFld o a lo w v).step = o.step := rfl
@[simp] theorem OtuR.setFld_mirror (o : Otu) (a lo w v : Nat) : (OtuR.setFld o a lo w v).mirror = o.mirror := rfl
@[simp] theorem OtuR.setFld_canPtr (o : Otu) (a lo w v : Nat) : (OtuR.setFld o a lo w v).canPtr = o.canPtr := rfl
@[simp] theorem OtuR.setFld_sil (o : Otu) (a lo w v : Nat) : (OtuR.setFld o a lo w v).sil = o.sil := rfl
@[simp] theorem OtuR.setFld_silSeq (o : Otu) (a lo w v : Nat) : (OtuR.setFld o a lo w v).silSeq = o.silSeq := rfl
@[simp] theorem OtuR.setFld_armed (o : Otu) (a lo w v : Nat) : (OtuR.setFld o a lo w v).armed = o.armed := rfl
@[simp] theorem OtuR.setFld_bmaps (o : Otu) (a lo w v : Nat) : (OtuR.setFld o a lo w v).bmaps = o.bmaps := rfl
@[simp] theorem OtuR.setFld_answers (o : Otu) (a lo w v : Nat) : (OtuR.setFld o a lo w v).answers = o.answers := rfl
@[simp] theorem OtuR.setFld_retracted (o : Otu) (a lo w v : Nat) : (OtuR.setFld o a lo w v).retracted = o.retracted := rfl
@[simp] theorem OtuR.setFld_weights (o : Otu) (a lo w v : Nat) : (OtuR.setFld o a lo w v).weights = o.weights := rfl
@[simp] theorem OtuR.setFld_hashing (o : Otu) (a lo w v : Nat) : (OtuR.setFld o a lo w v).hashing = o.hashing := rfl
@[simp] theorem OtuR.setFld_inputs (o : Otu) (a lo w v : Nat) : (OtuR.setFld o a lo w v).inputs = o.inputs := rfl
@[simp] theorem OtuR.setFld_inputOvf (o : Otu) (a lo w v : Nat) : (OtuR.setFld o a lo w v).inputOvf = o.inputOvf := rfl
@[simp] theorem OtuR.setFld_resMark (o : Otu) (a lo w v : Nat) : (OtuR.setFld o a lo w v).resMark = o.resMark := rfl
@[simp] theorem OtuR.setFld_queues (o : Otu) (a lo w v : Nat) : (OtuR.setFld o a lo w v).queues = o.queues := rfl
@[simp] theorem OtuR.setFld_qsLossy (o : Otu) (a lo w v : Nat) : (OtuR.setFld o a lo w v).qsLossy = o.qsLossy := rfl
@[simp] theorem OtuR.setFld_qsLast (o : Otu) (a lo w v : Nat) : (OtuR.setFld o a lo w v).qsLast = o.qsLast := rfl
@[simp] theorem OtuR.setFld_qOld (o : Otu) (a lo w v : Nat) : (OtuR.setFld o a lo w v).qOld = o.qOld := rfl
@[simp] theorem OtuR.setFld_hbm (o : Otu) (a lo w v : Nat) : (OtuR.setFld o a lo w v).hbm = o.hbm := rfl
@[simp] theorem OtuR.setFld_waits (o : Otu) (a lo w v : Nat) : (OtuR.setFld o a lo w v).waits = o.waits := rfl
@[simp] theorem OtuR.setFld_waitId (o : Otu) (a lo w v : Nat) : (OtuR.setFld o a lo w v).waitId = o.waitId := rfl
@[simp] theorem OtuR.setFld_link (o : Otu) (a lo w v : Nat) : (OtuR.setFld o a lo w v).link = o.link := rfl
@[simp] theorem OtuR.setFld_resync (o : Otu) (a lo w v : Nat) : (OtuR.setFld o a lo w v).resync = o.resync := rfl
@[simp] theorem OtuR.setFld_txSeq (o : Otu) (a lo w v : Nat) : (OtuR.setFld o a lo w v).txSeq = o.txSeq := rfl
@[simp] theorem OtuR.setFld_eq (o : Otu) (a lo w v : Nat) : (OtuR.setFld o a lo w v).eq = o.eq := rfl
@[simp] theorem OtuR.setFld_eqs (o : Otu) (a lo w v : Nat) : (OtuR.setFld o a lo w v).eqs = o.eqs := rfl
@[simp] theorem OtuR.setFld_gate (o : Otu) (a lo w v : Nat) : (OtuR.setFld o a lo w v).gate = o.gate := rfl
@[simp] theorem OtuR.setFld_fb (o : Otu) (a lo w v : Nat) : (OtuR.setFld o a lo w v).fb = o.fb := rfl
@[simp] theorem OtuR.setFld_relay (o : Otu) (a lo w v : Nat) : (OtuR.setFld o a lo w v).relay = o.relay := rfl
@[simp] theorem OtuR.setFld_fbLast (o : Otu) (a lo w v : Nat) : (OtuR.setFld o a lo w v).fbLast = o.fbLast := rfl
@[simp] theorem OtuR.setFld_fbPart (o : Otu) (a lo w v : Nat) : (OtuR.setFld o a lo w v).fbPart = o.fbPart := rfl
@[simp] theorem OtuR.setFld_fbOut (o : Otu) (a lo w v : Nat) : (OtuR.setFld o a lo w v).fbOut = o.fbOut := rfl
@[simp] theorem OtuR.setFld_relayPart (o : Otu) (a lo w v : Nat) : (OtuR.setFld o a lo w v).relayPart = o.relayPart := rfl
@[simp] theorem OtuR.setFld_evr (o : Otu) (a lo w v : Nat) : (OtuR.setFld o a lo w v).evr = o.evr := rfl
@[simp] theorem OtuR.setFld_pageOld (o : Otu) (a lo w v : Nat) : (OtuR.setFld o a lo w v).pageOld = o.pageOld := rfl
@[simp] theorem OtuR.setFld_feeds (o : Otu) (a lo w v : Nat) : (OtuR.setFld o a lo w v).feeds = o.feeds := rfl
@[simp] theorem OtuR.setFld_readOut (o : Otu) (a lo w v : Nat) : (OtuR.setFld o a lo w v).readOut = o.readOut := rfl
@[simp] theorem OtuR.setFld_free (o : Otu) (a lo w v : Nat) : (OtuR.setFld o a lo w v).free = o.free := rfl
@[simp] theorem OtuR.ev_lt (o : Otu) (a k : Nat) : (OtuR.ev o a k).lt = o.lt := rfl
@[simp] theorem OtuR.ev_clk (o : Otu) (a k : Nat) : (OtuR.ev o a k).clk = o.clk := rfl
@[simp] theorem OtuR.ev_trayLock (o : Otu) (a k : Nat) : (OtuR.ev o a k).trayLock = o.trayLock := rfl
@[simp] theorem OtuR.ev_prdGrade (o : Otu) (a k : Nat) : (OtuR.ev o a k).prdGrade = o.prdGrade := rfl
@[simp] theorem OtuR.ev_prdErr (o : Otu) (a k : Nat) : (OtuR.ev o a k).prdErr = o.prdErr := rfl
@[simp] theorem OtuR.ev_asym (o : Otu) (a k : Nat) : (OtuR.ev o a k).asym = o.asym := rfl
@[simp] theorem OtuR.ev_marks (o : Otu) (a k : Nat) : (OtuR.ev o a k).marks = o.marks := rfl
@[simp] theorem OtuR.ev_lastFw (o : Otu) (a k : Nat) : (OtuR.ev o a k).lastFw = o.lastFw := rfl
@[simp] theorem OtuR.ev_gch (o : Otu) (a k : Nat) : (OtuR.ev o a k).gch = o.gch := rfl
@[simp] theorem OtuR.ev_staleDue (o : Otu) (a k : Nat) : (OtuR.ev o a k).staleDue = o.staleDue := rfl
@[simp] theorem OtuR.ev_rxNext (o : Otu) (a k : Nat) : (OtuR.ev o a k).rxNext = o.rxNext := rfl
@[simp] theorem OtuR.ev_rxHunt (o : Otu) (a k : Nat) : (OtuR.ev o a k).rxHunt = o.rxHunt := rfl
@[simp] theorem OtuR.ev_rxMsg (o : Otu) (a k : Nat) : (OtuR.ev o a k).rxMsg = o.rxMsg := rfl
@[simp] theorem OtuR.ev_fresh (o : Otu) (a k : Nat) : (OtuR.ev o a k).fresh = o.fresh := rfl
@[simp] theorem OtuR.ev_told (o : Otu) (a k : Nat) : (OtuR.ev o a k).told = o.told := rfl
@[simp] theorem OtuR.ev_winGone (o : Otu) (a k : Nat) : (OtuR.ev o a k).winGone = o.winGone := rfl
@[simp] theorem OtuR.ev_strobes (o : Otu) (a k : Nat) : (OtuR.ev o a k).strobes = o.strobes := rfl
@[simp] theorem OtuR.ev_period (o : Otu) (a k : Nat) : (OtuR.ev o a k).period = o.period := rfl
@[simp] theorem OtuR.ev_jobs (o : Otu) (a k : Nat) : (OtuR.ev o a k).jobs = o.jobs := rfl
@[simp] theorem OtuR.ev_acc (o : Otu) (a k : Nat) : (OtuR.ev o a k).acc = o.acc := rfl
@[simp] theorem OtuR.ev_dctr (o : Otu) (a k : Nat) : (OtuR.ev o a k).dctr = o.dctr := rfl
@[simp] theorem OtuR.ev_engs (o : Otu) (a k : Nat) : (OtuR.ev o a k).engs = o.engs := rfl
@[simp] theorem OtuR.ev_gchNext (o : Otu) (a k : Nat) : (OtuR.ev o a k).gchNext = o.gchNext := rfl
@[simp] theorem OtuR.ev_gchSeq (o : Otu) (a k : Nat) : (OtuR.ev o a k).gchSeq = o.gchSeq := rfl
@[simp] theorem OtuR.ev_grants (o : Otu) (a k : Nat) : (OtuR.ev o a k).grants = o.grants := rfl
@[simp] theorem OtuR.ev_step (o : Otu) (a k : Nat) : (OtuR.ev o a k).step = o.step := rfl
@[simp] theorem OtuR.ev_mirror (o : Otu) (a k : Nat) : (OtuR.ev o a k).mirror = o.mirror := rfl
@[simp] theorem OtuR.ev_canPtr (o : Otu) (a k : Nat) : (OtuR.ev o a k).canPtr = o.canPtr := rfl
@[simp] theorem OtuR.ev_sil (o : Otu) (a k : Nat) : (OtuR.ev o a k).sil = o.sil := rfl
@[simp] theorem OtuR.ev_silSeq (o : Otu) (a k : Nat) : (OtuR.ev o a k).silSeq = o.silSeq := rfl
@[simp] theorem OtuR.ev_armed (o : Otu) (a k : Nat) : (OtuR.ev o a k).armed = o.armed := rfl
@[simp] theorem OtuR.ev_bmaps (o : Otu) (a k : Nat) : (OtuR.ev o a k).bmaps = o.bmaps := rfl
@[simp] theorem OtuR.ev_answers (o : Otu) (a k : Nat) : (OtuR.ev o a k).answers = o.answers := rfl
@[simp] theorem OtuR.ev_retracted (o : Otu) (a k : Nat) : (OtuR.ev o a k).retracted = o.retracted := rfl
@[simp] theorem OtuR.ev_weights (o : Otu) (a k : Nat) : (OtuR.ev o a k).weights = o.weights := rfl
@[simp] theorem OtuR.ev_hashing (o : Otu) (a k : Nat) : (OtuR.ev o a k).hashing = o.hashing := rfl
@[simp] theorem OtuR.ev_inputs (o : Otu) (a k : Nat) : (OtuR.ev o a k).inputs = o.inputs := rfl
@[simp] theorem OtuR.ev_inputOvf (o : Otu) (a k : Nat) : (OtuR.ev o a k).inputOvf = o.inputOvf := rfl
@[simp] theorem OtuR.ev_resMark (o : Otu) (a k : Nat) : (OtuR.ev o a k).resMark = o.resMark := rfl
@[simp] theorem OtuR.ev_queues (o : Otu) (a k : Nat) : (OtuR.ev o a k).queues = o.queues := rfl
@[simp] theorem OtuR.ev_qsLossy (o : Otu) (a k : Nat) : (OtuR.ev o a k).qsLossy = o.qsLossy := rfl
@[simp] theorem OtuR.ev_qsLast (o : Otu) (a k : Nat) : (OtuR.ev o a k).qsLast = o.qsLast := rfl
@[simp] theorem OtuR.ev_qOld (o : Otu) (a k : Nat) : (OtuR.ev o a k).qOld = o.qOld := rfl
@[simp] theorem OtuR.ev_hbm (o : Otu) (a k : Nat) : (OtuR.ev o a k).hbm = o.hbm := rfl
@[simp] theorem OtuR.ev_waits (o : Otu) (a k : Nat) : (OtuR.ev o a k).waits = o.waits := rfl
@[simp] theorem OtuR.ev_waitId (o : Otu) (a k : Nat) : (OtuR.ev o a k).waitId = o.waitId := rfl
@[simp] theorem OtuR.ev_link (o : Otu) (a k : Nat) : (OtuR.ev o a k).link = o.link := rfl
@[simp] theorem OtuR.ev_resync (o : Otu) (a k : Nat) : (OtuR.ev o a k).resync = o.resync := rfl
@[simp] theorem OtuR.ev_txSeq (o : Otu) (a k : Nat) : (OtuR.ev o a k).txSeq = o.txSeq := rfl
@[simp] theorem OtuR.ev_eq (o : Otu) (a k : Nat) : (OtuR.ev o a k).eq = o.eq := rfl
@[simp] theorem OtuR.ev_eqs (o : Otu) (a k : Nat) : (OtuR.ev o a k).eqs = o.eqs := rfl
@[simp] theorem OtuR.ev_gate (o : Otu) (a k : Nat) : (OtuR.ev o a k).gate = o.gate := rfl
@[simp] theorem OtuR.ev_fb (o : Otu) (a k : Nat) : (OtuR.ev o a k).fb = o.fb := rfl
@[simp] theorem OtuR.ev_relay (o : Otu) (a k : Nat) : (OtuR.ev o a k).relay = o.relay := rfl
@[simp] theorem OtuR.ev_fbLast (o : Otu) (a k : Nat) : (OtuR.ev o a k).fbLast = o.fbLast := rfl
@[simp] theorem OtuR.ev_fbPart (o : Otu) (a k : Nat) : (OtuR.ev o a k).fbPart = o.fbPart := rfl
@[simp] theorem OtuR.ev_fbOut (o : Otu) (a k : Nat) : (OtuR.ev o a k).fbOut = o.fbOut := rfl
@[simp] theorem OtuR.ev_relayPart (o : Otu) (a k : Nat) : (OtuR.ev o a k).relayPart = o.relayPart := rfl
@[simp] theorem OtuR.ev_evr (o : Otu) (a k : Nat) : (OtuR.ev o a k).evr = o.evr := rfl
@[simp] theorem OtuR.ev_pageOld (o : Otu) (a k : Nat) : (OtuR.ev o a k).pageOld = o.pageOld := rfl
@[simp] theorem OtuR.ev_feeds (o : Otu) (a k : Nat) : (OtuR.ev o a k).feeds = o.feeds := rfl
@[simp] theorem OtuR.ev_readOut (o : Otu) (a k : Nat) : (OtuR.ev o a k).readOut = o.readOut := rfl
@[simp] theorem OtuR.ev_free (o : Otu) (a k : Nat) : (OtuR.ev o a k).free = o.free := rfl
@[simp] theorem OtuR.cnt_lt (o : Otu) (a lo w n : Nat) : (OtuR.cnt o a lo w n).lt = o.lt := rfl
@[simp] theorem OtuR.cnt_clk (o : Otu) (a lo w n : Nat) : (OtuR.cnt o a lo w n).clk = o.clk := rfl
@[simp] theorem OtuR.cnt_trayLock (o : Otu) (a lo w n : Nat) : (OtuR.cnt o a lo w n).trayLock = o.trayLock := rfl
@[simp] theorem OtuR.cnt_prdGrade (o : Otu) (a lo w n : Nat) : (OtuR.cnt o a lo w n).prdGrade = o.prdGrade := rfl
@[simp] theorem OtuR.cnt_prdErr (o : Otu) (a lo w n : Nat) : (OtuR.cnt o a lo w n).prdErr = o.prdErr := rfl
@[simp] theorem OtuR.cnt_asym (o : Otu) (a lo w n : Nat) : (OtuR.cnt o a lo w n).asym = o.asym := rfl
@[simp] theorem OtuR.cnt_marks (o : Otu) (a lo w n : Nat) : (OtuR.cnt o a lo w n).marks = o.marks := rfl
@[simp] theorem OtuR.cnt_lastFw (o : Otu) (a lo w n : Nat) : (OtuR.cnt o a lo w n).lastFw = o.lastFw := rfl
@[simp] theorem OtuR.cnt_gch (o : Otu) (a lo w n : Nat) : (OtuR.cnt o a lo w n).gch = o.gch := rfl
@[simp] theorem OtuR.cnt_staleDue (o : Otu) (a lo w n : Nat) : (OtuR.cnt o a lo w n).staleDue = o.staleDue := rfl
@[simp] theorem OtuR.cnt_rxNext (o : Otu) (a lo w n : Nat) : (OtuR.cnt o a lo w n).rxNext = o.rxNext := rfl
@[simp] theorem OtuR.cnt_rxHunt (o : Otu) (a lo w n : Nat) : (OtuR.cnt o a lo w n).rxHunt = o.rxHunt := rfl
@[simp] theorem OtuR.cnt_rxMsg (o : Otu) (a lo w n : Nat) : (OtuR.cnt o a lo w n).rxMsg = o.rxMsg := rfl
@[simp] theorem OtuR.cnt_fresh (o : Otu) (a lo w n : Nat) : (OtuR.cnt o a lo w n).fresh = o.fresh := rfl
@[simp] theorem OtuR.cnt_told (o : Otu) (a lo w n : Nat) : (OtuR.cnt o a lo w n).told = o.told := rfl
@[simp] theorem OtuR.cnt_winGone (o : Otu) (a lo w n : Nat) : (OtuR.cnt o a lo w n).winGone = o.winGone := rfl
@[simp] theorem OtuR.cnt_strobes (o : Otu) (a lo w n : Nat) : (OtuR.cnt o a lo w n).strobes = o.strobes := rfl
@[simp] theorem OtuR.cnt_period (o : Otu) (a lo w n : Nat) : (OtuR.cnt o a lo w n).period = o.period := rfl
@[simp] theorem OtuR.cnt_jobs (o : Otu) (a lo w n : Nat) : (OtuR.cnt o a lo w n).jobs = o.jobs := rfl
@[simp] theorem OtuR.cnt_acc (o : Otu) (a lo w n : Nat) : (OtuR.cnt o a lo w n).acc = o.acc := rfl
@[simp] theorem OtuR.cnt_dctr (o : Otu) (a lo w n : Nat) : (OtuR.cnt o a lo w n).dctr = o.dctr := rfl
@[simp] theorem OtuR.cnt_engs (o : Otu) (a lo w n : Nat) : (OtuR.cnt o a lo w n).engs = o.engs := rfl
@[simp] theorem OtuR.cnt_gchNext (o : Otu) (a lo w n : Nat) : (OtuR.cnt o a lo w n).gchNext = o.gchNext := rfl
@[simp] theorem OtuR.cnt_gchSeq (o : Otu) (a lo w n : Nat) : (OtuR.cnt o a lo w n).gchSeq = o.gchSeq := rfl
@[simp] theorem OtuR.cnt_grants (o : Otu) (a lo w n : Nat) : (OtuR.cnt o a lo w n).grants = o.grants := rfl
@[simp] theorem OtuR.cnt_step (o : Otu) (a lo w n : Nat) : (OtuR.cnt o a lo w n).step = o.step := rfl
@[simp] theorem OtuR.cnt_mirror (o : Otu) (a lo w n : Nat) : (OtuR.cnt o a lo w n).mirror = o.mirror := rfl
@[simp] theorem OtuR.cnt_canPtr (o : Otu) (a lo w n : Nat) : (OtuR.cnt o a lo w n).canPtr = o.canPtr := rfl
@[simp] theorem OtuR.cnt_sil (o : Otu) (a lo w n : Nat) : (OtuR.cnt o a lo w n).sil = o.sil := rfl
@[simp] theorem OtuR.cnt_silSeq (o : Otu) (a lo w n : Nat) : (OtuR.cnt o a lo w n).silSeq = o.silSeq := rfl
@[simp] theorem OtuR.cnt_armed (o : Otu) (a lo w n : Nat) : (OtuR.cnt o a lo w n).armed = o.armed := rfl
@[simp] theorem OtuR.cnt_bmaps (o : Otu) (a lo w n : Nat) : (OtuR.cnt o a lo w n).bmaps = o.bmaps := rfl
@[simp] theorem OtuR.cnt_answers (o : Otu) (a lo w n : Nat) : (OtuR.cnt o a lo w n).answers = o.answers := rfl
@[simp] theorem OtuR.cnt_retracted (o : Otu) (a lo w n : Nat) : (OtuR.cnt o a lo w n).retracted = o.retracted := rfl
@[simp] theorem OtuR.cnt_weights (o : Otu) (a lo w n : Nat) : (OtuR.cnt o a lo w n).weights = o.weights := rfl
@[simp] theorem OtuR.cnt_hashing (o : Otu) (a lo w n : Nat) : (OtuR.cnt o a lo w n).hashing = o.hashing := rfl
@[simp] theorem OtuR.cnt_inputs (o : Otu) (a lo w n : Nat) : (OtuR.cnt o a lo w n).inputs = o.inputs := rfl
@[simp] theorem OtuR.cnt_inputOvf (o : Otu) (a lo w n : Nat) : (OtuR.cnt o a lo w n).inputOvf = o.inputOvf := rfl
@[simp] theorem OtuR.cnt_resMark (o : Otu) (a lo w n : Nat) : (OtuR.cnt o a lo w n).resMark = o.resMark := rfl
@[simp] theorem OtuR.cnt_queues (o : Otu) (a lo w n : Nat) : (OtuR.cnt o a lo w n).queues = o.queues := rfl
@[simp] theorem OtuR.cnt_qsLossy (o : Otu) (a lo w n : Nat) : (OtuR.cnt o a lo w n).qsLossy = o.qsLossy := rfl
@[simp] theorem OtuR.cnt_qsLast (o : Otu) (a lo w n : Nat) : (OtuR.cnt o a lo w n).qsLast = o.qsLast := rfl
@[simp] theorem OtuR.cnt_qOld (o : Otu) (a lo w n : Nat) : (OtuR.cnt o a lo w n).qOld = o.qOld := rfl
@[simp] theorem OtuR.cnt_hbm (o : Otu) (a lo w n : Nat) : (OtuR.cnt o a lo w n).hbm = o.hbm := rfl
@[simp] theorem OtuR.cnt_waits (o : Otu) (a lo w n : Nat) : (OtuR.cnt o a lo w n).waits = o.waits := rfl
@[simp] theorem OtuR.cnt_waitId (o : Otu) (a lo w n : Nat) : (OtuR.cnt o a lo w n).waitId = o.waitId := rfl
@[simp] theorem OtuR.cnt_link (o : Otu) (a lo w n : Nat) : (OtuR.cnt o a lo w n).link = o.link := rfl
@[simp] theorem OtuR.cnt_resync (o : Otu) (a lo w n : Nat) : (OtuR.cnt o a lo w n).resync = o.resync := rfl
@[simp] theorem OtuR.cnt_txSeq (o : Otu) (a lo w n : Nat) : (OtuR.cnt o a lo w n).txSeq = o.txSeq := rfl
@[simp] theorem OtuR.cnt_eq (o : Otu) (a lo w n : Nat) : (OtuR.cnt o a lo w n).eq = o.eq := rfl
@[simp] theorem OtuR.cnt_eqs (o : Otu) (a lo w n : Nat) : (OtuR.cnt o a lo w n).eqs = o.eqs := rfl
@[simp] theorem OtuR.cnt_gate (o : Otu) (a lo w n : Nat) : (OtuR.cnt o a lo w n).gate = o.gate := rfl
@[simp] theorem OtuR.cnt_fb (o : Otu) (a lo w n : Nat) : (OtuR.cnt o a lo w n).fb = o.fb := rfl
@[simp] theorem OtuR.cnt_relay (o : Otu) (a lo w n : Nat) : (OtuR.cnt o a lo w n).relay = o.relay := rfl
@[simp] theorem OtuR.cnt_fbLast (o : Otu) (a lo w n : Nat) : (OtuR.cnt o a lo w n).fbLast = o.fbLast := rfl
@[simp] theorem OtuR.cnt_fbPart (o : Otu) (a lo w n : Nat) : (OtuR.cnt o a lo w n).fbPart = o.fbPart := rfl
@[simp] theorem OtuR.cnt_fbOut (o : Otu) (a lo w n : Nat) : (OtuR.cnt o a lo w n).fbOut = o.fbOut := rfl
@[simp] theorem OtuR.cnt_relayPart (o : Otu) (a lo w n : Nat) : (OtuR.cnt o a lo w n).relayPart = o.relayPart := rfl
@[simp] theorem OtuR.cnt_evr (o : Otu) (a lo w n : Nat) : (OtuR.cnt o a lo w n).evr = o.evr := rfl
@[simp] theorem OtuR.cnt_pageOld (o : Otu) (a lo w n : Nat) : (OtuR.cnt o a lo w n).pageOld = o.pageOld := rfl
@[simp] theorem OtuR.cnt_feeds (o : Otu) (a lo w n : Nat) : (OtuR.cnt o a lo w n).feeds = o.feeds := rfl
@[simp] theorem OtuR.cnt_readOut (o : Otu) (a lo w n : Nat) : (OtuR.cnt o a lo w n).readOut = o.readOut := rfl
@[simp] theorem OtuR.cnt_free (o : Otu) (a lo w n : Nat) : (OtuR.cnt o a lo w n).free = o.free := rfl
theorem OtuR.get_setFld_ne (o : Otu) {a k : Nat} (lo w v : Nat) (h : a ≠ k) : OtuR.get (OtuR.setFld o a lo w v) k = OtuR.get o k := OtuR.get_set_ne o _ h
theorem OtuR.get_ev_ne (o : Otu) {a k : Nat} (n : Nat) (h : a ≠ k) : OtuR.get (OtuR.ev o a n) k = OtuR.get o k := OtuR.get_set_ne o _ h
theorem OtuR.get_cnt_ne (o : Otu) {a k : Nat} (lo w n : Nat) (h : a ≠ k) : OtuR.get (OtuR.cnt o a lo w n) k = OtuR.get o k := OtuR.get_set_ne o _ h

/-! ### Prd: registers that hardware sets -/

@[simp] theorem PrdR.setFld_clk (o : Prd) (a lo w v : Nat) : (PrdR.setFld o a lo w v).clk = o.clk := rfl
@[simp] theorem PrdR.setFld_ul (o : Prd) (a lo w v : Nat) : (PrdR.setFld o a lo w v).ul = o.ul := rfl
@[simp] theorem PrdR.setFld_ptpRestart (o : Prd) (a lo w v : Nat) : (PrdR.setFld o a lo w v).ptpRestart = o.ptpRestart := rfl
@[simp] theorem PrdR.setFld_stepPending (o : Prd) (a lo w v : Nat) : (PrdR.setFld o a lo w v).stepPending = o.stepPending := rfl
@[simp] theorem PrdR.setFld_src (o : Prd) (a lo w v : Nat) : (PrdR.setFld o a lo w v).src = o.src := rfl
@[simp] theorem PrdR.setFld_synceSrc (o : Prd) (a lo w v : Nat) : (PrdR.setFld o a lo w v).synceSrc = o.synceSrc := rfl
@[simp] theorem PrdR.setFld_tw (o : Prd) (a lo w v : Nat) : (PrdR.setFld o a lo w v).tw = o.tw := rfl
@[simp] theorem PrdR.setFld_evr (o : Prd) (a lo w v : Nat) : (PrdR.setFld o a lo w v).evr = o.evr := rfl
@[simp] theorem PrdR.setFld_jnl (o : Prd) (a lo w v : Nat) : (PrdR.setFld o a lo w v).jnl = o.jnl := rfl
@[simp] theorem PrdR.setFld_jnlBank (o : Prd) (a lo w v : Nat) : (PrdR.setFld o a lo w v).jnlBank = o.jnlBank := rfl
@[simp] theorem PrdR.setFld_mramProt (o : Prd) (a lo w v : Nat) : (PrdR.setFld o a lo w v).mramProt = o.mramProt := rfl
@[simp] theorem PrdR.setFld_cfg (o : Prd) (a lo w v : Nat) : (PrdR.setFld o a lo w v).cfg = o.cfg := rfl
@[simp] theorem PrdR.setFld_hnr (o : Prd) (a lo w v : Nat) : (PrdR.setFld o a lo w v).hnr = o.hnr := rfl
@[simp] theorem PrdR.setFld_ctx (o : Prd) (a lo w v : Nat) : (PrdR.setFld o a lo w v).ctx = o.ctx := rfl
@[simp] theorem PrdR.setFld_refs (o : Prd) (a lo w v : Nat) : (PrdR.setFld o a lo w v).refs = o.refs := rfl
@[simp] theorem PrdR.setFld_accs (o : Prd) (a lo w v : Nat) : (PrdR.setFld o a lo w v).accs = o.accs := rfl
@[simp] theorem PrdR.setFld_accInt (o : Prd) (a lo w v : Nat) : (PrdR.setFld o a lo w v).accInt = o.accInt := rfl
@[simp] theorem PrdR.setFld_accNext (o : Prd) (a lo w v : Nat) : (PrdR.setFld o a lo w v).accNext = o.accNext := rfl
@[simp] theorem PrdR.setFld_accPrev (o : Prd) (a lo w v : Nat) : (PrdR.setFld o a lo w v).accPrev = o.accPrev := rfl
@[simp] theorem PrdR.setFld_accSwitch (o : Prd) (a lo w v : Nat) : (PrdR.setFld o a lo w v).accSwitch = o.accSwitch := rfl
@[simp] theorem PrdR.setFld_nans (o : Prd) (a lo w v : Nat) : (PrdR.setFld o a lo w v).nans = o.nans := rfl
@[simp] theorem PrdR.setFld_tree (o : Prd) (a lo w v : Nat) : (PrdR.setFld o a lo w v).tree = o.tree := rfl
@[simp] theorem PrdR.setFld_hangs (o : Prd) (a lo w v : Nat) : (PrdR.setFld o a lo w v).hangs = o.hangs := rfl
@[simp] theorem PrdR.setFld_results (o : Prd) (a lo w v : Nat) : (PrdR.setFld o a lo w v).results = o.results := rfl
@[simp] theorem PrdR.setFld_resTimeouts (o : Prd) (a lo w v : Nat) : (PrdR.setFld o a lo w v).resTimeouts = o.resTimeouts := rfl
@[simp] theorem PrdR.setFld_orders (o : Prd) (a lo w v : Nat) : (PrdR.setFld o a lo w v).orders = o.orders := rfl
@[simp] theorem PrdR.setFld_dp (o : Prd) (a lo w v : Nat) : (PrdR.setFld o a lo w v).dp = o.dp := rfl
@[simp] theorem PrdR.setFld_ulq (o : Prd) (a lo w v : Nat) : (PrdR.setFld o a lo w v).ulq = o.ulq := rfl
@[simp] theorem PrdR.setFld_ingest (o : Prd) (a lo w v : Nat) : (PrdR.setFld o a lo w v).ingest = o.ingest := rfl
@[simp] theorem PrdR.setFld_ingestRate (o : Prd) (a lo w v : Nat) : (PrdR.setFld o a lo w v).ingestRate = o.ingestRate := rfl
@[simp] theorem PrdR.setFld_ingestAt (o : Prd) (a lo w v : Nat) : (PrdR.setFld o a lo w v).ingestAt = o.ingestAt := rfl
@[simp] theorem PrdR.setFld_nose (o : Prd) (a lo w v : Nat) : (PrdR.setFld o a lo w v).nose = o.nose := rfl
@[simp] theorem PrdR.setFld_divs (o : Prd) (a lo w v : Nat) : (PrdR.setFld o a lo w v).divs = o.divs := rfl
@[simp] theorem PrdR.setFld_clockClass (o : Prd) (a lo w v : Nat) : (PrdR.setFld o a lo w v).clockClass = o.clockClass := rfl
@[simp] theorem PrdR.setFld_goneAccs (o : Prd) (a lo w v : Nat) : (PrdR.setFld o a lo w v).goneAccs = o.goneAccs := rfl
@[simp] theorem PrdR.setFld_strobes (o : Prd) (a lo w v : Nat) : (PrdR.setFld o a lo w v).strobes = o.strobes := rfl
@[simp] theorem PrdR.setFld_cyc (o : Prd) (a lo w v : Nat) : (PrdR.setFld o a lo w v).cyc = o.cyc := rfl
@[simp] theorem PrdR.setFld_loopCfg (o : Prd) (a lo w v : Nat) : (PrdR.setFld o a lo w v).loopCfg = o.loopCfg := rfl
@[simp] theorem PrdR.setFld_gapRuns (o : Prd) (a lo w v : Nat) : (PrdR.setFld o a lo w v).gapRuns = o.gapRuns := rfl
@[simp] theorem PrdR.setFld_hbm (o : Prd) (a lo w v : Nat) : (PrdR.setFld o a lo w v).hbm = o.hbm := rfl
@[simp] theorem PrdR.setFld_rings (o : Prd) (a lo w v : Nat) : (PrdR.setFld o a lo w v).rings = o.rings := rfl
@[simp] theorem PrdR.setFld_mgmt (o : Prd) (a lo w v : Nat) : (PrdR.setFld o a lo w v).mgmt = o.mgmt := rfl
@[simp] theorem PrdR.setFld_buddy (o : Prd) (a lo w v : Nat) : (PrdR.setFld o a lo w v).buddy = o.buddy := rfl
@[simp] theorem PrdR.setFld_pw (o : Prd) (a lo w v : Nat) : (PrdR.setFld o a lo w v).pw = o.pw := rfl
@[simp] theorem PrdR.setFld_bar4 (o : Prd) (a lo w v : Nat) : (PrdR.setFld o a lo w v).bar4 = o.bar4 := rfl
@[simp] theorem PrdR.setFld_feeds (o : Prd) (a lo w v : Nat) : (PrdR.setFld o a lo w v).feeds = o.feeds := rfl
@[simp] theorem PrdR.setFld_readOut (o : Prd) (a lo w v : Nat) : (PrdR.setFld o a lo w v).readOut = o.readOut := rfl
@[simp] theorem PrdR.setFld_free (o : Prd) (a lo w v : Nat) : (PrdR.setFld o a lo w v).free = o.free := rfl
@[simp] theorem PrdR.ev_clk (o : Prd) (a k : Nat) : (PrdR.ev o a k).clk = o.clk := rfl
@[simp] theorem PrdR.ev_ul (o : Prd) (a k : Nat) : (PrdR.ev o a k).ul = o.ul := rfl
@[simp] theorem PrdR.ev_ptpRestart (o : Prd) (a k : Nat) : (PrdR.ev o a k).ptpRestart = o.ptpRestart := rfl
@[simp] theorem PrdR.ev_stepPending (o : Prd) (a k : Nat) : (PrdR.ev o a k).stepPending = o.stepPending := rfl
@[simp] theorem PrdR.ev_src (o : Prd) (a k : Nat) : (PrdR.ev o a k).src = o.src := rfl
@[simp] theorem PrdR.ev_synceSrc (o : Prd) (a k : Nat) : (PrdR.ev o a k).synceSrc = o.synceSrc := rfl
@[simp] theorem PrdR.ev_tw (o : Prd) (a k : Nat) : (PrdR.ev o a k).tw = o.tw := rfl
@[simp] theorem PrdR.ev_evr (o : Prd) (a k : Nat) : (PrdR.ev o a k).evr = o.evr := rfl
@[simp] theorem PrdR.ev_jnl (o : Prd) (a k : Nat) : (PrdR.ev o a k).jnl = o.jnl := rfl
@[simp] theorem PrdR.ev_jnlBank (o : Prd) (a k : Nat) : (PrdR.ev o a k).jnlBank = o.jnlBank := rfl
@[simp] theorem PrdR.ev_mramProt (o : Prd) (a k : Nat) : (PrdR.ev o a k).mramProt = o.mramProt := rfl
@[simp] theorem PrdR.ev_cfg (o : Prd) (a k : Nat) : (PrdR.ev o a k).cfg = o.cfg := rfl
@[simp] theorem PrdR.ev_hnr (o : Prd) (a k : Nat) : (PrdR.ev o a k).hnr = o.hnr := rfl
@[simp] theorem PrdR.ev_ctx (o : Prd) (a k : Nat) : (PrdR.ev o a k).ctx = o.ctx := rfl
@[simp] theorem PrdR.ev_refs (o : Prd) (a k : Nat) : (PrdR.ev o a k).refs = o.refs := rfl
@[simp] theorem PrdR.ev_accs (o : Prd) (a k : Nat) : (PrdR.ev o a k).accs = o.accs := rfl
@[simp] theorem PrdR.ev_accInt (o : Prd) (a k : Nat) : (PrdR.ev o a k).accInt = o.accInt := rfl
@[simp] theorem PrdR.ev_accNext (o : Prd) (a k : Nat) : (PrdR.ev o a k).accNext = o.accNext := rfl
@[simp] theorem PrdR.ev_accPrev (o : Prd) (a k : Nat) : (PrdR.ev o a k).accPrev = o.accPrev := rfl
@[simp] theorem PrdR.ev_accSwitch (o : Prd) (a k : Nat) : (PrdR.ev o a k).accSwitch = o.accSwitch := rfl
@[simp] theorem PrdR.ev_nans (o : Prd) (a k : Nat) : (PrdR.ev o a k).nans = o.nans := rfl
@[simp] theorem PrdR.ev_tree (o : Prd) (a k : Nat) : (PrdR.ev o a k).tree = o.tree := rfl
@[simp] theorem PrdR.ev_hangs (o : Prd) (a k : Nat) : (PrdR.ev o a k).hangs = o.hangs := rfl
@[simp] theorem PrdR.ev_results (o : Prd) (a k : Nat) : (PrdR.ev o a k).results = o.results := rfl
@[simp] theorem PrdR.ev_resTimeouts (o : Prd) (a k : Nat) : (PrdR.ev o a k).resTimeouts = o.resTimeouts := rfl
@[simp] theorem PrdR.ev_orders (o : Prd) (a k : Nat) : (PrdR.ev o a k).orders = o.orders := rfl
@[simp] theorem PrdR.ev_dp (o : Prd) (a k : Nat) : (PrdR.ev o a k).dp = o.dp := rfl
@[simp] theorem PrdR.ev_ulq (o : Prd) (a k : Nat) : (PrdR.ev o a k).ulq = o.ulq := rfl
@[simp] theorem PrdR.ev_ingest (o : Prd) (a k : Nat) : (PrdR.ev o a k).ingest = o.ingest := rfl
@[simp] theorem PrdR.ev_ingestRate (o : Prd) (a k : Nat) : (PrdR.ev o a k).ingestRate = o.ingestRate := rfl
@[simp] theorem PrdR.ev_ingestAt (o : Prd) (a k : Nat) : (PrdR.ev o a k).ingestAt = o.ingestAt := rfl
@[simp] theorem PrdR.ev_nose (o : Prd) (a k : Nat) : (PrdR.ev o a k).nose = o.nose := rfl
@[simp] theorem PrdR.ev_divs (o : Prd) (a k : Nat) : (PrdR.ev o a k).divs = o.divs := rfl
@[simp] theorem PrdR.ev_clockClass (o : Prd) (a k : Nat) : (PrdR.ev o a k).clockClass = o.clockClass := rfl
@[simp] theorem PrdR.ev_goneAccs (o : Prd) (a k : Nat) : (PrdR.ev o a k).goneAccs = o.goneAccs := rfl
@[simp] theorem PrdR.ev_strobes (o : Prd) (a k : Nat) : (PrdR.ev o a k).strobes = o.strobes := rfl
@[simp] theorem PrdR.ev_loopCfg (o : Prd) (a k : Nat) : (PrdR.ev o a k).loopCfg = o.loopCfg := rfl
@[simp] theorem PrdR.ev_gapRuns (o : Prd) (a k : Nat) : (PrdR.ev o a k).gapRuns = o.gapRuns := rfl
@[simp] theorem PrdR.ev_hbm (o : Prd) (a k : Nat) : (PrdR.ev o a k).hbm = o.hbm := rfl
@[simp] theorem PrdR.ev_rings (o : Prd) (a k : Nat) : (PrdR.ev o a k).rings = o.rings := rfl
@[simp] theorem PrdR.ev_mgmt (o : Prd) (a k : Nat) : (PrdR.ev o a k).mgmt = o.mgmt := rfl
@[simp] theorem PrdR.ev_buddy (o : Prd) (a k : Nat) : (PrdR.ev o a k).buddy = o.buddy := rfl
@[simp] theorem PrdR.ev_pw (o : Prd) (a k : Nat) : (PrdR.ev o a k).pw = o.pw := rfl
@[simp] theorem PrdR.ev_bar4 (o : Prd) (a k : Nat) : (PrdR.ev o a k).bar4 = o.bar4 := rfl
@[simp] theorem PrdR.ev_feeds (o : Prd) (a k : Nat) : (PrdR.ev o a k).feeds = o.feeds := rfl
@[simp] theorem PrdR.ev_readOut (o : Prd) (a k : Nat) : (PrdR.ev o a k).readOut = o.readOut := rfl
@[simp] theorem PrdR.ev_free (o : Prd) (a k : Nat) : (PrdR.ev o a k).free = o.free := rfl
@[simp] theorem PrdR.cnt_clk (o : Prd) (a lo w n : Nat) : (PrdR.cnt o a lo w n).clk = o.clk := rfl
@[simp] theorem PrdR.cnt_ul (o : Prd) (a lo w n : Nat) : (PrdR.cnt o a lo w n).ul = o.ul := rfl
@[simp] theorem PrdR.cnt_ptpRestart (o : Prd) (a lo w n : Nat) : (PrdR.cnt o a lo w n).ptpRestart = o.ptpRestart := rfl
@[simp] theorem PrdR.cnt_stepPending (o : Prd) (a lo w n : Nat) : (PrdR.cnt o a lo w n).stepPending = o.stepPending := rfl
@[simp] theorem PrdR.cnt_src (o : Prd) (a lo w n : Nat) : (PrdR.cnt o a lo w n).src = o.src := rfl
@[simp] theorem PrdR.cnt_synceSrc (o : Prd) (a lo w n : Nat) : (PrdR.cnt o a lo w n).synceSrc = o.synceSrc := rfl
@[simp] theorem PrdR.cnt_tw (o : Prd) (a lo w n : Nat) : (PrdR.cnt o a lo w n).tw = o.tw := rfl
@[simp] theorem PrdR.cnt_evr (o : Prd) (a lo w n : Nat) : (PrdR.cnt o a lo w n).evr = o.evr := rfl
@[simp] theorem PrdR.cnt_jnl (o : Prd) (a lo w n : Nat) : (PrdR.cnt o a lo w n).jnl = o.jnl := rfl
@[simp] theorem PrdR.cnt_jnlBank (o : Prd) (a lo w n : Nat) : (PrdR.cnt o a lo w n).jnlBank = o.jnlBank := rfl
@[simp] theorem PrdR.cnt_mramProt (o : Prd) (a lo w n : Nat) : (PrdR.cnt o a lo w n).mramProt = o.mramProt := rfl
@[simp] theorem PrdR.cnt_cfg (o : Prd) (a lo w n : Nat) : (PrdR.cnt o a lo w n).cfg = o.cfg := rfl
@[simp] theorem PrdR.cnt_hnr (o : Prd) (a lo w n : Nat) : (PrdR.cnt o a lo w n).hnr = o.hnr := rfl
@[simp] theorem PrdR.cnt_ctx (o : Prd) (a lo w n : Nat) : (PrdR.cnt o a lo w n).ctx = o.ctx := rfl
@[simp] theorem PrdR.cnt_refs (o : Prd) (a lo w n : Nat) : (PrdR.cnt o a lo w n).refs = o.refs := rfl
@[simp] theorem PrdR.cnt_accs (o : Prd) (a lo w n : Nat) : (PrdR.cnt o a lo w n).accs = o.accs := rfl
@[simp] theorem PrdR.cnt_accInt (o : Prd) (a lo w n : Nat) : (PrdR.cnt o a lo w n).accInt = o.accInt := rfl
@[simp] theorem PrdR.cnt_accNext (o : Prd) (a lo w n : Nat) : (PrdR.cnt o a lo w n).accNext = o.accNext := rfl
@[simp] theorem PrdR.cnt_accPrev (o : Prd) (a lo w n : Nat) : (PrdR.cnt o a lo w n).accPrev = o.accPrev := rfl
@[simp] theorem PrdR.cnt_accSwitch (o : Prd) (a lo w n : Nat) : (PrdR.cnt o a lo w n).accSwitch = o.accSwitch := rfl
@[simp] theorem PrdR.cnt_nans (o : Prd) (a lo w n : Nat) : (PrdR.cnt o a lo w n).nans = o.nans := rfl
@[simp] theorem PrdR.cnt_tree (o : Prd) (a lo w n : Nat) : (PrdR.cnt o a lo w n).tree = o.tree := rfl
@[simp] theorem PrdR.cnt_hangs (o : Prd) (a lo w n : Nat) : (PrdR.cnt o a lo w n).hangs = o.hangs := rfl
@[simp] theorem PrdR.cnt_results (o : Prd) (a lo w n : Nat) : (PrdR.cnt o a lo w n).results = o.results := rfl
@[simp] theorem PrdR.cnt_resTimeouts (o : Prd) (a lo w n : Nat) : (PrdR.cnt o a lo w n).resTimeouts = o.resTimeouts := rfl
@[simp] theorem PrdR.cnt_orders (o : Prd) (a lo w n : Nat) : (PrdR.cnt o a lo w n).orders = o.orders := rfl
@[simp] theorem PrdR.cnt_dp (o : Prd) (a lo w n : Nat) : (PrdR.cnt o a lo w n).dp = o.dp := rfl
@[simp] theorem PrdR.cnt_ulq (o : Prd) (a lo w n : Nat) : (PrdR.cnt o a lo w n).ulq = o.ulq := rfl
@[simp] theorem PrdR.cnt_ingest (o : Prd) (a lo w n : Nat) : (PrdR.cnt o a lo w n).ingest = o.ingest := rfl
@[simp] theorem PrdR.cnt_ingestRate (o : Prd) (a lo w n : Nat) : (PrdR.cnt o a lo w n).ingestRate = o.ingestRate := rfl
@[simp] theorem PrdR.cnt_ingestAt (o : Prd) (a lo w n : Nat) : (PrdR.cnt o a lo w n).ingestAt = o.ingestAt := rfl
@[simp] theorem PrdR.cnt_nose (o : Prd) (a lo w n : Nat) : (PrdR.cnt o a lo w n).nose = o.nose := rfl
@[simp] theorem PrdR.cnt_divs (o : Prd) (a lo w n : Nat) : (PrdR.cnt o a lo w n).divs = o.divs := rfl
@[simp] theorem PrdR.cnt_clockClass (o : Prd) (a lo w n : Nat) : (PrdR.cnt o a lo w n).clockClass = o.clockClass := rfl
@[simp] theorem PrdR.cnt_goneAccs (o : Prd) (a lo w n : Nat) : (PrdR.cnt o a lo w n).goneAccs = o.goneAccs := rfl
@[simp] theorem PrdR.cnt_strobes (o : Prd) (a lo w n : Nat) : (PrdR.cnt o a lo w n).strobes = o.strobes := rfl
@[simp] theorem PrdR.cnt_loopCfg (o : Prd) (a lo w n : Nat) : (PrdR.cnt o a lo w n).loopCfg = o.loopCfg := rfl
@[simp] theorem PrdR.cnt_gapRuns (o : Prd) (a lo w n : Nat) : (PrdR.cnt o a lo w n).gapRuns = o.gapRuns := rfl
@[simp] theorem PrdR.cnt_hbm (o : Prd) (a lo w n : Nat) : (PrdR.cnt o a lo w n).hbm = o.hbm := rfl
@[simp] theorem PrdR.cnt_rings (o : Prd) (a lo w n : Nat) : (PrdR.cnt o a lo w n).rings = o.rings := rfl
@[simp] theorem PrdR.cnt_mgmt (o : Prd) (a lo w n : Nat) : (PrdR.cnt o a lo w n).mgmt = o.mgmt := rfl
@[simp] theorem PrdR.cnt_buddy (o : Prd) (a lo w n : Nat) : (PrdR.cnt o a lo w n).buddy = o.buddy := rfl
@[simp] theorem PrdR.cnt_pw (o : Prd) (a lo w n : Nat) : (PrdR.cnt o a lo w n).pw = o.pw := rfl
@[simp] theorem PrdR.cnt_bar4 (o : Prd) (a lo w n : Nat) : (PrdR.cnt o a lo w n).bar4 = o.bar4 := rfl
@[simp] theorem PrdR.cnt_feeds (o : Prd) (a lo w n : Nat) : (PrdR.cnt o a lo w n).feeds = o.feeds := rfl
@[simp] theorem PrdR.cnt_readOut (o : Prd) (a lo w n : Nat) : (PrdR.cnt o a lo w n).readOut = o.readOut := rfl
@[simp] theorem PrdR.cnt_free (o : Prd) (a lo w n : Nat) : (PrdR.cnt o a lo w n).free = o.free := rfl
theorem PrdR.get_setFld_ne (o : Prd) {a k : Nat} (lo w v : Nat) (h : a ≠ k) : PrdR.get (PrdR.setFld o a lo w v) k = PrdR.get o k := PrdR.get_set_ne o _ h
theorem PrdR.get_ev_ne (o : Prd) {a k : Nat} (n : Nat) (h : a ≠ k) : PrdR.get (PrdR.ev o a n) k = PrdR.get o k := PrdR.get_set_ne o _ h
theorem PrdR.get_cnt_ne (o : Prd) {a k : Nat} (lo w n : Nat) (h : a ≠ k) : PrdR.get (PrdR.cnt o a lo w n) k = PrdR.get o k := PrdR.get_set_ne o _ h

/-- A register that hardware updates holds the update. -/
theorem OtuR.get_touch_same (o : Otu) (a : Nat) (f : Nat → Nat) : OtuR.get (OtuR.touch o a f) a = f (OtuR.get o a) % 2 ^ 64 :=
  OtuR.get_set_same o a _

theorem OtuR.get_touch_ne (o : Otu) (f : Nat → Nat) {a k : Nat} (h : a ≠ k) : OtuR.get (OtuR.touch o a f) k = OtuR.get o k :=
  OtuR.get_set_ne o _ h

/-- All that an update by hardware does. -/
theorem OtuR.touch_all (o : Otu) (a : Nat) (f : Nat → Nat) :
    OtuR.touch o a f = { o with cyc := (OtuR.touch o a f).cyc, regs := (OtuR.touch o a f).regs } := rfl

/-- An event bit that hardware sets reads 1. -/
theorem OtuR.flag_ev (o : Otu) (a k : Nat) (h : k < 64) : OtuR.flag (OtuR.ev o a k) a k = true := by
  rw [OtuR.flag, OtuR.ev, OtuR.get_touch_same, bit_mod _ _ _ h, bit_setBit]
  simp

/-- A field that hardware sets holds its value. -/
theorem OtuR.fld_setFld (o : Otu) (a lo w v : Nat) (h : lo + w ≤ 64) : OtuR.fld (OtuR.setFld o a lo w v) a lo w = v % 2 ^ w := by
  have key (x : Nat) : getF (x % 2 ^ 64) lo w = getF x lo w := by
    simp only [getF, Nat.shiftRight_eq_div_pow]
    apply Nat.eq_of_testBit_eq
    intro i
    simp only [Nat.testBit_mod_two_pow, Nat.testBit_div_two_pow]
    by_cases hi : i < w
    · simp [hi, show i + lo < 64 by omega]
    · simp [hi]
  rw [OtuR.fld, OtuR.setFld, OtuR.get_set_same, key, getF_setF_same]


/-- A register that hardware updates holds the update. -/
theorem PrdR.get_touch_same (o : Prd) (a : Nat) (f : Nat → Nat) : PrdR.get (PrdR.touch o a f) a = f (PrdR.get o a) % 2 ^ 64 :=
  PrdR.get_set_same o a _

theorem PrdR.get_touch_ne (o : Prd) (f : Nat → Nat) {a k : Nat} (h : a ≠ k) : PrdR.get (PrdR.touch o a f) k = PrdR.get o k :=
  PrdR.get_set_ne o _ h

/-- All that an update by hardware does. -/
theorem PrdR.touch_all (o : Prd) (a : Nat) (f : Nat → Nat) :
    PrdR.touch o a f = { o with cyc := (PrdR.touch o a f).cyc, regs := (PrdR.touch o a f).regs } := rfl

/-- An event bit that hardware sets reads 1. -/
theorem PrdR.flag_ev (o : Prd) (a k : Nat) (h : k < 64) : PrdR.flag (PrdR.ev o a k) a k = true := by
  rw [PrdR.flag, PrdR.ev, PrdR.get_touch_same, bit_mod _ _ _ h, bit_setBit]
  simp

/-- A field that hardware sets holds its value. -/
theorem PrdR.fld_setFld (o : Prd) (a lo w v : Nat) (h : lo + w ≤ 64) : PrdR.fld (PrdR.setFld o a lo w v) a lo w = v % 2 ^ w := by
  have key (x : Nat) : getF (x % 2 ^ 64) lo w = getF x lo w := by
    simp only [getF, Nat.shiftRight_eq_div_pow]
    apply Nat.eq_of_testBit_eq
    intro i
    simp only [Nat.testBit_mod_two_pow, Nat.testBit_div_two_pow]
    by_cases hi : i < w
    · simp [hi, show i + lo < 64 by omega]
    · simp [hi]
  rw [PrdR.fld, PrdR.setFld, PrdR.get_set_same, key, getF_setF_same]


/-! ### Event requests change the recorder and its registers alone (R327) -/

/-- All that an event request does. -/
theorem Otu.event_all (o : Otu) (r : EvReq) :
    o.event r = { o with evr := (o.event r).evr, cyc := (o.event r).cyc, regs := (o.event r).regs } := by
  simp only [Otu.event]
  generalize o.evr.added _ _ = q
  obtain ⟨a, b, c⟩ := q
  cases a <;> cases c <;> rfl

/-- The same at Priord. -/
theorem Prd.charge_all (o : Prd) (n : Nat) (r : EvRec) :
    o.charge n r = { o with evr := (o.charge n r).evr, cyc := (o.charge n r).cyc, regs := (o.charge n r).regs } := by
  simp only [Prd.charge]
  split
  · rfl
  · generalize o.evr.added _ _ = q
    obtain ⟨a, b, c⟩ := q
    cases a <;> cases c <;> rfl

@[simp] theorem Otu.event_lt (o : Otu) (r : EvReq) : (o.event r).lt = o.lt := by rw [Otu.event_all]
@[simp] theorem Otu.event_clk (o : Otu) (r : EvReq) : (o.event r).clk = o.clk := by rw [Otu.event_all]
@[simp] theorem Otu.event_trayLock (o : Otu) (r : EvReq) : (o.event r).trayLock = o.trayLock := by rw [Otu.event_all]
@[simp] theorem Otu.event_prdGrade (o : Otu) (r : EvReq) : (o.event r).prdGrade = o.prdGrade := by rw [Otu.event_all]
@[simp] theorem Otu.event_prdErr (o : Otu) (r : EvReq) : (o.event r).prdErr = o.prdErr := by rw [Otu.event_all]
@[simp] theorem Otu.event_asym (o : Otu) (r : EvReq) : (o.event r).asym = o.asym := by rw [Otu.event_all]
@[simp] theorem Otu.event_marks (o : Otu) (r : EvReq) : (o.event r).marks = o.marks := by rw [Otu.event_all]
@[simp] theorem Otu.event_lastFw (o : Otu) (r : EvReq) : (o.event r).lastFw = o.lastFw := by rw [Otu.event_all]
@[simp] theorem Otu.event_gch (o : Otu) (r : EvReq) : (o.event r).gch = o.gch := by rw [Otu.event_all]
@[simp] theorem Otu.event_staleDue (o : Otu) (r : EvReq) : (o.event r).staleDue = o.staleDue := by rw [Otu.event_all]
@[simp] theorem Otu.event_rxNext (o : Otu) (r : EvReq) : (o.event r).rxNext = o.rxNext := by rw [Otu.event_all]
@[simp] theorem Otu.event_rxHunt (o : Otu) (r : EvReq) : (o.event r).rxHunt = o.rxHunt := by rw [Otu.event_all]
@[simp] theorem Otu.event_rxMsg (o : Otu) (r : EvReq) : (o.event r).rxMsg = o.rxMsg := by rw [Otu.event_all]
@[simp] theorem Otu.event_fresh (o : Otu) (r : EvReq) : (o.event r).fresh = o.fresh := by rw [Otu.event_all]
@[simp] theorem Otu.event_told (o : Otu) (r : EvReq) : (o.event r).told = o.told := by rw [Otu.event_all]
@[simp] theorem Otu.event_winGone (o : Otu) (r : EvReq) : (o.event r).winGone = o.winGone := by rw [Otu.event_all]
@[simp] theorem Otu.event_strobes (o : Otu) (r : EvReq) : (o.event r).strobes = o.strobes := by rw [Otu.event_all]
@[simp] theorem Otu.event_period (o : Otu) (r : EvReq) : (o.event r).period = o.period := by rw [Otu.event_all]
@[simp] theorem Otu.event_jobs (o : Otu) (r : EvReq) : (o.event r).jobs = o.jobs := by rw [Otu.event_all]
@[simp] theorem Otu.event_acc (o : Otu) (r : EvReq) : (o.event r).acc = o.acc := by rw [Otu.event_all]
@[simp] theorem Otu.event_dctr (o : Otu) (r : EvReq) : (o.event r).dctr = o.dctr := by rw [Otu.event_all]
@[simp] theorem Otu.event_engs (o : Otu) (r : EvReq) : (o.event r).engs = o.engs := by rw [Otu.event_all]
@[simp] theorem Otu.event_gchNext (o : Otu) (r : EvReq) : (o.event r).gchNext = o.gchNext := by rw [Otu.event_all]
@[simp] theorem Otu.event_gchSeq (o : Otu) (r : EvReq) : (o.event r).gchSeq = o.gchSeq := by rw [Otu.event_all]
@[simp] theorem Otu.event_grants (o : Otu) (r : EvReq) : (o.event r).grants = o.grants := by rw [Otu.event_all]
@[simp] theorem Otu.event_step (o : Otu) (r : EvReq) : (o.event r).step = o.step := by rw [Otu.event_all]
@[simp] theorem Otu.event_mirror (o : Otu) (r : EvReq) : (o.event r).mirror = o.mirror := by rw [Otu.event_all]
@[simp] theorem Otu.event_canPtr (o : Otu) (r : EvReq) : (o.event r).canPtr = o.canPtr := by rw [Otu.event_all]
@[simp] theorem Otu.event_sil (o : Otu) (r : EvReq) : (o.event r).sil = o.sil := by rw [Otu.event_all]
@[simp] theorem Otu.event_silSeq (o : Otu) (r : EvReq) : (o.event r).silSeq = o.silSeq := by rw [Otu.event_all]
@[simp] theorem Otu.event_armed (o : Otu) (r : EvReq) : (o.event r).armed = o.armed := by rw [Otu.event_all]
@[simp] theorem Otu.event_bmaps (o : Otu) (r : EvReq) : (o.event r).bmaps = o.bmaps := by rw [Otu.event_all]
@[simp] theorem Otu.event_answers (o : Otu) (r : EvReq) : (o.event r).answers = o.answers := by rw [Otu.event_all]
@[simp] theorem Otu.event_retracted (o : Otu) (r : EvReq) : (o.event r).retracted = o.retracted := by rw [Otu.event_all]
@[simp] theorem Otu.event_weights (o : Otu) (r : EvReq) : (o.event r).weights = o.weights := by rw [Otu.event_all]
@[simp] theorem Otu.event_hashing (o : Otu) (r : EvReq) : (o.event r).hashing = o.hashing := by rw [Otu.event_all]
@[simp] theorem Otu.event_inputs (o : Otu) (r : EvReq) : (o.event r).inputs = o.inputs := by rw [Otu.event_all]
@[simp] theorem Otu.event_inputOvf (o : Otu) (r : EvReq) : (o.event r).inputOvf = o.inputOvf := by rw [Otu.event_all]
@[simp] theorem Otu.event_resMark (o : Otu) (r : EvReq) : (o.event r).resMark = o.resMark := by rw [Otu.event_all]
@[simp] theorem Otu.event_queues (o : Otu) (r : EvReq) : (o.event r).queues = o.queues := by rw [Otu.event_all]
@[simp] theorem Otu.event_qsLossy (o : Otu) (r : EvReq) : (o.event r).qsLossy = o.qsLossy := by rw [Otu.event_all]
@[simp] theorem Otu.event_qsLast (o : Otu) (r : EvReq) : (o.event r).qsLast = o.qsLast := by rw [Otu.event_all]
@[simp] theorem Otu.event_qOld (o : Otu) (r : EvReq) : (o.event r).qOld = o.qOld := by rw [Otu.event_all]
@[simp] theorem Otu.event_hbm (o : Otu) (r : EvReq) : (o.event r).hbm = o.hbm := by rw [Otu.event_all]
@[simp] theorem Otu.event_waits (o : Otu) (r : EvReq) : (o.event r).waits = o.waits := by rw [Otu.event_all]
@[simp] theorem Otu.event_waitId (o : Otu) (r : EvReq) : (o.event r).waitId = o.waitId := by rw [Otu.event_all]
@[simp] theorem Otu.event_link (o : Otu) (r : EvReq) : (o.event r).link = o.link := by rw [Otu.event_all]
@[simp] theorem Otu.event_resync (o : Otu) (r : EvReq) : (o.event r).resync = o.resync := by rw [Otu.event_all]
@[simp] theorem Otu.event_txSeq (o : Otu) (r : EvReq) : (o.event r).txSeq = o.txSeq := by rw [Otu.event_all]
@[simp] theorem Otu.event_eq (o : Otu) (r : EvReq) : (o.event r).eq = o.eq := by rw [Otu.event_all]
@[simp] theorem Otu.event_eqs (o : Otu) (r : EvReq) : (o.event r).eqs = o.eqs := by rw [Otu.event_all]
@[simp] theorem Otu.event_gate (o : Otu) (r : EvReq) : (o.event r).gate = o.gate := by rw [Otu.event_all]
@[simp] theorem Otu.event_fb (o : Otu) (r : EvReq) : (o.event r).fb = o.fb := by rw [Otu.event_all]
@[simp] theorem Otu.event_relay (o : Otu) (r : EvReq) : (o.event r).relay = o.relay := by rw [Otu.event_all]
@[simp] theorem Otu.event_fbLast (o : Otu) (r : EvReq) : (o.event r).fbLast = o.fbLast := by rw [Otu.event_all]
@[simp] theorem Otu.event_fbPart (o : Otu) (r : EvReq) : (o.event r).fbPart = o.fbPart := by rw [Otu.event_all]
@[simp] theorem Otu.event_fbOut (o : Otu) (r : EvReq) : (o.event r).fbOut = o.fbOut := by rw [Otu.event_all]
@[simp] theorem Otu.event_relayPart (o : Otu) (r : EvReq) : (o.event r).relayPart = o.relayPart := by rw [Otu.event_all]
@[simp] theorem Otu.event_pageOld (o : Otu) (r : EvReq) : (o.event r).pageOld = o.pageOld := by rw [Otu.event_all]
@[simp] theorem Otu.event_feeds (o : Otu) (r : EvReq) : (o.event r).feeds = o.feeds := by rw [Otu.event_all]
@[simp] theorem Otu.event_readOut (o : Otu) (r : EvReq) : (o.event r).readOut = o.readOut := by rw [Otu.event_all]
@[simp] theorem Otu.event_free (o : Otu) (r : EvReq) : (o.event r).free = o.free := by rw [Otu.event_all]
@[simp] theorem Prd.charge_clk (o : Prd) (n : Nat) (r : EvRec) : (o.charge n r).clk = o.clk := by rw [Prd.charge_all]
@[simp] theorem Prd.charge_ul (o : Prd) (n : Nat) (r : EvRec) : (o.charge n r).ul = o.ul := by rw [Prd.charge_all]
@[simp] theorem Prd.charge_ptpRestart (o : Prd) (n : Nat) (r : EvRec) : (o.charge n r).ptpRestart = o.ptpRestart := by rw [Prd.charge_all]
@[simp] theorem Prd.charge_stepPending (o : Prd) (n : Nat) (r : EvRec) : (o.charge n r).stepPending = o.stepPending := by rw [Prd.charge_all]
@[simp] theorem Prd.charge_src (o : Prd) (n : Nat) (r : EvRec) : (o.charge n r).src = o.src := by rw [Prd.charge_all]
@[simp] theorem Prd.charge_synceSrc (o : Prd) (n : Nat) (r : EvRec) : (o.charge n r).synceSrc = o.synceSrc := by rw [Prd.charge_all]
@[simp] theorem Prd.charge_tw (o : Prd) (n : Nat) (r : EvRec) : (o.charge n r).tw = o.tw := by rw [Prd.charge_all]
@[simp] theorem Prd.charge_jnl (o : Prd) (n : Nat) (r : EvRec) : (o.charge n r).jnl = o.jnl := by rw [Prd.charge_all]
@[simp] theorem Prd.charge_jnlBank (o : Prd) (n : Nat) (r : EvRec) : (o.charge n r).jnlBank = o.jnlBank := by rw [Prd.charge_all]
@[simp] theorem Prd.charge_mramProt (o : Prd) (n : Nat) (r : EvRec) : (o.charge n r).mramProt = o.mramProt := by rw [Prd.charge_all]
@[simp] theorem Prd.charge_cfg (o : Prd) (n : Nat) (r : EvRec) : (o.charge n r).cfg = o.cfg := by rw [Prd.charge_all]
@[simp] theorem Prd.charge_hnr (o : Prd) (n : Nat) (r : EvRec) : (o.charge n r).hnr = o.hnr := by rw [Prd.charge_all]
@[simp] theorem Prd.charge_ctx (o : Prd) (n : Nat) (r : EvRec) : (o.charge n r).ctx = o.ctx := by rw [Prd.charge_all]
@[simp] theorem Prd.charge_refs (o : Prd) (n : Nat) (r : EvRec) : (o.charge n r).refs = o.refs := by rw [Prd.charge_all]
@[simp] theorem Prd.charge_accs (o : Prd) (n : Nat) (r : EvRec) : (o.charge n r).accs = o.accs := by rw [Prd.charge_all]
@[simp] theorem Prd.charge_accInt (o : Prd) (n : Nat) (r : EvRec) : (o.charge n r).accInt = o.accInt := by rw [Prd.charge_all]
@[simp] theorem Prd.charge_accNext (o : Prd) (n : Nat) (r : EvRec) : (o.charge n r).accNext = o.accNext := by rw [Prd.charge_all]
@[simp] theorem Prd.charge_accPrev (o : Prd) (n : Nat) (r : EvRec) : (o.charge n r).accPrev = o.accPrev := by rw [Prd.charge_all]
@[simp] theorem Prd.charge_accSwitch (o : Prd) (n : Nat) (r : EvRec) : (o.charge n r).accSwitch = o.accSwitch := by rw [Prd.charge_all]
@[simp] theorem Prd.charge_nans (o : Prd) (n : Nat) (r : EvRec) : (o.charge n r).nans = o.nans := by rw [Prd.charge_all]
@[simp] theorem Prd.charge_tree (o : Prd) (n : Nat) (r : EvRec) : (o.charge n r).tree = o.tree := by rw [Prd.charge_all]
@[simp] theorem Prd.charge_hangs (o : Prd) (n : Nat) (r : EvRec) : (o.charge n r).hangs = o.hangs := by rw [Prd.charge_all]
@[simp] theorem Prd.charge_results (o : Prd) (n : Nat) (r : EvRec) : (o.charge n r).results = o.results := by rw [Prd.charge_all]
@[simp] theorem Prd.charge_resTimeouts (o : Prd) (n : Nat) (r : EvRec) : (o.charge n r).resTimeouts = o.resTimeouts := by rw [Prd.charge_all]
@[simp] theorem Prd.charge_orders (o : Prd) (n : Nat) (r : EvRec) : (o.charge n r).orders = o.orders := by rw [Prd.charge_all]
@[simp] theorem Prd.charge_dp (o : Prd) (n : Nat) (r : EvRec) : (o.charge n r).dp = o.dp := by rw [Prd.charge_all]
@[simp] theorem Prd.charge_ulq (o : Prd) (n : Nat) (r : EvRec) : (o.charge n r).ulq = o.ulq := by rw [Prd.charge_all]
@[simp] theorem Prd.charge_ingest (o : Prd) (n : Nat) (r : EvRec) : (o.charge n r).ingest = o.ingest := by rw [Prd.charge_all]
@[simp] theorem Prd.charge_ingestRate (o : Prd) (n : Nat) (r : EvRec) : (o.charge n r).ingestRate = o.ingestRate := by rw [Prd.charge_all]
@[simp] theorem Prd.charge_ingestAt (o : Prd) (n : Nat) (r : EvRec) : (o.charge n r).ingestAt = o.ingestAt := by rw [Prd.charge_all]
@[simp] theorem Prd.charge_nose (o : Prd) (n : Nat) (r : EvRec) : (o.charge n r).nose = o.nose := by rw [Prd.charge_all]
@[simp] theorem Prd.charge_divs (o : Prd) (n : Nat) (r : EvRec) : (o.charge n r).divs = o.divs := by rw [Prd.charge_all]
@[simp] theorem Prd.charge_clockClass (o : Prd) (n : Nat) (r : EvRec) : (o.charge n r).clockClass = o.clockClass := by rw [Prd.charge_all]
@[simp] theorem Prd.charge_goneAccs (o : Prd) (n : Nat) (r : EvRec) : (o.charge n r).goneAccs = o.goneAccs := by rw [Prd.charge_all]
@[simp] theorem Prd.charge_strobes (o : Prd) (n : Nat) (r : EvRec) : (o.charge n r).strobes = o.strobes := by rw [Prd.charge_all]
@[simp] theorem Prd.charge_loopCfg (o : Prd) (n : Nat) (r : EvRec) : (o.charge n r).loopCfg = o.loopCfg := by rw [Prd.charge_all]
@[simp] theorem Prd.charge_gapRuns (o : Prd) (n : Nat) (r : EvRec) : (o.charge n r).gapRuns = o.gapRuns := by rw [Prd.charge_all]
@[simp] theorem Prd.charge_hbm (o : Prd) (n : Nat) (r : EvRec) : (o.charge n r).hbm = o.hbm := by rw [Prd.charge_all]
@[simp] theorem Prd.charge_rings (o : Prd) (n : Nat) (r : EvRec) : (o.charge n r).rings = o.rings := by rw [Prd.charge_all]
@[simp] theorem Prd.charge_mgmt (o : Prd) (n : Nat) (r : EvRec) : (o.charge n r).mgmt = o.mgmt := by rw [Prd.charge_all]
@[simp] theorem Prd.charge_buddy (o : Prd) (n : Nat) (r : EvRec) : (o.charge n r).buddy = o.buddy := by rw [Prd.charge_all]
@[simp] theorem Prd.charge_pw (o : Prd) (n : Nat) (r : EvRec) : (o.charge n r).pw = o.pw := by rw [Prd.charge_all]
@[simp] theorem Prd.charge_bar4 (o : Prd) (n : Nat) (r : EvRec) : (o.charge n r).bar4 = o.bar4 := by rw [Prd.charge_all]
@[simp] theorem Prd.charge_feeds (o : Prd) (n : Nat) (r : EvRec) : (o.charge n r).feeds = o.feeds := by rw [Prd.charge_all]
@[simp] theorem Prd.charge_readOut (o : Prd) (n : Nat) (r : EvRec) : (o.charge n r).readOut = o.readOut := by rw [Prd.charge_all]
@[simp] theorem Prd.charge_free (o : Prd) (n : Nat) (r : EvRec) : (o.charge n r).free = o.free := by rw [Prd.charge_all]
@[simp] theorem Prd.event_clk (o : Prd) (r : EvReq) : (o.event r).clk = o.clk := by simp [Prd.event]
@[simp] theorem Prd.event_ul (o : Prd) (r : EvReq) : (o.event r).ul = o.ul := by simp [Prd.event]
@[simp] theorem Prd.event_ptpRestart (o : Prd) (r : EvReq) : (o.event r).ptpRestart = o.ptpRestart := by simp [Prd.event]
@[simp] theorem Prd.event_stepPending (o : Prd) (r : EvReq) : (o.event r).stepPending = o.stepPending := by simp [Prd.event]
@[simp] theorem Prd.event_src (o : Prd) (r : EvReq) : (o.event r).src = o.src := by simp [Prd.event]
@[simp] theorem Prd.event_synceSrc (o : Prd) (r : EvReq) : (o.event r).synceSrc = o.synceSrc := by simp [Prd.event]
@[simp] theorem Prd.event_tw (o : Prd) (r : EvReq) : (o.event r).tw = o.tw := by simp [Prd.event]
@[simp] theorem Prd.event_jnl (o : Prd) (r : EvReq) : (o.event r).jnl = o.jnl := by simp [Prd.event]
@[simp] theorem Prd.event_jnlBank (o : Prd) (r : EvReq) : (o.event r).jnlBank = o.jnlBank := by simp [Prd.event]
@[simp] theorem Prd.event_mramProt (o : Prd) (r : EvReq) : (o.event r).mramProt = o.mramProt := by simp [Prd.event]
@[simp] theorem Prd.event_cfg (o : Prd) (r : EvReq) : (o.event r).cfg = o.cfg := by simp [Prd.event]
@[simp] theorem Prd.event_hnr (o : Prd) (r : EvReq) : (o.event r).hnr = o.hnr := by simp [Prd.event]
@[simp] theorem Prd.event_ctx (o : Prd) (r : EvReq) : (o.event r).ctx = o.ctx := by simp [Prd.event]
@[simp] theorem Prd.event_refs (o : Prd) (r : EvReq) : (o.event r).refs = o.refs := by simp [Prd.event]
@[simp] theorem Prd.event_accs (o : Prd) (r : EvReq) : (o.event r).accs = o.accs := by simp [Prd.event]
@[simp] theorem Prd.event_accInt (o : Prd) (r : EvReq) : (o.event r).accInt = o.accInt := by simp [Prd.event]
@[simp] theorem Prd.event_accNext (o : Prd) (r : EvReq) : (o.event r).accNext = o.accNext := by simp [Prd.event]
@[simp] theorem Prd.event_accPrev (o : Prd) (r : EvReq) : (o.event r).accPrev = o.accPrev := by simp [Prd.event]
@[simp] theorem Prd.event_accSwitch (o : Prd) (r : EvReq) : (o.event r).accSwitch = o.accSwitch := by simp [Prd.event]
@[simp] theorem Prd.event_nans (o : Prd) (r : EvReq) : (o.event r).nans = o.nans := by simp [Prd.event]
@[simp] theorem Prd.event_tree (o : Prd) (r : EvReq) : (o.event r).tree = o.tree := by simp [Prd.event]
@[simp] theorem Prd.event_hangs (o : Prd) (r : EvReq) : (o.event r).hangs = o.hangs := by simp [Prd.event]
@[simp] theorem Prd.event_results (o : Prd) (r : EvReq) : (o.event r).results = o.results := by simp [Prd.event]
@[simp] theorem Prd.event_resTimeouts (o : Prd) (r : EvReq) : (o.event r).resTimeouts = o.resTimeouts := by simp [Prd.event]
@[simp] theorem Prd.event_orders (o : Prd) (r : EvReq) : (o.event r).orders = o.orders := by simp [Prd.event]
@[simp] theorem Prd.event_dp (o : Prd) (r : EvReq) : (o.event r).dp = o.dp := by simp [Prd.event]
@[simp] theorem Prd.event_ulq (o : Prd) (r : EvReq) : (o.event r).ulq = o.ulq := by simp [Prd.event]
@[simp] theorem Prd.event_ingest (o : Prd) (r : EvReq) : (o.event r).ingest = o.ingest := by simp [Prd.event]
@[simp] theorem Prd.event_ingestRate (o : Prd) (r : EvReq) : (o.event r).ingestRate = o.ingestRate := by simp [Prd.event]
@[simp] theorem Prd.event_ingestAt (o : Prd) (r : EvReq) : (o.event r).ingestAt = o.ingestAt := by simp [Prd.event]
@[simp] theorem Prd.event_nose (o : Prd) (r : EvReq) : (o.event r).nose = o.nose := by simp [Prd.event]
@[simp] theorem Prd.event_divs (o : Prd) (r : EvReq) : (o.event r).divs = o.divs := by simp [Prd.event]
@[simp] theorem Prd.event_clockClass (o : Prd) (r : EvReq) : (o.event r).clockClass = o.clockClass := by simp [Prd.event]
@[simp] theorem Prd.event_goneAccs (o : Prd) (r : EvReq) : (o.event r).goneAccs = o.goneAccs := by simp [Prd.event]
@[simp] theorem Prd.event_strobes (o : Prd) (r : EvReq) : (o.event r).strobes = o.strobes := by simp [Prd.event]
@[simp] theorem Prd.event_loopCfg (o : Prd) (r : EvReq) : (o.event r).loopCfg = o.loopCfg := by simp [Prd.event]
@[simp] theorem Prd.event_gapRuns (o : Prd) (r : EvReq) : (o.event r).gapRuns = o.gapRuns := by simp [Prd.event]
@[simp] theorem Prd.event_hbm (o : Prd) (r : EvReq) : (o.event r).hbm = o.hbm := by simp [Prd.event]
@[simp] theorem Prd.event_rings (o : Prd) (r : EvReq) : (o.event r).rings = o.rings := by simp [Prd.event]
@[simp] theorem Prd.event_mgmt (o : Prd) (r : EvReq) : (o.event r).mgmt = o.mgmt := by simp [Prd.event]
@[simp] theorem Prd.event_buddy (o : Prd) (r : EvReq) : (o.event r).buddy = o.buddy := by simp [Prd.event]
@[simp] theorem Prd.event_pw (o : Prd) (r : EvReq) : (o.event r).pw = o.pw := by simp [Prd.event]
@[simp] theorem Prd.event_bar4 (o : Prd) (r : EvReq) : (o.event r).bar4 = o.bar4 := by simp [Prd.event]
@[simp] theorem Prd.event_feeds (o : Prd) (r : EvReq) : (o.event r).feeds = o.feeds := by simp [Prd.event]
@[simp] theorem Prd.event_readOut (o : Prd) (r : EvReq) : (o.event r).readOut = o.readOut := by simp [Prd.event]
@[simp] theorem Prd.event_free (o : Prd) (r : EvReq) : (o.event r).free = o.free := by simp [Prd.event]

/-- An event request leaves every register but EVR_EVENTS and EVR_DROPPED alone. -/
theorem Otu.event_get (o : Otu) (r : EvReq) (a : Nat) (h : a ≠ OTU_EVR_EVENTS) (h' : a ≠ OTU_EVR_DROPPED) :
    OtuR.get (o.event r) a = OtuR.get o a := by
  have h1 := h.symm
  have h2 := h'.symm
  simp only [Otu.event]
  generalize o.evr.added _ _ = q
  obtain ⟨b, n, c⟩ := q
  cases b <;> cases c <;>
    simp only [Bool.false_eq_true, ↓reduceIte, OtuR.get_touch_ne, OtuR.get_ev_ne, h1, h2, ne_eq, not_false_eq_true] <;> rfl

/-- The same at Priord. -/
theorem Prd.event_get (o : Prd) (r : EvReq) (a : Nat) (h : a ≠ PRD_EVR_EVENTS) (h' : a ≠ PRD_EVR_DROPPED) :
    PrdR.get (o.event r) a = PrdR.get o a := by
  have h1 := h.symm
  have h2 := h'.symm
  simp only [Prd.event, Prd.charge]
  split
  · rfl
  · generalize o.evr.added _ _ = q
    obtain ⟨b, n, c⟩ := q
    cases b <;> cases c <;>
      simp only [Bool.false_eq_true, ↓reduceIte, PrdR.get_touch_ne, PrdR.get_ev_ne, h1, h2, ne_eq, not_false_eq_true] <;> rfl


/-! ### Records sent change the egress queues alone (R299) -/

@[simp] theorem Otu.enqueue_regs (o : Otu) (q : Nat) (r : QRec) : (o.enqueue q r).regs = o.regs := rfl
@[simp] theorem Otu.enqueue_lt (o : Otu) (q : Nat) (r : QRec) : (o.enqueue q r).lt = o.lt := rfl
@[simp] theorem Otu.enqueue_clk (o : Otu) (q : Nat) (r : QRec) : (o.enqueue q r).clk = o.clk := rfl
@[simp] theorem Otu.enqueue_trayLock (o : Otu) (q : Nat) (r : QRec) : (o.enqueue q r).trayLock = o.trayLock := rfl
@[simp] theorem Otu.enqueue_prdGrade (o : Otu) (q : Nat) (r : QRec) : (o.enqueue q r).prdGrade = o.prdGrade := rfl
@[simp] theorem Otu.enqueue_prdErr (o : Otu) (q : Nat) (r : QRec) : (o.enqueue q r).prdErr = o.prdErr := rfl
@[simp] theorem Otu.enqueue_asym (o : Otu) (q : Nat) (r : QRec) : (o.enqueue q r).asym = o.asym := rfl
@[simp] theorem Otu.enqueue_marks (o : Otu) (q : Nat) (r : QRec) : (o.enqueue q r).marks = o.marks := rfl
@[simp] theorem Otu.enqueue_lastFw (o : Otu) (q : Nat) (r : QRec) : (o.enqueue q r).lastFw = o.lastFw := rfl
@[simp] theorem Otu.enqueue_gch (o : Otu) (q : Nat) (r : QRec) : (o.enqueue q r).gch = o.gch := rfl
@[simp] theorem Otu.enqueue_staleDue (o : Otu) (q : Nat) (r : QRec) : (o.enqueue q r).staleDue = o.staleDue := rfl
@[simp] theorem Otu.enqueue_rxNext (o : Otu) (q : Nat) (r : QRec) : (o.enqueue q r).rxNext = o.rxNext := rfl
@[simp] theorem Otu.enqueue_rxHunt (o : Otu) (q : Nat) (r : QRec) : (o.enqueue q r).rxHunt = o.rxHunt := rfl
@[simp] theorem Otu.enqueue_rxMsg (o : Otu) (q : Nat) (r : QRec) : (o.enqueue q r).rxMsg = o.rxMsg := rfl
@[simp] theorem Otu.enqueue_fresh (o : Otu) (q : Nat) (r : QRec) : (o.enqueue q r).fresh = o.fresh := rfl
@[simp] theorem Otu.enqueue_told (o : Otu) (q : Nat) (r : QRec) : (o.enqueue q r).told = o.told := rfl
@[simp] theorem Otu.enqueue_winGone (o : Otu) (q : Nat) (r : QRec) : (o.enqueue q r).winGone = o.winGone := rfl
@[simp] theorem Otu.enqueue_strobes (o : Otu) (q : Nat) (r : QRec) : (o.enqueue q r).strobes = o.strobes := rfl
@[simp] theorem Otu.enqueue_cyc (o : Otu) (q : Nat) (r : QRec) : (o.enqueue q r).cyc = o.cyc := rfl
@[simp] theorem Otu.enqueue_period (o : Otu) (q : Nat) (r : QRec) : (o.enqueue q r).period = o.period := rfl
@[simp] theorem Otu.enqueue_jobs (o : Otu) (q : Nat) (r : QRec) : (o.enqueue q r).jobs = o.jobs := rfl
@[simp] theorem Otu.enqueue_acc (o : Otu) (q : Nat) (r : QRec) : (o.enqueue q r).acc = o.acc := rfl
@[simp] theorem Otu.enqueue_dctr (o : Otu) (q : Nat) (r : QRec) : (o.enqueue q r).dctr = o.dctr := rfl
@[simp] theorem Otu.enqueue_engs (o : Otu) (q : Nat) (r : QRec) : (o.enqueue q r).engs = o.engs := rfl
@[simp] theorem Otu.enqueue_gchNext (o : Otu) (q : Nat) (r : QRec) : (o.enqueue q r).gchNext = o.gchNext := rfl
@[simp] theorem Otu.enqueue_gchSeq (o : Otu) (q : Nat) (r : QRec) : (o.enqueue q r).gchSeq = o.gchSeq := rfl
@[simp] theorem Otu.enqueue_grants (o : Otu) (q : Nat) (r : QRec) : (o.enqueue q r).grants = o.grants := rfl
@[simp] theorem Otu.enqueue_step (o : Otu) (q : Nat) (r : QRec) : (o.enqueue q r).step = o.step := rfl
@[simp] theorem Otu.enqueue_mirror (o : Otu) (q : Nat) (r : QRec) : (o.enqueue q r).mirror = o.mirror := rfl
@[simp] theorem Otu.enqueue_canPtr (o : Otu) (q : Nat) (r : QRec) : (o.enqueue q r).canPtr = o.canPtr := rfl
@[simp] theorem Otu.enqueue_sil (o : Otu) (q : Nat) (r : QRec) : (o.enqueue q r).sil = o.sil := rfl
@[simp] theorem Otu.enqueue_silSeq (o : Otu) (q : Nat) (r : QRec) : (o.enqueue q r).silSeq = o.silSeq := rfl
@[simp] theorem Otu.enqueue_armed (o : Otu) (q : Nat) (r : QRec) : (o.enqueue q r).armed = o.armed := rfl
@[simp] theorem Otu.enqueue_bmaps (o : Otu) (q : Nat) (r : QRec) : (o.enqueue q r).bmaps = o.bmaps := rfl
@[simp] theorem Otu.enqueue_answers (o : Otu) (q : Nat) (r : QRec) : (o.enqueue q r).answers = o.answers := rfl
@[simp] theorem Otu.enqueue_retracted (o : Otu) (q : Nat) (r : QRec) : (o.enqueue q r).retracted = o.retracted := rfl
@[simp] theorem Otu.enqueue_weights (o : Otu) (q : Nat) (r : QRec) : (o.enqueue q r).weights = o.weights := rfl
@[simp] theorem Otu.enqueue_hashing (o : Otu) (q : Nat) (r : QRec) : (o.enqueue q r).hashing = o.hashing := rfl
@[simp] theorem Otu.enqueue_inputs (o : Otu) (q : Nat) (r : QRec) : (o.enqueue q r).inputs = o.inputs := rfl
@[simp] theorem Otu.enqueue_inputOvf (o : Otu) (q : Nat) (r : QRec) : (o.enqueue q r).inputOvf = o.inputOvf := rfl
@[simp] theorem Otu.enqueue_resMark (o : Otu) (q : Nat) (r : QRec) : (o.enqueue q r).resMark = o.resMark := rfl
@[simp] theorem Otu.enqueue_queues (o : Otu) (q : Nat) (r : QRec) : (o.enqueue q r).queues = o.queues := rfl
@[simp] theorem Otu.enqueue_qsLossy (o : Otu) (q : Nat) (r : QRec) : (o.enqueue q r).qsLossy = o.qsLossy := rfl
@[simp] theorem Otu.enqueue_qsLast (o : Otu) (q : Nat) (r : QRec) : (o.enqueue q r).qsLast = o.qsLast := rfl
@[simp] theorem Otu.enqueue_qOld (o : Otu) (q : Nat) (r : QRec) : (o.enqueue q r).qOld = o.qOld := rfl
@[simp] theorem Otu.enqueue_hbm (o : Otu) (q : Nat) (r : QRec) : (o.enqueue q r).hbm = o.hbm := rfl
@[simp] theorem Otu.enqueue_waits (o : Otu) (q : Nat) (r : QRec) : (o.enqueue q r).waits = o.waits := rfl
@[simp] theorem Otu.enqueue_waitId (o : Otu) (q : Nat) (r : QRec) : (o.enqueue q r).waitId = o.waitId := rfl
@[simp] theorem Otu.enqueue_link (o : Otu) (q : Nat) (r : QRec) : (o.enqueue q r).link = o.link := rfl
@[simp] theorem Otu.enqueue_resync (o : Otu) (q : Nat) (r : QRec) : (o.enqueue q r).resync = o.resync := rfl
@[simp] theorem Otu.enqueue_txSeq (o : Otu) (q : Nat) (r : QRec) : (o.enqueue q r).txSeq = o.txSeq := rfl
@[simp] theorem Otu.enqueue_gate (o : Otu) (q : Nat) (r : QRec) : (o.enqueue q r).gate = o.gate := rfl
@[simp] theorem Otu.enqueue_fb (o : Otu) (q : Nat) (r : QRec) : (o.enqueue q r).fb = o.fb := rfl
@[simp] theorem Otu.enqueue_relay (o : Otu) (q : Nat) (r : QRec) : (o.enqueue q r).relay = o.relay := rfl
@[simp] theorem Otu.enqueue_fbLast (o : Otu) (q : Nat) (r : QRec) : (o.enqueue q r).fbLast = o.fbLast := rfl
@[simp] theorem Otu.enqueue_fbPart (o : Otu) (q : Nat) (r : QRec) : (o.enqueue q r).fbPart = o.fbPart := rfl
@[simp] theorem Otu.enqueue_fbOut (o : Otu) (q : Nat) (r : QRec) : (o.enqueue q r).fbOut = o.fbOut := rfl
@[simp] theorem Otu.enqueue_relayPart (o : Otu) (q : Nat) (r : QRec) : (o.enqueue q r).relayPart = o.relayPart := rfl
@[simp] theorem Otu.enqueue_evr (o : Otu) (q : Nat) (r : QRec) : (o.enqueue q r).evr = o.evr := rfl
@[simp] theorem Otu.enqueue_pageOld (o : Otu) (q : Nat) (r : QRec) : (o.enqueue q r).pageOld = o.pageOld := rfl
@[simp] theorem Otu.enqueue_feeds (o : Otu) (q : Nat) (r : QRec) : (o.enqueue q r).feeds = o.feeds := rfl
@[simp] theorem Otu.enqueue_readOut (o : Otu) (q : Nat) (r : QRec) : (o.enqueue q r).readOut = o.readOut := rfl
@[simp] theorem Otu.enqueue_free (o : Otu) (q : Nat) (r : QRec) : (o.enqueue q r).free = o.free := rfl
@[simp] theorem Otu.send_regs (o : Otu) (k i r t : Nat) (b : List Byte) : (o.send k i r t b).regs = o.regs := rfl
@[simp] theorem Otu.send_lt (o : Otu) (k i r t : Nat) (b : List Byte) : (o.send k i r t b).lt = o.lt := rfl
@[simp] theorem Otu.send_clk (o : Otu) (k i r t : Nat) (b : List Byte) : (o.send k i r t b).clk = o.clk := rfl
@[simp] theorem Otu.send_trayLock (o : Otu) (k i r t : Nat) (b : List Byte) : (o.send k i r t b).trayLock = o.trayLock := rfl
@[simp] theorem Otu.send_prdGrade (o : Otu) (k i r t : Nat) (b : List Byte) : (o.send k i r t b).prdGrade = o.prdGrade := rfl
@[simp] theorem Otu.send_prdErr (o : Otu) (k i r t : Nat) (b : List Byte) : (o.send k i r t b).prdErr = o.prdErr := rfl
@[simp] theorem Otu.send_asym (o : Otu) (k i r t : Nat) (b : List Byte) : (o.send k i r t b).asym = o.asym := rfl
@[simp] theorem Otu.send_marks (o : Otu) (k i r t : Nat) (b : List Byte) : (o.send k i r t b).marks = o.marks := rfl
@[simp] theorem Otu.send_lastFw (o : Otu) (k i r t : Nat) (b : List Byte) : (o.send k i r t b).lastFw = o.lastFw := rfl
@[simp] theorem Otu.send_gch (o : Otu) (k i r t : Nat) (b : List Byte) : (o.send k i r t b).gch = o.gch := rfl
@[simp] theorem Otu.send_staleDue (o : Otu) (k i r t : Nat) (b : List Byte) : (o.send k i r t b).staleDue = o.staleDue := rfl
@[simp] theorem Otu.send_rxNext (o : Otu) (k i r t : Nat) (b : List Byte) : (o.send k i r t b).rxNext = o.rxNext := rfl
@[simp] theorem Otu.send_rxHunt (o : Otu) (k i r t : Nat) (b : List Byte) : (o.send k i r t b).rxHunt = o.rxHunt := rfl
@[simp] theorem Otu.send_rxMsg (o : Otu) (k i r t : Nat) (b : List Byte) : (o.send k i r t b).rxMsg = o.rxMsg := rfl
@[simp] theorem Otu.send_fresh (o : Otu) (k i r t : Nat) (b : List Byte) : (o.send k i r t b).fresh = o.fresh := rfl
@[simp] theorem Otu.send_told (o : Otu) (k i r t : Nat) (b : List Byte) : (o.send k i r t b).told = o.told := rfl
@[simp] theorem Otu.send_winGone (o : Otu) (k i r t : Nat) (b : List Byte) : (o.send k i r t b).winGone = o.winGone := rfl
@[simp] theorem Otu.send_strobes (o : Otu) (k i r t : Nat) (b : List Byte) : (o.send k i r t b).strobes = o.strobes := rfl
@[simp] theorem Otu.send_cyc (o : Otu) (k i r t : Nat) (b : List Byte) : (o.send k i r t b).cyc = o.cyc := rfl
@[simp] theorem Otu.send_period (o : Otu) (k i r t : Nat) (b : List Byte) : (o.send k i r t b).period = o.period := rfl
@[simp] theorem Otu.send_jobs (o : Otu) (k i r t : Nat) (b : List Byte) : (o.send k i r t b).jobs = o.jobs := rfl
@[simp] theorem Otu.send_acc (o : Otu) (k i r t : Nat) (b : List Byte) : (o.send k i r t b).acc = o.acc := rfl
@[simp] theorem Otu.send_dctr (o : Otu) (k i r t : Nat) (b : List Byte) : (o.send k i r t b).dctr = o.dctr := rfl
@[simp] theorem Otu.send_engs (o : Otu) (k i r t : Nat) (b : List Byte) : (o.send k i r t b).engs = o.engs := rfl
@[simp] theorem Otu.send_gchNext (o : Otu) (k i r t : Nat) (b : List Byte) : (o.send k i r t b).gchNext = o.gchNext := rfl
@[simp] theorem Otu.send_gchSeq (o : Otu) (k i r t : Nat) (b : List Byte) : (o.send k i r t b).gchSeq = o.gchSeq := rfl
@[simp] theorem Otu.send_grants (o : Otu) (k i r t : Nat) (b : List Byte) : (o.send k i r t b).grants = o.grants := rfl
@[simp] theorem Otu.send_step (o : Otu) (k i r t : Nat) (b : List Byte) : (o.send k i r t b).step = o.step := rfl
@[simp] theorem Otu.send_mirror (o : Otu) (k i r t : Nat) (b : List Byte) : (o.send k i r t b).mirror = o.mirror := rfl
@[simp] theorem Otu.send_canPtr (o : Otu) (k i r t : Nat) (b : List Byte) : (o.send k i r t b).canPtr = o.canPtr := rfl
@[simp] theorem Otu.send_sil (o : Otu) (k i r t : Nat) (b : List Byte) : (o.send k i r t b).sil = o.sil := rfl
@[simp] theorem Otu.send_silSeq (o : Otu) (k i r t : Nat) (b : List Byte) : (o.send k i r t b).silSeq = o.silSeq := rfl
@[simp] theorem Otu.send_armed (o : Otu) (k i r t : Nat) (b : List Byte) : (o.send k i r t b).armed = o.armed := rfl
@[simp] theorem Otu.send_bmaps (o : Otu) (k i r t : Nat) (b : List Byte) : (o.send k i r t b).bmaps = o.bmaps := rfl
@[simp] theorem Otu.send_answers (o : Otu) (k i r t : Nat) (b : List Byte) : (o.send k i r t b).answers = o.answers := rfl
@[simp] theorem Otu.send_retracted (o : Otu) (k i r t : Nat) (b : List Byte) : (o.send k i r t b).retracted = o.retracted := rfl
@[simp] theorem Otu.send_weights (o : Otu) (k i r t : Nat) (b : List Byte) : (o.send k i r t b).weights = o.weights := rfl
@[simp] theorem Otu.send_hashing (o : Otu) (k i r t : Nat) (b : List Byte) : (o.send k i r t b).hashing = o.hashing := rfl
@[simp] theorem Otu.send_inputs (o : Otu) (k i r t : Nat) (b : List Byte) : (o.send k i r t b).inputs = o.inputs := rfl
@[simp] theorem Otu.send_inputOvf (o : Otu) (k i r t : Nat) (b : List Byte) : (o.send k i r t b).inputOvf = o.inputOvf := rfl
@[simp] theorem Otu.send_resMark (o : Otu) (k i r t : Nat) (b : List Byte) : (o.send k i r t b).resMark = o.resMark := rfl
@[simp] theorem Otu.send_queues (o : Otu) (k i r t : Nat) (b : List Byte) : (o.send k i r t b).queues = o.queues := rfl
@[simp] theorem Otu.send_qsLossy (o : Otu) (k i r t : Nat) (b : List Byte) : (o.send k i r t b).qsLossy = o.qsLossy := rfl
@[simp] theorem Otu.send_qsLast (o : Otu) (k i r t : Nat) (b : List Byte) : (o.send k i r t b).qsLast = o.qsLast := rfl
@[simp] theorem Otu.send_qOld (o : Otu) (k i r t : Nat) (b : List Byte) : (o.send k i r t b).qOld = o.qOld := rfl
@[simp] theorem Otu.send_hbm (o : Otu) (k i r t : Nat) (b : List Byte) : (o.send k i r t b).hbm = o.hbm := rfl
@[simp] theorem Otu.send_waits (o : Otu) (k i r t : Nat) (b : List Byte) : (o.send k i r t b).waits = o.waits := rfl
@[simp] theorem Otu.send_waitId (o : Otu) (k i r t : Nat) (b : List Byte) : (o.send k i r t b).waitId = o.waitId := rfl
@[simp] theorem Otu.send_link (o : Otu) (k i r t : Nat) (b : List Byte) : (o.send k i r t b).link = o.link := rfl
@[simp] theorem Otu.send_resync (o : Otu) (k i r t : Nat) (b : List Byte) : (o.send k i r t b).resync = o.resync := rfl
@[simp] theorem Otu.send_txSeq (o : Otu) (k i r t : Nat) (b : List Byte) : (o.send k i r t b).txSeq = o.txSeq := rfl
@[simp] theorem Otu.send_gate (o : Otu) (k i r t : Nat) (b : List Byte) : (o.send k i r t b).gate = o.gate := rfl
@[simp] theorem Otu.send_fb (o : Otu) (k i r t : Nat) (b : List Byte) : (o.send k i r t b).fb = o.fb := rfl
@[simp] theorem Otu.send_relay (o : Otu) (k i r t : Nat) (b : List Byte) : (o.send k i r t b).relay = o.relay := rfl
@[simp] theorem Otu.send_fbLast (o : Otu) (k i r t : Nat) (b : List Byte) : (o.send k i r t b).fbLast = o.fbLast := rfl
@[simp] theorem Otu.send_fbPart (o : Otu) (k i r t : Nat) (b : List Byte) : (o.send k i r t b).fbPart = o.fbPart := rfl
@[simp] theorem Otu.send_fbOut (o : Otu) (k i r t : Nat) (b : List Byte) : (o.send k i r t b).fbOut = o.fbOut := rfl
@[simp] theorem Otu.send_relayPart (o : Otu) (k i r t : Nat) (b : List Byte) : (o.send k i r t b).relayPart = o.relayPart := rfl
@[simp] theorem Otu.send_evr (o : Otu) (k i r t : Nat) (b : List Byte) : (o.send k i r t b).evr = o.evr := rfl
@[simp] theorem Otu.send_pageOld (o : Otu) (k i r t : Nat) (b : List Byte) : (o.send k i r t b).pageOld = o.pageOld := rfl
@[simp] theorem Otu.send_feeds (o : Otu) (k i r t : Nat) (b : List Byte) : (o.send k i r t b).feeds = o.feeds := rfl
@[simp] theorem Otu.send_readOut (o : Otu) (k i r t : Nat) (b : List Byte) : (o.send k i r t b).readOut = o.readOut := rfl
@[simp] theorem Otu.send_free (o : Otu) (k i r t : Nat) (b : List Byte) : (o.send k i r t b).free = o.free := rfl
@[simp] theorem Otu.dctrAdd_regs (o : Otu) (i n : Nat) : (o.dctrAdd i n).regs = o.regs := rfl
@[simp] theorem Otu.dctrAdd_lt (o : Otu) (i n : Nat) : (o.dctrAdd i n).lt = o.lt := rfl
@[simp] theorem Otu.dctrAdd_clk (o : Otu) (i n : Nat) : (o.dctrAdd i n).clk = o.clk := rfl
@[simp] theorem Otu.dctrAdd_trayLock (o : Otu) (i n : Nat) : (o.dctrAdd i n).trayLock = o.trayLock := rfl
@[simp] theorem Otu.dctrAdd_prdGrade (o : Otu) (i n : Nat) : (o.dctrAdd i n).prdGrade = o.prdGrade := rfl
@[simp] theorem Otu.dctrAdd_prdErr (o : Otu) (i n : Nat) : (o.dctrAdd i n).prdErr = o.prdErr := rfl
@[simp] theorem Otu.dctrAdd_asym (o : Otu) (i n : Nat) : (o.dctrAdd i n).asym = o.asym := rfl
@[simp] theorem Otu.dctrAdd_marks (o : Otu) (i n : Nat) : (o.dctrAdd i n).marks = o.marks := rfl
@[simp] theorem Otu.dctrAdd_lastFw (o : Otu) (i n : Nat) : (o.dctrAdd i n).lastFw = o.lastFw := rfl
@[simp] theorem Otu.dctrAdd_gch (o : Otu) (i n : Nat) : (o.dctrAdd i n).gch = o.gch := rfl
@[simp] theorem Otu.dctrAdd_staleDue (o : Otu) (i n : Nat) : (o.dctrAdd i n).staleDue = o.staleDue := rfl
@[simp] theorem Otu.dctrAdd_rxNext (o : Otu) (i n : Nat) : (o.dctrAdd i n).rxNext = o.rxNext := rfl
@[simp] theorem Otu.dctrAdd_rxHunt (o : Otu) (i n : Nat) : (o.dctrAdd i n).rxHunt = o.rxHunt := rfl
@[simp] theorem Otu.dctrAdd_rxMsg (o : Otu) (i n : Nat) : (o.dctrAdd i n).rxMsg = o.rxMsg := rfl
@[simp] theorem Otu.dctrAdd_fresh (o : Otu) (i n : Nat) : (o.dctrAdd i n).fresh = o.fresh := rfl
@[simp] theorem Otu.dctrAdd_told (o : Otu) (i n : Nat) : (o.dctrAdd i n).told = o.told := rfl
@[simp] theorem Otu.dctrAdd_winGone (o : Otu) (i n : Nat) : (o.dctrAdd i n).winGone = o.winGone := rfl
@[simp] theorem Otu.dctrAdd_strobes (o : Otu) (i n : Nat) : (o.dctrAdd i n).strobes = o.strobes := rfl
@[simp] theorem Otu.dctrAdd_cyc (o : Otu) (i n : Nat) : (o.dctrAdd i n).cyc = o.cyc := rfl
@[simp] theorem Otu.dctrAdd_period (o : Otu) (i n : Nat) : (o.dctrAdd i n).period = o.period := rfl
@[simp] theorem Otu.dctrAdd_jobs (o : Otu) (i n : Nat) : (o.dctrAdd i n).jobs = o.jobs := rfl
@[simp] theorem Otu.dctrAdd_acc (o : Otu) (i n : Nat) : (o.dctrAdd i n).acc = o.acc := rfl
@[simp] theorem Otu.dctrAdd_engs (o : Otu) (i n : Nat) : (o.dctrAdd i n).engs = o.engs := rfl
@[simp] theorem Otu.dctrAdd_gchNext (o : Otu) (i n : Nat) : (o.dctrAdd i n).gchNext = o.gchNext := rfl
@[simp] theorem Otu.dctrAdd_gchSeq (o : Otu) (i n : Nat) : (o.dctrAdd i n).gchSeq = o.gchSeq := rfl
@[simp] theorem Otu.dctrAdd_grants (o : Otu) (i n : Nat) : (o.dctrAdd i n).grants = o.grants := rfl
@[simp] theorem Otu.dctrAdd_step (o : Otu) (i n : Nat) : (o.dctrAdd i n).step = o.step := rfl
@[simp] theorem Otu.dctrAdd_mirror (o : Otu) (i n : Nat) : (o.dctrAdd i n).mirror = o.mirror := rfl
@[simp] theorem Otu.dctrAdd_canPtr (o : Otu) (i n : Nat) : (o.dctrAdd i n).canPtr = o.canPtr := rfl
@[simp] theorem Otu.dctrAdd_sil (o : Otu) (i n : Nat) : (o.dctrAdd i n).sil = o.sil := rfl
@[simp] theorem Otu.dctrAdd_silSeq (o : Otu) (i n : Nat) : (o.dctrAdd i n).silSeq = o.silSeq := rfl
@[simp] theorem Otu.dctrAdd_armed (o : Otu) (i n : Nat) : (o.dctrAdd i n).armed = o.armed := rfl
@[simp] theorem Otu.dctrAdd_bmaps (o : Otu) (i n : Nat) : (o.dctrAdd i n).bmaps = o.bmaps := rfl
@[simp] theorem Otu.dctrAdd_answers (o : Otu) (i n : Nat) : (o.dctrAdd i n).answers = o.answers := rfl
@[simp] theorem Otu.dctrAdd_retracted (o : Otu) (i n : Nat) : (o.dctrAdd i n).retracted = o.retracted := rfl
@[simp] theorem Otu.dctrAdd_weights (o : Otu) (i n : Nat) : (o.dctrAdd i n).weights = o.weights := rfl
@[simp] theorem Otu.dctrAdd_hashing (o : Otu) (i n : Nat) : (o.dctrAdd i n).hashing = o.hashing := rfl
@[simp] theorem Otu.dctrAdd_inputs (o : Otu) (i n : Nat) : (o.dctrAdd i n).inputs = o.inputs := rfl
@[simp] theorem Otu.dctrAdd_inputOvf (o : Otu) (i n : Nat) : (o.dctrAdd i n).inputOvf = o.inputOvf := rfl
@[simp] theorem Otu.dctrAdd_resMark (o : Otu) (i n : Nat) : (o.dctrAdd i n).resMark = o.resMark := rfl
@[simp] theorem Otu.dctrAdd_queues (o : Otu) (i n : Nat) : (o.dctrAdd i n).queues = o.queues := rfl
@[simp] theorem Otu.dctrAdd_qsLossy (o : Otu) (i n : Nat) : (o.dctrAdd i n).qsLossy = o.qsLossy := rfl
@[simp] theorem Otu.dctrAdd_qsLast (o : Otu) (i n : Nat) : (o.dctrAdd i n).qsLast = o.qsLast := rfl
@[simp] theorem Otu.dctrAdd_qOld (o : Otu) (i n : Nat) : (o.dctrAdd i n).qOld = o.qOld := rfl
@[simp] theorem Otu.dctrAdd_hbm (o : Otu) (i n : Nat) : (o.dctrAdd i n).hbm = o.hbm := rfl
@[simp] theorem Otu.dctrAdd_waits (o : Otu) (i n : Nat) : (o.dctrAdd i n).waits = o.waits := rfl
@[simp] theorem Otu.dctrAdd_waitId (o : Otu) (i n : Nat) : (o.dctrAdd i n).waitId = o.waitId := rfl
@[simp] theorem Otu.dctrAdd_link (o : Otu) (i n : Nat) : (o.dctrAdd i n).link = o.link := rfl
@[simp] theorem Otu.dctrAdd_resync (o : Otu) (i n : Nat) : (o.dctrAdd i n).resync = o.resync := rfl
@[simp] theorem Otu.dctrAdd_txSeq (o : Otu) (i n : Nat) : (o.dctrAdd i n).txSeq = o.txSeq := rfl
@[simp] theorem Otu.dctrAdd_eq (o : Otu) (i n : Nat) : (o.dctrAdd i n).eq = o.eq := rfl
@[simp] theorem Otu.dctrAdd_eqs (o : Otu) (i n : Nat) : (o.dctrAdd i n).eqs = o.eqs := rfl
@[simp] theorem Otu.dctrAdd_gate (o : Otu) (i n : Nat) : (o.dctrAdd i n).gate = o.gate := rfl
@[simp] theorem Otu.dctrAdd_fb (o : Otu) (i n : Nat) : (o.dctrAdd i n).fb = o.fb := rfl
@[simp] theorem Otu.dctrAdd_relay (o : Otu) (i n : Nat) : (o.dctrAdd i n).relay = o.relay := rfl
@[simp] theorem Otu.dctrAdd_fbLast (o : Otu) (i n : Nat) : (o.dctrAdd i n).fbLast = o.fbLast := rfl
@[simp] theorem Otu.dctrAdd_fbPart (o : Otu) (i n : Nat) : (o.dctrAdd i n).fbPart = o.fbPart := rfl
@[simp] theorem Otu.dctrAdd_fbOut (o : Otu) (i n : Nat) : (o.dctrAdd i n).fbOut = o.fbOut := rfl
@[simp] theorem Otu.dctrAdd_relayPart (o : Otu) (i n : Nat) : (o.dctrAdd i n).relayPart = o.relayPart := rfl
@[simp] theorem Otu.dctrAdd_evr (o : Otu) (i n : Nat) : (o.dctrAdd i n).evr = o.evr := rfl
@[simp] theorem Otu.dctrAdd_pageOld (o : Otu) (i n : Nat) : (o.dctrAdd i n).pageOld = o.pageOld := rfl
@[simp] theorem Otu.dctrAdd_feeds (o : Otu) (i n : Nat) : (o.dctrAdd i n).feeds = o.feeds := rfl
@[simp] theorem Otu.dctrAdd_readOut (o : Otu) (i n : Nat) : (o.dctrAdd i n).readOut = o.readOut := rfl
@[simp] theorem Otu.dctrAdd_free (o : Otu) (i n : Nat) : (o.dctrAdd i n).free = o.free := rfl
@[simp] theorem Otu.setEng_regs (o : Otu) (e : Nat) (x : EngSt) : (o.setEng e x).regs = o.regs := rfl
@[simp] theorem Otu.setEng_lt (o : Otu) (e : Nat) (x : EngSt) : (o.setEng e x).lt = o.lt := rfl
@[simp] theorem Otu.setEng_clk (o : Otu) (e : Nat) (x : EngSt) : (o.setEng e x).clk = o.clk := rfl
@[simp] theorem Otu.setEng_trayLock (o : Otu) (e : Nat) (x : EngSt) : (o.setEng e x).trayLock = o.trayLock := rfl
@[simp] theorem Otu.setEng_prdGrade (o : Otu) (e : Nat) (x : EngSt) : (o.setEng e x).prdGrade = o.prdGrade := rfl
@[simp] theorem Otu.setEng_prdErr (o : Otu) (e : Nat) (x : EngSt) : (o.setEng e x).prdErr = o.prdErr := rfl
@[simp] theorem Otu.setEng_asym (o : Otu) (e : Nat) (x : EngSt) : (o.setEng e x).asym = o.asym := rfl
@[simp] theorem Otu.setEng_marks (o : Otu) (e : Nat) (x : EngSt) : (o.setEng e x).marks = o.marks := rfl
@[simp] theorem Otu.setEng_lastFw (o : Otu) (e : Nat) (x : EngSt) : (o.setEng e x).lastFw = o.lastFw := rfl
@[simp] theorem Otu.setEng_gch (o : Otu) (e : Nat) (x : EngSt) : (o.setEng e x).gch = o.gch := rfl
@[simp] theorem Otu.setEng_staleDue (o : Otu) (e : Nat) (x : EngSt) : (o.setEng e x).staleDue = o.staleDue := rfl
@[simp] theorem Otu.setEng_rxNext (o : Otu) (e : Nat) (x : EngSt) : (o.setEng e x).rxNext = o.rxNext := rfl
@[simp] theorem Otu.setEng_rxHunt (o : Otu) (e : Nat) (x : EngSt) : (o.setEng e x).rxHunt = o.rxHunt := rfl
@[simp] theorem Otu.setEng_rxMsg (o : Otu) (e : Nat) (x : EngSt) : (o.setEng e x).rxMsg = o.rxMsg := rfl
@[simp] theorem Otu.setEng_fresh (o : Otu) (e : Nat) (x : EngSt) : (o.setEng e x).fresh = o.fresh := rfl
@[simp] theorem Otu.setEng_told (o : Otu) (e : Nat) (x : EngSt) : (o.setEng e x).told = o.told := rfl
@[simp] theorem Otu.setEng_winGone (o : Otu) (e : Nat) (x : EngSt) : (o.setEng e x).winGone = o.winGone := rfl
@[simp] theorem Otu.setEng_strobes (o : Otu) (e : Nat) (x : EngSt) : (o.setEng e x).strobes = o.strobes := rfl
@[simp] theorem Otu.setEng_cyc (o : Otu) (e : Nat) (x : EngSt) : (o.setEng e x).cyc = o.cyc := rfl
@[simp] theorem Otu.setEng_period (o : Otu) (e : Nat) (x : EngSt) : (o.setEng e x).period = o.period := rfl
@[simp] theorem Otu.setEng_jobs (o : Otu) (e : Nat) (x : EngSt) : (o.setEng e x).jobs = o.jobs := rfl
@[simp] theorem Otu.setEng_acc (o : Otu) (e : Nat) (x : EngSt) : (o.setEng e x).acc = o.acc := rfl
@[simp] theorem Otu.setEng_dctr (o : Otu) (e : Nat) (x : EngSt) : (o.setEng e x).dctr = o.dctr := rfl
@[simp] theorem Otu.setEng_gchNext (o : Otu) (e : Nat) (x : EngSt) : (o.setEng e x).gchNext = o.gchNext := rfl
@[simp] theorem Otu.setEng_gchSeq (o : Otu) (e : Nat) (x : EngSt) : (o.setEng e x).gchSeq = o.gchSeq := rfl
@[simp] theorem Otu.setEng_grants (o : Otu) (e : Nat) (x : EngSt) : (o.setEng e x).grants = o.grants := rfl
@[simp] theorem Otu.setEng_step (o : Otu) (e : Nat) (x : EngSt) : (o.setEng e x).step = o.step := rfl
@[simp] theorem Otu.setEng_mirror (o : Otu) (e : Nat) (x : EngSt) : (o.setEng e x).mirror = o.mirror := rfl
@[simp] theorem Otu.setEng_canPtr (o : Otu) (e : Nat) (x : EngSt) : (o.setEng e x).canPtr = o.canPtr := rfl
@[simp] theorem Otu.setEng_sil (o : Otu) (e : Nat) (x : EngSt) : (o.setEng e x).sil = o.sil := rfl
@[simp] theorem Otu.setEng_silSeq (o : Otu) (e : Nat) (x : EngSt) : (o.setEng e x).silSeq = o.silSeq := rfl
@[simp] theorem Otu.setEng_armed (o : Otu) (e : Nat) (x : EngSt) : (o.setEng e x).armed = o.armed := rfl
@[simp] theorem Otu.setEng_bmaps (o : Otu) (e : Nat) (x : EngSt) : (o.setEng e x).bmaps = o.bmaps := rfl
@[simp] theorem Otu.setEng_answers (o : Otu) (e : Nat) (x : EngSt) : (o.setEng e x).answers = o.answers := rfl
@[simp] theorem Otu.setEng_retracted (o : Otu) (e : Nat) (x : EngSt) : (o.setEng e x).retracted = o.retracted := rfl
@[simp] theorem Otu.setEng_weights (o : Otu) (e : Nat) (x : EngSt) : (o.setEng e x).weights = o.weights := rfl
@[simp] theorem Otu.setEng_hashing (o : Otu) (e : Nat) (x : EngSt) : (o.setEng e x).hashing = o.hashing := rfl
@[simp] theorem Otu.setEng_inputs (o : Otu) (e : Nat) (x : EngSt) : (o.setEng e x).inputs = o.inputs := rfl
@[simp] theorem Otu.setEng_inputOvf (o : Otu) (e : Nat) (x : EngSt) : (o.setEng e x).inputOvf = o.inputOvf := rfl
@[simp] theorem Otu.setEng_resMark (o : Otu) (e : Nat) (x : EngSt) : (o.setEng e x).resMark = o.resMark := rfl
@[simp] theorem Otu.setEng_queues (o : Otu) (e : Nat) (x : EngSt) : (o.setEng e x).queues = o.queues := rfl
@[simp] theorem Otu.setEng_qsLossy (o : Otu) (e : Nat) (x : EngSt) : (o.setEng e x).qsLossy = o.qsLossy := rfl
@[simp] theorem Otu.setEng_qsLast (o : Otu) (e : Nat) (x : EngSt) : (o.setEng e x).qsLast = o.qsLast := rfl
@[simp] theorem Otu.setEng_qOld (o : Otu) (e : Nat) (x : EngSt) : (o.setEng e x).qOld = o.qOld := rfl
@[simp] theorem Otu.setEng_hbm (o : Otu) (e : Nat) (x : EngSt) : (o.setEng e x).hbm = o.hbm := rfl
@[simp] theorem Otu.setEng_waits (o : Otu) (e : Nat) (x : EngSt) : (o.setEng e x).waits = o.waits := rfl
@[simp] theorem Otu.setEng_waitId (o : Otu) (e : Nat) (x : EngSt) : (o.setEng e x).waitId = o.waitId := rfl
@[simp] theorem Otu.setEng_link (o : Otu) (e : Nat) (x : EngSt) : (o.setEng e x).link = o.link := rfl
@[simp] theorem Otu.setEng_resync (o : Otu) (e : Nat) (x : EngSt) : (o.setEng e x).resync = o.resync := rfl
@[simp] theorem Otu.setEng_txSeq (o : Otu) (e : Nat) (x : EngSt) : (o.setEng e x).txSeq = o.txSeq := rfl
@[simp] theorem Otu.setEng_eq (o : Otu) (e : Nat) (x : EngSt) : (o.setEng e x).eq = o.eq := rfl
@[simp] theorem Otu.setEng_eqs (o : Otu) (e : Nat) (x : EngSt) : (o.setEng e x).eqs = o.eqs := rfl
@[simp] theorem Otu.setEng_gate (o : Otu) (e : Nat) (x : EngSt) : (o.setEng e x).gate = o.gate := rfl
@[simp] theorem Otu.setEng_fb (o : Otu) (e : Nat) (x : EngSt) : (o.setEng e x).fb = o.fb := rfl
@[simp] theorem Otu.setEng_relay (o : Otu) (e : Nat) (x : EngSt) : (o.setEng e x).relay = o.relay := rfl
@[simp] theorem Otu.setEng_fbLast (o : Otu) (e : Nat) (x : EngSt) : (o.setEng e x).fbLast = o.fbLast := rfl
@[simp] theorem Otu.setEng_fbPart (o : Otu) (e : Nat) (x : EngSt) : (o.setEng e x).fbPart = o.fbPart := rfl
@[simp] theorem Otu.setEng_fbOut (o : Otu) (e : Nat) (x : EngSt) : (o.setEng e x).fbOut = o.fbOut := rfl
@[simp] theorem Otu.setEng_relayPart (o : Otu) (e : Nat) (x : EngSt) : (o.setEng e x).relayPart = o.relayPart := rfl
@[simp] theorem Otu.setEng_evr (o : Otu) (e : Nat) (x : EngSt) : (o.setEng e x).evr = o.evr := rfl
@[simp] theorem Otu.setEng_pageOld (o : Otu) (e : Nat) (x : EngSt) : (o.setEng e x).pageOld = o.pageOld := rfl
@[simp] theorem Otu.setEng_feeds (o : Otu) (e : Nat) (x : EngSt) : (o.setEng e x).feeds = o.feeds := rfl
@[simp] theorem Otu.setEng_readOut (o : Otu) (e : Nat) (x : EngSt) : (o.setEng e x).readOut = o.readOut := rfl
@[simp] theorem Otu.setEng_free (o : Otu) (e : Nat) (x : EngSt) : (o.setEng e x).free = o.free := rfl
@[simp] theorem Otu.updJob_regs (o : Otu) (t : Nat) (f : JobSt → JobSt) : (o.updJob t f).regs = o.regs := rfl
@[simp] theorem Otu.updJob_lt (o : Otu) (t : Nat) (f : JobSt → JobSt) : (o.updJob t f).lt = o.lt := rfl
@[simp] theorem Otu.updJob_clk (o : Otu) (t : Nat) (f : JobSt → JobSt) : (o.updJob t f).clk = o.clk := rfl
@[simp] theorem Otu.updJob_trayLock (o : Otu) (t : Nat) (f : JobSt → JobSt) : (o.updJob t f).trayLock = o.trayLock := rfl
@[simp] theorem Otu.updJob_prdGrade (o : Otu) (t : Nat) (f : JobSt → JobSt) : (o.updJob t f).prdGrade = o.prdGrade := rfl
@[simp] theorem Otu.updJob_prdErr (o : Otu) (t : Nat) (f : JobSt → JobSt) : (o.updJob t f).prdErr = o.prdErr := rfl
@[simp] theorem Otu.updJob_asym (o : Otu) (t : Nat) (f : JobSt → JobSt) : (o.updJob t f).asym = o.asym := rfl
@[simp] theorem Otu.updJob_marks (o : Otu) (t : Nat) (f : JobSt → JobSt) : (o.updJob t f).marks = o.marks := rfl
@[simp] theorem Otu.updJob_lastFw (o : Otu) (t : Nat) (f : JobSt → JobSt) : (o.updJob t f).lastFw = o.lastFw := rfl
@[simp] theorem Otu.updJob_gch (o : Otu) (t : Nat) (f : JobSt → JobSt) : (o.updJob t f).gch = o.gch := rfl
@[simp] theorem Otu.updJob_staleDue (o : Otu) (t : Nat) (f : JobSt → JobSt) : (o.updJob t f).staleDue = o.staleDue := rfl
@[simp] theorem Otu.updJob_rxNext (o : Otu) (t : Nat) (f : JobSt → JobSt) : (o.updJob t f).rxNext = o.rxNext := rfl
@[simp] theorem Otu.updJob_rxHunt (o : Otu) (t : Nat) (f : JobSt → JobSt) : (o.updJob t f).rxHunt = o.rxHunt := rfl
@[simp] theorem Otu.updJob_rxMsg (o : Otu) (t : Nat) (f : JobSt → JobSt) : (o.updJob t f).rxMsg = o.rxMsg := rfl
@[simp] theorem Otu.updJob_fresh (o : Otu) (t : Nat) (f : JobSt → JobSt) : (o.updJob t f).fresh = o.fresh := rfl
@[simp] theorem Otu.updJob_told (o : Otu) (t : Nat) (f : JobSt → JobSt) : (o.updJob t f).told = o.told := rfl
@[simp] theorem Otu.updJob_winGone (o : Otu) (t : Nat) (f : JobSt → JobSt) : (o.updJob t f).winGone = o.winGone := rfl
@[simp] theorem Otu.updJob_strobes (o : Otu) (t : Nat) (f : JobSt → JobSt) : (o.updJob t f).strobes = o.strobes := rfl
@[simp] theorem Otu.updJob_cyc (o : Otu) (t : Nat) (f : JobSt → JobSt) : (o.updJob t f).cyc = o.cyc := rfl
@[simp] theorem Otu.updJob_period (o : Otu) (t : Nat) (f : JobSt → JobSt) : (o.updJob t f).period = o.period := rfl
@[simp] theorem Otu.updJob_acc (o : Otu) (t : Nat) (f : JobSt → JobSt) : (o.updJob t f).acc = o.acc := rfl
@[simp] theorem Otu.updJob_dctr (o : Otu) (t : Nat) (f : JobSt → JobSt) : (o.updJob t f).dctr = o.dctr := rfl
@[simp] theorem Otu.updJob_engs (o : Otu) (t : Nat) (f : JobSt → JobSt) : (o.updJob t f).engs = o.engs := rfl
@[simp] theorem Otu.updJob_gchNext (o : Otu) (t : Nat) (f : JobSt → JobSt) : (o.updJob t f).gchNext = o.gchNext := rfl
@[simp] theorem Otu.updJob_gchSeq (o : Otu) (t : Nat) (f : JobSt → JobSt) : (o.updJob t f).gchSeq = o.gchSeq := rfl
@[simp] theorem Otu.updJob_grants (o : Otu) (t : Nat) (f : JobSt → JobSt) : (o.updJob t f).grants = o.grants := rfl
@[simp] theorem Otu.updJob_step (o : Otu) (t : Nat) (f : JobSt → JobSt) : (o.updJob t f).step = o.step := rfl
@[simp] theorem Otu.updJob_mirror (o : Otu) (t : Nat) (f : JobSt → JobSt) : (o.updJob t f).mirror = o.mirror := rfl
@[simp] theorem Otu.updJob_canPtr (o : Otu) (t : Nat) (f : JobSt → JobSt) : (o.updJob t f).canPtr = o.canPtr := rfl
@[simp] theorem Otu.updJob_sil (o : Otu) (t : Nat) (f : JobSt → JobSt) : (o.updJob t f).sil = o.sil := rfl
@[simp] theorem Otu.updJob_silSeq (o : Otu) (t : Nat) (f : JobSt → JobSt) : (o.updJob t f).silSeq = o.silSeq := rfl
@[simp] theorem Otu.updJob_armed (o : Otu) (t : Nat) (f : JobSt → JobSt) : (o.updJob t f).armed = o.armed := rfl
@[simp] theorem Otu.updJob_bmaps (o : Otu) (t : Nat) (f : JobSt → JobSt) : (o.updJob t f).bmaps = o.bmaps := rfl
@[simp] theorem Otu.updJob_answers (o : Otu) (t : Nat) (f : JobSt → JobSt) : (o.updJob t f).answers = o.answers := rfl
@[simp] theorem Otu.updJob_retracted (o : Otu) (t : Nat) (f : JobSt → JobSt) : (o.updJob t f).retracted = o.retracted := rfl
@[simp] theorem Otu.updJob_weights (o : Otu) (t : Nat) (f : JobSt → JobSt) : (o.updJob t f).weights = o.weights := rfl
@[simp] theorem Otu.updJob_hashing (o : Otu) (t : Nat) (f : JobSt → JobSt) : (o.updJob t f).hashing = o.hashing := rfl
@[simp] theorem Otu.updJob_inputs (o : Otu) (t : Nat) (f : JobSt → JobSt) : (o.updJob t f).inputs = o.inputs := rfl
@[simp] theorem Otu.updJob_inputOvf (o : Otu) (t : Nat) (f : JobSt → JobSt) : (o.updJob t f).inputOvf = o.inputOvf := rfl
@[simp] theorem Otu.updJob_resMark (o : Otu) (t : Nat) (f : JobSt → JobSt) : (o.updJob t f).resMark = o.resMark := rfl
@[simp] theorem Otu.updJob_queues (o : Otu) (t : Nat) (f : JobSt → JobSt) : (o.updJob t f).queues = o.queues := rfl
@[simp] theorem Otu.updJob_qsLossy (o : Otu) (t : Nat) (f : JobSt → JobSt) : (o.updJob t f).qsLossy = o.qsLossy := rfl
@[simp] theorem Otu.updJob_qsLast (o : Otu) (t : Nat) (f : JobSt → JobSt) : (o.updJob t f).qsLast = o.qsLast := rfl
@[simp] theorem Otu.updJob_qOld (o : Otu) (t : Nat) (f : JobSt → JobSt) : (o.updJob t f).qOld = o.qOld := rfl
@[simp] theorem Otu.updJob_hbm (o : Otu) (t : Nat) (f : JobSt → JobSt) : (o.updJob t f).hbm = o.hbm := rfl
@[simp] theorem Otu.updJob_waits (o : Otu) (t : Nat) (f : JobSt → JobSt) : (o.updJob t f).waits = o.waits := rfl
@[simp] theorem Otu.updJob_waitId (o : Otu) (t : Nat) (f : JobSt → JobSt) : (o.updJob t f).waitId = o.waitId := rfl
@[simp] theorem Otu.updJob_link (o : Otu) (t : Nat) (f : JobSt → JobSt) : (o.updJob t f).link = o.link := rfl
@[simp] theorem Otu.updJob_resync (o : Otu) (t : Nat) (f : JobSt → JobSt) : (o.updJob t f).resync = o.resync := rfl
@[simp] theorem Otu.updJob_txSeq (o : Otu) (t : Nat) (f : JobSt → JobSt) : (o.updJob t f).txSeq = o.txSeq := rfl
@[simp] theorem Otu.updJob_eq (o : Otu) (t : Nat) (f : JobSt → JobSt) : (o.updJob t f).eq = o.eq := rfl
@[simp] theorem Otu.updJob_eqs (o : Otu) (t : Nat) (f : JobSt → JobSt) : (o.updJob t f).eqs = o.eqs := rfl
@[simp] theorem Otu.updJob_gate (o : Otu) (t : Nat) (f : JobSt → JobSt) : (o.updJob t f).gate = o.gate := rfl
@[simp] theorem Otu.updJob_fb (o : Otu) (t : Nat) (f : JobSt → JobSt) : (o.updJob t f).fb = o.fb := rfl
@[simp] theorem Otu.updJob_relay (o : Otu) (t : Nat) (f : JobSt → JobSt) : (o.updJob t f).relay = o.relay := rfl
@[simp] theorem Otu.updJob_fbLast (o : Otu) (t : Nat) (f : JobSt → JobSt) : (o.updJob t f).fbLast = o.fbLast := rfl
@[simp] theorem Otu.updJob_fbPart (o : Otu) (t : Nat) (f : JobSt → JobSt) : (o.updJob t f).fbPart = o.fbPart := rfl
@[simp] theorem Otu.updJob_fbOut (o : Otu) (t : Nat) (f : JobSt → JobSt) : (o.updJob t f).fbOut = o.fbOut := rfl
@[simp] theorem Otu.updJob_relayPart (o : Otu) (t : Nat) (f : JobSt → JobSt) : (o.updJob t f).relayPart = o.relayPart := rfl
@[simp] theorem Otu.updJob_evr (o : Otu) (t : Nat) (f : JobSt → JobSt) : (o.updJob t f).evr = o.evr := rfl
@[simp] theorem Otu.updJob_pageOld (o : Otu) (t : Nat) (f : JobSt → JobSt) : (o.updJob t f).pageOld = o.pageOld := rfl
@[simp] theorem Otu.updJob_feeds (o : Otu) (t : Nat) (f : JobSt → JobSt) : (o.updJob t f).feeds = o.feeds := rfl
@[simp] theorem Otu.updJob_readOut (o : Otu) (t : Nat) (f : JobSt → JobSt) : (o.updJob t f).readOut = o.readOut := rfl
@[simp] theorem Otu.updJob_free (o : Otu) (t : Nat) (f : JobSt → JobSt) : (o.updJob t f).free = o.free := rfl
@[simp] theorem Prd.setUlT_regs (o : Prd) (u : Nat) (x : UlTime) : (o.setUlT u x).regs = o.regs := rfl
@[simp] theorem Prd.setUlT_clk (o : Prd) (u : Nat) (x : UlTime) : (o.setUlT u x).clk = o.clk := rfl
@[simp] theorem Prd.setUlT_ptpRestart (o : Prd) (u : Nat) (x : UlTime) : (o.setUlT u x).ptpRestart = o.ptpRestart := rfl
@[simp] theorem Prd.setUlT_stepPending (o : Prd) (u : Nat) (x : UlTime) : (o.setUlT u x).stepPending = o.stepPending := rfl
@[simp] theorem Prd.setUlT_src (o : Prd) (u : Nat) (x : UlTime) : (o.setUlT u x).src = o.src := rfl
@[simp] theorem Prd.setUlT_synceSrc (o : Prd) (u : Nat) (x : UlTime) : (o.setUlT u x).synceSrc = o.synceSrc := rfl
@[simp] theorem Prd.setUlT_tw (o : Prd) (u : Nat) (x : UlTime) : (o.setUlT u x).tw = o.tw := rfl
@[simp] theorem Prd.setUlT_evr (o : Prd) (u : Nat) (x : UlTime) : (o.setUlT u x).evr = o.evr := rfl
@[simp] theorem Prd.setUlT_jnl (o : Prd) (u : Nat) (x : UlTime) : (o.setUlT u x).jnl = o.jnl := rfl
@[simp] theorem Prd.setUlT_jnlBank (o : Prd) (u : Nat) (x : UlTime) : (o.setUlT u x).jnlBank = o.jnlBank := rfl
@[simp] theorem Prd.setUlT_mramProt (o : Prd) (u : Nat) (x : UlTime) : (o.setUlT u x).mramProt = o.mramProt := rfl
@[simp] theorem Prd.setUlT_cfg (o : Prd) (u : Nat) (x : UlTime) : (o.setUlT u x).cfg = o.cfg := rfl
@[simp] theorem Prd.setUlT_hnr (o : Prd) (u : Nat) (x : UlTime) : (o.setUlT u x).hnr = o.hnr := rfl
@[simp] theorem Prd.setUlT_ctx (o : Prd) (u : Nat) (x : UlTime) : (o.setUlT u x).ctx = o.ctx := rfl
@[simp] theorem Prd.setUlT_refs (o : Prd) (u : Nat) (x : UlTime) : (o.setUlT u x).refs = o.refs := rfl
@[simp] theorem Prd.setUlT_accs (o : Prd) (u : Nat) (x : UlTime) : (o.setUlT u x).accs = o.accs := rfl
@[simp] theorem Prd.setUlT_accInt (o : Prd) (u : Nat) (x : UlTime) : (o.setUlT u x).accInt = o.accInt := rfl
@[simp] theorem Prd.setUlT_accNext (o : Prd) (u : Nat) (x : UlTime) : (o.setUlT u x).accNext = o.accNext := rfl
@[simp] theorem Prd.setUlT_accPrev (o : Prd) (u : Nat) (x : UlTime) : (o.setUlT u x).accPrev = o.accPrev := rfl
@[simp] theorem Prd.setUlT_accSwitch (o : Prd) (u : Nat) (x : UlTime) : (o.setUlT u x).accSwitch = o.accSwitch := rfl
@[simp] theorem Prd.setUlT_nans (o : Prd) (u : Nat) (x : UlTime) : (o.setUlT u x).nans = o.nans := rfl
@[simp] theorem Prd.setUlT_tree (o : Prd) (u : Nat) (x : UlTime) : (o.setUlT u x).tree = o.tree := rfl
@[simp] theorem Prd.setUlT_hangs (o : Prd) (u : Nat) (x : UlTime) : (o.setUlT u x).hangs = o.hangs := rfl
@[simp] theorem Prd.setUlT_results (o : Prd) (u : Nat) (x : UlTime) : (o.setUlT u x).results = o.results := rfl
@[simp] theorem Prd.setUlT_resTimeouts (o : Prd) (u : Nat) (x : UlTime) : (o.setUlT u x).resTimeouts = o.resTimeouts := rfl
@[simp] theorem Prd.setUlT_orders (o : Prd) (u : Nat) (x : UlTime) : (o.setUlT u x).orders = o.orders := rfl
@[simp] theorem Prd.setUlT_dp (o : Prd) (u : Nat) (x : UlTime) : (o.setUlT u x).dp = o.dp := rfl
@[simp] theorem Prd.setUlT_ulq (o : Prd) (u : Nat) (x : UlTime) : (o.setUlT u x).ulq = o.ulq := rfl
@[simp] theorem Prd.setUlT_ingest (o : Prd) (u : Nat) (x : UlTime) : (o.setUlT u x).ingest = o.ingest := rfl
@[simp] theorem Prd.setUlT_ingestRate (o : Prd) (u : Nat) (x : UlTime) : (o.setUlT u x).ingestRate = o.ingestRate := rfl
@[simp] theorem Prd.setUlT_ingestAt (o : Prd) (u : Nat) (x : UlTime) : (o.setUlT u x).ingestAt = o.ingestAt := rfl
@[simp] theorem Prd.setUlT_nose (o : Prd) (u : Nat) (x : UlTime) : (o.setUlT u x).nose = o.nose := rfl
@[simp] theorem Prd.setUlT_divs (o : Prd) (u : Nat) (x : UlTime) : (o.setUlT u x).divs = o.divs := rfl
@[simp] theorem Prd.setUlT_clockClass (o : Prd) (u : Nat) (x : UlTime) : (o.setUlT u x).clockClass = o.clockClass := rfl
@[simp] theorem Prd.setUlT_goneAccs (o : Prd) (u : Nat) (x : UlTime) : (o.setUlT u x).goneAccs = o.goneAccs := rfl
@[simp] theorem Prd.setUlT_strobes (o : Prd) (u : Nat) (x : UlTime) : (o.setUlT u x).strobes = o.strobes := rfl
@[simp] theorem Prd.setUlT_cyc (o : Prd) (u : Nat) (x : UlTime) : (o.setUlT u x).cyc = o.cyc := rfl
@[simp] theorem Prd.setUlT_loopCfg (o : Prd) (u : Nat) (x : UlTime) : (o.setUlT u x).loopCfg = o.loopCfg := rfl
@[simp] theorem Prd.setUlT_gapRuns (o : Prd) (u : Nat) (x : UlTime) : (o.setUlT u x).gapRuns = o.gapRuns := rfl
@[simp] theorem Prd.setUlT_hbm (o : Prd) (u : Nat) (x : UlTime) : (o.setUlT u x).hbm = o.hbm := rfl
@[simp] theorem Prd.setUlT_rings (o : Prd) (u : Nat) (x : UlTime) : (o.setUlT u x).rings = o.rings := rfl
@[simp] theorem Prd.setUlT_mgmt (o : Prd) (u : Nat) (x : UlTime) : (o.setUlT u x).mgmt = o.mgmt := rfl
@[simp] theorem Prd.setUlT_buddy (o : Prd) (u : Nat) (x : UlTime) : (o.setUlT u x).buddy = o.buddy := rfl
@[simp] theorem Prd.setUlT_pw (o : Prd) (u : Nat) (x : UlTime) : (o.setUlT u x).pw = o.pw := rfl
@[simp] theorem Prd.setUlT_bar4 (o : Prd) (u : Nat) (x : UlTime) : (o.setUlT u x).bar4 = o.bar4 := rfl
@[simp] theorem Prd.setUlT_feeds (o : Prd) (u : Nat) (x : UlTime) : (o.setUlT u x).feeds = o.feeds := rfl
@[simp] theorem Prd.setUlT_readOut (o : Prd) (u : Nat) (x : UlTime) : (o.setUlT u x).readOut = o.readOut := rfl
@[simp] theorem Prd.setUlT_free (o : Prd) (u : Nat) (x : UlTime) : (o.setUlT u x).free = o.free := rfl
@[simp] theorem Prd.setPort_regs (o : Prd) (n : Nat) (x : DpSt) : (o.setPort n x).regs = o.regs := rfl
@[simp] theorem Prd.setPort_clk (o : Prd) (n : Nat) (x : DpSt) : (o.setPort n x).clk = o.clk := rfl
@[simp] theorem Prd.setPort_ul (o : Prd) (n : Nat) (x : DpSt) : (o.setPort n x).ul = o.ul := rfl
@[simp] theorem Prd.setPort_ptpRestart (o : Prd) (n : Nat) (x : DpSt) : (o.setPort n x).ptpRestart = o.ptpRestart := rfl
@[simp] theorem Prd.setPort_stepPending (o : Prd) (n : Nat) (x : DpSt) : (o.setPort n x).stepPending = o.stepPending := rfl
@[simp] theorem Prd.setPort_src (o : Prd) (n : Nat) (x : DpSt) : (o.setPort n x).src = o.src := rfl
@[simp] theorem Prd.setPort_synceSrc (o : Prd) (n : Nat) (x : DpSt) : (o.setPort n x).synceSrc = o.synceSrc := rfl
@[simp] theorem Prd.setPort_tw (o : Prd) (n : Nat) (x : DpSt) : (o.setPort n x).tw = o.tw := rfl
@[simp] theorem Prd.setPort_evr (o : Prd) (n : Nat) (x : DpSt) : (o.setPort n x).evr = o.evr := rfl
@[simp] theorem Prd.setPort_jnl (o : Prd) (n : Nat) (x : DpSt) : (o.setPort n x).jnl = o.jnl := rfl
@[simp] theorem Prd.setPort_jnlBank (o : Prd) (n : Nat) (x : DpSt) : (o.setPort n x).jnlBank = o.jnlBank := rfl
@[simp] theorem Prd.setPort_mramProt (o : Prd) (n : Nat) (x : DpSt) : (o.setPort n x).mramProt = o.mramProt := rfl
@[simp] theorem Prd.setPort_cfg (o : Prd) (n : Nat) (x : DpSt) : (o.setPort n x).cfg = o.cfg := rfl
@[simp] theorem Prd.setPort_hnr (o : Prd) (n : Nat) (x : DpSt) : (o.setPort n x).hnr = o.hnr := rfl
@[simp] theorem Prd.setPort_ctx (o : Prd) (n : Nat) (x : DpSt) : (o.setPort n x).ctx = o.ctx := rfl
@[simp] theorem Prd.setPort_refs (o : Prd) (n : Nat) (x : DpSt) : (o.setPort n x).refs = o.refs := rfl
@[simp] theorem Prd.setPort_accs (o : Prd) (n : Nat) (x : DpSt) : (o.setPort n x).accs = o.accs := rfl
@[simp] theorem Prd.setPort_accInt (o : Prd) (n : Nat) (x : DpSt) : (o.setPort n x).accInt = o.accInt := rfl
@[simp] theorem Prd.setPort_accNext (o : Prd) (n : Nat) (x : DpSt) : (o.setPort n x).accNext = o.accNext := rfl
@[simp] theorem Prd.setPort_accPrev (o : Prd) (n : Nat) (x : DpSt) : (o.setPort n x).accPrev = o.accPrev := rfl
@[simp] theorem Prd.setPort_accSwitch (o : Prd) (n : Nat) (x : DpSt) : (o.setPort n x).accSwitch = o.accSwitch := rfl
@[simp] theorem Prd.setPort_nans (o : Prd) (n : Nat) (x : DpSt) : (o.setPort n x).nans = o.nans := rfl
@[simp] theorem Prd.setPort_tree (o : Prd) (n : Nat) (x : DpSt) : (o.setPort n x).tree = o.tree := rfl
@[simp] theorem Prd.setPort_hangs (o : Prd) (n : Nat) (x : DpSt) : (o.setPort n x).hangs = o.hangs := rfl
@[simp] theorem Prd.setPort_results (o : Prd) (n : Nat) (x : DpSt) : (o.setPort n x).results = o.results := rfl
@[simp] theorem Prd.setPort_resTimeouts (o : Prd) (n : Nat) (x : DpSt) : (o.setPort n x).resTimeouts = o.resTimeouts := rfl
@[simp] theorem Prd.setPort_orders (o : Prd) (n : Nat) (x : DpSt) : (o.setPort n x).orders = o.orders := rfl
@[simp] theorem Prd.setPort_ulq (o : Prd) (n : Nat) (x : DpSt) : (o.setPort n x).ulq = o.ulq := rfl
@[simp] theorem Prd.setPort_ingest (o : Prd) (n : Nat) (x : DpSt) : (o.setPort n x).ingest = o.ingest := rfl
@[simp] theorem Prd.setPort_ingestRate (o : Prd) (n : Nat) (x : DpSt) : (o.setPort n x).ingestRate = o.ingestRate := rfl
@[simp] theorem Prd.setPort_ingestAt (o : Prd) (n : Nat) (x : DpSt) : (o.setPort n x).ingestAt = o.ingestAt := rfl
@[simp] theorem Prd.setPort_nose (o : Prd) (n : Nat) (x : DpSt) : (o.setPort n x).nose = o.nose := rfl
@[simp] theorem Prd.setPort_divs (o : Prd) (n : Nat) (x : DpSt) : (o.setPort n x).divs = o.divs := rfl
@[simp] theorem Prd.setPort_clockClass (o : Prd) (n : Nat) (x : DpSt) : (o.setPort n x).clockClass = o.clockClass := rfl
@[simp] theorem Prd.setPort_goneAccs (o : Prd) (n : Nat) (x : DpSt) : (o.setPort n x).goneAccs = o.goneAccs := rfl
@[simp] theorem Prd.setPort_strobes (o : Prd) (n : Nat) (x : DpSt) : (o.setPort n x).strobes = o.strobes := rfl
@[simp] theorem Prd.setPort_cyc (o : Prd) (n : Nat) (x : DpSt) : (o.setPort n x).cyc = o.cyc := rfl
@[simp] theorem Prd.setPort_loopCfg (o : Prd) (n : Nat) (x : DpSt) : (o.setPort n x).loopCfg = o.loopCfg := rfl
@[simp] theorem Prd.setPort_gapRuns (o : Prd) (n : Nat) (x : DpSt) : (o.setPort n x).gapRuns = o.gapRuns := rfl
@[simp] theorem Prd.setPort_hbm (o : Prd) (n : Nat) (x : DpSt) : (o.setPort n x).hbm = o.hbm := rfl
@[simp] theorem Prd.setPort_rings (o : Prd) (n : Nat) (x : DpSt) : (o.setPort n x).rings = o.rings := rfl
@[simp] theorem Prd.setPort_mgmt (o : Prd) (n : Nat) (x : DpSt) : (o.setPort n x).mgmt = o.mgmt := rfl
@[simp] theorem Prd.setPort_buddy (o : Prd) (n : Nat) (x : DpSt) : (o.setPort n x).buddy = o.buddy := rfl
@[simp] theorem Prd.setPort_pw (o : Prd) (n : Nat) (x : DpSt) : (o.setPort n x).pw = o.pw := rfl
@[simp] theorem Prd.setPort_bar4 (o : Prd) (n : Nat) (x : DpSt) : (o.setPort n x).bar4 = o.bar4 := rfl
@[simp] theorem Prd.setPort_feeds (o : Prd) (n : Nat) (x : DpSt) : (o.setPort n x).feeds = o.feeds := rfl
@[simp] theorem Prd.setPort_readOut (o : Prd) (n : Nat) (x : DpSt) : (o.setPort n x).readOut = o.readOut := rfl
@[simp] theorem Prd.setPort_free (o : Prd) (n : Nat) (x : DpSt) : (o.setPort n x).free = o.free := rfl
@[simp] theorem Prd.setSlot_regs (o : Prd) (c : Nat) (x : Ctx) : (o.setSlot c x).regs = o.regs := rfl
@[simp] theorem Prd.setSlot_clk (o : Prd) (c : Nat) (x : Ctx) : (o.setSlot c x).clk = o.clk := rfl
@[simp] theorem Prd.setSlot_ul (o : Prd) (c : Nat) (x : Ctx) : (o.setSlot c x).ul = o.ul := rfl
@[simp] theorem Prd.setSlot_ptpRestart (o : Prd) (c : Nat) (x : Ctx) : (o.setSlot c x).ptpRestart = o.ptpRestart := rfl
@[simp] theorem Prd.setSlot_stepPending (o : Prd) (c : Nat) (x : Ctx) : (o.setSlot c x).stepPending = o.stepPending := rfl
@[simp] theorem Prd.setSlot_src (o : Prd) (c : Nat) (x : Ctx) : (o.setSlot c x).src = o.src := rfl
@[simp] theorem Prd.setSlot_synceSrc (o : Prd) (c : Nat) (x : Ctx) : (o.setSlot c x).synceSrc = o.synceSrc := rfl
@[simp] theorem Prd.setSlot_tw (o : Prd) (c : Nat) (x : Ctx) : (o.setSlot c x).tw = o.tw := rfl
@[simp] theorem Prd.setSlot_evr (o : Prd) (c : Nat) (x : Ctx) : (o.setSlot c x).evr = o.evr := rfl
@[simp] theorem Prd.setSlot_jnl (o : Prd) (c : Nat) (x : Ctx) : (o.setSlot c x).jnl = o.jnl := rfl
@[simp] theorem Prd.setSlot_jnlBank (o : Prd) (c : Nat) (x : Ctx) : (o.setSlot c x).jnlBank = o.jnlBank := rfl
@[simp] theorem Prd.setSlot_mramProt (o : Prd) (c : Nat) (x : Ctx) : (o.setSlot c x).mramProt = o.mramProt := rfl
@[simp] theorem Prd.setSlot_cfg (o : Prd) (c : Nat) (x : Ctx) : (o.setSlot c x).cfg = o.cfg := rfl
@[simp] theorem Prd.setSlot_hnr (o : Prd) (c : Nat) (x : Ctx) : (o.setSlot c x).hnr = o.hnr := rfl
@[simp] theorem Prd.setSlot_refs (o : Prd) (c : Nat) (x : Ctx) : (o.setSlot c x).refs = o.refs := rfl
@[simp] theorem Prd.setSlot_accs (o : Prd) (c : Nat) (x : Ctx) : (o.setSlot c x).accs = o.accs := rfl
@[simp] theorem Prd.setSlot_accInt (o : Prd) (c : Nat) (x : Ctx) : (o.setSlot c x).accInt = o.accInt := rfl
@[simp] theorem Prd.setSlot_accNext (o : Prd) (c : Nat) (x : Ctx) : (o.setSlot c x).accNext = o.accNext := rfl
@[simp] theorem Prd.setSlot_accPrev (o : Prd) (c : Nat) (x : Ctx) : (o.setSlot c x).accPrev = o.accPrev := rfl
@[simp] theorem Prd.setSlot_accSwitch (o : Prd) (c : Nat) (x : Ctx) : (o.setSlot c x).accSwitch = o.accSwitch := rfl
@[simp] theorem Prd.setSlot_nans (o : Prd) (c : Nat) (x : Ctx) : (o.setSlot c x).nans = o.nans := rfl
@[simp] theorem Prd.setSlot_tree (o : Prd) (c : Nat) (x : Ctx) : (o.setSlot c x).tree = o.tree := rfl
@[simp] theorem Prd.setSlot_hangs (o : Prd) (c : Nat) (x : Ctx) : (o.setSlot c x).hangs = o.hangs := rfl
@[simp] theorem Prd.setSlot_results (o : Prd) (c : Nat) (x : Ctx) : (o.setSlot c x).results = o.results := rfl
@[simp] theorem Prd.setSlot_resTimeouts (o : Prd) (c : Nat) (x : Ctx) : (o.setSlot c x).resTimeouts = o.resTimeouts := rfl
@[simp] theorem Prd.setSlot_orders (o : Prd) (c : Nat) (x : Ctx) : (o.setSlot c x).orders = o.orders := rfl
@[simp] theorem Prd.setSlot_dp (o : Prd) (c : Nat) (x : Ctx) : (o.setSlot c x).dp = o.dp := rfl
@[simp] theorem Prd.setSlot_ulq (o : Prd) (c : Nat) (x : Ctx) : (o.setSlot c x).ulq = o.ulq := rfl
@[simp] theorem Prd.setSlot_ingest (o : Prd) (c : Nat) (x : Ctx) : (o.setSlot c x).ingest = o.ingest := rfl
@[simp] theorem Prd.setSlot_ingestRate (o : Prd) (c : Nat) (x : Ctx) : (o.setSlot c x).ingestRate = o.ingestRate := rfl
@[simp] theorem Prd.setSlot_ingestAt (o : Prd) (c : Nat) (x : Ctx) : (o.setSlot c x).ingestAt = o.ingestAt := rfl
@[simp] theorem Prd.setSlot_nose (o : Prd) (c : Nat) (x : Ctx) : (o.setSlot c x).nose = o.nose := rfl
@[simp] theorem Prd.setSlot_divs (o : Prd) (c : Nat) (x : Ctx) : (o.setSlot c x).divs = o.divs := rfl
@[simp] theorem Prd.setSlot_clockClass (o : Prd) (c : Nat) (x : Ctx) : (o.setSlot c x).clockClass = o.clockClass := rfl
@[simp] theorem Prd.setSlot_goneAccs (o : Prd) (c : Nat) (x : Ctx) : (o.setSlot c x).goneAccs = o.goneAccs := rfl
@[simp] theorem Prd.setSlot_strobes (o : Prd) (c : Nat) (x : Ctx) : (o.setSlot c x).strobes = o.strobes := rfl
@[simp] theorem Prd.setSlot_cyc (o : Prd) (c : Nat) (x : Ctx) : (o.setSlot c x).cyc = o.cyc := rfl
@[simp] theorem Prd.setSlot_loopCfg (o : Prd) (c : Nat) (x : Ctx) : (o.setSlot c x).loopCfg = o.loopCfg := rfl
@[simp] theorem Prd.setSlot_gapRuns (o : Prd) (c : Nat) (x : Ctx) : (o.setSlot c x).gapRuns = o.gapRuns := rfl
@[simp] theorem Prd.setSlot_hbm (o : Prd) (c : Nat) (x : Ctx) : (o.setSlot c x).hbm = o.hbm := rfl
@[simp] theorem Prd.setSlot_rings (o : Prd) (c : Nat) (x : Ctx) : (o.setSlot c x).rings = o.rings := rfl
@[simp] theorem Prd.setSlot_mgmt (o : Prd) (c : Nat) (x : Ctx) : (o.setSlot c x).mgmt = o.mgmt := rfl
@[simp] theorem Prd.setSlot_buddy (o : Prd) (c : Nat) (x : Ctx) : (o.setSlot c x).buddy = o.buddy := rfl
@[simp] theorem Prd.setSlot_pw (o : Prd) (c : Nat) (x : Ctx) : (o.setSlot c x).pw = o.pw := rfl
@[simp] theorem Prd.setSlot_bar4 (o : Prd) (c : Nat) (x : Ctx) : (o.setSlot c x).bar4 = o.bar4 := rfl
@[simp] theorem Prd.setSlot_feeds (o : Prd) (c : Nat) (x : Ctx) : (o.setSlot c x).feeds = o.feeds := rfl
@[simp] theorem Prd.setSlot_readOut (o : Prd) (c : Nat) (x : Ctx) : (o.setSlot c x).readOut = o.readOut := rfl
@[simp] theorem Prd.setSlot_free (o : Prd) (c : Nat) (x : Ctx) : (o.setSlot c x).free = o.free := rfl
@[simp] theorem Prd.send_regs (o : Prd) (d c k : Nat) (b : List Byte) : (o.send d c k b).regs = o.regs := rfl
@[simp] theorem Prd.send_clk (o : Prd) (d c k : Nat) (b : List Byte) : (o.send d c k b).clk = o.clk := rfl
@[simp] theorem Prd.send_ul (o : Prd) (d c k : Nat) (b : List Byte) : (o.send d c k b).ul = o.ul := rfl
@[simp] theorem Prd.send_ptpRestart (o : Prd) (d c k : Nat) (b : List Byte) : (o.send d c k b).ptpRestart = o.ptpRestart := rfl
@[simp] theorem Prd.send_stepPending (o : Prd) (d c k : Nat) (b : List Byte) : (o.send d c k b).stepPending = o.stepPending := rfl
@[simp] theorem Prd.send_src (o : Prd) (d c k : Nat) (b : List Byte) : (o.send d c k b).src = o.src := rfl
@[simp] theorem Prd.send_synceSrc (o : Prd) (d c k : Nat) (b : List Byte) : (o.send d c k b).synceSrc = o.synceSrc := rfl
@[simp] theorem Prd.send_tw (o : Prd) (d c k : Nat) (b : List Byte) : (o.send d c k b).tw = o.tw := rfl
@[simp] theorem Prd.send_evr (o : Prd) (d c k : Nat) (b : List Byte) : (o.send d c k b).evr = o.evr := rfl
@[simp] theorem Prd.send_jnl (o : Prd) (d c k : Nat) (b : List Byte) : (o.send d c k b).jnl = o.jnl := rfl
@[simp] theorem Prd.send_jnlBank (o : Prd) (d c k : Nat) (b : List Byte) : (o.send d c k b).jnlBank = o.jnlBank := rfl
@[simp] theorem Prd.send_mramProt (o : Prd) (d c k : Nat) (b : List Byte) : (o.send d c k b).mramProt = o.mramProt := rfl
@[simp] theorem Prd.send_cfg (o : Prd) (d c k : Nat) (b : List Byte) : (o.send d c k b).cfg = o.cfg := rfl
@[simp] theorem Prd.send_hnr (o : Prd) (d c k : Nat) (b : List Byte) : (o.send d c k b).hnr = o.hnr := rfl
@[simp] theorem Prd.send_ctx (o : Prd) (d c k : Nat) (b : List Byte) : (o.send d c k b).ctx = o.ctx := rfl
@[simp] theorem Prd.send_refs (o : Prd) (d c k : Nat) (b : List Byte) : (o.send d c k b).refs = o.refs := rfl
@[simp] theorem Prd.send_accs (o : Prd) (d c k : Nat) (b : List Byte) : (o.send d c k b).accs = o.accs := rfl
@[simp] theorem Prd.send_accInt (o : Prd) (d c k : Nat) (b : List Byte) : (o.send d c k b).accInt = o.accInt := rfl
@[simp] theorem Prd.send_accNext (o : Prd) (d c k : Nat) (b : List Byte) : (o.send d c k b).accNext = o.accNext := rfl
@[simp] theorem Prd.send_accPrev (o : Prd) (d c k : Nat) (b : List Byte) : (o.send d c k b).accPrev = o.accPrev := rfl
@[simp] theorem Prd.send_accSwitch (o : Prd) (d c k : Nat) (b : List Byte) : (o.send d c k b).accSwitch = o.accSwitch := rfl
@[simp] theorem Prd.send_nans (o : Prd) (d c k : Nat) (b : List Byte) : (o.send d c k b).nans = o.nans := rfl
@[simp] theorem Prd.send_tree (o : Prd) (d c k : Nat) (b : List Byte) : (o.send d c k b).tree = o.tree := rfl
@[simp] theorem Prd.send_hangs (o : Prd) (d c k : Nat) (b : List Byte) : (o.send d c k b).hangs = o.hangs := rfl
@[simp] theorem Prd.send_results (o : Prd) (d c k : Nat) (b : List Byte) : (o.send d c k b).results = o.results := rfl
@[simp] theorem Prd.send_resTimeouts (o : Prd) (d c k : Nat) (b : List Byte) : (o.send d c k b).resTimeouts = o.resTimeouts := rfl
@[simp] theorem Prd.send_orders (o : Prd) (d c k : Nat) (b : List Byte) : (o.send d c k b).orders = o.orders := rfl
@[simp] theorem Prd.send_dp (o : Prd) (d c k : Nat) (b : List Byte) : (o.send d c k b).dp = o.dp := rfl
@[simp] theorem Prd.send_ingest (o : Prd) (d c k : Nat) (b : List Byte) : (o.send d c k b).ingest = o.ingest := rfl
@[simp] theorem Prd.send_ingestRate (o : Prd) (d c k : Nat) (b : List Byte) : (o.send d c k b).ingestRate = o.ingestRate := rfl
@[simp] theorem Prd.send_ingestAt (o : Prd) (d c k : Nat) (b : List Byte) : (o.send d c k b).ingestAt = o.ingestAt := rfl
@[simp] theorem Prd.send_nose (o : Prd) (d c k : Nat) (b : List Byte) : (o.send d c k b).nose = o.nose := rfl
@[simp] theorem Prd.send_divs (o : Prd) (d c k : Nat) (b : List Byte) : (o.send d c k b).divs = o.divs := rfl
@[simp] theorem Prd.send_clockClass (o : Prd) (d c k : Nat) (b : List Byte) : (o.send d c k b).clockClass = o.clockClass := rfl
@[simp] theorem Prd.send_goneAccs (o : Prd) (d c k : Nat) (b : List Byte) : (o.send d c k b).goneAccs = o.goneAccs := rfl
@[simp] theorem Prd.send_strobes (o : Prd) (d c k : Nat) (b : List Byte) : (o.send d c k b).strobes = o.strobes := rfl
@[simp] theorem Prd.send_cyc (o : Prd) (d c k : Nat) (b : List Byte) : (o.send d c k b).cyc = o.cyc := rfl
@[simp] theorem Prd.send_loopCfg (o : Prd) (d c k : Nat) (b : List Byte) : (o.send d c k b).loopCfg = o.loopCfg := rfl
@[simp] theorem Prd.send_gapRuns (o : Prd) (d c k : Nat) (b : List Byte) : (o.send d c k b).gapRuns = o.gapRuns := rfl
@[simp] theorem Prd.send_hbm (o : Prd) (d c k : Nat) (b : List Byte) : (o.send d c k b).hbm = o.hbm := rfl
@[simp] theorem Prd.send_rings (o : Prd) (d c k : Nat) (b : List Byte) : (o.send d c k b).rings = o.rings := rfl
@[simp] theorem Prd.send_mgmt (o : Prd) (d c k : Nat) (b : List Byte) : (o.send d c k b).mgmt = o.mgmt := rfl
@[simp] theorem Prd.send_buddy (o : Prd) (d c k : Nat) (b : List Byte) : (o.send d c k b).buddy = o.buddy := rfl
@[simp] theorem Prd.send_pw (o : Prd) (d c k : Nat) (b : List Byte) : (o.send d c k b).pw = o.pw := rfl
@[simp] theorem Prd.send_bar4 (o : Prd) (d c k : Nat) (b : List Byte) : (o.send d c k b).bar4 = o.bar4 := rfl
@[simp] theorem Prd.send_feeds (o : Prd) (d c k : Nat) (b : List Byte) : (o.send d c k b).feeds = o.feeds := rfl
@[simp] theorem Prd.send_readOut (o : Prd) (d c k : Nat) (b : List Byte) : (o.send d c k b).readOut = o.readOut := rfl
@[simp] theorem Prd.send_free (o : Prd) (d c k : Nat) (b : List Byte) : (o.send d c k b).free = o.free := rfl

@[simp] theorem Prd.ulT_setUlT (o : Prd) (u : Nat) (x : UlTime) : (o.setUlT u x).ulT u = x := by simp [Prd.ulT, Prd.setUlT]
theorem Prd.ulT_setUlT_ne (o : Prd) {u v : Nat} (x : UlTime) (h : u ≠ v) : (o.setUlT u x).ulT v = o.ulT v := by
  simp [Prd.ulT, Prd.setUlT, Tbl.get_put_ne _ _ _ h]
@[simp] theorem Prd.port_setPort (o : Prd) (n : Nat) (x : DpSt) : (o.setPort n x).port n = x := by simp [Prd.port, Prd.setPort]
theorem Prd.port_setPort_ne (o : Prd) {n m : Nat} (x : DpSt) (h : n ≠ m) : (o.setPort n x).port m = o.port m := by
  simp [Prd.port, Prd.setPort, Tbl.get_put_ne _ _ _ h]
@[simp] theorem Prd.slot_setSlot (o : Prd) (n : Nat) (x : Ctx) : (o.setSlot n x).slot n = x := by simp [Prd.slot, Prd.setSlot]
theorem Prd.slot_setSlot_ne (o : Prd) {n m : Nat} (x : Ctx) (h : n ≠ m) : (o.setSlot n x).slot m = o.slot m := by
  simp [Prd.slot, Prd.setSlot, Tbl.get_put_ne _ _ _ h]
@[simp] theorem Otu.eng_setEng (o : Otu) (e : Nat) (x : EngSt) : (o.setEng e x).eng e = x := by simp [Otu.eng, Otu.setEng]
theorem Otu.eng_setEng_ne (o : Otu) {e f : Nat} (x : EngSt) (h : e ≠ f) : (o.setEng e x).eng f = o.eng f := by
  simp [Otu.eng, Otu.setEng, Tbl.get_put_ne _ _ _ h]
@[simp] theorem Prd.ulT_go (o : Prd) (t u : Nat) : (o.go t).ulT u = o.ulT u := by simp [Prd.ulT]
@[simp] theorem Prd.ptpOn_go (o : Prd) (t u : Nat) : (o.go t).ptpOn u = o.ptpOn u := by simp [Prd.ptpOn, PrdR.flag]
@[simp] theorem Prd.ptpP2p_go (o : Prd) (t u : Nat) : (o.go t).ptpP2p u = o.ptpP2p u := by simp [Prd.ptpP2p, PrdR.flag]
@[simp] theorem Prd.fld_go (o : Prd) (t a l w : Nat) : PrdR.fld (o.go t) a l w = PrdR.fld o a l w := by simp [PrdR.fld]
@[simp] theorem Prd.flag_go (o : Prd) (t a k : Nat) : PrdR.flag (o.go t) a k = PrdR.flag o a k := by simp [PrdR.flag]
@[simp] theorem Otu.fld_go (o : Otu) (e : Edge) (a l w : Nat) : OtuR.fld (o.go e) a l w = OtuR.fld o a l w := rfl
@[simp] theorem Otu.flag_go (o : Otu) (e : Edge) (a k : Nat) : OtuR.flag (o.go e) a k = OtuR.flag o a k := rfl
@[simp] theorem Prd.flag_mirrored (a b : Prd) (r k : Nat) : PrdR.flag (a.mirrored b) r k = PrdR.flag b r k := rfl
@[simp] theorem Prd.fld_mirrored (a b : Prd) (r l w : Nat) : PrdR.fld (a.mirrored b) r l w = PrdR.fld b r l w := rfl


/-! ### Time moves: ports and context slots -/

/-- A table mapped entry by entry. -/
theorem Tbl.get_map {α : Type} (d : Nat → α) (g : α → α) (hg : ∀ k, g (d k) = d k) (t : List (Nat × α)) (k : Nat) :
    Tbl.get d (t.map fun p => (p.1, g p.2)) k = g (Tbl.get d t k) := by
  induction t with
  | nil => exact (hg k).symm
  | cons e r ih =>
    simp only [List.map_cons, Tbl.get]
    split
    · rfl
    · exact ih

/-- Opening contexts may drop what a port expects of a job that has just opened, and nothing else of it (R296). -/
theorem Prd.port_openCtx (o : Prd) (n : Nat) :
    ∃ e h, o.openCtx.port n = { o.port n with expect := e, hunt := h } := by
  simp only [Prd.openCtx]
  split
  · exact ⟨_, _, Tbl.get_map (fun _ => ({} : DpSt)) (fun (x : DpSt) => { x with
      expect := x.expect.filter (fun e => !(((o.ctx.filter _).map fun y => y.2.tag).contains e.1.2))
      hunt := x.hunt.filter (fun h => !(((o.ctx.filter _).map fun y => y.2.tag).contains h.2)) }) (fun _ => rfl) o.dp n⟩
  · exact ⟨_, _, rfl⟩

/-- Time moving may drop what a port expects of a job that has just opened, and nothing else of it (R296). -/
theorem Prd.port_go (o : Prd) (t n : Nat) :
    (o.go t).port n = { o.port n with expect := ((o.go t).port n).expect, hunt := ((o.go t).port n).hunt } := by
  obtain ⟨e, h, k⟩ := Prd.port_openCtx { o with
    clk := { o.clk with ft := max o.clk.ft t }, cyc := if o.clk.ft < t then { grade := o.clk.grade } else o.cyc } n
  have k : (o.go t).port n = { o.port n with expect := e, hunt := h } := k
  rw [k]

/-- Opening contexts changes a slot's state and since alone (R419). -/
theorem Prd.slot_openCtx (o : Prd) (c : Nat) :
    ∃ st since, o.openCtx.slot c = { o.slot c with st := st, since := since } := by
  have key (due : Nat × Ctx → Bool) (f : Nat) : ∀ l : List (Nat × Ctx), ∃ st since,
      Tbl.get (fun _ => ({} : Ctx)) (l.map fun x => if due x then (x.1, { x.2 with st := 2, since := f }) else x) c =
        { Tbl.get (fun _ => ({} : Ctx)) l c with st := st, since := since } := by
    intro l
    induction l with
    | nil => exact ⟨_, _, rfl⟩
    | cons x r ih =>
      obtain ⟨st, since, e⟩ := ih
      by_cases h : x.1 = c <;> by_cases d : due x <;> simp only [List.map_cons, Tbl.get, h, d, Bool.false_eq_true, ↓reduceIte]
      · exact ⟨_, _, rfl⟩
      · exact ⟨_, _, rfl⟩
      · exact ⟨st, since, e⟩
      · exact ⟨st, since, e⟩
  simp only [Prd.openCtx]
  split
  · exact key _ _ _
  · exact ⟨_, _, rfl⟩

/-- Time moving may open a context, and nothing else of it changes (R419). -/
theorem Prd.slot_go (o : Prd) (t c : Nat) :
    (o.go t).slot c = { o.slot c with st := ((o.go t).slot c).st, since := ((o.go t).slot c).since } := by
  obtain ⟨e, h, k⟩ := Prd.slot_openCtx { o with
    clk := { o.clk with ft := max o.clk.ft t }, cyc := if o.clk.ft < t then { grade := o.clk.grade } else o.cyc } c
  have k : (o.go t).slot c = { o.slot c with st := e, since := h } := k
  rw [k]


/-! ### Grades (R49) -/

/-- All that taking the grade again does. -/
theorem Otu.regrade_all (o : Otu) :
    o.regrade = { o with clk := { o.clk with grade := o.regrade.clk.grade }, evr := o.regrade.evr, cyc := o.regrade.cyc
                         regs := o.regrade.regs } := by
  simp only [Otu.regrade]
  generalize (if o.clk.st = 0 then 4 else max o.clk.own o.prdGrade) = g
  split_ifs with h
  · subst h; rfl
  · rw [Otu.event_all]; rfl

theorem Otu.regrade_get (o : Otu) (a : Nat) (h : a ≠ OTU_TIME_EVENTS) (h1 : a ≠ OTU_EVR_EVENTS) (h2 : a ≠ OTU_EVR_DROPPED) :
    OtuR.get o.regrade a = OtuR.get o a := by
  simp only [Otu.regrade]
  generalize (if o.clk.st = 0 then 4 else max o.clk.own o.prdGrade) = g
  split_ifs
  · rfl
  · rw [Otu.event_get _ _ _ h1 h2, OtuR.get_ev_ne _ _ h.symm]; rfl

@[simp] theorem Otu.regrade_grade (o : Otu) : o.regrade.clk.grade = if o.clk.st = 0 then 4 else max o.clk.own o.prdGrade := by
  simp only [Otu.regrade]
  generalize (if o.clk.st = 0 then 4 else max o.clk.own o.prdGrade) = g
  by_cases h : g = o.clk.grade
  · rw [if_pos h, h]
  · rw [if_neg h]; simp

/-- All that a change of phase for want of time does. -/
theorem Prd.phaseTime_all (o : Prd) : o.phaseTime = { o with regs := o.phaseTime.regs } := by
  simp only [Prd.phaseTime]; split_ifs <;> rfl

theorem Prd.phaseTime_get (o : Prd) (a : Nat) (h : a ≠ PRD_BOOT_STATUS) : PrdR.get o.phaseTime a = PrdR.get o a := by
  simp only [Prd.phaseTime]; split_ifs
  · exact PrdR.get_setFld_ne _ _ _ _ h.symm
  · rfl

/-- All that taking Priord's grade again does. -/
theorem Prd.regrade_all (o : Prd) :
    o.regrade = { o with clk := { o.clk with grade := o.regrade.clk.grade }, evr := o.regrade.evr, cyc := o.regrade.cyc
                         regs := o.regrade.regs } := by
  simp only [Prd.regrade]
  generalize (if o.clk.st = 0 then 4 else if o.pw.ocxoFail = true then max 3 o.clk.own else o.clk.own) = g
  split_ifs with h
  · rw [Prd.phaseTime_all]
  · rw [Prd.phaseTime_all, Prd.event, Prd.charge_all]; rfl

theorem Prd.regrade_get (o : Prd) (a : Nat) (h : a ≠ PRD_TIME_EVENTS) (h1 : a ≠ PRD_EVR_EVENTS) (h2 : a ≠ PRD_EVR_DROPPED)
    (h3 : a ≠ PRD_BOOT_STATUS) : PrdR.get o.regrade a = PrdR.get o a := by
  simp only [Prd.regrade]
  generalize (if o.clk.st = 0 then 4 else if o.pw.ocxoFail = true then max 3 o.clk.own else o.clk.own) = g
  split_ifs
  · exact Prd.phaseTime_get _ _ h3
  · rw [Prd.phaseTime_get _ _ h3, Prd.event_get _ _ _ h1 h2, PrdR.get_ev_ne _ _ h.symm]; rfl

@[simp] theorem Prd.regrade_grade (o : Prd) :
    o.regrade.clk.grade = if o.clk.st = 0 then 4 else if o.pw.ocxoFail then max 3 o.clk.own else o.clk.own := by
  simp only [Prd.regrade]
  generalize (if o.clk.st = 0 then 4 else if o.pw.ocxoFail = true then max 3 o.clk.own else o.clk.own) = g
  by_cases h : g = o.clk.grade
  · rw [if_pos h, h, Prd.phaseTime_all]
  · rw [if_neg h, Prd.phaseTime_all]; simp

/-- Arming the timers changes the accord instants, the channel instant and the sample instant alone. -/
theorem Otu.armTimers_all (o : Otu) :
    ∃ a n q g, o.armTimers = { o with acc := a, gchNext := n, qsLast := q, qOld := [], gate := g } := ⟨_, _, _, _, rfl⟩

@[simp] theorem Otu.armTimers_regs (o : Otu) : (o.armTimers).regs = o.regs := by obtain ⟨_, _, _, _, h⟩ := o.armTimers_all; rw [h]
@[simp] theorem Otu.armTimers_lt (o : Otu) : (o.armTimers).lt = o.lt := by obtain ⟨_, _, _, _, h⟩ := o.armTimers_all; rw [h]
@[simp] theorem Otu.armTimers_clk (o : Otu) : (o.armTimers).clk = o.clk := by obtain ⟨_, _, _, _, h⟩ := o.armTimers_all; rw [h]
@[simp] theorem Otu.armTimers_trayLock (o : Otu) : (o.armTimers).trayLock = o.trayLock := by obtain ⟨_, _, _, _, h⟩ := o.armTimers_all; rw [h]
@[simp] theorem Otu.armTimers_prdGrade (o : Otu) : (o.armTimers).prdGrade = o.prdGrade := by obtain ⟨_, _, _, _, h⟩ := o.armTimers_all; rw [h]
@[simp] theorem Otu.armTimers_prdErr (o : Otu) : (o.armTimers).prdErr = o.prdErr := by obtain ⟨_, _, _, _, h⟩ := o.armTimers_all; rw [h]
@[simp] theorem Otu.armTimers_asym (o : Otu) : (o.armTimers).asym = o.asym := by obtain ⟨_, _, _, _, h⟩ := o.armTimers_all; rw [h]
@[simp] theorem Otu.armTimers_marks (o : Otu) : (o.armTimers).marks = o.marks := by obtain ⟨_, _, _, _, h⟩ := o.armTimers_all; rw [h]
@[simp] theorem Otu.armTimers_lastFw (o : Otu) : (o.armTimers).lastFw = o.lastFw := by obtain ⟨_, _, _, _, h⟩ := o.armTimers_all; rw [h]
@[simp] theorem Otu.armTimers_gch (o : Otu) : (o.armTimers).gch = o.gch := by obtain ⟨_, _, _, _, h⟩ := o.armTimers_all; rw [h]
@[simp] theorem Otu.armTimers_staleDue (o : Otu) : (o.armTimers).staleDue = o.staleDue := by obtain ⟨_, _, _, _, h⟩ := o.armTimers_all; rw [h]
@[simp] theorem Otu.armTimers_rxNext (o : Otu) : (o.armTimers).rxNext = o.rxNext := by obtain ⟨_, _, _, _, h⟩ := o.armTimers_all; rw [h]
@[simp] theorem Otu.armTimers_rxHunt (o : Otu) : (o.armTimers).rxHunt = o.rxHunt := by obtain ⟨_, _, _, _, h⟩ := o.armTimers_all; rw [h]
@[simp] theorem Otu.armTimers_rxMsg (o : Otu) : (o.armTimers).rxMsg = o.rxMsg := by obtain ⟨_, _, _, _, h⟩ := o.armTimers_all; rw [h]
@[simp] theorem Otu.armTimers_fresh (o : Otu) : (o.armTimers).fresh = o.fresh := by obtain ⟨_, _, _, _, h⟩ := o.armTimers_all; rw [h]
@[simp] theorem Otu.armTimers_told (o : Otu) : (o.armTimers).told = o.told := by obtain ⟨_, _, _, _, h⟩ := o.armTimers_all; rw [h]
@[simp] theorem Otu.armTimers_winGone (o : Otu) : (o.armTimers).winGone = o.winGone := by obtain ⟨_, _, _, _, h⟩ := o.armTimers_all; rw [h]
@[simp] theorem Otu.armTimers_strobes (o : Otu) : (o.armTimers).strobes = o.strobes := by obtain ⟨_, _, _, _, h⟩ := o.armTimers_all; rw [h]
@[simp] theorem Otu.armTimers_cyc (o : Otu) : (o.armTimers).cyc = o.cyc := by obtain ⟨_, _, _, _, h⟩ := o.armTimers_all; rw [h]
@[simp] theorem Otu.armTimers_period (o : Otu) : (o.armTimers).period = o.period := by obtain ⟨_, _, _, _, h⟩ := o.armTimers_all; rw [h]
@[simp] theorem Otu.armTimers_jobs (o : Otu) : (o.armTimers).jobs = o.jobs := by obtain ⟨_, _, _, _, h⟩ := o.armTimers_all; rw [h]
@[simp] theorem Otu.armTimers_dctr (o : Otu) : (o.armTimers).dctr = o.dctr := by obtain ⟨_, _, _, _, h⟩ := o.armTimers_all; rw [h]
@[simp] theorem Otu.armTimers_engs (o : Otu) : (o.armTimers).engs = o.engs := by obtain ⟨_, _, _, _, h⟩ := o.armTimers_all; rw [h]
@[simp] theorem Otu.armTimers_gchSeq (o : Otu) : (o.armTimers).gchSeq = o.gchSeq := by obtain ⟨_, _, _, _, h⟩ := o.armTimers_all; rw [h]
@[simp] theorem Otu.armTimers_grants (o : Otu) : (o.armTimers).grants = o.grants := by obtain ⟨_, _, _, _, h⟩ := o.armTimers_all; rw [h]
@[simp] theorem Otu.armTimers_step (o : Otu) : (o.armTimers).step = o.step := by obtain ⟨_, _, _, _, h⟩ := o.armTimers_all; rw [h]
@[simp] theorem Otu.armTimers_mirror (o : Otu) : (o.armTimers).mirror = o.mirror := by obtain ⟨_, _, _, _, h⟩ := o.armTimers_all; rw [h]
@[simp] theorem Otu.armTimers_canPtr (o : Otu) : (o.armTimers).canPtr = o.canPtr := by obtain ⟨_, _, _, _, h⟩ := o.armTimers_all; rw [h]
@[simp] theorem Otu.armTimers_sil (o : Otu) : (o.armTimers).sil = o.sil := by obtain ⟨_, _, _, _, h⟩ := o.armTimers_all; rw [h]
@[simp] theorem Otu.armTimers_silSeq (o : Otu) : (o.armTimers).silSeq = o.silSeq := by obtain ⟨_, _, _, _, h⟩ := o.armTimers_all; rw [h]
@[simp] theorem Otu.armTimers_armed (o : Otu) : (o.armTimers).armed = o.armed := by obtain ⟨_, _, _, _, h⟩ := o.armTimers_all; rw [h]
@[simp] theorem Otu.armTimers_bmaps (o : Otu) : (o.armTimers).bmaps = o.bmaps := by obtain ⟨_, _, _, _, h⟩ := o.armTimers_all; rw [h]
@[simp] theorem Otu.armTimers_answers (o : Otu) : (o.armTimers).answers = o.answers := by obtain ⟨_, _, _, _, h⟩ := o.armTimers_all; rw [h]
@[simp] theorem Otu.armTimers_retracted (o : Otu) : (o.armTimers).retracted = o.retracted := by obtain ⟨_, _, _, _, h⟩ := o.armTimers_all; rw [h]
@[simp] theorem Otu.armTimers_weights (o : Otu) : (o.armTimers).weights = o.weights := by obtain ⟨_, _, _, _, h⟩ := o.armTimers_all; rw [h]
@[simp] theorem Otu.armTimers_hashing (o : Otu) : (o.armTimers).hashing = o.hashing := by obtain ⟨_, _, _, _, h⟩ := o.armTimers_all; rw [h]
@[simp] theorem Otu.armTimers_inputs (o : Otu) : (o.armTimers).inputs = o.inputs := by obtain ⟨_, _, _, _, h⟩ := o.armTimers_all; rw [h]
@[simp] theorem Otu.armTimers_inputOvf (o : Otu) : (o.armTimers).inputOvf = o.inputOvf := by obtain ⟨_, _, _, _, h⟩ := o.armTimers_all; rw [h]
@[simp] theorem Otu.armTimers_resMark (o : Otu) : (o.armTimers).resMark = o.resMark := by obtain ⟨_, _, _, _, h⟩ := o.armTimers_all; rw [h]
@[simp] theorem Otu.armTimers_queues (o : Otu) : (o.armTimers).queues = o.queues := by obtain ⟨_, _, _, _, h⟩ := o.armTimers_all; rw [h]
@[simp] theorem Otu.armTimers_qsLossy (o : Otu) : (o.armTimers).qsLossy = o.qsLossy := by obtain ⟨_, _, _, _, h⟩ := o.armTimers_all; rw [h]
@[simp] theorem Otu.armTimers_hbm (o : Otu) : (o.armTimers).hbm = o.hbm := by obtain ⟨_, _, _, _, h⟩ := o.armTimers_all; rw [h]
@[simp] theorem Otu.armTimers_waits (o : Otu) : (o.armTimers).waits = o.waits := by obtain ⟨_, _, _, _, h⟩ := o.armTimers_all; rw [h]
@[simp] theorem Otu.armTimers_waitId (o : Otu) : (o.armTimers).waitId = o.waitId := by obtain ⟨_, _, _, _, h⟩ := o.armTimers_all; rw [h]
@[simp] theorem Otu.armTimers_link (o : Otu) : (o.armTimers).link = o.link := by obtain ⟨_, _, _, _, h⟩ := o.armTimers_all; rw [h]
@[simp] theorem Otu.armTimers_resync (o : Otu) : (o.armTimers).resync = o.resync := by obtain ⟨_, _, _, _, h⟩ := o.armTimers_all; rw [h]
@[simp] theorem Otu.armTimers_txSeq (o : Otu) : (o.armTimers).txSeq = o.txSeq := by obtain ⟨_, _, _, _, h⟩ := o.armTimers_all; rw [h]
@[simp] theorem Otu.armTimers_eq (o : Otu) : (o.armTimers).eq = o.eq := by obtain ⟨_, _, _, _, h⟩ := o.armTimers_all; rw [h]
@[simp] theorem Otu.armTimers_eqs (o : Otu) : (o.armTimers).eqs = o.eqs := by obtain ⟨_, _, _, _, h⟩ := o.armTimers_all; rw [h]
@[simp] theorem Otu.armTimers_fb (o : Otu) : (o.armTimers).fb = o.fb := by obtain ⟨_, _, _, _, h⟩ := o.armTimers_all; rw [h]
@[simp] theorem Otu.armTimers_relay (o : Otu) : (o.armTimers).relay = o.relay := by obtain ⟨_, _, _, _, h⟩ := o.armTimers_all; rw [h]
@[simp] theorem Otu.armTimers_fbLast (o : Otu) : (o.armTimers).fbLast = o.fbLast := by obtain ⟨_, _, _, _, h⟩ := o.armTimers_all; rw [h]
@[simp] theorem Otu.armTimers_fbPart (o : Otu) : (o.armTimers).fbPart = o.fbPart := by obtain ⟨_, _, _, _, h⟩ := o.armTimers_all; rw [h]
@[simp] theorem Otu.armTimers_fbOut (o : Otu) : (o.armTimers).fbOut = o.fbOut := by obtain ⟨_, _, _, _, h⟩ := o.armTimers_all; rw [h]
@[simp] theorem Otu.armTimers_relayPart (o : Otu) : (o.armTimers).relayPart = o.relayPart := by obtain ⟨_, _, _, _, h⟩ := o.armTimers_all; rw [h]
@[simp] theorem Otu.armTimers_evr (o : Otu) : (o.armTimers).evr = o.evr := by obtain ⟨_, _, _, _, h⟩ := o.armTimers_all; rw [h]
@[simp] theorem Otu.armTimers_pageOld (o : Otu) : (o.armTimers).pageOld = o.pageOld := by obtain ⟨_, _, _, _, h⟩ := o.armTimers_all; rw [h]
@[simp] theorem Otu.armTimers_feeds (o : Otu) : (o.armTimers).feeds = o.feeds := by obtain ⟨_, _, _, _, h⟩ := o.armTimers_all; rw [h]
@[simp] theorem Otu.armTimers_readOut (o : Otu) : (o.armTimers).readOut = o.readOut := by obtain ⟨_, _, _, _, h⟩ := o.armTimers_all; rw [h]
@[simp] theorem Otu.armTimers_free (o : Otu) : (o.armTimers).free = o.free := by obtain ⟨_, _, _, _, h⟩ := o.armTimers_all; rw [h]
@[simp] theorem Otu.regrade_lt (o : Otu) : (o.regrade).lt = o.lt := by rw [Otu.regrade_all]
@[simp] theorem Otu.regrade_trayLock (o : Otu) : (o.regrade).trayLock = o.trayLock := by rw [Otu.regrade_all]
@[simp] theorem Otu.regrade_prdGrade (o : Otu) : (o.regrade).prdGrade = o.prdGrade := by rw [Otu.regrade_all]
@[simp] theorem Otu.regrade_prdErr (o : Otu) : (o.regrade).prdErr = o.prdErr := by rw [Otu.regrade_all]
@[simp] theorem Otu.regrade_asym (o : Otu) : (o.regrade).asym = o.asym := by rw [Otu.regrade_all]
@[simp] theorem Otu.regrade_marks (o : Otu) : (o.regrade).marks = o.marks := by rw [Otu.regrade_all]
@[simp] theorem Otu.regrade_lastFw (o : Otu) : (o.regrade).lastFw = o.lastFw := by rw [Otu.regrade_all]
@[simp] theorem Otu.regrade_gch (o : Otu) : (o.regrade).gch = o.gch := by rw [Otu.regrade_all]
@[simp] theorem Otu.regrade_staleDue (o : Otu) : (o.regrade).staleDue = o.staleDue := by rw [Otu.regrade_all]
@[simp] theorem Otu.regrade_rxNext (o : Otu) : (o.regrade).rxNext = o.rxNext := by rw [Otu.regrade_all]
@[simp] theorem Otu.regrade_rxHunt (o : Otu) : (o.regrade).rxHunt = o.rxHunt := by rw [Otu.regrade_all]
@[simp] theorem Otu.regrade_rxMsg (o : Otu) : (o.regrade).rxMsg = o.rxMsg := by rw [Otu.regrade_all]
@[simp] theorem Otu.regrade_fresh (o : Otu) : (o.regrade).fresh = o.fresh := by rw [Otu.regrade_all]
@[simp] theorem Otu.regrade_told (o : Otu) : (o.regrade).told = o.told := by rw [Otu.regrade_all]
@[simp] theorem Otu.regrade_winGone (o : Otu) : (o.regrade).winGone = o.winGone := by rw [Otu.regrade_all]
@[simp] theorem Otu.regrade_strobes (o : Otu) : (o.regrade).strobes = o.strobes := by rw [Otu.regrade_all]
@[simp] theorem Otu.regrade_period (o : Otu) : (o.regrade).period = o.period := by rw [Otu.regrade_all]
@[simp] theorem Otu.regrade_jobs (o : Otu) : (o.regrade).jobs = o.jobs := by rw [Otu.regrade_all]
@[simp] theorem Otu.regrade_acc (o : Otu) : (o.regrade).acc = o.acc := by rw [Otu.regrade_all]
@[simp] theorem Otu.regrade_dctr (o : Otu) : (o.regrade).dctr = o.dctr := by rw [Otu.regrade_all]
@[simp] theorem Otu.regrade_engs (o : Otu) : (o.regrade).engs = o.engs := by rw [Otu.regrade_all]
@[simp] theorem Otu.regrade_gchNext (o : Otu) : (o.regrade).gchNext = o.gchNext := by rw [Otu.regrade_all]
@[simp] theorem Otu.regrade_gchSeq (o : Otu) : (o.regrade).gchSeq = o.gchSeq := by rw [Otu.regrade_all]
@[simp] theorem Otu.regrade_grants (o : Otu) : (o.regrade).grants = o.grants := by rw [Otu.regrade_all]
@[simp] theorem Otu.regrade_step (o : Otu) : (o.regrade).step = o.step := by rw [Otu.regrade_all]
@[simp] theorem Otu.regrade_mirror (o : Otu) : (o.regrade).mirror = o.mirror := by rw [Otu.regrade_all]
@[simp] theorem Otu.regrade_canPtr (o : Otu) : (o.regrade).canPtr = o.canPtr := by rw [Otu.regrade_all]
@[simp] theorem Otu.regrade_sil (o : Otu) : (o.regrade).sil = o.sil := by rw [Otu.regrade_all]
@[simp] theorem Otu.regrade_silSeq (o : Otu) : (o.regrade).silSeq = o.silSeq := by rw [Otu.regrade_all]
@[simp] theorem Otu.regrade_armed (o : Otu) : (o.regrade).armed = o.armed := by rw [Otu.regrade_all]
@[simp] theorem Otu.regrade_bmaps (o : Otu) : (o.regrade).bmaps = o.bmaps := by rw [Otu.regrade_all]
@[simp] theorem Otu.regrade_answers (o : Otu) : (o.regrade).answers = o.answers := by rw [Otu.regrade_all]
@[simp] theorem Otu.regrade_retracted (o : Otu) : (o.regrade).retracted = o.retracted := by rw [Otu.regrade_all]
@[simp] theorem Otu.regrade_weights (o : Otu) : (o.regrade).weights = o.weights := by rw [Otu.regrade_all]
@[simp] theorem Otu.regrade_hashing (o : Otu) : (o.regrade).hashing = o.hashing := by rw [Otu.regrade_all]
@[simp] theorem Otu.regrade_inputs (o : Otu) : (o.regrade).inputs = o.inputs := by rw [Otu.regrade_all]
@[simp] theorem Otu.regrade_inputOvf (o : Otu) : (o.regrade).inputOvf = o.inputOvf := by rw [Otu.regrade_all]
@[simp] theorem Otu.regrade_resMark (o : Otu) : (o.regrade).resMark = o.resMark := by rw [Otu.regrade_all]
@[simp] theorem Otu.regrade_queues (o : Otu) : (o.regrade).queues = o.queues := by rw [Otu.regrade_all]
@[simp] theorem Otu.regrade_qsLossy (o : Otu) : (o.regrade).qsLossy = o.qsLossy := by rw [Otu.regrade_all]
@[simp] theorem Otu.regrade_qsLast (o : Otu) : (o.regrade).qsLast = o.qsLast := by rw [Otu.regrade_all]
@[simp] theorem Otu.regrade_qOld (o : Otu) : (o.regrade).qOld = o.qOld := by rw [Otu.regrade_all]
@[simp] theorem Otu.regrade_hbm (o : Otu) : (o.regrade).hbm = o.hbm := by rw [Otu.regrade_all]
@[simp] theorem Otu.regrade_waits (o : Otu) : (o.regrade).waits = o.waits := by rw [Otu.regrade_all]
@[simp] theorem Otu.regrade_waitId (o : Otu) : (o.regrade).waitId = o.waitId := by rw [Otu.regrade_all]
@[simp] theorem Otu.regrade_link (o : Otu) : (o.regrade).link = o.link := by rw [Otu.regrade_all]
@[simp] theorem Otu.regrade_resync (o : Otu) : (o.regrade).resync = o.resync := by rw [Otu.regrade_all]
@[simp] theorem Otu.regrade_txSeq (o : Otu) : (o.regrade).txSeq = o.txSeq := by rw [Otu.regrade_all]
@[simp] theorem Otu.regrade_eq (o : Otu) : (o.regrade).eq = o.eq := by rw [Otu.regrade_all]
@[simp] theorem Otu.regrade_eqs (o : Otu) : (o.regrade).eqs = o.eqs := by rw [Otu.regrade_all]
@[simp] theorem Otu.regrade_gate (o : Otu) : (o.regrade).gate = o.gate := by rw [Otu.regrade_all]
@[simp] theorem Otu.regrade_fb (o : Otu) : (o.regrade).fb = o.fb := by rw [Otu.regrade_all]
@[simp] theorem Otu.regrade_relay (o : Otu) : (o.regrade).relay = o.relay := by rw [Otu.regrade_all]
@[simp] theorem Otu.regrade_fbLast (o : Otu) : (o.regrade).fbLast = o.fbLast := by rw [Otu.regrade_all]
@[simp] theorem Otu.regrade_fbPart (o : Otu) : (o.regrade).fbPart = o.fbPart := by rw [Otu.regrade_all]
@[simp] theorem Otu.regrade_fbOut (o : Otu) : (o.regrade).fbOut = o.fbOut := by rw [Otu.regrade_all]
@[simp] theorem Otu.regrade_relayPart (o : Otu) : (o.regrade).relayPart = o.relayPart := by rw [Otu.regrade_all]
@[simp] theorem Otu.regrade_pageOld (o : Otu) : (o.regrade).pageOld = o.pageOld := by rw [Otu.regrade_all]
@[simp] theorem Otu.regrade_feeds (o : Otu) : (o.regrade).feeds = o.feeds := by rw [Otu.regrade_all]
@[simp] theorem Otu.regrade_readOut (o : Otu) : (o.regrade).readOut = o.readOut := by rw [Otu.regrade_all]
@[simp] theorem Otu.regrade_free (o : Otu) : (o.regrade).free = o.free := by rw [Otu.regrade_all]
@[simp] theorem Prd.regrade_ul (o : Prd) : (o.regrade).ul = o.ul := by rw [Prd.regrade_all]
@[simp] theorem Prd.regrade_ptpRestart (o : Prd) : (o.regrade).ptpRestart = o.ptpRestart := by rw [Prd.regrade_all]
@[simp] theorem Prd.regrade_stepPending (o : Prd) : (o.regrade).stepPending = o.stepPending := by rw [Prd.regrade_all]
@[simp] theorem Prd.regrade_src (o : Prd) : (o.regrade).src = o.src := by rw [Prd.regrade_all]
@[simp] theorem Prd.regrade_synceSrc (o : Prd) : (o.regrade).synceSrc = o.synceSrc := by rw [Prd.regrade_all]
@[simp] theorem Prd.regrade_tw (o : Prd) : (o.regrade).tw = o.tw := by rw [Prd.regrade_all]
@[simp] theorem Prd.regrade_jnl (o : Prd) : (o.regrade).jnl = o.jnl := by rw [Prd.regrade_all]
@[simp] theorem Prd.regrade_jnlBank (o : Prd) : (o.regrade).jnlBank = o.jnlBank := by rw [Prd.regrade_all]
@[simp] theorem Prd.regrade_mramProt (o : Prd) : (o.regrade).mramProt = o.mramProt := by rw [Prd.regrade_all]
@[simp] theorem Prd.regrade_cfg (o : Prd) : (o.regrade).cfg = o.cfg := by rw [Prd.regrade_all]
@[simp] theorem Prd.regrade_hnr (o : Prd) : (o.regrade).hnr = o.hnr := by rw [Prd.regrade_all]
@[simp] theorem Prd.regrade_ctx (o : Prd) : (o.regrade).ctx = o.ctx := by rw [Prd.regrade_all]
@[simp] theorem Prd.regrade_refs (o : Prd) : (o.regrade).refs = o.refs := by rw [Prd.regrade_all]
@[simp] theorem Prd.regrade_accs (o : Prd) : (o.regrade).accs = o.accs := by rw [Prd.regrade_all]
@[simp] theorem Prd.regrade_accInt (o : Prd) : (o.regrade).accInt = o.accInt := by rw [Prd.regrade_all]
@[simp] theorem Prd.regrade_accNext (o : Prd) : (o.regrade).accNext = o.accNext := by rw [Prd.regrade_all]
@[simp] theorem Prd.regrade_accPrev (o : Prd) : (o.regrade).accPrev = o.accPrev := by rw [Prd.regrade_all]
@[simp] theorem Prd.regrade_accSwitch (o : Prd) : (o.regrade).accSwitch = o.accSwitch := by rw [Prd.regrade_all]
@[simp] theorem Prd.regrade_nans (o : Prd) : (o.regrade).nans = o.nans := by rw [Prd.regrade_all]
@[simp] theorem Prd.regrade_tree (o : Prd) : (o.regrade).tree = o.tree := by rw [Prd.regrade_all]
@[simp] theorem Prd.regrade_hangs (o : Prd) : (o.regrade).hangs = o.hangs := by rw [Prd.regrade_all]
@[simp] theorem Prd.regrade_results (o : Prd) : (o.regrade).results = o.results := by rw [Prd.regrade_all]
@[simp] theorem Prd.regrade_resTimeouts (o : Prd) : (o.regrade).resTimeouts = o.resTimeouts := by rw [Prd.regrade_all]
@[simp] theorem Prd.regrade_orders (o : Prd) : (o.regrade).orders = o.orders := by rw [Prd.regrade_all]
@[simp] theorem Prd.regrade_dp (o : Prd) : (o.regrade).dp = o.dp := by rw [Prd.regrade_all]
@[simp] theorem Prd.regrade_ulq (o : Prd) : (o.regrade).ulq = o.ulq := by rw [Prd.regrade_all]
@[simp] theorem Prd.regrade_ingest (o : Prd) : (o.regrade).ingest = o.ingest := by rw [Prd.regrade_all]
@[simp] theorem Prd.regrade_ingestRate (o : Prd) : (o.regrade).ingestRate = o.ingestRate := by rw [Prd.regrade_all]
@[simp] theorem Prd.regrade_ingestAt (o : Prd) : (o.regrade).ingestAt = o.ingestAt := by rw [Prd.regrade_all]
@[simp] theorem Prd.regrade_nose (o : Prd) : (o.regrade).nose = o.nose := by rw [Prd.regrade_all]
@[simp] theorem Prd.regrade_divs (o : Prd) : (o.regrade).divs = o.divs := by rw [Prd.regrade_all]
@[simp] theorem Prd.regrade_clockClass (o : Prd) : (o.regrade).clockClass = o.clockClass := by rw [Prd.regrade_all]
@[simp] theorem Prd.regrade_goneAccs (o : Prd) : (o.regrade).goneAccs = o.goneAccs := by rw [Prd.regrade_all]
@[simp] theorem Prd.regrade_strobes (o : Prd) : (o.regrade).strobes = o.strobes := by rw [Prd.regrade_all]
@[simp] theorem Prd.regrade_loopCfg (o : Prd) : (o.regrade).loopCfg = o.loopCfg := by rw [Prd.regrade_all]
@[simp] theorem Prd.regrade_gapRuns (o : Prd) : (o.regrade).gapRuns = o.gapRuns := by rw [Prd.regrade_all]
@[simp] theorem Prd.regrade_hbm (o : Prd) : (o.regrade).hbm = o.hbm := by rw [Prd.regrade_all]
@[simp] theorem Prd.regrade_rings (o : Prd) : (o.regrade).rings = o.rings := by rw [Prd.regrade_all]
@[simp] theorem Prd.regrade_mgmt (o : Prd) : (o.regrade).mgmt = o.mgmt := by rw [Prd.regrade_all]
@[simp] theorem Prd.regrade_buddy (o : Prd) : (o.regrade).buddy = o.buddy := by rw [Prd.regrade_all]
@[simp] theorem Prd.regrade_pw (o : Prd) : (o.regrade).pw = o.pw := by rw [Prd.regrade_all]
@[simp] theorem Prd.regrade_bar4 (o : Prd) : (o.regrade).bar4 = o.bar4 := by rw [Prd.regrade_all]
@[simp] theorem Prd.regrade_feeds (o : Prd) : (o.regrade).feeds = o.feeds := by rw [Prd.regrade_all]
@[simp] theorem Prd.regrade_readOut (o : Prd) : (o.regrade).readOut = o.readOut := by rw [Prd.regrade_all]
@[simp] theorem Prd.regrade_free (o : Prd) : (o.regrade).free = o.free := by rw [Prd.regrade_all]
@[simp] theorem Otu.regrade_st (o : Otu) : o.regrade.clk.st = o.clk.st := by rw [Otu.regrade_all]
@[simp] theorem Otu.regrade_ft (o : Otu) : o.regrade.clk.ft = o.clk.ft := by rw [Otu.regrade_all]
@[simp] theorem Prd.ulT_regrade (o : Prd) (u : Nat) : o.regrade.ulT u = o.ulT u := by simp [Prd.ulT]

/-- Selecting a master changes what it selects, and the registers and events that say so. -/
theorem Prd.bmca_all (o : Prd) :
    o.bmca = { o with src := o.bmca.src, regs := o.bmca.regs, evr := o.bmca.evr, cyc := o.bmca.cyc } := by
  simp only [Prd.bmca]
  split
  · rfl
  · split_ifs
    · rfl
    · rw [Prd.event, Prd.charge_all]; rfl

theorem Prd.bmca_get (o : Prd) (a : Nat) (h : a ≠ PRD_TIME_EVENTS) (h1 : a ≠ PRD_EVR_EVENTS) (h2 : a ≠ PRD_EVR_DROPPED)
    (h3 : a ≠ PRD_TIME_UTC_OFFSET) (h4 : a ≠ PRD_TIME_GM_ID) : PrdR.get o.bmca a = PrdR.get o a := by
  simp only [Prd.bmca]
  split
  · rfl
  · split_ifs
    · rw [PrdR.get_set_ne _ _ h3.symm]; rfl
    · rw [Prd.event_get _ _ _ h1 h2, PrdR.get_ev_ne _ _ h.symm, PrdR.get_set_ne _ _ h4.symm, PrdR.get_set_ne _ _ h3.symm]; rfl

@[simp] theorem Prd.bmca_clk (o : Prd) : (o.bmca).clk = o.clk := by rw [Prd.bmca_all]
@[simp] theorem Prd.bmca_ul (o : Prd) : (o.bmca).ul = o.ul := by rw [Prd.bmca_all]
@[simp] theorem Prd.bmca_ptpRestart (o : Prd) : (o.bmca).ptpRestart = o.ptpRestart := by rw [Prd.bmca_all]
@[simp] theorem Prd.bmca_stepPending (o : Prd) : (o.bmca).stepPending = o.stepPending := by rw [Prd.bmca_all]
@[simp] theorem Prd.bmca_synceSrc (o : Prd) : (o.bmca).synceSrc = o.synceSrc := by rw [Prd.bmca_all]
@[simp] theorem Prd.bmca_tw (o : Prd) : (o.bmca).tw = o.tw := by rw [Prd.bmca_all]
@[simp] theorem Prd.bmca_jnl (o : Prd) : (o.bmca).jnl = o.jnl := by rw [Prd.bmca_all]
@[simp] theorem Prd.bmca_jnlBank (o : Prd) : (o.bmca).jnlBank = o.jnlBank := by rw [Prd.bmca_all]
@[simp] theorem Prd.bmca_mramProt (o : Prd) : (o.bmca).mramProt = o.mramProt := by rw [Prd.bmca_all]
@[simp] theorem Prd.bmca_cfg (o : Prd) : (o.bmca).cfg = o.cfg := by rw [Prd.bmca_all]
@[simp] theorem Prd.bmca_hnr (o : Prd) : (o.bmca).hnr = o.hnr := by rw [Prd.bmca_all]
@[simp] theorem Prd.bmca_ctx (o : Prd) : (o.bmca).ctx = o.ctx := by rw [Prd.bmca_all]
@[simp] theorem Prd.bmca_refs (o : Prd) : (o.bmca).refs = o.refs := by rw [Prd.bmca_all]
@[simp] theorem Prd.bmca_accs (o : Prd) : (o.bmca).accs = o.accs := by rw [Prd.bmca_all]
@[simp] theorem Prd.bmca_accInt (o : Prd) : (o.bmca).accInt = o.accInt := by rw [Prd.bmca_all]
@[simp] theorem Prd.bmca_accNext (o : Prd) : (o.bmca).accNext = o.accNext := by rw [Prd.bmca_all]
@[simp] theorem Prd.bmca_accPrev (o : Prd) : (o.bmca).accPrev = o.accPrev := by rw [Prd.bmca_all]
@[simp] theorem Prd.bmca_accSwitch (o : Prd) : (o.bmca).accSwitch = o.accSwitch := by rw [Prd.bmca_all]
@[simp] theorem Prd.bmca_nans (o : Prd) : (o.bmca).nans = o.nans := by rw [Prd.bmca_all]
@[simp] theorem Prd.bmca_tree (o : Prd) : (o.bmca).tree = o.tree := by rw [Prd.bmca_all]
@[simp] theorem Prd.bmca_hangs (o : Prd) : (o.bmca).hangs = o.hangs := by rw [Prd.bmca_all]
@[simp] theorem Prd.bmca_results (o : Prd) : (o.bmca).results = o.results := by rw [Prd.bmca_all]
@[simp] theorem Prd.bmca_resTimeouts (o : Prd) : (o.bmca).resTimeouts = o.resTimeouts := by rw [Prd.bmca_all]
@[simp] theorem Prd.bmca_orders (o : Prd) : (o.bmca).orders = o.orders := by rw [Prd.bmca_all]
@[simp] theorem Prd.bmca_dp (o : Prd) : (o.bmca).dp = o.dp := by rw [Prd.bmca_all]
@[simp] theorem Prd.bmca_ulq (o : Prd) : (o.bmca).ulq = o.ulq := by rw [Prd.bmca_all]
@[simp] theorem Prd.bmca_ingest (o : Prd) : (o.bmca).ingest = o.ingest := by rw [Prd.bmca_all]
@[simp] theorem Prd.bmca_ingestRate (o : Prd) : (o.bmca).ingestRate = o.ingestRate := by rw [Prd.bmca_all]
@[simp] theorem Prd.bmca_ingestAt (o : Prd) : (o.bmca).ingestAt = o.ingestAt := by rw [Prd.bmca_all]
@[simp] theorem Prd.bmca_nose (o : Prd) : (o.bmca).nose = o.nose := by rw [Prd.bmca_all]
@[simp] theorem Prd.bmca_divs (o : Prd) : (o.bmca).divs = o.divs := by rw [Prd.bmca_all]
@[simp] theorem Prd.bmca_clockClass (o : Prd) : (o.bmca).clockClass = o.clockClass := by rw [Prd.bmca_all]
@[simp] theorem Prd.bmca_goneAccs (o : Prd) : (o.bmca).goneAccs = o.goneAccs := by rw [Prd.bmca_all]
@[simp] theorem Prd.bmca_strobes (o : Prd) : (o.bmca).strobes = o.strobes := by rw [Prd.bmca_all]
@[simp] theorem Prd.bmca_loopCfg (o : Prd) : (o.bmca).loopCfg = o.loopCfg := by rw [Prd.bmca_all]
@[simp] theorem Prd.bmca_gapRuns (o : Prd) : (o.bmca).gapRuns = o.gapRuns := by rw [Prd.bmca_all]
@[simp] theorem Prd.bmca_hbm (o : Prd) : (o.bmca).hbm = o.hbm := by rw [Prd.bmca_all]
@[simp] theorem Prd.bmca_rings (o : Prd) : (o.bmca).rings = o.rings := by rw [Prd.bmca_all]
@[simp] theorem Prd.bmca_mgmt (o : Prd) : (o.bmca).mgmt = o.mgmt := by rw [Prd.bmca_all]
@[simp] theorem Prd.bmca_buddy (o : Prd) : (o.bmca).buddy = o.buddy := by rw [Prd.bmca_all]
@[simp] theorem Prd.bmca_pw (o : Prd) : (o.bmca).pw = o.pw := by rw [Prd.bmca_all]
@[simp] theorem Prd.bmca_bar4 (o : Prd) : (o.bmca).bar4 = o.bar4 := by rw [Prd.bmca_all]
@[simp] theorem Prd.bmca_feeds (o : Prd) : (o.bmca).feeds = o.feeds := by rw [Prd.bmca_all]
@[simp] theorem Prd.bmca_readOut (o : Prd) : (o.bmca).readOut = o.readOut := by rw [Prd.bmca_all]
@[simp] theorem Prd.bmca_free (o : Prd) : (o.bmca).free = o.free := by rw [Prd.bmca_all]

end Sys2Proof.Machine
end

