-- ==== Sys2Proof/Laws/Exec.lean ====
section
/-!
SUPPORT. Laws/Exec.lean: which meaning each command calls, and what a command at one part leaves.
-/
namespace Sys2Proof.Machine
open Sys2Proof

/-- A command at Priord. -/
theorem State.onPrd_with (s : State) (f : Prd → Prd) : s.onPrd f = s.withPrd (f s.prd) := rfl

/-- A command at an OTU whose descriptor is not INVALID. -/
theorem State.onOtu_with (s : State) (f : Otu → Otu) (h : s.otu.invalid = false) : s.onOtu f = s.withOtu (f s.otu) :=
  State.onOtu_valid s f h

@[simp] theorem exec_registerWrite (p : Path) (addr width value : Nat) (e : Edge) (s_ : State) : exec (.registerWrite p addr width value e) s_ = execRegisterWrite p addr width value e s_ := rfl
@[simp] theorem exec_rcRead (p : Path) (addr : Nat) (e : Edge) (s_ : State) : exec (.rcRead p addr e) s_ = execRcRead p addr e s_ := rfl
@[simp] theorem exec_ptpSync (u : Nat) (m : PtpSync) (t : Nat) (s_ : State) : exec (.ptpSync u m t) s_ = execPtpSync u m t s_ := rfl
@[simp] theorem exec_ptpFollowUp (u seqId : Nat) (origin : PtpTs) (corr : Int) (t : Nat) (s_ : State) : exec (.ptpFollowUp u seqId origin corr t) s_ = execPtpFollowUp u seqId origin corr t s_ := rfl
@[simp] theorem exec_ptpDelayReqTx (u tx t : Nat) (s_ : State) : exec (.ptpDelayReqTx u tx t) s_ = execPtpDelayReqTx u tx t s_ := rfl
@[simp] theorem exec_ptpDelayResp (u seqId : Nat) (rx : PtpTs) (corr : Int) (t : Nat) (s_ : State) : exec (.ptpDelayResp u seqId rx corr t) s_ = execPtpDelayResp u seqId rx corr t s_ := rfl
@[simp] theorem exec_ptpPdelayReqTx (u tx t : Nat) (s_ : State) : exec (.ptpPdelayReqTx u tx t) s_ = execPtpPdelayReqTx u tx t s_ := rfl
@[simp] theorem exec_ptpPdelayResp (u : Nat) (m : PdelayResp) (t : Nat) (s_ : State) : exec (.ptpPdelayResp u m t) s_ = execPtpPdelayResp u m t s_ := rfl
@[simp] theorem exec_ptpAnnounce (u : Nat) (m : Announce) (t : Nat) (s_ : State) : exec (.ptpAnnounce u m t) s_ = execPtpAnnounce u m t s_ := rfl
@[simp] theorem exec_ptpIgnoredMessage (u t : Nat) (s_ : State) : exec (.ptpIgnoredMessage u t) s_ = execPtpIgnoredMessage u t s_ := rfl
@[simp] theorem exec_synceQlChange (u ql : Nat) (lost : Bool) (t : Nat) (s_ : State) : exec (.synceQlChange u ql lost t) s_ = execSynceQlChange u ql lost t s_ := rfl
@[simp] theorem exec_holdoverEntry (t : Nat) (s_ : State) : exec (.holdoverEntry t) s_ = execHoldoverEntry t s_ := rfl
@[simp] theorem exec_twLoss (e : Edge) (s_ : State) : exec (.twLoss e) s_ = execTwLoss e s_ := rfl
@[simp] theorem exec_holdoverAgeGrade3 (part : Part) (e : Edge) (s_ : State) : exec (.holdoverAgeGrade3 part e) s_ = execHoldoverAgeGrade3 part e s_ := rfl
@[simp] theorem exec_lock10Min (part : Part) (e : Edge) (s_ : State) : exec (.lock10Min part e) s_ = execLock10Min part e s_ := rfl
@[simp] theorem exec_timeWordTx (at_ : LinkEnd) (tx txFrac : Nat) (e : Edge) (s_ : State) : exec (.timeWordTx at_ tx txFrac e) s_ = execTimeWordTx at_ tx txFrac e s_ := rfl
@[simp] theorem exec_timeWordRx (at_ : LinkEnd) (bytes : List Byte) (rx rxFrac : Nat) (errs : List Nat) (e : Edge) (s_ : State) :
    exec (.timeWordRx at_ bytes rx rxFrac errs e) s_ = execTimeWordRx at_ bytes rx rxFrac errs e s_ := rfl
@[simp] theorem exec_mark (p : Path) (value : Nat) (e : Edge) (s_ : State) : exec (.mark p value e) s_ = execMark p value e s_ := rfl
@[simp] theorem exec_markRecordEmit (e : Edge) (s_ : State) : exec (.markRecordEmit e) s_ = execMarkRecordEmit e s_ := rfl
@[simp] theorem exec_timeSnap (value : Nat) (e : Edge) (s_ : State) : exec (.timeSnap value e) s_ = execTimeSnap value e s_ := rfl
@[simp] theorem exec_ptpCfgWrite (value t : Nat) (s_ : State) : exec (.ptpCfgWrite value t) s_ = execPtpCfgWrite value t s_ := rfl
@[simp] theorem exec_timeReset (p : MgmtPath) (seq t : Nat) (s_ : State) : exec (.timeReset p seq t) s_ = execTimeReset p seq t s_ := rfl
@[simp] theorem exec_accordCut (e : Edge) (s_ : State) : exec (.accordCut e) s_ = execAccordCut e s_ := rfl
@[simp] theorem exec_stepMark (seq kind stepNo tokens : Nat) (e : Edge) (s_ : State) : exec (.stepMark seq kind stepNo tokens e) s_ = execStepMark seq kind stepNo tokens e s_ := rfl
@[simp] theorem exec_accordSeal (e : Edge) (s_ : State) : exec (.accordSeal e) s_ = execAccordSeal e s_ := rfl
@[simp] theorem exec_accordDumpDone (ok : Bool) (e : Edge) (s_ : State) : exec (.accordDumpDone ok e) s_ = execAccordDumpDone ok e s_ := rfl
@[simp] theorem exec_fastCut (e : Edge) (s_ : State) : exec (.fastCut e) s_ = execFastCut e s_ := rfl
@[simp] theorem exec_accordSwitch (e : Edge) (s_ : State) : exec (.accordSwitch e) s_ = execAccordSwitch e s_ := rfl
@[simp] theorem exec_switchArm (value : Nat) (e : Edge) (s_ : State) : exec (.switchArm value e) s_ = execSwitchArm value e s_ := rfl
@[simp] theorem exec_switchCancel (e : Edge) (s_ : State) : exec (.switchCancel e) s_ = execSwitchCancel e s_ := rfl
@[simp] theorem exec_keyReqRegular (e : Edge) (s_ : State) : exec (.keyReqRegular e) s_ = execKeyReqRegular e s_ := rfl
@[simp] theorem exec_keyReqFast (e : Edge) (s_ : State) : exec (.keyReqFast e) s_ = execKeyReqFast e s_ := rfl
@[simp] theorem exec_unpin (value : Nat) (e : Edge) (s_ : State) : exec (.unpin value e) s_ = execUnpin value e s_ := rfl
@[simp] theorem exec_fastCtrlWrite (value : Nat) (e : Edge) (s_ : State) : exec (.fastCtrlWrite value e) s_ = execFastCtrlWrite value e s_ := rfl
@[simp] theorem exec_fastSelWrite (k value : Nat) (e : Edge) (s_ : State) : exec (.fastSelWrite k value e) s_ = execFastSelWrite k value e s_ := rfl
@[simp] theorem exec_accordOpen (fast : Bool) (t : Nat) (s_ : State) : exec (.accordOpen fast t) s_ = execAccordOpen fast t s_ := rfl
@[simp] theorem exec_accordRecordRx (src : RecSrc) (tag rank : Nat) (body : List Byte) (t : Nat) (s_ : State) : exec (.accordRecordRx src tag rank body t) s_ = execAccordRecordRx src tag rank body t s_ := rfl
@[simp] theorem exec_gapRecordRx (src : RecSrc) (g : GapRec) (t : Nat) (s_ : State) : exec (.gapRecordRx src g t) s_ = execGapRecordRx src g t s_ := rfl
@[simp] theorem exec_closureDeadline (level ctx kind no t : Nat) (s_ : State) : exec (.closureDeadline level ctx kind no t) s_ = execClosureDeadline level ctx kind no t s_ := rfl
@[simp] theorem exec_pmcWrite (p : Path) (eng k value : Nat) (e : Edge) (s_ : State) : exec (.pmcWrite p eng k value e) s_ = execPmcWrite p eng k value e s_ := rfl
@[simp] theorem exec_evselWrite (p : Path) (eng k value : Nat) (e : Edge) (s_ : State) : exec (.evselWrite p eng k value e) s_ = execEvselWrite p eng k value e s_ := rfl
@[simp] theorem exec_cmdStart (eng : Nat) (c : CmdFact) (e : Edge) (s_ : State) :
    exec (.cmdStart eng c e) s_ = execCmdStart eng c e s_ := rfl
@[simp] theorem exec_cmdComplete (c : CmdEnd) (e : Edge) (s_ : State) :
    exec (.cmdComplete c e) s_ = execCmdComplete c e s_ := rfl
@[simp] theorem exec_engineStateChange (eng st : Nat) (e : Edge) (s_ : State) : exec (.engineStateChange eng st e) s_ = execEngineStateChange eng st e s_ := rfl
@[simp] theorem exec_wrap (eng : Option Nat) (c n : Nat) (e : Edge) (s_ : State) : exec (.wrap eng c n e) s_ = execWrap eng c n e s_ := rfl
@[simp] theorem exec_engSnap (p : Path) (value : Nat) (e : Edge) (s_ : State) : exec (.engSnap p value e) s_ = execEngSnap p value e s_ := rfl
@[simp] theorem exec_gchSample (values : List Nat) (validMask : Nat) (e : Edge) (s_ : State) : exec (.gchSample values validMask e) s_ = execGchSample values validMask e s_ := rfl
@[simp] theorem exec_engineCycle (eng : Nat) (c : EngCycle) (e : Edge) (s_ : State) : exec (.engineCycle eng c e) s_ = execEngineCycle eng c e s_ := rfl
@[simp] theorem exec_queueBind (q tag : Nat) (e : Edge) (s_ : State) : exec (.queueBind q tag e) s_ = execQueueBind q tag e s_ := rfl
@[simp] theorem exec_queueUnbind (q : Nat) (e : Edge) (s_ : State) : exec (.queueUnbind q e) s_ = execQueueUnbind q e s_ := rfl
@[simp] theorem exec_queueSample (sp : QSpace) (e : Edge) (s_ : State) : exec (.queueSample sp e) s_ = execQueueSample sp e s_ := rfl
@[simp] theorem exec_queueEnqueue (q : Nat) (c : EnqFact) (e : Edge) (s_ : State) :
    exec (.queueEnqueue q c e) s_ = execQueueEnqueue q c e s_ := rfl
@[simp] theorem exec_queueDequeue (q : Nat) (e : Edge) (s_ : State) : exec (.queueDequeue q e) s_ = execQueueDequeue q e s_ := rfl
@[simp] theorem exec_waitBegin (eng : Nat) (w : WaitInfo) (e : Edge) (s_ : State) : exec (.waitBegin eng w e) s_ = execWaitBegin eng w e s_ := rfl
@[simp] theorem exec_waitEnd (eng : Nat) (cancelled : Bool) (e : Edge) (s_ : State) : exec (.waitEnd eng cancelled e) s_ = execWaitEnd eng cancelled e s_ := rfl
@[simp] theorem exec_openReport (eng : Nat) (e : Edge) (s_ : State) : exec (.openReport eng e) s_ = execOpenReport eng e s_ := rfl
@[simp] theorem exec_hangDetected (tag : Nat) (e : Edge) (s_ : State) : exec (.hangDetected tag e) s_ = execHangDetected tag e s_ := rfl
@[simp] theorem exec_hangCut (tag : Nat) (e : Edge) (s_ : State) : exec (.hangCut tag e) s_ = execHangCut tag e s_ := rfl
@[simp] theorem exec_hangNoticeRx (src : RecSrc) (n : HangNotice) (t : Nat) (s_ : State) : exec (.hangNoticeRx src n t) s_ = execHangNoticeRx src n t s_ := rfl
@[simp] theorem exec_hangProbe (tag t : Nat) (s_ : State) : exec (.hangProbe tag t) s_ = execHangProbe tag t s_ := rfl
@[simp] theorem exec_hangComponentRx (c : HangComp) (t : Nat) (s_ : State) : exec (.hangComponentRx c t) s_ = execHangComponentRx c t s_ := rfl
@[simp] theorem exec_hangGraphDeadline (level hangId t : Nat) (s_ : State) : exec (.hangGraphDeadline level hangId t) s_ = execHangGraphDeadline level hangId t s_ := rfl
@[simp] theorem exec_silInstrRetire (seq : Nat) (i : SilInstr) (e : Edge) (s_ : State) : exec (.silInstrRetire seq i e) s_ = execSilInstrRetire seq i e s_ := rfl
@[simp] theorem exec_spanEntry (seq level ia : Nat) (e : Edge) (s_ : State) : exec (.spanEntry seq level ia e) s_ = execSpanEntry seq level ia e s_ := rfl
@[simp] theorem exec_spanExit (seq ia : Nat) (e : Edge) (s_ : State) : exec (.spanExit seq ia e) s_ = execSpanExit seq ia e s_ := rfl
@[simp] theorem exec_outFlush (k : Nat) (e : Edge) (s_ : State) : exec (.outFlush k e) s_ = execOutFlush k e s_ := rfl
@[simp] theorem exec_silRecTimeout (k : Nat) (e : Edge) (s_ : State) : exec (.silRecTimeout k e) s_ = execSilRecTimeout k e s_ := rfl
@[simp] theorem exec_silResume (k : Nat) (e : Edge) (s_ : State) : exec (.silResume k e) s_ = execSilResume k e s_ := rfl
@[simp] theorem exec_silSeqEnWrite (value : Nat) (e : Edge) (s_ : State) : exec (.silSeqEnWrite value e) s_ = execSilSeqEnWrite value e s_ := rfl
@[simp] theorem exec_syncReq (value : Nat) (e : Edge) (s_ : State) : exec (.syncReq value e) s_ = execSyncReq value e s_ := rfl
@[simp] theorem exec_grantWrite (g : Nat) (x : GrantReq) (e : Edge) (s_ : State) : exec (.grantWrite g x e) s_ = execGrantWrite g x e s_ := rfl
@[simp] theorem exec_grantRevoke (g : Nat) (e : Edge) (s_ : State) : exec (.grantRevoke g e) s_ = execGrantRevoke g e s_ := rfl
@[simp] theorem exec_grantExpired (g : Nat) (e : Edge) (s_ : State) : exec (.grantExpired g e) s_ = execGrantExpired g e s_ := rfl
@[simp] theorem exec_silRecordRx (n vl : Nat) (frame : List Byte) (t : Nat) (s_ : State) : exec (.silRecordRx n vl frame t) s_ = execSilRecordRx n vl frame t s_ := rfl
@[simp] theorem exec_flcSwTrig (value t : Nat) (s_ : State) : exec (.flcSwTrig value t) s_ = execFlcSwTrig value t s_ := rfl
@[simp] theorem exec_freezeReq (x : Trigger) (t : Nat) (s_ : State) : exec (.freezeReq x t) s_ = execFreezeReq x t s_ := rfl
@[simp] theorem exec_freezeFire (n t : Nat) (s_ : State) : exec (.freezeFire n t) s_ = execFreezeFire n t s_ := rfl
@[simp] theorem exec_captureEnd (n t : Nat) (s_ : State) : exec (.captureEnd n t) s_ = execCaptureEnd n t s_ := rfl
@[simp] theorem exec_flcRelease (n value t : Nat) (s_ : State) : exec (.flcRelease n value t) s_ = execFlcRelease n value t s_ := rfl
@[simp] theorem exec_drainOutput (eng : Nat) (x : OutElem) (e : Edge) (s_ : State) : exec (.drainOutput eng x e) s_ = execDrainOutput eng x e s_ := rfl
@[simp] theorem exec_firstNan (eng : Nat) (x : FirstNan) (e : Edge) (s_ : State) : exec (.firstNan eng x e) s_ = execFirstNan eng x e s_ := rfl
@[simp] theorem exec_uncorrectedError (part : Part) (x : ErrReport) (e : Edge) (s_ : State) : exec (.uncorrectedError part x e) s_ = execUncorrectedError part x e s_ := rfl
@[simp] theorem exec_correctedError (part : Part) (x : ErrReport) (e : Edge) (s_ : State) : exec (.correctedError part x e) s_ = execCorrectedError part x e s_ := rfl
@[simp] theorem exec_canaryStart (eng predIdle : Nat) (x : IdleFact) (e : Edge) (s_ : State) :
    exec (.canaryStart eng predIdle x e) s_ = execCanaryStart eng predIdle x e s_ := rfl
@[simp] theorem exec_canaryAbort (eng : Nat) (final : Bool) (e : Edge) (s_ : State) : exec (.canaryAbort eng final e) s_ = execCanaryAbort eng final e s_ := rfl
@[simp] theorem exec_canaryComplete (eng : Nat) (out : List OutTile) (c : CondRead) (e : Edge) (s_ : State) : exec (.canaryComplete eng out c e) s_ = execCanaryComplete eng out c e s_ := rfl
@[simp] theorem exec_tiebreakWait (cluster : Nat) (e : Edge) (s_ : State) : exec (.tiebreakWait cluster e) s_ = execTiebreakWait cluster e s_ := rfl
@[simp] theorem exec_mirrorCapture (eng cmdSeq len : Nat) (operands : List Byte) (out : List OutTile) (c : CondRead) (ftStart : Nat) (e : Edge) (s_ : State) : exec (.mirrorCapture eng cmdSeq len operands out c ftStart e) s_ = execMirrorCapture eng cmdSeq len operands out c ftStart e s_ := rfl
@[simp] theorem exec_abortWindow (eng : Nat) (e : Edge) (s_ : State) : exec (.abortWindow eng e) s_ = execAbortWindow eng e s_ := rfl
@[simp] theorem exec_mismatchRecordRx (src : RecSrc) (tag rank : Nat) (body : List Byte) (t : Nat) (s_ : State) : exec (.mismatchRecordRx src tag rank body t) s_ = execMismatchRecordRx src tag rank body t s_ := rfl
@[simp] theorem exec_firstNanRx (src : RecSrc) (tag rank : Nat) (body : List Byte) (t : Nat) (s_ : State) : exec (.firstNanRx src tag rank body t) s_ = execFirstNanRx src tag rank body t s_ := rfl
@[simp] theorem exec_weightLoadDone (tensor format : Nat) (bytes : List Byte) (e : Edge) (s_ : State) : exec (.weightLoadDone tensor format bytes e) s_ = execWeightLoadDone tensor format bytes e s_ := rfl
@[simp] theorem exec_weightHashDone (tensor : Nat) (e : Edge) (s_ : State) : exec (.weightHashDone tensor e) s_ = execWeightHashDone tensor e s_ := rfl
@[simp] theorem exec_inputIngest (tensor part : Nat) (bytes : List Byte) (e : Edge) (s_ : State) : exec (.inputIngest tensor part bytes e) s_ = execInputIngest tensor part bytes e s_ := rfl
@[simp] theorem exec_tileDrain (x : TilePart) (e : Edge) (s_ : State) : exec (.tileDrain x e) s_ = execTileDrain x e s_ := rfl
@[simp] theorem exec_resultMark (p : Path) (value : Nat) (e : Edge) (s_ : State) : exec (.resultMark p value e) s_ = execResultMark p value e s_ := rfl
@[simp] theorem exec_rankDigestRx (src : RecSrc) (tag rank : Nat) (body : List Byte) (t : Nat) (s_ : State) : exec (.rankDigestRx src tag rank body t) s_ = execRankDigestRx src tag rank body t s_ := rfl
@[simp] theorem exec_resultTimeout (tag result t : Nat) (s_ : State) : exec (.resultTimeout tag result t) s_ = execResultTimeout tag result t s_ := rfl
@[simp] theorem exec_bucketOrderRx (src : RecSrc) (b : BucketOrder) (t : Nat) (s_ : State) : exec (.bucketOrderRx src b t) s_ = execBucketOrderRx src b t s_ := rfl
@[simp] theorem exec_bucketOrderDeadline (tag collSeq t : Nat) (s_ : State) : exec (.bucketOrderDeadline tag collSeq t) s_ = execBucketOrderDeadline tag collSeq t s_ := rfl
@[simp] theorem exec_partialRx (p : Partial) (t : Nat) (s_ : State) : exec (.partialRx p t) s_ = execPartialRx p t s_ := rfl
@[simp] theorem exec_fwdEnvelopeRx (x : FwdEnv) (t : Nat) (s_ : State) : exec (.fwdEnvelopeRx x t) s_ = execFwdEnvelopeRx x t s_ := rfl
@[simp] theorem exec_start (at_ : Part) (h : AtHdr) (m : StartMsg) (e : Edge) (s_ : State) : exec (.start at_ h m e) s_ = execStart at_ h m e s_ := rfl
@[simp] theorem exec_retract (at_ : Part) (h : AtHdr) (e : Edge) (s_ : State) : exec (.retract at_ h e) s_ = execRetract at_ h e s_ := rfl
@[simp] theorem exec_config (at_ : Part) (h : AtHdr) (l : List CfgEntry) (e : Edge) (s_ : State) : exec (.config at_ h l e) s_ = execConfig at_ h l e s_ := rfl
@[simp] theorem exec_freeze (h : AtHdr) (x : FreezeMsg) (t : Nat) (s_ : State) : exec (.freeze h x t) s_ = execFreeze h x t s_ := rfl
@[simp] theorem exec_hangFreeze (at_ : Part) (h : AtHdr) (hangId : Nat) (e : Edge) (s_ : State) : exec (.hangFreeze at_ h hangId e) s_ = execHangFreeze at_ h hangId e s_ := rfl
@[simp] theorem exec_jobFault (at_ : Part) (h : AtHdr) (x : FaultRef) (e : Edge) (s_ : State) : exec (.jobFault at_ h x e) s_ = execJobFault at_ h x e s_ := rfl
@[simp] theorem exec_tree (h : AtHdr) (epoch : Nat) (roles : Roles) (t : Nat) (s_ : State) : exec (.tree h epoch roles t) s_ = execTree h epoch roles t s_ := rfl
@[simp] theorem exec_hopAck (c : Child) (bseq t : Nat) (s_ : State) : exec (.hopAck c bseq t) s_ = execHopAck c bseq t s_ := rfl
@[simp] theorem exec_done (c : Child) (bseq : Nat) (d : DoneMsg) (t : Nat) (s_ : State) : exec (.done c bseq d t) s_ = execDone c bseq d t s_ := rfl
@[simp] theorem exec_hopAckTimeout (c : Child) (bseq t : Nat) (s_ : State) : exec (.hopAckTimeout c bseq t) s_ = execHopAckTimeout c bseq t s_ := rfl
@[simp] theorem exec_doneTimeout (c : Child) (bseq t : Nat) (s_ : State) : exec (.doneTimeout c bseq t) s_ = execDoneTimeout c bseq t s_ := rfl
@[simp] theorem exec_hopFail (tray t : Nat) (s_ : State) : exec (.hopFail tray t) s_ = execHopFail tray t s_ := rfl
@[simp] theorem exec_faultNotice (tag : Nat) (x : FaultRef) (t : Nat) (s_ : State) : exec (.faultNotice tag x t) s_ = execFaultNotice tag x t s_ := rfl
@[simp] theorem exec_heartbeatTx (t : Nat) (s_ : State) : exec (.heartbeatTx t) s_ = execHeartbeatTx t s_ := rfl
@[simp] theorem exec_heartbeat (l : List BcastBody) (rootEpoch t : Nat) (s_ : State) : exec (.heartbeat l rootEpoch t) s_ = execHeartbeat l rootEpoch t s_ := rfl
@[simp] theorem exec_rootTakeover (t : Nat) (s_ : State) : exec (.rootTakeover t) s_ = execRootTakeover t s_ := rfl
@[simp] theorem exec_retractDeadline (tag t : Nat) (s_ : State) : exec (.retractDeadline tag t) s_ = execRetractDeadline tag t s_ := rfl
@[simp] theorem exec_reschedWait (tag t : Nat) (s_ : State) : exec (.reschedWait tag t) s_ = execReschedWait tag t s_ := rfl
@[simp] theorem exec_treeProbe (t : Nat) (s_ : State) : exec (.treeProbe t) s_ = execTreeProbe t s_ := rfl
@[simp] theorem exec_startBarrier (engs : List Nat) (imgs : List ProgImage) (ucs : List Microcode) (e : Edge) (s_ : State) : exec (.startBarrier engs imgs ucs e) s_ = execStartBarrier engs imgs ucs e s_ := rfl
@[simp] theorem exec_dieJobEnd (tag cause : Nat) (e : Edge) (s_ : State) : exec (.dieJobEnd tag cause e) s_ = execDieJobEnd tag cause e s_ := rfl
@[simp] theorem exec_jobEndRecord (tag : Nat) (e : Edge) (s_ : State) : exec (.jobEndRecord tag e) s_ = execJobEndRecord tag e s_ := rfl
@[simp] theorem exec_jobEndRx (src : RecSrc) (tag rank : Nat) (body : List Byte) (t : Nat) (s_ : State) : exec (.jobEndRx src tag rank body t) s_ = execJobEndRx src tag rank body t s_ := rfl
@[simp] theorem exec_drainLimit (c t : Nat) (s_ : State) : exec (.drainLimit c t) s_ = execDrainLimit c t s_ := rfl
@[simp] theorem exec_ctxHold (c t : Nat) (s_ : State) : exec (.ctxHold c t) s_ = execCtxHold c t s_ := rfl
@[simp] theorem exec_noseEval (c no t : Nat) (s_ : State) : exec (.noseEval c no t) s_ = execNoseEval c no t s_ := rfl
@[simp] theorem exec_noseEvalDone (t : Nat) (s_ : State) : exec (.noseEvalDone t) s_ = execNoseEvalDone t s_ := rfl
@[simp] theorem exec_loadModel (via : Option (Nat × Nat)) (sigOk : Bool) (t : Nat) (s_ : State) : exec (.loadModel via sigOk t) s_ = execLoadModel via sigOk t s_ := rfl
@[simp] theorem exec_modelCopyStart (t : Nat) (s_ : State) : exec (.modelCopyStart t) s_ = execModelCopyStart t s_ := rfl
@[simp] theorem exec_modelCopyDone (t : Nat) (s_ : State) : exec (.modelCopyDone t) s_ = execModelCopyDone t s_ := rfl
@[simp] theorem exec_loadBaseline (via : Option (Nat × Nat)) (t : Nat) (s_ : State) : exec (.loadBaseline via t) s_ = execLoadBaseline via t s_ := rfl
@[simp] theorem exec_saveBaseline (via : Option (Nat × Nat)) (t : Nat) (s_ : State) : exec (.saveBaseline via t) s_ = execSaveBaseline via t s_ := rfl
@[simp] theorem exec_unload (via : Option (Nat × Nat)) (t : Nat) (s_ : State) : exec (.unload via t) s_ = execUnload via t s_ := rfl
@[simp] theorem exec_portTrain (at_ : LinkEnd) (loc : Nat) (fromReset : Bool) (fault credit : Nat) (e : Edge) (s_ : State) : exec (.portTrain at_ loc fromReset fault credit e) s_ = execPortTrain at_ loc fromReset fault credit e s_ := rfl
@[simp] theorem exec_portDown (at_ : LinkEnd) (relayAnswers : List Bool) (e : Edge) (s_ : State) : exec (.portDown at_ relayAnswers e) s_ = execPortDown at_ relayAnswers e s_ := rfl
@[simp] theorem exec_fbSettle (cls : Nat) (e : Edge) (s_ : State) : exec (.fbSettle cls e) s_ = execFbSettle cls e s_ := rfl
@[simp] theorem exec_dataFlitRx (at_ : LinkEnd) (bytes : List Byte) (errs : List Nat) (e : Edge) (s_ : State) :
    exec (.dataFlitRx at_ bytes errs e) s_ = execDataFlitRx at_ bytes errs e s_ := rfl
@[simp] theorem exec_nak (at_ : LinkEnd) (x : FlitRx) (e : Edge) (s_ : State) : exec (.nak at_ x e) s_ = execNak at_ x e s_ := rfl
@[simp] theorem exec_nakRepeat (at_ : LinkEnd) (e : Edge) (s_ : State) : exec (.nakRepeat at_ e) s_ = execNakRepeat at_ e s_ := rfl
@[simp] theorem exec_resyncReq (bytes : List Byte) (errs : List Nat) (e : Edge) (s_ : State) :
    exec (.resyncReq bytes errs e) s_ = execResyncReq bytes errs e s_ := rfl
@[simp] theorem exec_keyReq (x : FlitRx) (e : Edge) (s_ : State) : exec (.keyReq x e) s_ = execKeyReq x e s_ := rfl
@[simp] theorem exec_retrainReq (x : EndFlit) (e : Edge) (s_ : State) :
    exec (.retrainReq x e) s_ = execRetrainReq x e s_ := rfl
@[simp] theorem exec_relayFrameRx (n vl : Nat) (frame : List Byte) (t : Nat) (s_ : State) : exec (.relayFrameRx n vl frame t) s_ = execRelayFrameRx n vl frame t s_ := rfl
@[simp] theorem exec_ingestWindow (t : Nat) (s_ : State) : exec (.ingestWindow t) s_ = execIngestWindow t s_ := rfl
@[simp] theorem exec_gateEntryBegin (g : GateSel) (e : Edge) (s_ : State) : exec (.gateEntryBegin g e) s_ = execGateEntryBegin g e s_ := rfl
@[simp] theorem exec_gateChange (g : GateSel) (e : Edge) (s_ : State) : exec (.gateChange g e) s_ = execGateChange g e s_ := rfl
@[simp] theorem exec_changeTWrite (g : GateSel) (value : Nat) (e : Edge) (s_ : State) : exec (.changeTWrite g value e) s_ = execChangeTWrite g value e s_ := rfl
@[simp] theorem exec_shaperWrite (g : GateSel) (eq reg value : Nat) (e : Edge) (s_ : State) : exec (.shaperWrite g eq reg value e) s_ = execShaperWrite g eq reg value e s_ := rfl
@[simp] theorem exec_policerWrite (n reg value t : Nat) (s_ : State) : exec (.policerWrite n reg value t) s_ = execPolicerWrite n reg value t s_ := rfl
@[simp] theorem exec_flitSlot (at_ : LinkEnd) (e : Edge) (s_ : State) : exec (.flitSlot at_ e) s_ = execFlitSlot at_ e s_ := rfl
@[simp] theorem exec_egressFrameStart (g : GateSel) (e : Edge) (s_ : State) : exec (.egressFrameStart g e) s_ = execEgressFrameStart g e s_ := rfl
@[simp] theorem exec_fallbackPacketRx (p : FbPacket) (e : Edge) (s_ : State) : exec (.fallbackPacketRx p e) s_ = execFallbackPacketRx p e s_ := rfl
@[simp] theorem exec_uplinkDown (u t : Nat) (s_ : State) : exec (.uplinkDown u t) s_ = execUplinkDown u t s_ := rfl
@[simp] theorem exec_uplinkUp (u t : Nat) (s_ : State) : exec (.uplinkUp u t) s_ = execUplinkUp u t s_ := rfl
@[simp] theorem exec_hnrRecordWrite (n vl : Nat) (frame : List Byte) (t : Nat) (s_ : State) : exec (.hnrRecordWrite n vl frame t) s_ = execHnrRecordWrite n vl frame t s_ := rfl
@[simp] theorem exec_eventRequest (part : Part) (r : EvReq) (e : Edge) (s_ : State) : exec (.eventRequest part r e) s_ = execEventRequest part r e s_ := rfl
@[simp] theorem exec_eventCommit (part : Part) (mramOk : Bool) (e : Edge) (s_ : State) : exec (.eventCommit part mramOk e) s_ = execEventCommit part mramOk e s_ := rfl
@[simp] theorem exec_eventRecordRx (n : Nat) (r : EvRec) (t : Nat) (s_ : State) : exec (.eventRecordRx n r t) s_ = execEventRecordRx n r t s_ := rfl
@[simp] theorem exec_evrClear (part : Part) (value : Nat) (e : Edge) (s_ : State) : exec (.evrClear part value e) s_ = execEvrClear part value e s_ := rfl
@[simp] theorem exec_blotCursorWrite (part : Part) (value : Nat) (e : Edge) (s_ : State) : exec (.blotCursorWrite part value e) s_ = execBlotCursorWrite part value e s_ := rfl
@[simp] theorem exec_rlEntryWrite (part : Part) (k : Option Nat) (value : Nat) (e : Edge) (s_ : State) : exec (.rlEntryWrite part k value e) s_ = execRlEntryWrite part k value e s_ := rfl
@[simp] theorem exec_prevFrontierScan (t : Nat) (s_ : State) : exec (.prevFrontierScan t) s_ = execPrevFrontierScan t s_ := rfl
@[simp] theorem exec_dieReset (e : Edge) (s_ : State) : exec (.dieReset e) s_ = execDieReset e s_ := rfl
@[simp] theorem exec_alwaysOnPowerUp (e : Edge) (s_ : State) : exec (.alwaysOnPowerUp e) s_ = execAlwaysOnPowerUp e s_ := rfl
@[simp] theorem exec_cmpStart (at_ : Part) (k : Nat) (e : Edge) (s_ : State) : exec (.cmpStart at_ k e) s_ = execCmpStart at_ k e s_ := rfl
@[simp] theorem exec_cmpAbort (at_ : Part) (k blocks : Nat) (e : Edge) (s_ : State) : exec (.cmpAbort at_ k blocks e) s_ = execCmpAbort at_ k blocks e s_ := rfl
@[simp] theorem exec_cmpJobEnd (at_ : Part) (k : Nat) (memErr : Option Nat) (e : Edge) (s_ : State) : exec (.cmpJobEnd at_ k memErr e) s_ = execCmpJobEnd at_ k memErr e s_ := rfl
@[simp] theorem exec_decStart (k t : Nat) (s_ : State) : exec (.decStart k t) s_ = execDecStart k t s_ := rfl
@[simp] theorem exec_decAbort (k blocks t : Nat) (s_ : State) : exec (.decAbort k blocks t) s_ = execDecAbort k blocks t s_ := rfl
@[simp] theorem exec_decJobEnd (k : Nat) (memErr : Option Nat) (t : Nat) (s_ : State) : exec (.decJobEnd k memErr t) s_ = execDecJobEnd k memErr t s_ := rfl
@[simp] theorem exec_cmpAssign (value t : Nat) (s_ : State) : exec (.cmpAssign value t) s_ = execCmpAssign value t s_ := rfl
@[simp] theorem exec_cvCtrlWrite (at_ : Part) (c value : Nat) (e : Edge) (s_ : State) : exec (.cvCtrlWrite at_ c value e) s_ = execCvCtrlWrite at_ c value e s_ := rfl
@[simp] theorem exec_cvValueWrite (at_ : Part) (c value : Nat) (e : Edge) (s_ : State) : exec (.cvValueWrite at_ c value e) s_ = execCvValueWrite at_ c value e s_ := rfl
@[simp] theorem exec_cvData64 (at_ : Part) (c value : Nat) (e : Edge) (s_ : State) : exec (.cvData64 at_ c value e) s_ = execCvData64 at_ c value e s_ := rfl
@[simp] theorem exec_cvData32 (at_ : Part) (c value : Nat) (e : Edge) (s_ : State) : exec (.cvData32 at_ c value e) s_ = execCvData32 at_ c value e s_ := rfl
@[simp] theorem exec_cvDataTail (at_ : Part) (c value : Nat) (e : Edge) (s_ : State) : exec (.cvDataTail at_ c value e) s_ = execCvDataTail at_ c value e s_ := rfl
@[simp] theorem exec_feedStart (at_ : Part) (c : Nat) (e : Edge) (s_ : State) : exec (.feedStart at_ c e) s_ = execFeedStart at_ c e s_ := rfl
@[simp] theorem exec_feedAbort (at_ : Part) (c fed : Nat) (e : Edge) (s_ : State) : exec (.feedAbort at_ c fed e) s_ = execFeedAbort at_ c fed e s_ := rfl
@[simp] theorem exec_feedDone (at_ : Part) (c : Nat) (e : Edge) (s_ : State) : exec (.feedDone at_ c e) s_ = execFeedDone at_ c e s_ := rfl
@[simp] theorem exec_ringSel (value t : Nat) (s_ : State) : exec (.ringSel value t) s_ = execRingSel value t s_ := rfl
@[simp] theorem exec_ringCommit (value t : Nat) (s_ : State) : exec (.ringCommit value t) s_ = execRingCommit value t s_ := rfl
@[simp] theorem exec_tailWrite (k value t : Nat) (s_ : State) : exec (.tailWrite k value t) s_ = execTailWrite k value t s_ := rfl
@[simp] theorem exec_cmplHeadWrite (k value t : Nat) (s_ : State) : exec (.cmplHeadWrite k value t) s_ = execCmplHeadWrite k value t s_ := rfl
@[simp] theorem exec_descFetch (host : Option (List Byte)) (t : Nat) (s_ : State) : exec (.descFetch host t) s_ = execDescFetch host t s_ := rfl
@[simp] theorem exec_cmplWrite (k t : Nat) (s_ : State) : exec (.cmplWrite k t) s_ = execCmplWrite k t s_ := rfl
@[simp] theorem exec_readItem (k tag : Nat) (err : Bool) (t : Nat) (s_ : State) : exec (.readItem k tag err t) s_ = execReadItem k tag err t s_ := rfl
@[simp] theorem exec_readSummary (k tag : Nat) (err : Bool) (t : Nat) (s_ : State) : exec (.readSummary k tag err t) s_ = execReadSummary k tag err t s_ := rfl
@[simp] theorem exec_reduce (k tag : Nat) (err : Bool) (t : Nat) (s_ : State) : exec (.reduce k tag err t) s_ = execReduce k tag err t s_ := rfl
@[simp] theorem exec_readCounters (k tag : Nat) (err : Bool) (t : Nat) (s_ : State) : exec (.readCounters k tag err t) s_ = execReadCounters k tag err t s_ := rfl
@[simp] theorem exec_readRecords (k tag : Nat) (err : Bool) (t : Nat) (s_ : State) : exec (.readRecords k tag err t) s_ = execReadRecords k tag err t s_ := rfl
@[simp] theorem exec_subAccord (k tag t : Nat) (s_ : State) : exec (.subAccord k tag t) s_ = execSubAccord k tag t s_ := rfl
@[simp] theorem exec_subRecords (k tag t : Nat) (s_ : State) : exec (.subRecords k tag t) s_ = execSubRecords k tag t s_ := rfl
@[simp] theorem exec_cancel (k tag t : Nat) (s_ : State) : exec (.cancel k tag t) s_ = execCancel k tag t s_ := rfl
@[simp] theorem exec_trigger (k tag t : Nat) (s_ : State) : exec (.trigger k tag t) s_ = execTrigger k tag t s_ := rfl
@[simp] theorem exec_release (k tag t : Nat) (s_ : State) : exec (.release k tag t) s_ = execRelease k tag t s_ := rfl
@[simp] theorem exec_controlConfig (k tag : Nat) (l : List CfgEntry) (t : Nat) (s_ : State) : exec (.controlConfig k tag l t) s_ = execControlConfig k tag l t s_ := rfl
@[simp] theorem exec_startJob (k tag jobTag : Nat) (m : StartMsg) (t : Nat) (s_ : State) : exec (.startJob k tag jobTag m t) s_ = execStartJob k tag jobTag m t s_ := rfl
@[simp] theorem exec_exportHeart (k tag t : Nat) (s_ : State) : exec (.exportHeart k tag t) s_ = execExportHeart k tag t s_ := rfl
@[simp] theorem exec_exportFlacon (k tag t : Nat) (s_ : State) : exec (.exportFlacon k tag t) s_ = execExportFlacon k tag t s_ := rfl
@[simp] theorem exec_exportPeriod (k t : Nat) (s_ : State) : exec (.exportPeriod k t) s_ = execExportPeriod k t s_ := rfl
@[simp] theorem exec_replay (k tag t : Nat) (s_ : State) : exec (.replay k tag t) s_ = execReplay k tag t s_ := rfl
@[simp] theorem exec_qpOpen (k : Nat) (ok : Bool) (t : Nat) (s_ : State) : exec (.qpOpen k ok t) s_ = execQpOpen k ok t s_ := rfl
@[simp] theorem exec_qpDesc (session pseq ack : Nat) (descs : List (List Byte)) (ok : Bool) (t : Nat) (s_ : State) : exec (.qpDesc session pseq ack descs ok t) s_ = execQpDesc session pseq ack descs ok t s_ := rfl
@[simp] theorem exec_qpAck (session ack : Nat) (ok : Bool) (t : Nat) (s_ : State) : exec (.qpAck session ack ok t) s_ = execQpAck session ack ok t s_ := rfl
@[simp] theorem exec_qpClose (session : Nat) (ok : Bool) (t : Nat) (s_ : State) : exec (.qpClose session ok t) s_ = execQpClose session ok t s_ := rfl
@[simp] theorem exec_qpRetx (session pseq t : Nat) (s_ : State) : exec (.qpRetx session pseq t) s_ = execQpRetx session pseq t s_ := rfl
@[simp] theorem exec_getInfo (p : MgmtPath) (seq t : Nat) (s_ : State) : exec (.getInfo p seq t) s_ = execGetInfo p seq t s_ := rfl
@[simp] theorem exec_getStatus (p : MgmtPath) (seq t : Nat) (s_ : State) : exec (.getStatus p seq t) s_ = execGetStatus p seq t s_ := rfl
@[simp] theorem exec_getTime (p : MgmtPath) (seq t : Nat) (s_ : State) : exec (.getTime p seq t) s_ = execGetTime p seq t s_ := rfl
@[simp] theorem exec_stageWrite (p : MgmtPath) (seq off : Nat) (bytes : List Byte) (t : Nat) (s_ : State) : exec (.stageWrite p seq off bytes t) s_ = execStageWrite p seq off bytes t s_ := rfl
@[simp] theorem exec_stageRead (p : MgmtPath) (seq off len t : Nat) (s_ : State) : exec (.stageRead p seq off len t) s_ = execStageRead p seq off len t s_ := rfl
@[simp] theorem exec_flashUpdate (p : MgmtPath) (seq len t : Nat) (s_ : State) : exec (.flashUpdate p seq len t) s_ = execFlashUpdate p seq len t s_ := rfl
@[simp] theorem exec_reconfigure (p : MgmtPath) (seq t : Nat) (s_ : State) : exec (.reconfigure p seq t) s_ = execReconfigure p seq t s_ := rfl
@[simp] theorem exec_selfTest (p : MgmtPath) (seq level t : Nat) (s_ : State) : exec (.selfTest p seq level t) s_ = execSelfTest p seq level t s_ := rfl
@[simp] theorem exec_journalDump (p : MgmtPath) (seq t : Nat) (s_ : State) : exec (.journalDump p seq t) s_ = execJournalDump p seq t s_ := rfl
@[simp] theorem exec_longCommandDone (x : LongEnd) (t : Nat) (s_ : State) : exec (.longCommandDone x t) s_ = execLongCommandDone x t s_ := rfl
@[simp] theorem exec_pldmBase (cmd t : Nat) (s_ : State) : exec (.pldmBase cmd t) s_ = execPldmBase cmd t s_ := rfl
@[simp] theorem exec_pldmPlatform (sensor t : Nat) (s_ : State) : exec (.pldmPlatform sensor t) s_ = execPldmPlatform sensor t s_ := rfl
@[simp] theorem exec_pldmFwUpdate (off : Nat) (bytes : List Byte) (last : Bool) (len t : Nat) (s_ : State) : exec (.pldmFwUpdate off bytes last len t) s_ = execPldmFwUpdate off bytes last len t s_ := rfl
@[simp] theorem exec_resetRelease (pos : Nat) (par : Bool) (t : Nat) (s_ : State) : exec (.resetRelease pos par t) s_ = execResetRelease pos par t s_ := rfl
@[simp] theorem exec_imageReadDone (flashOk sigOk : Bool) (t : Nat) (s_ : State) : exec (.imageReadDone flashOk sigOk t) s_ = execImageReadDone flashOk sigOk t s_ := rfl
@[simp] theorem exec_otuDescriptor (bytes : List Byte) (hbm : Nat) (testOk : Bool) (e : Edge) (s_ : State) : exec (.otuDescriptor bytes hbm testOk e) s_ = execOtuDescriptor bytes hbm testOk e s_ := rfl
@[simp] theorem exec_faultWait (n t : Nat) (s_ : State) : exec (.faultWait n t) s_ = execFaultWait n t s_ := rfl
@[simp] theorem exec_mirrorRx (port : Nat) (x : MirrorItem) (t : Nat) (s_ : State) : exec (.mirrorRx port x t) s_ = execMirrorRx port x t s_ := rfl
@[simp] theorem exec_buddyRequest (from_ epoch : Nat) (since : Option Nat) (t : Nat) (s_ : State) : exec (.buddyRequest from_ epoch since t) s_ = execBuddyRequest from_ epoch since t s_ := rfl
@[simp] theorem exec_buddyTimeout (t : Nat) (s_ : State) : exec (.buddyTimeout t) s_ = execBuddyTimeout t s_ := rfl
@[simp] theorem exec_fromStore (t : Nat) (s_ : State) : exec (.fromStore t) s_ = execFromStore t s_ := rfl
@[simp] theorem exec_skipStore (t : Nat) (s_ : State) : exec (.skipStore t) s_ = execSkipStore t s_ := rfl
@[simp] theorem exec_recoveryStepReq (at_ : Part) (from_ epoch level step : Nat) (slots : List Nat) (e : Edge) (s_ : State) : exec (.recoveryStepReq at_ from_ epoch level step slots e) s_ = execRecoveryStepReq at_ from_ epoch level step slots e s_ := rfl
@[simp] theorem exec_buddyPortDown (p t : Nat) (s_ : State) : exec (.buddyPortDown p t) s_ = execBuddyPortDown p t s_ := rfl
@[simp] theorem exec_buddyPortUp (p peer t : Nat) (s_ : State) : exec (.buddyPortUp p peer t) s_ = execBuddyPortUp p peer t s_ := rfl
@[simp] theorem exec_powerGood (osfp t : Nat) (s_ : State) : exec (.powerGood osfp t) s_ = execPowerGood osfp t s_ := rfl
@[simp] theorem exec_pwrFail (hotswap : Bool) (t : Nat) (s_ : State) : exec (.pwrFail hotswap t) s_ = execPwrFail hotswap t s_ := rfl
@[simp] theorem exec_mramWriteProtect (t : Nat) (s_ : State) : exec (.mramWriteProtect t) s_ = execMramWriteProtect t s_ := rfl
@[simp] theorem exec_railFault (t : Nat) (s_ : State) : exec (.railFault t) s_ = execRailFault t s_ := rfl
@[simp] theorem exec_prdReset (t : Nat) (s_ : State) : exec (.prdReset t) s_ = execPrdReset t s_ := rfl
@[simp] theorem exec_thermWarn (sensor : Nat) (temp : Int) (t : Nat) (s_ : State) : exec (.thermWarn sensor temp t) s_ = execThermWarn sensor temp t s_ := rfl
@[simp] theorem exec_thermThrottle (sensor : Nat) (temp : Int) (t : Nat) (s_ : State) : exec (.thermThrottle sensor temp t) s_ = execThermThrottle sensor temp t s_ := rfl
@[simp] theorem exec_thermTrip (sensor : Nat) (temp : Int) (t : Nat) (s_ : State) : exec (.thermTrip sensor temp t) s_ = execThermTrip sensor temp t s_ := rfl
@[simp] theorem exec_osfpOvercurrent (u t : Nat) (s_ : State) : exec (.osfpOvercurrent u t) s_ = execOsfpOvercurrent u t s_ := rfl
@[simp] theorem exec_osfpCtrlWrite (value t : Nat) (s_ : State) : exec (.osfpCtrlWrite value t) s_ = execOsfpCtrlWrite value t s_ := rfl
@[simp] theorem exec_ocxoFail (t : Nat) (s_ : State) : exec (.ocxoFail t) s_ = execOcxoFail t s_ := rfl
@[simp] theorem exec_ocxoReturn (t : Nat) (s_ : State) : exec (.ocxoReturn t) s_ = execOcxoReturn t s_ := rfl
@[simp] theorem exec_ocxoWarm (t : Nat) (s_ : State) : exec (.ocxoWarm t) s_ = execOcxoWarm t s_ := rfl
@[simp] theorem exec_pllUnlock (t : Nat) (s_ : State) : exec (.pllUnlock t) s_ = execPllUnlock t s_ := rfl
@[simp] theorem exec_tmuxCfgWrite (at_ : Part) (value : Nat) (e : Edge) (s_ : State) : exec (.tmuxCfgWrite at_ value e) s_ = execTmuxCfgWrite at_ value e s_ := rfl
@[simp] theorem exec_tmuxGrantWrite (id scope uid expiry : Nat) (valid : Bool) (t : Nat) (s_ : State) : exec (.tmuxGrantWrite id scope uid expiry valid t) s_ = execTmuxGrantWrite id scope uid expiry valid t s_ := rfl
@[simp] theorem exec_tmuxSelWrite (at_ : Part) (k value : Nat) (e : Edge) (s_ : State) : exec (.tmuxSelWrite at_ k value e) s_ = execTmuxSelWrite at_ k value e s_ := rfl
@[simp] theorem exec_tmuxGrantExpired (t : Nat) (s_ : State) : exec (.tmuxGrantExpired t) s_ = execTmuxGrantExpired t s_ := rfl
@[simp] theorem exec_tapInstruction (ir : TapIr) (t : Nat) (s_ : State) : exec (.tapInstruction ir t) s_ = execTapInstruction ir t s_ := rfl
@[simp] theorem exec_modulePowerOn (t : Nat) (s_ : State) : exec (.modulePowerOn t) s_ = execModulePowerOn t s_ := rfl
@[simp] theorem exec_holdupEnd (t : Nat) (s_ : State) : exec (.holdupEnd t) s_ = execHoldupEnd t s_ := rfl
@[simp] theorem exec_twBind (w value : Nat) (e : Edge) (s_ : State) : exec (.twBind w value e) s_ = execTwBind w value e s_ := rfl
@[simp] theorem exec_twPageWrite (w : Nat) (queue : Bool) (value : Nat) (e : Edge) (s_ : State) : exec (.twPageWrite w queue value e) s_ = execTwPageWrite w queue value e s_ := rfl
@[simp] theorem exec_bar4WinWrite (value t : Nat) (s_ : State) : exec (.bar4WinWrite value t) s_ = execBar4WinWrite value t s_ := rfl
@[simp] theorem exec_bar4Write (off : Nat) (bytes : List Byte) (t : Nat) (s_ : State) : exec (.bar4Write off bytes t) s_ = execBar4Write off bytes t s_ := rfl

end Sys2Proof.Machine
end

