-- ==== Sys2Proof/Laws/Ops.lean ====
section
/-!
SUPPORT. Laws/Ops.lean: what some composite operations do, said once.
-/
namespace Sys2Proof.Machine
open Sys2Proof

/-- Writing consecutive registers changes nothing but registers. -/
theorem Otu.writeWords_regs : ∀ (n a : Nat) (l : List Byte) (o : Otu),
    o.writeWords a l n = { o with regs := (o.writeWords a l n).regs } := by
  intro n
  induction n with
  | zero => intros; rfl
  | succ n ih => intro a l o; unfold Otu.writeWords; rw [ih]; rfl

theorem Otu.writeWords_gchSeq (n a : Nat) (l : List Byte) (o : Otu) : (o.writeWords a l n).gchSeq = o.gchSeq := by
  rw [Otu.writeWords_regs]

theorem Otu.gchStore_gchSeq (o : Otu) (t : Nat) (b : List Byte) : (o.gchStore t b).gchSeq = (o.gchSeq + 1) % 2 ^ 32 := by
  unfold Otu.gchStore
  simp only [OtuR.set_gchSeq]
  rw [Otu.writeWords_gchSeq]

theorem Otu.gchStore_lastSeq (o : Otu) (t : Nat) (b : List Byte) :
    OtuR.get (o.gchStore t b) OTU_GCH_LAST_SEQ = o.gchSeq % 2 ^ 64 := by
  unfold Otu.gchStore
  rw [OtuR.get_set_same]

@[simp] theorem Otu.queue_setQueue (o : Otu) (q : Nat) (x : QSt) : (o.setQueue q x).queue q = x := Tbl.get_put_same _ _ _ _
theorem Otu.queue_setQueue_ne (o : Otu) {q k : Nat} (x : QSt) (h : q ≠ k) : (o.setQueue q x).queue k = o.queue k :=
  Tbl.get_put_ne _ _ _ h

/-- A fold of sends or of lost records leaves the queues alone. -/
theorem Otu.sendSamples_queues (o : Otu) (inst a : Nat) (rs : List (Nat × List Byte)) :
    (o.sendSamples inst a rs).1.queues = o.queues ∧ (o.sendSamples inst a rs).1.qsLast = o.qsLast := by
  have f1 : ∀ (l : List (Nat × List Byte)) (o : Otu),
      (l.foldl (fun o r => o.jobLoss r.1) o).queues = o.queues ∧ (l.foldl (fun o r => o.jobLoss r.1) o).qsLast = o.qsLast := by
    intro l
    induction l with
    | nil => intro o; exact ⟨rfl, rfl⟩
    | cons x r ih => intro o; simp only [List.foldl_cons]; exact ih _
  have f2 : ∀ (l : List (Nat × List Byte)) (o : Otu),
      (l.foldl (fun o r => o.send 4 inst 0x05 r.1 r.2) o).queues = o.queues ∧
      (l.foldl (fun o r => o.send 4 inst 0x05 r.1 r.2) o).qsLast = o.qsLast := by
    intro l
    induction l with
    | nil => intro o; exact ⟨rfl, rfl⟩
    | cons x r ih =>
      intro o
      simp only [List.foldl_cons]
      obtain ⟨h1, h2⟩ := ih (o.send 4 inst 0x05 x.1 x.2)
      exact ⟨h1, h2⟩
  simp only [Otu.sendSamples]
  split
  · obtain ⟨h1, h2⟩ := f1 rs (OtuR.cnt o OTU_QS_LOST 0 32 1)
    exact ⟨h1, h2⟩
  · obtain ⟨h1, h2⟩ := f2 rs (OtuR.set o a ((OtuR.get o a + rs.length) % 2 ^ 32))
    exact ⟨h1, h2⟩

theorem Otu.sampledFold (l : List Nat) (t : Nat) : ∀ (o : Otu) (k : Nat), o.lt = t →
    (l.foldl (fun o q => o.setQueue q ((o.queue q).sampled o.lt)) o).queue k = if k ∈ l then (o.queue k).sampled t else o.queue k := by
  induction l with
  | nil => intro o k _; simp
  | cons x r ih =>
    intro o k ht
    rw [List.foldl_cons, ih (o.setQueue x ((o.queue x).sampled o.lt)) k ht]
    by_cases e : k = x
    · subst e; subst ht
      simp [QSt.sampled]
    · rw [Otu.queue_setQueue_ne _ _ (Ne.symm e)]; simp [e]

/-- No queue's next sample is due. -/
theorem Otu.sampleDie_none (o : Otu) (h : ∀ x ∈ o.sampleTimes, o.due x.2 = false) : o.sampleDie = o := by
  unfold Otu.sampleDie
  generalize o.sampleTimes = ts at *
  dsimp only
  cases e : (ts.map (·.2)).min? with
  | none => rfl
  | some t =>
    obtain ⟨x, hx, rfl⟩ := List.mem_map.mp (List.min?_mem e)
    simp only [h x hx, Bool.not_false, if_true]

/-- What a sample of the die queues leaves in the queues: those whose next instant is the earliest, which is due, begin afresh. -/
theorem Otu.sampleDie_all (o : Otu) (t : Nat) (h : (o.sampleTimes.map (·.2)).min? = some t) (hd : o.due t = true) :
    o.sampleDie.qsLast = t ∧ ∀ k, o.sampleDie.queue k = if (k, t) ∈ o.sampleTimes then (o.queue k).sampled o.lt else o.queue k := by
  have key (ts : List (Nat × Nat)) (k : Nat) : k ∈ (ts.filter (·.2 == t)).map (·.1) ↔ (k, t) ∈ ts := by simp
  unfold Otu.sampleDie
  generalize o.sampleTimes = ts at *
  have fq := Otu.sampledFold ((ts.filter (·.2 == t)).map (·.1)) o.lt o
  simp only [key, forall_const] at fq
  simp only [h, hd, Bool.not_true, Bool.false_eq_true, if_false]
  generalize List.foldl (fun (o : Otu) q => o.setQueue q ((o.queue q).sampled o.lt)) o _ = X at *
  generalize qsRecords _ _ _ _ _ _ _ = rs
  have sent (Y : Otu) : (Y.sendSamples 0 OTU_QS_SEQ rs).1.qsLast = Y.qsLast ∧
      ∀ k, (Y.sendSamples 0 OTU_QS_SEQ rs).1.queue k = Y.queue k := by
    obtain ⟨a, b⟩ := Otu.sendSamples_queues Y 0 OTU_QS_SEQ rs
    exact ⟨b, fun k => by simp only [Otu.queue, a]⟩
  split
  · exact ⟨(sent _).1, fun k => ((sent _).2 k).trans (fq k)⟩
  · exact ⟨rfl, fq⟩

@[simp] theorem Otu.silSt_setSil (o : Otu) (k : Nat) (x : SilSt) : (o.setSil k x).silSt k = x := Tbl.get_put_same _ _ _ _
theorem Otu.silSt_setSil_ne (o : Otu) {k j : Nat} (x : SilSt) (h : k ≠ j) : (o.setSil k x).silSt j = o.silSt j :=
  Tbl.get_put_ne _ _ _ h
@[simp] theorem Otu.seqSt_setSeq (o : Otu) (k : Nat) (x : SilSeq) : (o.setSeq k x).seqSt k = x := Tbl.get_put_same _ _ _ _
theorem Otu.seqSt_setSeq_ne (o : Otu) {k j : Nat} (x : SilSeq) (h : k ≠ j) : (o.setSeq k x).seqSt j = o.seqSt j :=
  Tbl.get_put_ne _ _ _ h

end Sys2Proof.Machine
end

