-- ==== Sys2Proof/Laws/Job.lean ====
section
/-!
SUPPORT. Laws/Job.lean: what the steps of a job's start and end at the die change.
-/
namespace Sys2Proof.Machine
open Sys2Proof

/-- A fold of steps each of which sets registers alone sets registers alone. -/
theorem Otu.foldl_regs {α : Type} (f : Otu → α → Otu) (h : ∀ o a, f o a = { o with regs := (f o a).regs }) (l : List α) :
    ∀ o : Otu, l.foldl f o = { o with regs := (l.foldl f o).regs } := by
  induction l with
  | nil => intro o; rfl
  | cons x r ih => intro o; rw [List.foldl_cons, ih, h o x]

/-- A clock write changes registers alone, or the recorder with them when it is refused late. -/
theorem Otu.changeTWrite_all (o : Otu) (v : Nat) :
    o.changeTWrite v = { o with evr := (o.changeTWrite v).evr, cyc := (o.changeTWrite v).cyc, regs := (o.changeTWrite v).regs } := by
  unfold Otu.changeTWrite
  generalize changeOk _ _ _ = c
  cases c
  case true => rfl
  case false =>
    dsimp only
    generalize Otu.due _ v = d
    cases d
    · rfl
    · simp only [Bool.false_eq_true, if_false, if_true, Otu.actionLate]
      rw [Otu.event_all]; rfl

/-- Taking a gate list changes registers alone, or the recorder with them. -/
theorem Otu.gatesIn_all (o : Otu) (w : GateWin) (t : Nat) : (o.gatesIn w t).1 =
    { o with evr := (o.gatesIn w t).1.evr, cyc := (o.gatesIn w t).1.cyc, regs := (o.gatesIn w t).1.regs } := by
  unfold Otu.gatesIn
  split
  · rfl
  · dsimp only
    rw [Otu.changeTWrite_all, Otu.foldl_regs _ (fun _ _ => rfl)]
    rfl

/-- A job's digests open: only they and their registers change. -/
theorem Otu.digestStart_all (o : Otu) (imgs : List ProgImage) (ucs : List Microcode) :
    ∃ r, o.digestStart imgs ucs = { o with weights := [], hashing := [], inputs := [], inputOvf := false, regs := r } := by
  unfold Otu.digestStart Otu.showWeights
  dsimp only
  obtain ⟨x, hx⟩ : ∃ x, x = { o with weights := [], hashing := [], inputs := [], inputOvf := false } := ⟨_, rfl⟩
  obtain ⟨r, h⟩ : ∃ r, (List.range 64).foldl (fun o f => o.setFp f 0 0) x = { x with regs := r } :=
    ⟨_, Otu.foldl_regs _ (fun _ _ => rfl) _ x⟩
  rw [← hx, h]
  generalize le 32 (blake3 _) = l
  obtain ⟨r, h⟩ : ∃ q, ({ x with regs := r } : Otu).writeWords OTU_DIG_PROGRAM l 4 = { x with regs := q } :=
    ⟨_, Otu.writeWords_regs _ _ _ _⟩
  rw [h]
  generalize le 32 _ = m
  refine ⟨(({ x with regs := r } : Otu).writeWords OTU_DIG_WEIGHTS m 4).regs, (Otu.writeWords_regs _ _ _ _).trans ?_⟩
  subst hx
  rfl

/-- Clearing a tenant window changes its page registers, what reads of this cycle see of them, and the mark of its buffer. -/
theorem Otu.clearWindow_all (o : Otu) (w : Nat) : o.clearWindow w =
    { o with winGone := (o.clearWindow w).winGone, pageOld := (o.clearWindow w).pageOld, regs := (o.clearWindow w).regs } := rfl

end Sys2Proof.Machine
end

