-- ==== Sys2Proof/Laws/Splice.lean ====
section
/-!
SUPPORT. Laws/Splice.lean: a splice of a byte memory (the write of a whole block of bytes): what each byte reads as after it,
and that it keeps the canonical form.
-/
namespace Sys2Proof.Machine
open Sys2Proof

variable {α : Type}

theorem Tbl.get_append (d : Nat → α) (t u : List (Nat × α)) (k : Nat) :
    Tbl.get d (t ++ u) k = if t.any (·.1 == k) then Tbl.get d t k else Tbl.get d u k := by
  induction t with
  | nil => simp
  | cons e r ih =>
    simp only [List.cons_append, Tbl.get, List.any_cons]
    by_cases h : e.1 = k
    · simp [h]
    · have hb : (e.1 == k) = false := by simpa using h
      simp only [h, if_false, ih, hb, Bool.false_or]

theorem Tbl.get_filter (d : Nat → α) (p : Nat → Bool) (t : List (Nat × α)) (k : Nat) :
    Tbl.get d (t.filter fun x => p x.1) k = if p k then Tbl.get d t k else d k := by
  induction t with
  | nil => simp [Tbl.get]
  | cons e r ih =>
    by_cases h : p e.1 = true
    · simp only [List.filter_cons, h, if_true, Tbl.get, ih]
      split <;> simp_all
    · have hf : p e.1 = false := by simpa using h
      simp only [List.filter_cons, hf, Tbl.get]
      rw [if_neg (by simp), ih]
      by_cases hk : e.1 = k
      · subst hk; simp [hf]
      · simp [hk]

theorem Tbl.get_absent (d : Nat → α) (t : List (Nat × α)) (k : Nat) (h : t.any (·.1 == k) = false) : Tbl.get d t k = d k := by
  induction t with
  | nil => rfl
  | cons e r ih =>
    simp only [List.any_cons, Bool.or_eq_false_iff, beq_eq_false_iff_ne] at h
    simp [Tbl.get, h.1, ih h.2]

theorem Tbl.sortedFrom_filter (p : Nat × α → Bool) (t : List (Nat × α)) {lo : Nat} (h : Tbl.sortedFrom lo t) :
    Tbl.sortedFrom lo (t.filter p) := by
  induction t generalizing lo with
  | nil => rfl
  | cons e r ih =>
    simp only [Tbl.sortedFrom, Bool.and_eq_true, decide_eq_true_eq] at h
    simp only [List.filter_cons]
    split
    · simp only [Tbl.sortedFrom, Bool.and_eq_true, decide_eq_true_eq]
      exact ⟨h.1, ih h.2⟩
    · exact Tbl.sortedFrom_mono _ (ih h.2) (by omega)

/-- Two sorted tables, the second wholly above the first. -/
theorem Tbl.sortedFrom_append (t u : List (Nat × α)) {lo mid : Nat} (h : Tbl.sortedFrom lo t) (ht : ∀ x ∈ t, x.1 < mid)
    (hu : Tbl.sortedFrom mid u) (hl : lo ≤ mid) : Tbl.sortedFrom lo (t ++ u) := by
  induction t generalizing lo with
  | nil => exact Tbl.sortedFrom_mono u hu hl
  | cons e r ih =>
    simp only [Tbl.sortedFrom, Bool.and_eq_true, decide_eq_true_eq] at h
    simp only [List.cons_append, Tbl.sortedFrom, Bool.and_eq_true, decide_eq_true_eq]
    exact ⟨h.1, ih h.2 (fun x hx => ht x (List.mem_cons_of_mem _ hx)) (ht e (List.mem_cons_self ..))⟩

theorem Tbl.sortedFrom_ge (t : List (Nat × α)) {lo hi : Nat} (h : Tbl.sortedFrom lo t) (ht : ∀ x ∈ t, hi ≤ x.1) :
    Tbl.sortedFrom hi t := by
  cases t with
  | nil => rfl
  | cons e r =>
    simp only [Tbl.sortedFrom, Bool.and_eq_true, decide_eq_true_eq] at h ⊢
    exact ⟨ht e (List.mem_cons_self ..), h.2⟩

/-- The cells of one chunk of bytes. -/
def Mem.run (a : Nat) (l : List Byte) : Mem := Mem.cells a [(0, l)]

theorem Mem.run_cons (a : Nat) (b : Byte) (l : List Byte) : Mem.run a (b :: l) = (if b = 0 then [] else [(a, b)]) ++ Mem.run (a + 1) l := by
  have h : ∀ (n : Nat) (l : List Byte), ((l.zipIdx (n + 1)).map fun x => (a + 0 + x.2, x.1)) = (l.zipIdx n).map fun x => (a + 1 + 0 + x.2, x.1) := by
    intro n l
    induction l generalizing n with
    | nil => rfl
    | cons c r ih => simp only [List.zipIdx_cons, List.map_cons, ih]; simp; omega
  simp only [Mem.run, Mem.cells, List.flatMap_cons, List.flatMap_nil, List.append_nil, List.zipIdx_cons, List.map_cons, List.filter_cons, h]
  split <;> simp_all

/-- The cells of a chunk lie in it, in order, and none of them is 0. -/
theorem Mem.run_sorted (a : Nat) (l : List Byte) : Tbl.sortedFrom a (Mem.run a l) := by
  induction l generalizing a with
  | nil => rfl
  | cons b r ih =>
    rw [Mem.run_cons]
    split
    · exact Tbl.sortedFrom_mono _ (ih (a + 1)) (by omega)
    · simp [Tbl.sortedFrom, ih]

theorem Mem.run_mem (a : Nat) (l : List Byte) : ∀ x ∈ Mem.run a l, a ≤ x.1 ∧ x.1 < a + l.length ∧ x.2 ≠ 0 := by
  induction l generalizing a with
  | nil => intro x hx; simp [Mem.run, Mem.cells] at hx
  | cons b r ih =>
    intro x hx
    rw [Mem.run_cons, List.mem_append] at hx
    rcases hx with hx | hx
    · split at hx
      · simp at hx
      · simp only [List.mem_singleton] at hx; subst hx; simp_all
    · have := ih (a + 1) x hx
      simp only [List.length_cons]
      exact ⟨by omega, by omega, this.2.2⟩

theorem Mem.byte_run (a : Nat) (l : List Byte) (i : Nat) (h : i < l.length) : Mem.byte (Mem.run a l) (a + i) = l[i] := by
  induction l generalizing a i with
  | nil => simp at h
  | cons b r ih =>
    rw [Mem.run_cons]
    cases i with
    | zero =>
      split
      · subst_vars
        simp only [List.nil_append, Nat.add_zero, List.getElem_cons_zero]
        exact Tbl.get_of_lt _ _ (Mem.run_sorted (a + 1) r) (by omega)
      · simp [Mem.byte, Tbl.get]
    | succ i =>
      have := ih (a + 1) i (by simpa using h)
      split <;> simp_all [Mem.byte, Tbl.get, Nat.add_assoc, Nat.add_comm 1 i]

/-- A splice of one chunk puts its cells between what lies below and above. -/
theorem Mem.splice_run (m : Mem) (a : Nat) (l : List Byte) : m.splice a l.length [(0, l)] =
    m.filter (fun x => decide (x.1 < a)) ++ (Mem.run a l ++ m.filter (fun x => decide (a + l.length ≤ x.1))) := by
  have h1 : Tbl.sortedFrom a (Mem.cells a [(0, l)]) = true := Mem.run_sorted a l
  have h2 : (Mem.cells a [(0, l)]).all (fun x => decide (x.1 < a + l.length)) = true := by
    simp only [List.all_eq_true, decide_eq_true_eq]
    exact fun x hx => (Mem.run_mem a l x hx).2.1
  simp only [Mem.splice, h1, h2, Bool.and_true, if_true, Mem.run, List.append_assoc]

/-- A block write gives each of its bytes. -/
theorem Mem.byte_splice_inside (m : Mem) (a : Nat) (l : List Byte) (i : Nat) (h : i < l.length) :
    (m.splice a l.length [(0, l)]).byte (a + i) = l[i] := by
  have e := Mem.splice_run m a l
  have f1 := Tbl.get_filter Mem.unlisted (fun k => decide (k < a)) m (a + i)
  have n1 : (m.filter (fun x => decide (x.1 < a))).any (·.1 == a + i) = false := by
    simp only [List.any_eq_false, List.mem_filter, decide_eq_true_eq, beq_iff_eq]; intro x hx; omega
  rw [e, Mem.byte, Tbl.get_append, if_neg (by simp [n1]), Tbl.get_append]
  split
  · exact Mem.byte_run a l i h
  · rename_i hn
    have hb := Mem.byte_run a l i h
    have hz := Tbl.get_absent Mem.unlisted (Mem.run a l) (a + i) (Bool.eq_false_iff.mpr hn)
    have n2 : (m.filter (fun x => decide (a + l.length ≤ x.1))).any (·.1 == a + i) = false := by
      simp only [List.any_eq_false, List.mem_filter, decide_eq_true_eq, beq_iff_eq]; intro x hx; omega
    rw [Tbl.get_absent _ _ _ n2, ← hb, Mem.byte, hz]

/-- It leaves every byte outside it alone. -/
theorem Mem.byte_splice_outside (m : Mem) (a : Nat) (l : List Byte) (k : Nat) (h : k < a ∨ a + l.length ≤ k) :
    (m.splice a l.length [(0, l)]).byte k = m.byte k := by
  have e := Mem.splice_run m a l
  have n1 : (Mem.run a l).any (·.1 == k) = false := by
    simp only [List.any_eq_false, beq_iff_eq]; intro x hx; have := Mem.run_mem a l x hx; omega
  have f1 := Tbl.get_filter Mem.unlisted (fun j => decide (j < a)) m k
  have f2 := Tbl.get_filter Mem.unlisted (fun j => decide (a + l.length ≤ j)) m k
  rw [e, Mem.byte, Tbl.get_append, Tbl.get_append, n1, f1, f2]
  by_cases hk : k < a
  · have : ¬ (a + l.length ≤ k) := by omega
    simp only [hk, this, decide_true, decide_false, if_true]
    split
    · rfl
    · rename_i hn
      have := Tbl.get_absent Mem.unlisted (m.filter (fun x => decide (x.1 < a))) k (Bool.eq_false_iff.mpr hn)
      rw [f1] at this
      simp only [hk, decide_true, if_true] at this
      simpa [Mem.byte] using this.symm
  · have h2 : a + l.length ≤ k := by omega
    have : (m.filter (fun x => decide (x.1 < a))).any (·.1 == k) = false := by
      simp only [List.any_eq_false, List.mem_filter, decide_eq_true_eq, beq_iff_eq]; intro x hx; omega
    simp [this, h2, Mem.byte]

/-- Cells that are none of them 0. -/
theorem Mem.cells_ne (a : Nat) (chunks : List (Nat × List Byte)) : ∀ x ∈ Mem.cells a chunks, x.2 ≠ 0 := by
  intro x hx
  simp only [Mem.cells, List.mem_flatMap, List.mem_filter, decide_eq_true_eq] at hx
  obtain ⟨_, _, _, h⟩ := hx
  exact h

/-- Below `a`, cells from `a` to `mid`, and from `mid` on: the canonical form is kept. -/
theorem Mem.wf_between (m : Mem) (a mid : Nat) (c : Mem) (ha : a ≤ mid) (h : m.wf) (hs : Tbl.sortedFrom a c) (hc : ∀ x ∈ c, x.1 < mid)
    (hz : ∀ x ∈ c, x.2 ≠ 0) : Mem.wf (m.filter (fun x => decide (x.1 < a)) ++ (c ++ m.filter (fun x => decide (mid ≤ x.1)))) := by
  simp only [Mem.wf, Tbl.wf, Bool.and_eq_true] at h ⊢
  constructor
  · refine Tbl.sortedFrom_append (mid := a) _ _ (Tbl.sortedFrom_filter _ m h.1) ?_ ?_ (by omega)
    · intro x hx; simpa using (List.mem_filter.mp hx).2
    · refine Tbl.sortedFrom_append (mid := mid) _ _ hs hc ?_ ha
      exact Tbl.sortedFrom_ge _ (Tbl.sortedFrom_filter _ m h.1) (fun x hx => by simpa using (List.mem_filter.mp hx).2)
  · simp only [List.all_append, Bool.and_eq_true, List.all_eq_true, decide_eq_true_eq]
    have hm := h.2
    simp only [List.all_eq_true, decide_eq_true_eq] at hm
    exact ⟨fun x hx => hm x (List.mem_of_mem_filter hx), hz, fun x hx => hm x (List.mem_of_mem_filter hx)⟩

/-- It keeps the canonical form, whatever the chunks. -/
theorem Mem.wf_splice (m : Mem) (a n : Nat) (chunks : List (Nat × List Byte)) (h : m.wf) : (m.splice a n chunks).wf := by
  simp only [Mem.splice]
  split
  · rename_i hc
    simp only [Bool.and_eq_true, List.all_eq_true, decide_eq_true_eq] at hc
    rw [List.append_assoc]
    exact Mem.wf_between m a (a + n) _ (by omega) h hc.1 hc.2 (Mem.cells_ne a chunks)
  · have h0 := Mem.wf_between m a (a + n) [] (by omega) h (by rfl) (by simp) (by simp)
    rw [List.nil_append] at h0
    generalize m.filter (fun x => decide (x.1 < a)) ++ m.filter (fun x => decide (a + n ≤ x.1)) = w at h0
    clear h
    rename_i hn
    clear hn
    induction chunks generalizing w with
    | nil => exact h0
    | cons c r ih =>
      exact ih _ (Mem.wf_write w (a + c.1) c.2 h0)

end Sys2Proof.Machine
end

