-- ==== Sys2Proof/Laws/Time.lean ====
section
/-!
SUPPORT. Laws/Time.lean: all that the operations of the clocks and of the PTP exchange can do (02 R41 to R52).
-/
namespace Sys2Proof.Machine
open Sys2Proof

/-- A second move to an edge at which the OTU already stands changes nothing. -/
@[simp] theorem Otu.go_go (o : Otu) (e : Edge) : (o.go e).go e = o.go e := by
  have h : ¬ max o.lt e.lt < e.lt := by omega
  by_cases k : o.clk.st = 0 <;> simp [Otu.go, h, k]

/-- Losing a selected source gives the selection again. -/
theorem Prd.annCheck_all (o : Prd) :
    o.annCheck = { o with src := o.annCheck.src, regs := o.annCheck.regs, evr := o.annCheck.evr, cyc := o.annCheck.cyc } := by
  unfold Prd.annCheck
  split
  · split
    · exact Prd.bmca_all o
    · rfl
  · rfl

/-- What a Sync does to the clock itself. -/
theorem Prd.ptpBegin_all (o : Prd) :
    o.ptpBegin = { o with clk := o.ptpBegin.clk, ptpRestart := false, regs := o.ptpBegin.regs, evr := o.ptpBegin.evr, cyc := o.ptpBegin.cyc } := by
  unfold Prd.ptpBegin
  dsimp only
  rw [Prd.regrade_all]
  split <;> rfl

end Sys2Proof.Machine
end

