-- ==== Sys2Proof/Tests/Slice0.lean ====
section
/-!
SUPPORT. Tests/Slice0.lean: the smoke test of WellFormed, one step of the spec's worked examples, and for every statement
of Certificates/Slice0/Obligations.lean with premises a state and operands that meet them, clause by clause.
-/
namespace Sys2Proof.Tests
open Sys2Proof Sys2Proof.Machine

set_option maxRecDepth 20000
set_option Elab.async false

/-- The state after reset with the OTU changed. -/
def sO (f : Otu → Otu) : State := { State.reset with otu := f State.reset.otu }

/-- The state after reset with Priord changed. -/
def sP (f : Prd → Prd) : State := { State.reset with prd := f State.reset.prd }

/-- The OTU's clock is locked at fleet time `ft`. -/
def oAt (ft : Nat) (o : Otu) : Otu := { o with clk := { o.clk with st := 2, ft } }

/-- Priord's clock is locked at fleet time `ft`. -/
def pAt (ft : Nat) (p : Prd) : Prd := { p with clk := { p.clk with st := 2, ft } }

/-- The edge used where a test needs one. -/
def ed : Edge := ⟨9, 5⟩

/-! ### Witnesses: the block as a whole, time -/

theorem witness_AnEmptyQueueIdlesOneCycle : (sO (oAt 7)).pending = [] ∧ (sO (oAt 7)).otu.clk.st ≠ 0 ∧
    (sO (oAt 7)).otu.clk.slew = 0 ∧ (sO (oAt 7)).otu.period = 512 ∧ (sO (oAt 7)).otu.clk.sub < 1000000 ∧ State.reset.otu.clk.st = 0 ∧
    State.reset.prd.clk.slew = 0 ∧ State.reset.prd.clk.sub < 1000000 := by decide +kernel

/-- A state with one command in its queue. -/
def sCmd : State := { State.reset with pending := [.ptpIgnoredMessage 0 5] }

theorem witness_EveryStepKeepsTheCanonicalForm : sCmd.canonical ∧ ∃ t, step sCmd = .next t := by
  refine ⟨?_, _, rfl⟩
  unfold State.canonical
  decide

theorem witness_EveryCommandRunsAndKeepsToItsPart : (Instr.unpin 0 ed).part = .otu ∧ (Instr.ringSel 0 5).part = .prd := by decide +kernel

/-- Window 63 bound to job 7, and `n` marks in the FIFO. -/
def oMark (n : Nat) (o : Otu) : Otu := { OtuR.set o (OTU_TW_BIND 63) 0x10007 with marks := List.replicate n {} }

theorem witness_MarksQueueAndLeaveInOrder : (sO (oMark 63)).otu.invalid = false ∧ (sO (oMark 63)).otu.marks.length < 64 ∧
    ((sO (oMark 63)).otu.go ed).winTag 63 = some 7 ∧ (sO (oMark 64)).otu.invalid = false ∧ 64 ≤ (sO (oMark 64)).otu.marks.length ∧
    (sO (oMark 64)).otu.marks = {} :: List.replicate 63 {} ∧ ((sO (oMark 64)).otu.go ed).cyc.mark = none := by decide +kernel

theorem witness_TimeSnapshotsAndLockAges : State.reset.otu.invalid = false ∧ bit 1 0 = true ∧ bit 2 0 = false := by decide +kernel

/-- PTP runs on uplink 3 in domain 0, peer to peer if `p2p`, with the uplink's state as given. -/
def pPtp (p2p : Bool) (x : UlTime) (p : Prd) : Prd :=
  (PrdR.set (PrdR.set p PRD_TIME_PTP_CFG (2 ^ 19 + (if p2p then 2 ^ 23 else 0))) (PRD_UL_STATUS 3) 1).setUlT 3 x

/-- A Sync message of domain 0. -/
def sync0 (two : Bool) : PtpSync := ⟨0, 1, two, ⟨0, 100⟩, 0, 900⟩

/-- A Pdelay_Resp, or its follow-up, to request 8. -/
def presp (follow : Bool) : PdelayResp := ⟨8, follow, true, ⟨0, 300⟩, ⟨0, 400⟩, 0, 900⟩

theorem witness_PtpExchangesMeasureThePath :
    (let p := (sP (pPtp false { sync := some (sync0 true), delay := some 40, have12 := true, reqTx := some (8, 200) })).prd
     p.ptpOn 3 = true ∧ p.ptpP2p 3 = false ∧ (sync0 true).domain = PrdR.fld p PRD_TIME_PTP_CFG 0 7 ∧ (sync0 true).twoStep = true ∧
       (sync0 false).twoStep = false ∧ (p.ulT 3).sync = some (sync0 true) ∧ (p.ulT 3).delay = some 40 ∧ (p.ulT 3).have12 = true ∧
       (p.ulT 3).waiting = false ∧ (p.ulT 3).reqTx = some (8, 200)) ∧
    (let p := (sP (pPtp true { preqTx := some (8, 200) })).prd
     p.ptpOn 3 = true ∧ p.ptpP2p 3 = true ∧ (p.ulT 3).delay = none ∧ (p.ulT 3).preqTx = some (8, 200) ∧ (p.ulT 3).waiting = false ∧
       (presp false).seqId = 8 ∧ (presp false).followUp = false ∧ (presp true).followUp = true) ∧
    ((sP (pPtp true { preqTx := some (8, 200), presp := some (presp false) })).prd.ulT 3).presp = some (presp false) := by decide +kernel

theorem witness_PtpSourceAndFrequencySelection : (sP (pPtp false {})).prd.ptpOn 3 = true ∧
    0 = PrdR.fld (sP (pPtp false {})).prd PRD_TIME_PTP_CFG 0 7 ∧ PrdR.flag (sP fun p => PrdR.set p PRD_TIME_SYNCE_CFG 4).prd PRD_TIME_SYNCE_CFG 3 = false := by decide +kernel

/-- Clocks of both parts in state `st`, the last lock `age` ticks ago. -/
def sAge (st age : Nat) (ever : Bool) : State :=
  { State.reset with otu := { State.reset.otu with clk := { st, ft := age, ever, own := 2 } }
                     prd := { State.reset.prd with clk := { st, ft := age, ever, own := 2 } } }

theorem witness_ClocksLoseTheirReference :
    (let s := sAge 2 4000000000 true
     (s.prd.go 9).clk.lastMeas + getF s.prd.loopCfg 12 4 * s.prd.syncInterval ≤ (s.prd.go 9).clk.ft ∧ s.prd.clk.st = 2 ∧
       s.otu.invalid = false ∧ (s.otu.go ed).clk.lastMeas + 40000 ≤ (s.otu.go ed).clk.ft ∧ s.otu.clk.st = 2) ∧
    (let s := sAge 1 4000000000 true
     s.prd.clk.st = 1 ∧ s.prd.clk.ever = true ∧ s.otu.clk.own = 2 ∧ 4000000000 ≤ (s.otu.go ed).clk.ft - s.otu.clk.lastLocked ∧
       4000000000 ≤ (s.prd.go 9).clk.ft - s.prd.clk.lastLocked) ∧
    (let s := sAge 1 4000000000 false
     (s.prd.go 9).clk.lastMeas + getF s.prd.loopCfg 12 4 * s.prd.syncInterval ≤ (s.prd.go 9).clk.ft ∧ s.prd.clk.st = 1 ∧
       s.prd.clk.ever = false ∧ s.otu.clk.st = 1 ∧ s.otu.clk.ever = false ∧ (s.otu.go ed).clk.lastMeas + 40000 ≤ (s.otu.go ed).clk.ft) := by decide +kernel

/-- The OTU's link is up, it has sent time words 0 and 1, and its clock is in state `st`. -/
def oTw (st : Nat) (o : Otu) : Otu := { o with
  clk := { o.clk with st }
  jobs := [{ tag := 7, open_ := true }]
  link := { o.link with st := 2, tw := { seq := 2, sent := [⟨1, 50, some (10, 20)⟩, ⟨0, 40, none⟩], rxSeq := some 4, rxOk := true } } }

/-- A valid time word that echoes word `q`. -/
def tw (q : Nat) : TimeWord := { grade := 4, ftValid := true, echoValid := true, echoSeq := q }

/-- An IDLE flit with a time word, received without symbol errors. -/
def twFlit (w : TimeWord) : FlitRx := ⟨flitBytes 0 0 0 0 0 31 w.bytes, []⟩

theorem twFlit_checks : (∀ q < 3, (sO (oTw 1)).otu.link.checks (twFlit (tw q)) = true ∧ flitType (twFlit (tw q)).bytes 0 = true ∧
    isTimeWord (((twFlit (tw q)).bytes.drop 8).take 32) = true ∧ TimeWord.ofBytes (((twFlit (tw q)).bytes.drop 8).take 32) = tw q) := by decide +kernel

theorem witness_TimeWordsCarryAndMeasure : (∀ st < 2, (sO (oTw st)).otu.invalid = false ∧ (sO (oTw st)).otu.link.st = 2 ∧ (sO (oTw st)).otu.clk.st = st ∧
      (sO (oTw st)).otu.link.tw.rxSeq = some 4 ∧ (sO (oTw st)).otu.link.tw.rxOk = true ∧ (sO (oTw st)).otu.openJob.isSome = true) ∧
    (sO (oTw 1)).otu.link.checks (twFlit (tw 2)) = true ∧ (sO (oTw 1)).otu.link.checks (twFlit (tw 1)) = true ∧
    (sO (oTw 1)).otu.link.tw.seqError (tw 2) = true ∧ (sO (oTw 1)).otu.link.tw.seqError (tw 1) = false ∧ (sO (oTw 1)).otu.link.tw.seqError {} = false ∧
    (sO (oTw 1)).otu.link.tw.echoed (tw 1) = some ⟨1, 50, some (10, 20)⟩ ∧ (sO (oTw 1)).otu.link.tw.echoed {} = none ∧ State.reset.otu.link.st ≠ 2 ∧
    State.reset.otu.link.checks ⟨[], []⟩ = false ∧ (tw 1).ftValid = true ∧ ({} : TimeWord).ftValid = false ∧ (State.reset.prd.port 31).link.st ≠ 2 ∧
    (let p := (sP fun p => { p with dp := [(31, { link := { st := 2 } })], tw := [(31, { seq := 2 })] }).prd
     (p.port 31).link.st = 2 ∧ (p.port 31).link.checks (twFlit (tw 1)) = true ∧ (p.twEnd 31).seqError (tw 2) = true ∧ (p.twEnd 31).seqError (tw 1) = false) := by decide +kernel

/-! ### Witnesses: accords, engines, queues -/

/-- A cut at 4,000,000 is due, with the shadow sets as given. -/
def oCut (a b : Option Shadow) (o : Otu) : Otu := oAt 4000000 { OtuR.set o OTU_ACC_CTRL 7 with acc := { o.acc with nextT := 4000000, a, b } }

theorem witness_RegularCutTakesOneShadowSet :
    (let s := sO (oCut none none)
     s.otu.invalid = false ∧ OtuR.flag s.otu OTU_ACC_CTRL 0 = true ∧ (s.otu.go ed).due 4000000 = true ∧ s.otu.acc.nextT = 4000000 ∧
       OtuR.get s.otu OTU_ACC_SWITCH_T ≠ 4000000 ∧ s.otu.acc.stepped = false ∧ (s.otu.go ed).settleMarks.due 4000000 = true ∧ s.otu.acc.freeSet = some false) ∧
    (let s := sO (oCut (some {}) (some {}))
     s.otu.acc.freeSet = none ∧ (s.otu.go ed).due 4000000 = true ∧ OtuR.get s.otu OTU_ACC_SWITCH_T ≠ 4000000 ∧ (0, 0) ∈ (s.otu.go ed).contexts) ∧
    (let s := sO (fun o => OtuR.set (oCut none none o) OTU_ACC_SWITCH_T 4000000)
     OtuR.get s.otu OTU_ACC_SWITCH_T = 4000000 ∧ s.otu.acc.freeSet = some false ∧ s.otu.acc.stepped = false ∧ (s.otu.go ed).settleMarks.due 4000000 = true) ∧
    (let s := sO (fun o => OtuR.set (oAt 3999990 o) OTU_ACC_SWITCH_T 4000000)
     (s.otu.go ed).due 4000000 = false ∧ OtuR.get s.otu OTU_ACC_SWITCH_T = 4000000 ∧ (s.otu.go ed).due s.otu.acc.nextT = false) ∧
    OtuR.flag (sO (fun o => OtuR.set (OtuR.set (oCut none none o) OTU_ACC_SWITCH_T 4000000) OTU_ACC_CTRL 0)).otu OTU_ACC_CTRL 0 = false := by decide +kernel

/-- One shadow set in use. -/
def oShadow (x : Shadow) (o : Otu) : Otu := oCut (some x) none o

theorem witness_ASlotIsSealedThenDumpedAndFreed :
    (let s := sO (oShadow { lt := 5 })
     s.otu.invalid = false ∧ s.otu.acc.oldest (fun x => !x.sealed) = some (false, { lt := 5 }) ∧ (s.otu.go ⟨0, 204⟩).lt < 5 + 200 ∧
       5 + 200 ≤ (s.otu.go ⟨0, 205⟩).lt ∧ OtuR.flag s.otu OTU_ACC_CTRL 1 = true ∧
       nextSlot s.otu.acc.pins (OtuR.get s.otu OTU_ACC_DUMP_SLOTS) (min (OtuR.get s.otu OTU_ACC_DUMP_SLOTS) 8) s.otu.acc.slotNext = some 0) ∧
    OtuR.flag (sO (fun o => OtuR.set o OTU_ACC_CTRL 0)).otu OTU_ACC_CTRL 1 = false ∧
    (let s := sO (oShadow { sealed := true, stream := false, slot := some 3 })
     s.otu.acc.oldest (·.sealed) = some (false, { sealed := true, stream := false, slot := some 3 }) ∧ s.otu.acc.hangPending = [] ∧ ({} : Shadow).kind = 0 ∧
       ({} : Shadow).marks.length ≤ 16) ∧
    (let s := sO (oShadow { sealed := true, ctxs := [(0, 6)] })
     s.otu.acc.oldest (·.sealed) = some (false, { sealed := true, ctxs := [(0, 6)] }) ∧ ({} : Shadow).stream = true ∧ ({} : Shadow).slot = none) ∧
    (let s := sO (fun o => { oCut none none (OtuR.set o OTU_ACC_FAST_CTRL 3) with acc := { o.acc with fastNextT := 4000000 } })
     OtuR.flag s.otu OTU_ACC_FAST_CTRL 0 = true ∧ (s.otu.go ed).due s.otu.acc.fastNextT = true) ∧
    OtuR.flag State.reset.otu OTU_ACC_FAST_CTRL 0 = false ∧ State.reset.otu.acc.pins.any (·.2 == getF 9 0 16) = false ∧
    (sO (fun o => { o with acc := { o.acc with pins := [(0, 9)] } })).otu.acc.pins.any (·.2 == getF 9 0 16) = true := by decide +kernel

theorem witness_AccordControlsAndStepMarks :
    (let s := sO (oAt 9)
     s.otu.invalid = false ∧ s.otu.clk.st ≠ 0 ∧ (s.otu.go ed).clk.ft < 4000000 ∧ 4000000 % (s.otu.acc.interval * 400000) = 0 ∧
       4000000 % (OtuR.fld s.otu OTU_ACC_SWITCH_INTERVAL 0 14 * 400000) = 0 ∧ OtuR.flag s.otu OTU_ACC_FAST_CTRL 0 = false) ∧
    State.reset.otu.clk.st = 0 ∧ bit 0x3FFFF 0 = true ∧ 1 ≤ getF (1 + 2 * 100000) 1 17 ∧ getF (1 + 2 * 100000) 1 17 ≤ 100000 ∧
    fastDivides 100000 State.reset.otu.acc.interval = false ∧ bit 0 0 = false ∧ getF 16639 0 15 ≤ 16639 ∧
    State.reset.otu.acc.oldest (fun y => y.kind == 0 && !y.sealed && decide ((State.reset.otu.go ed).lt ≤ y.lt)) = none := by decide +kernel


/-- A record of accord 10 of the fleet context that follows accord 9, as rank 1 sends it when nothing has changed. -/
def sameBody : List Byte := AccHdr_bytes { no := 10, tCut := 4000000, rank := 1, interval := 10, prevNo := 9 }

/-- Accord 10 of the fleet context is open for the dies on ports 1 and 2 of tray 0. -/
def aFleet : AccNode := { no := 10, t := 4000000, expected := [1, 2] }

/-- All die ports are populated and have a fallback path, and Priord is locked at `ft`. -/
def pAll (ft : Nat) (p : Prd) : Prd := pAt ft { p with cfg := { p.cfg with ports := (List.range 32).map fun n => (n, 5) } }

theorem witness_TrayClosureTakesRecordsAndGaps :
    (let g := (sP (pAll 4000000)).prd.go 0
     g.gapRuns = [] ∧ (∀ n < 32, g.standing n = none) ∧ g.openSlots (g.ft / 40000 * 40000) = [0] ∧
       g.expectedAt 0 (g.ft / 40000 * 40000) ≠ [] ∧ g.blocksAt 0 0 ≠ [] ∧ g.acc? 0 1 (g.ft / 40000) 0 = none) ∧
    (let s := sP fun p => { pAll 4000000 p with accNext := 4000000 }
     let g := s.prd.go 0
     let h := g.takeEffect 4000000
     s.prd.accInt ≠ 0 ∧ s.prd.accSwitch = none ∧ s.prd.accNext ≤ g.ft ∧ g.ft < s.prd.accNext + s.prd.accInt * 400000 ∧ g.gapRuns = [] ∧
       (∀ n < 32, g.standing n = none) ∧ (∀ l ∈ [1, 2, 3], h.holds h.tree.roles l = false) ∧ h.openSlots s.prd.accNext = [0] ∧
       h.expectedAt 0 s.prd.accNext ≠ [] ∧ ∀ l ∈ [0, 1, 2, 3], g.acc? 0 0 (s.prd.accNext / 400000) l = none) ∧
    (let g := (sP fun p => { pAll 4000000 p with accs := [aFleet], refs := [{ rank := 1, no := 9 }] }).prd.go 0
     let b := sameBody
     g.awayHome (.port 1) 0 1 = none ∧ accHdrOk b = true ∧ (accHdrOf b).kind = 0 ∧ bit (accHdrOf b).flags 6 = false ∧ (g.accRef 0 1 0).no = (accHdrOf b).prevNo ∧ (g.accRef 0 1 0).no ≠ absent ∧
       (decodeAccord (g.accRef 0 1 0).image b).isSome = true ∧ g.acc? 0 0 (accHdrOf b).no 0 = some aFleet ∧ g.takes aFleet 1 = true ∧
       2 ∈ aFleet.expected ∧ 2 ≠ 1 ∧ aFleet.has 2 = false ∧ aFleet.gapped 2 = false ∧ accHdrRead [] = false ∧ (g.accRef 0 1 0).stepped = none) ∧
    (let g := (sP fun p => { PrdR.set (pAll 4000000 p) PRD_NOSE_CTX_EN 0 with accs := [aFleet] }).prd.go 0
     let x : GapRec := { no := 10, rank := 1, reason := 8 }
     g.awayHome (.fwd 3) x.tag x.rank = none ∧ x.count = 1 ∧ g.accs.filter (g.gapCovers x) = [aFleet] ∧
       g.acc? aFleet.tag aFleet.kind aFleet.no 0 = some aFleet ∧ aFleet.st = 0 ∧ x.rank ∈ aFleet.expected ∧ aFleet.has x.rank = false ∧
       aFleet.gapped x.rank = false ∧ g.ft < aFleet.t + g.deadline 0 ∧ g.accs.filter (g.gapCovers { x with no := 11 }) = [] ∧
       aFleet.missing ≠ [] ∧ (g.slotOf 0).isSome = true ∧ g.nose.model = none ∧ bit (PrdR.get g PRD_NOSE_CTX_EN) 0 = false) ∧
    (let g := (sP fun p => { pAll 9000000 p with accs := [aFleet] }).prd.go 0
     aFleet.t + g.deadline 0 ≤ g.ft ∧ g.acc? 0 0 10 0 = some aFleet) := by decide +kernel

theorem witness_TrayClosureTakesRecordsAndGaps_gaps :
    (let g := (sP fun p => { PrdR.set (pAll 4000000 p) PRD_NOSE_CTX_EN 0 with accs := [aFleet] }).prd.go 0
     let x : GapRec := { no := 10, rank := 1, reason := 8 }
     x.ok = true ∧ ({ x with reason := 9 } : GapRec).ok = false ∧ 2 ∈ aFleet.expected ∧ aFleet.has 2 = false ∧ aFleet.gapped 2 = false ∧
       aFleet.missing.all (fun r => (g.accRef 0 r 0).stepped.isNone) = true) := by decide +kernel

theorem witness_EngineCommandsAndCounterWrites :
    (let s := sO (oAt 9)
     let g := s.otu.go ed
     s.otu.invalid = false ∧ (s.otu.eng 511).startAt ≠ g.lt ∧ g.evselOk true 511 7 (s.otu.eng 511).tag 0x0000_0010_0000_000D = false ∧
       g.evselOk true 511 7 (s.otu.eng 511).tag 0x0000_0010_0000_0000 = true ∧ engKind 511 = 6 ∧ (sO fun o => OtuR.set o OTU_SIL_CTRL 0).otu.silOn (2 * (511 / 16) + (511 % 16 - 14)) = false ∧
       engKind 0 ≠ 6 ∧ (s.otu.eng 511).st.inForce g.lt = 0 ∧ (s.otu.eng 511).pmcAt ≠ g.lt ∧ engKind 9 = 3 ∧ (s.otu.eng 9).tag = 0 ∧
       0 < ({ order := [0] } : BucketRun).order.length ∧ ({ order := [0] } : BucketRun).order.length < 65536 ∧ s.otu.clk.st ≠ 0 ∧ bit (reasonMask (engKind 511)) 0 = true) ∧
    (let g := (sO fun o => OtuR.set o (OTU_TW_BIND 63) 0x10007).otu.go ed
     (sO fun o => o.setEng 0 { tag := 7 }).otu.eng 0 = { tag := 7 } ∧ g.winTag 63 = some 7) := by decide +kernel

/-- A cycle with one retired slot. -/
def cyc : EngCycle := { slots := [{ work := some .kept }] }

theorem witness_CyclesSnapshotsAndChannelSamples :
    (let s := sO (fun o => oAt 40000 { (OtuR.set (OtuR.set o (OTU_TW_BIND 63) 0x10007) OTU_GCH_CTRL 0x815).setEng 511 { st := ⟨2, 2, 0⟩ } with gchNext := 40000 })
     let g := s.otu.go ed
     s.otu.invalid = false ∧ (s.otu.eng 511).st.inForce g.lt ≠ 0 ∧ (s.otu.eng 510).st.inForce g.lt = 0 ∧ (s.otu.eng 510).canary = none ∧
       getF 511 0 9 = 511 ∧ g.winTag 63 = some 7 ∧ (s.otu.eng (getF 511 0 9)).tag ≠ 7 ∧ OtuR.flag s.otu OTU_GCH_CTRL 0 = true ∧
       g.due s.otu.gchNext = true ∧ OtuR.flag s.otu OTU_GCH_CTRL 11 = true ∧ (s.otu.eng 510).startAt ≠ g.lt ∧ (s.otu.eng 510).pmcAt ≠ g.lt ∧
       (s.otu.eng 510).xAt ≠ g.lt ∧ (s.otu.eng 510).occupied g.lt = false ∧ (g.cycleSlots 510 cyc).activity = 0 ∧ (g.cycleSlots 510 { slots := [] }).activity = 2 ∧
       (g.settleWindow 63).winTag 63 = some 7) ∧
    (let h := ((sO fun o => (OtuR.set o (OTU_TW_BIND 63) 0x10007).setEng 511 { tag := 7 }).otu.go ed).settleWindow 63
     h.winTag 63 = some (h.eng (getF 511 0 9)).tag) ∧
    OtuR.flag (sO fun o => OtuR.set o OTU_GCH_CTRL 1).otu OTU_GCH_CTRL 11 = false ∧ OtuR.flag (sO fun o => OtuR.set o OTU_GCH_CTRL 0).otu OTU_GCH_CTRL 0 = false := by decide +kernel

/-- Queue 4095 holds one entry of job 7 and is sampled every 10 µs; fleet time is 40,000, and no sample has been taken. -/
def oQueue (o : Otu) : Otu := oAt 40000 (OtuR.set (o.setQueue 4095 { depth := 1, owner := 7 }) (OTU_Q_CFG 4095) 3)

/-- No queue is sampled before fleet time 40,000, where no sample has been taken. -/
theorem sampleTimes_least (o : Otu) (h : o.qsLast = 0) (k : o.qOld = []) : ∀ y ∈ o.sampleTimes, 40000 ≤ y.2 := by
  intro y hy
  obtain ⟨q, -, rfl⟩ := List.mem_map.1 hy
  simp only [Otu.nextSampleOf, k, List.lookup, h, nextMultiple]
  split
  · decide
  · rw [Nat.zero_div]; omega

theorem sampleTimes_4095 : (4095, 40000) ∈ ((sO oQueue).otu.go ed).sampleTimes :=
  List.mem_map.2 ⟨4095, List.mem_filter.2 ⟨List.mem_range.2 (by decide), by decide +kernel⟩, by decide +kernel⟩

theorem sampleTimes_not_due : ∀ y ∈ (State.reset.otu.go ed).sampleTimes, (State.reset.otu.go ed).due y.2 = false :=
  fun _ _ => rfl

theorem queues_state :
    (let s := sO oQueue
     s.otu.invalid = false ∧ 0 < (s.otu.queue 4095).depth ∧ (s.otu.queue 4094).depth = 0 ∧ (s.otu.go ed).due 40000 = true ∧
       (s.otu.go ed).qsLast = 0 ∧ (s.otu.go ed).qOld = []) := by decide +kernel

theorem witness_QueuesFollowTheirEntries :
    (let g := (sO oQueue).otu.go ed
     (sO oQueue).otu.invalid = false ∧ (4095, 40000) ∈ g.sampleTimes ∧ g.due 40000 = true ∧ ∀ y ∈ g.sampleTimes, 40000 ≤ y.2) ∧
    ∀ y ∈ (State.reset.otu.go ed).sampleTimes, (State.reset.otu.go ed).due y.2 = false :=
  ⟨⟨queues_state.1, sampleTimes_4095, queues_state.2.2.2.1, sampleTimes_least _ queues_state.2.2.2.2.1 queues_state.2.2.2.2.2⟩, sampleTimes_not_due⟩

/-- Engine 511 has waited since cycle `lt`. -/
def oWait (lt : Nat) (o : Otu) : Otu := oAt 80000 { o with waits := [(511, { lt, tag := 7 })], lt := 9000000 }

theorem witness_WaitsOpenAndClose :
    (let s := sO (fun o => OtuR.set (oAt 9 o) OTU_SYNC_CTRL 0x640021)
     s.otu.invalid = false ∧ OtuR.flag s.otu OTU_SYNC_CTRL 0 = true ∧ s.otu.waits.lookup 511 = none) ∧
    (let s := sO (oWait 8999999)
     s.otu.waits.lookup 511 = some { lt := 8999999, tag := 7 } ∧ (s.otu.go ed).lt - 8999999 < 2 * OtuR.fld s.otu OTU_SYNC_CTRL 1 8 ∧
       (s.otu.go ed).lt - 8999999 < 2000 * OtuR.fld s.otu OTU_SYNC_CTRL 16 10 ∧ engKind 0 ≠ 6 ∧
       (sO fun o => { o with waits := [(0, { reported := true })] }).otu.waits.lookup 0 = some { reported := true }) ∧
    (let s := sO (oWait 0)
     s.otu.waits.lookup 511 = some { lt := 0, tag := 7 } ∧ 2 * OtuR.fld s.otu OTU_SYNC_CTRL 1 8 ≤ (s.otu.go ed).lt - 0 ∧
       s.otu.queuedBytes 5 + 96 ≤ 32768 ∧ ({ lt := 0, tag := 7 } : OpenWait).reported = false ∧ 2000 * OtuR.fld s.otu OTU_SYNC_CTRL 16 10 ≤ (s.otu.go ed).lt - 0) := by decide +kernel

/-- Job 7 is open at the die, its engine 0 has a command in execution, and its last progress was at fleet time 0. -/
def oHang (busy : Bool) (o : Otu) : Otu := oAt 4000000000
  { o.setEng 0 { tag := 7, running := 1 } with
    jobs := [{ tag := 7, open_ := true, hangAt := 5 }]
    acc := { o.acc with a := if busy then some {} else none, b := if busy then some {} else none } }

/-- Tray 0 is the hall root and knows the graph of hang 5 of job 7, whose ranks 1 and 2 it homes. -/
def pHang (root : Bool) (p : Prd) : Prd := { pAll 4000000 p with
  tree := { p.tree with roles := [(0, if root then 15 else 1), (1, 1)], probes := if root then [] else [(7, 4000000)] }
  ctx := [(1, { st := 2, tag := 7, nRanks := 4, homes := [0] })]
  hangs := [{ id := 5, tag := 7, t := 4000000, expect := [1, 2] }, { id := 5, tag := 7, node := 1, t := 0, expect := [1, 2] }] }

theorem witness_HangsAreCutAndGathered :
    (∀ b, let s := sO (oHang b)
     let g := s.otu.go ed
     s.otu.invalid = false ∧ s.otu.job? 7 = some { tag := 7, open_ := true, hangAt := 5 } ∧ OtuR.flag s.otu OTU_HANG_CTRL 0 = true ∧ s.otu.clk.st ≠ 0 ∧
       ({ tag := 7, open_ := true, hangAt := 5 } : JobSt).hang = false ∧ State.reset.otu.job? 7 = none ∧ s.otu.acc.hangPending = [] ∧
       g.pendingWork 7 = true ∧ OtuR.fld s.otu OTU_HANG_CTRL 1 14 * 4000000 ≤ g.clk.ft - 0 ∧ g.due 5 = true ∧
       s.otu.acc.freeSet = (if b then none else some false)) ∧
    (∀ b, let s := sP (pHang b)
     let p := s.prd.go 0
     s.prd.tree.reqs = [] ∧ s.prd.tree.switches = [] ∧ p.isRoot = b ∧ p.awayHome (.port 3) 7 1 = none ∧ p.hang? 6 0 = none ∧
       ({ tag := 7, expect := [1, 2] } : HangSt).ranks.contains 1 = false ∧ ({ tag := 7, expect := [1, 2] } : HangSt).missing.contains 1 = false ∧
       (p.childTrays p.tree.roles).all (fun x => x.2 != 4095) = true ∧ (b = true → s.prd.tree.probes.lookup 7 = none) ∧
       (b = false → s.prd.tree.probes.lookup 7 = some 4000000 ∧ p.ft < 4000000 + PrdR.fld s.prd PRD_HANG_CFG 16 16 * 1000 * tickUs) ∧
       p.hang? 5 0 = some { id := 5, tag := 7, t := 4000000, expect := [1, 2] } ∧
       p.ft < 4000000 + PrdR.fld s.prd PRD_HANG_DEADLINES 0 8 * 1000 * tickUs ∧
       p.hang? 5 1 = some { id := 5, tag := 7, node := 1, t := 0, expect := [1, 2] }) ∧
    (let p := (sP (pHang true)).prd.go 4000000000
     (p.childTrays p.tree.roles).find? (fun x => x.2 == 1) = some (0, 1) ∧
       (({ id := 5, tag := 7, node := 1, expect := [1, 2] } : HangSt).take { hangId := 5, tag := 7, child := 1, ranks := [1] }).lacks ≠ [] ∧
       0 + PrdR.fld p PRD_HANG_DEADLINES 8 8 * 1000 * tickUs ≤ p.ft) := by decide +kernel

/-! ### Witnesses: sillage, grants, flacons, numerics, canaries, digests -/

/-- An instruction of kind `k` retired at job level. -/
def instr (k : Nat) : SilInstr := { ia := 64, kind := k, taken := true, target := 128, next := 72 }

theorem witness_TraceTakesWhatRetires :
    (sO fun o => OtuR.set o OTU_SIL_CTRL 0).otu.silOn 63 = false ∧
    (let s := sO fun o => { OtuR.set o OTU_SIL_CTRL 0x404000A1 with
       silSeq := [(63, { level := 1, lastIa := some 64, span := 1 })], sil := [(62, { pend := [true] })], lt := 5000 }
     let x := s.otu.silSt 63
     s.otu.invalid = false ∧ s.otu.silOn 63 = true ∧ (instr 1).level = 0 ∧ x.tag = s.otu.seqOwner 63 ∧ s.otu.job? (s.otu.seqOwner 63) = none ∧ x.due = none ∧ x.endDue = none ∧ (s.otu.silSt 127).due = none ∧
       (s.otu.silSt 127).endDue = none ∧ (s.otu.go ed).lt < (s.otu.silSt 127).lastOut + 16 * OtuR.fld s.otu OTU_SIL_CTRL 24 8 + 5000 ∧ (s.otu.go ed).lt < 2 ^ 64 ∧ x.lost = false ∧ x.ovfDue = false ∧
       x.counted < 4095 ∧ x.run = none ∧ x.pend.length < 32 ∧ x.pend = [] ∧ x.buf.length < 4000 ∧ (instr 0).kind ≠ 1 ∧ (instr 2).kind = 2 ∧
       (s.otu.go ed).silLiveAt (s.otu.go ed).ftBefore 63 2 = false ∧ (s.otu.silSt (64 + 63)).live = false ∧ (s.otu.seqSt 63).level ≠ 0 ∧
       (s.otu.seqSt 63).split = false ∧ (s.otu.seqSt 63).lastIa = some 64 ∧ x.waitSync = none ∧ (s.otu.seqSt 62).level = 0 ∧
       (s.otu.silSt 62).pend ≠ [] ∧ (s.otu.silSt 62).pend.length ≤ 32 ∧
       (s.otu.silSt 62).lastOut + 16 * OtuR.fld s.otu OTU_SIL_CTRL 24 8 ≤ (s.otu.go ed).lt) := by decide +kernel

theorem witness_TraceStreamsSyncCloseAndResume :
    (let s := sO fun o => { o with sil := [(127, { buf := [1], openAt := 0 }), (126, { lost := true })], lt := 9000000 }
     let g := s.otu.go ed
     s.otu.invalid = false ∧ (s.otu.silSt 127).openAt + 2000 * OtuR.fld s.otu OTU_SIL_CTRL 4 8 ≤ g.lt ∧ (s.otu.silSt 127).buf ≠ [] ∧
       s.otu.queuedBytes 3 + 32 + (s.otu.silSt 127).buf.length ≤ 8388608 ∧ (s.otu.silSt 126).lost = true ∧ (s.otu.silSt 126).buf = [] ∧ 64 ≤ 126 ∧
       s.otu.queuedBytes 3 + OtuR.fld s.otu OTU_SIL_CTRL 12 12 * 1024 ≤ 8388608 ∧ (s.otu.silSt 63).lost = false ∧ (s.otu.silSt 63).run = none ∧
       (s.otu.silSt 63).pend = [] ∧ (s.otu.silSt 63).buf.length < 4000 ∧ (s.otu.seqSt 63).level = 0 ∧ s.otu.silOn 63 = true ∧ (s.otu.silSt 127).due = none ∧ (s.otu.silSt 127).endDue = none ∧ (s.otu.silSt 63).due = none ∧
       (s.otu.silSt 63).endDue = none ∧ (s.otu.silSt 63).syncAt ≠ some g.lt ∧ (s.otu.silSt 127).live = false ∧ (s.otu.silSt 126).run = none ∧ (s.otu.silSt 126).pend = [] ∧
       (s.otu.silSt 126).due = none ∧ (s.otu.silSt 126).endDue = none ∧ (s.otu.silSt 126).lostPkts < 2 ^ 64 ∧ (s.otu.silSt 126).lostBytes < 2 ^ 64) ∧
    (sO id).otu.lt < (State.reset.otu.silSt 127).openAt + 2000 * OtuR.fld State.reset.otu OTU_SIL_CTRL 4 8 ∧
    (let s := sO fun o => OtuR.set o OTU_SIL_SEQ_EN 0
     OtuR.flag s.otu OTU_SIL_CTRL 0 = true ∧ OtuR.get s.otu OTU_SIL_SEQ_EN = 0) ∧
    OtuR.flag (sO fun o => OtuR.set o OTU_SIL_CTRL 0).otu OTU_SIL_CTRL 0 = false := by decide +kernel

/-- Grant entry 3 is valid and expires at fleet time `x`. -/
def oGrant (x : Nat) (o : Otu) : Otu := oAt 9 { o with grants := [(3, ⟨{ valid := true, expiry := x }, { valid := true, expiry := x }, 0⟩)] }

theorem witness_GrantsTakeEffectNextCycle :
    (let s := sO (oGrant 10)
     let d : Delayed Grant := Tbl.get (fun _ => ⟨{}, {}, 0⟩) s.otu.grants 3
     s.otu.invalid = false ∧ s.otu.clk.st ≠ 0 ∧ (s.otu.go ed).clk.ft < 10 ∧ d.cur.valid = true ∧ d.cur.ended = false ∧
       (s.otu.go ed).due d.cur.expiry = false ∧ (s.otu.go ⟨10, 0⟩).due d.cur.expiry = true ∧
       (Tbl.get (fun _ => ⟨{}, {}, 0⟩) s.otu.grants 0 : Delayed Grant).cur.valid = false ∧ (⟨1, 1, 7, OtuR.get s.otu OTU_DIE_UID, 10, 0⟩ : GrantReq).die = OtuR.get s.otu OTU_DIE_UID) ∧
    State.reset.otu.clk.st = 0 := by decide +kernel

/-- A software trigger of scope TRAY by rank 5. -/
def trig : Trigger := { source := 0, scope := 1, tag := 0, tTrig := 4000000, rank := 5 }

theorem witness_FreezesTakeSlotsAndAreReleased :
    (let p := (sP (pAt 4000000)).prd.go 0
     getF (1 + 5 * 2 ^ 32) 0 2 = 1 ∧ (List.range 4).find? (fun m => (p.flacon m).covers trig) = none ∧ p.hnr.queue.any (·.covers trig) = false ∧
       (sP (pAt 4000000)).prd.clk.st ≠ 0 ∧ p.freeSlot = some 0 ∧ 0 < PrdR.fld p PRD_FLC_CTRL 8 16 ∧ p.hnr.ring = [] ∧ p.hnr.goneAt ≠ p.ft ∧ p.hnr.open_.used + 1024 ≤ 8388608 ∧ getF 4 0 2 = 0 ∧ State.reset.prd.clk.st = 0 ∧
       ((p.flacon 3).st ≠ 4 ∨ (p.flacon 3).freezeT ≠ 5) ∧ p.isRoot = false) ∧
    (let p := (sP fun p => { pAt 4000000 p with hnr := { p.hnr with flc := [(3, { p.newFlacon trig with st := 2, freezeT := 4100000, tTrig := 4000000 })] } }).prd.go 0
     (p.flacon 3).st = 2 ∧ p.ft < (p.flacon 3).freezeT ∧ (List.range 4).find? (fun m => (p.flacon m).covers trig) = some 3) ∧
    (let p := (sP fun p => { pAt 4000000 p with hnr := { p.hnr with flc := [(2, { st := 2, freezeT := 4000000 }), (3, { st := 3 })] } }).prd.go 0
     (p.flacon 2).freezeT ≤ p.ft ∧ (p.flacon 3).hi + (p.flacon 3).settle * tickUs ≤ p.ft) ∧
    (let p := (sP fun p => { p with hnr := { p.hnr with flc := [(3, { st := 4, freezeT := 5 })] } }).prd.go 0
     (p.flacon 3).st = 4 ∧ (p.flacon 3).freezeT = 5 % 2 ^ 64 ∧ p.hnr.queue = []) ∧
    (let p := (sP (pHang true)).prd.go 0
     p.isRoot = true ∧ p.tree.freezes.find? (·.covers { trig with scope := 3 }) = none ∧ (sP (pHang true)).prd.clk.st ≠ 0) ∧
    (let p := (sP fun p => { pHang true p with tree := { (pHang true p).tree with freezes := [{ p.newFlacon { trig with scope := 3 } with st := 2, tTrig := 4000000, freezeT := 4000000, pre := 50000 }] } }).prd.go 0
     (p.tree.freezes.find? (·.covers { trig with scope := 3 })).isSome = true) := by decide +kernel

/-- A NaN of FP8 E4M3. -/
def nanEl : OutElem := { format := 0, bits := 0x7F }

theorem witness_SentinelsAndFirstNans :
    (let s := State.reset
     let g := s.otu.go ed
     s.otu.invalid = false ∧ OtuR.flag s.otu OTU_NUM_CTRL 0 = true ∧ sentinelKind (engKind 0) ≠ none ∧ nanEl.cls = some 0 ∧ ({ nanEl with bits := 0 } : OutElem).cls = none ∧
       OtuR.flag s.otu OTU_NUM_CTRL 1 = true ∧ OtuR.flag s.otu OTU_NUM_CTRL 2 = true ∧ s.otu.firstNansQueued < 64 ∧
       (s.otu.eng 0).nanGen ≠ some (s.otu.step.inForce g.lt).1 ∧ s.otu.evr.inflight.length < 64 ∧ s.prd.pw.fail = none ∧
       s.prd.evr.inflight.length < 64 ∧ s.otu.evr.cyc = none ∧ s.prd.evr.cyc = none ∧ (s.prd.go 9).awayHome (.fwd 1) 0 5 = none ∧ ((s.prd.go 9).slotOf 0).isSome = true) ∧
    (let s := sO fun o => o.setEng 0 { nanGen := some 0 }
     (s.otu.eng 0).nanGen = some (s.otu.step.inForce (s.otu.go ed).lt).1) ∧
    (let p := (sP fun p => PrdR.set p PRD_FLC_SRC_SCOPE 0x10).prd.go 9
     p.srcScope 2 = 1 ∧ p.srcScope 1 = 0 ∧ p.srcScope 6 = 0) := by decide +kernel

/-- A mirror candidate of engine 0 waits in cluster 0; engine 1 may run it, and engine 2 runs it or a library canary. -/
def oCan (m : Bool) (tie : Option TieSt) (o : Otu) : Otu := oAt 40000000
  { (o.setEng 1 { tag := 7, bucket := 10000 }).setEng 2 { canary := some { mirror := m, idx := 0 } } with
    mirror := [(0, { cand := some { eng := 0, tag := 7, len := 1, fp := 77, tie } })] }

theorem oCan_runs :
    (let s := sO (oCan false none)
     let g := (s.otu.go ed).settleMarks
     s.otu.invalid = false ∧ g.canIdle 1 false = false ∧ g.canIdle 1 true = true ∧ (s.otu.eng 1).arrived ≠ some g.lt ∧
       (((g.canChoices 1 1000000).filter fun c => !(c.1.mirror && g.lowerSibling 1 [])).find? (fun c => (g.canAllowed 1 c.2).1 && (g.canAllowed 1 c.2).2)).isSome = true ∧
       g.canChoices 1 0 = [] ∧ g.canIdle 0 true = true ∧ (s.otu.eng 1).canary = none ∧ (s.otu.eng 2).canary = some { mirror := false, idx := 0 } ∧
       (s.otu.eng 1).canWin = OtuR.get s.otu (OTU_ENG_CTR 1 0) / 2 ^ 20) := by decide +kernel

theorem oCan_waits :
    (let s := sO fun o => { oCan false none o with engs := [(1, { tag := 7 })] }
     let g := (s.otu.go ed).settleMarks
     g.canIdle 1 true = true ∧ ((g.canChoices 1 1000000).filter fun c => !(c.1.mirror && g.lowerSibling 1 [])) ≠ [] ∧
       ((g.canChoices 1 1000000).filter fun c => !(c.1.mirror && g.lowerSibling 1 [])).find? (fun c => (g.canAllowed 1 c.2).1 && (g.canAllowed 1 c.2).2) = none) ∧
    (let s := sO fun o => o.setEng 1 { canWin := 5, canary := some { lt := 5 } }
     (s.otu.eng 1).canWin ≠ OtuR.get s.otu (OTU_ENG_CTR 1 0) / 2 ^ 20 ∧ (s.otu.eng 1).canary = some { lt := 5 } ∧
       ({ lt := 5 } : CanRun).lt = (s.otu.go ed).settleMarks.lt) := by decide +kernel

theorem oCan_ends :
    (let g := (sO (oCan false none)).otu.go ed
     g.settleMarks.canaryFp 0 [] = g.settleMarks.libExpect 0 ∧ ({ mirror := false, idx := 0 } : CanRun).lt ≠ g.settleMarks.lt) ∧
    (let g := ((sO fun o => OtuR.set (oCan false none o) (OTU_CAN_LIB 0 4) 1).otu.go ed).settleMarks
     (g.eng 2).canary = some { mirror := false, idx := 0 } ∧ g.canaryFp 0 [] ≠ g.libExpect 0) := by decide +kernel

theorem witness_CanariesRunInIdleTime :
    (let s := sO (oCan false none)
     let g := (s.otu.go ed).settleMarks
     s.otu.invalid = false ∧ g.canIdle 1 true = true ∧ (s.otu.eng 2).canary = some { mirror := false, idx := 0 } ∧
       g.canaryFp 0 [] = g.libExpect 0 ∧ (s.otu.eng 1).canWin = OtuR.get s.otu (OTU_ENG_CTR 1 0) / 2 ^ 20) :=
  ⟨oCan_runs.1, oCan_runs.2.2.1, oCan_runs.2.2.2.2.2.2.2.2.1, oCan_ends.1.1, oCan_runs.2.2.2.2.2.2.2.2.2⟩

theorem witness_MirrorsJudgeBetweenSiblings :
    (let s := sO fun o => { OtuR.set (o.setEng 0 { tag := 7 }) OTU_CAN_TIMING (3 * 2 ^ 16) with jobs := [{ tag := 7, open_ := true }], mirror := [(0, { count := 1 }), (1, { count := 2 })] }
     s.otu.invalid = false ∧ s.otu.job? (s.otu.eng 0).tag = some { tag := 7, open_ := true } ∧ engKind 0 = 0 ∧ 65536 ≤ 65536 ∧ OtuR.flag s.otu OTU_CAN_CTRL 8 = true ∧
       (s.otu.mir (0 / 16)).count + 1 < OtuR.fld s.otu OTU_CAN_TIMING 16 16 ∧ OtuR.fld s.otu OTU_CAN_TIMING 16 16 ≤ (s.otu.mir 1).count + 1 ∧ (s.otu.go ed).settleMarks = s.otu.go ed ∧
       ({ tag := 7, open_ := true } : JobSt).noMirror = false ∧ s.otu.job? (s.otu.eng 16).tag = none) ∧
    (let s := sO (oCan true none)
     (s.otu.eng 2).canary = some { mirror := true, idx := 0 } ∧ (s.otu.mir 0).cand = some { eng := 0, tag := 7, len := 1, fp := 77 } ∧ OtuR.flag s.otu OTU_CAN_CTRL 9 = true ∧
       (s.otu.go ed).settleMarks.mirrorFp 7 [] ≠ 77 ∧ ((s.otu.go ed).settleMarks.mir 1).cand = none ∧
       ((sO fun o => { oCan true none o with mirror := [(0, { cand := some { fp := 0 } })] }).otu.mir 0).cand = some { fp := (s.otu.go ed).mirrorFp 0 [] }) ∧
    (let s := sO (oCan true (some { at_ := 0 }))
     (s.otu.mir 0).cand = some { eng := 0, tag := 7, len := 1, fp := 77, tie := some { at_ := 0 } } ∧ s.otu.clk.st ≠ 0 ∧ 0 + 40000000 ≤ (s.otu.go ed).clk.ft) ∧
    (let s := sO (oCan false (some { at_ := 1 }))
     s.otu.engs.any (fun x => x.2.canary.any fun r => r.mirror && r.idx == 0) = false ∧ (s.otu.go ed).clk.ft < 1 + 40000000) := by decide +kernel

theorem witness_DigestsFollowLoadsInputsAndTiles :
    (let s := sO fun o => { OtuR.set o OTU_DIG_CTRL 7 with hashing := [{ tensor := 5 }] }
     s.otu.invalid = false ∧ OtuR.flag s.otu OTU_DIG_CTRL 0 = true ∧ s.otu.hashing.find? (·.tensor == 5) = some { tensor := 5 } ∧ s.otu.resMark = none ∧
       OtuR.flag s.otu OTU_DIG_CTRL 1 = true ∧ s.otu.inputs.length < 4096 ∧ OtuR.flag s.otu OTU_DIG_CTRL 2 = true ∧ (⟨63, 0, 0, 0, [], [], 0, none⟩ : TilePart).slot < 64) ∧
    4096 ≤ (sO fun o => { o with inputs := List.replicate 4096 {} }).otu.inputs.length ∧ OtuR.flag (sO fun o => OtuR.set o OTU_DIG_CTRL 0).otu OTU_DIG_CTRL 0 = false ∧
    (sO fun o => { o with resMark := some {} }).otu.resMark = some {} ∧ State.reset.otu.hashing.find? (·.tensor == 5) = none ∧
    (let g := (sO (oMark 0)).otu.go ed
     g.winTag 63 = some 7 ∧ 7 ≠ (g.openJob.map (·.tag)).getD 0) ∧
    (let g := (sO fun o => { oMark 0 o with jobs := [{ tag := 7, open_ := true }] }).otu.go ed
     g.winTag 63 = some ((g.openJob.map (·.tag)).getD 0)) := by decide +kernel

/-- Job 7 of 4 ranks, homed at tray 0, is open; results 1 and 2 and bucket orders 1 and 2 of it are under way. -/
def pRes (p : Prd) : Prd := { pAt 4000000 p with
  ctx := [(1, { st := 2, tag := 7, s := 1, nRanks := 4, homes := [0] })]
  results := [{ tag := 7, id := 0, nRanks := 4, timeout := 4000000, recs := [{ rank := 1, body := [0] }] }, { tag := 7, id := 1, done := true },
              { tag := 7, id := 2, nRanks := 4, timeout := 4000001 }]
  orders := [{ tag := 7, coll := 1, recs := [(1, 5)], deadline := 4000000 }, { tag := 7, coll := 2, deadline := 4000001 }] }

theorem witness_ResultsAndOrdersAreAssembled :
    (let p := (sP pRes).prd.go 0
     let id1 : List Byte := zeros 8 ++ le 4 1
     p.slotOf 7 = some 1 ∧ p.awayHome (.fwd 0) 7 1 = none ∧ 3 < (p.slot 1).nRanks ∧ p.topHolder 7 = some p.tray ∧ 3 < 2 ^ 17 ∧ fieldAt [] 8 4 = 0 ∧ fieldAt id1 8 4 = 1 ∧
       (p.results.find? (fun y => y.tag == 7 && y.id == fieldAt [] 8 4)).any (fun x => !x.done && x.recs.any (fun r => r.rank == 1 && r.body == [0]) &&
         (x.recs.find? (·.rank == 3)).isNone && ({ x with recs := x.recs ++ [{ rank := 3, body := [] }] } : ResAsm).missing != []) = true ∧
       (p.results.find? (fun y => y.tag == 7 && y.id == fieldAt id1 8 4)).any (·.done) = true ∧
       (p.results.find? (fun x => x.tag == 7 && x.id == 0 && !x.done)).any (fun x => decide (x.timeout ≤ p.ft) && x.missing != []) = true ∧
       (p.results.find? (fun x => x.tag == 7 && x.id == 2 && !x.done)).any (fun x => decide (p.ft < x.timeout)) = true ∧
       (p.results.find? (fun x => x.tag == 7 && x.id == 1 && !x.done)).isNone = true ∧ (p.orders.find? (fun x => x.tag == 7 && x.coll == 3 && !x.done)).isNone = true ∧
       1 ∈ (p.slot 1).homed p.tray ∧ 3 ∈ (p.slot 1).homed p.tray ∧ p.orders.any (fun y => y.tag == 7 && y.coll == 3) = false ∧
       (p.orders.find? (fun y => y.tag == 7 && y.coll == 1)).any (fun x => x.recs.any (·.1 == 1) && !x.done && !x.recs.any (·.1 == 3) && decide (x.deadline ≤ p.ft)) = true ∧
       (p.orders.find? (fun y => y.tag == 7 && y.coll == 2)).any (fun x => !x.recs.any (·.1 == 1) && !x.recs.any (·.1 == 3) && decide (p.ft < x.deadline)) = true) := by decide +kernel

/-! ### Witnesses: reduction and the atomiser, the Nose -/

/-- Accord 10 of the fleet context is open at rack level, with trays 1 and 2 awaited, and `from_` has delivered. -/
def aRack (st : Nat) (l : List Partial) : AccNode := { level := 1, no := 10, t := 4000000, owed := [(1, 1), (2, 2)], parts := l, st }

/-- A partial of tray 1 for it. -/
def part1 : Partial := { level := 1, tag := 0, no := 10, from_ := 1, summary := {} }

/-- A forwarding envelope of tray 3. -/
def env (rtype fseq : Nat) : FwdEnv := { rtype, tag := 0, rank := 1, from_ := 3, fseq, body := [] }

theorem witness_PartialsAndEnvelopesArrive :
    (let p := (sP fun p => { pAt 4000000 p with accs := [aRack 0 []] }).prd.go 0
     ({ part1 with crcOk := false } : Partial).crcOk = false ∧ p.slotOf part1.tag = some 0 ∧ p.acc? 0 0 10 1 = some (aRack 0 []) ∧ (aRack 0 []).unitOf part1 ∈ (aRack 0 []).units ∧
       part1.itemEpoch = (aRack 0 []).epoch ∧ p.ft < (aRack 0 []).t + p.deadline 1 ∧ 2 ∈ (aRack 0 []).units ∧ 2 ≠ (aRack 0 []).unitOf part1 ∧
       part1.crcOk = true ∧ part1.missing = [] ∧ (aRack 0 []).lateFrom.contains 1 = false ∧ (aRack 0 []).parts.any (fun y => (aRack 0 []).unitOf y == 2) = false) ∧
    ({ aRack 0 [] with lateFrom := [1] } : AccNode).lateFrom.contains part1.from_ = true ∧
    (aRack 0 [part1]).parts.any (·.from_ == part1.from_) = true ∧
    (let p := (sP fun p => { pAt 4000000 p with accs := [aRack 2 []], mramProt := true }).prd.go 0
     p.acc? 0 0 10 1 = some (aRack 2 []) ∧ (aRack 2 []).st ≠ 0 ∧ p.mramProt = true) ∧
    (let p := (sP fun p => { p with tree := { p.tree with fwdRx := [(3, 5)] } }).prd.go 0
     (p.tree.fwdRx.lookup 3).getD 5 = 5 ∧ 2 ^ 63 ≤ wsub 64 (env 9 4).fseq 5 ∧ wsub 64 (env 9 5).fseq 5 < 2 ^ 63 ∧ p.tree.reqs = [] ∧ p.tree.switches = [] ∧ (env 9 5).rank < 2 ^ 17 ∧ (env 9 5).crcOk = true ∧ 8 ≤ (env 9 5).rtype ∧
       (env 9 5).rtype ≠ 0x80 ∧ (env 0x80 5).rtype = 0x80) := by decide +kernel

/-- The header of a broadcast about job 7 that acts at fleet time 8,000,000. -/
def hdr (bseq : Nat) : AtHdr := { tag := 7, bseq, tAct := 8000000, ref := 5 }

/-- A START for one rank, on port 0 of tray 0. -/
def msg : StartMsg := { nRanks := 1, homes := [2 ^ 31], items := [], ports := [(0, 0)] }

/-- The OTU has applied broadcast 5 of job 7, whose START is armed. -/
def oArm (s : Nat) (o : Otu) : Otu := oAt 4000000 { o with bmaps := [(7, { high := 5 })], armed := some { tag := 7, bseq := 5, s } }

theorem witness_MessagesAtTheDie :
    (let s := sO (oArm 8000000)
     s.otu.invalid = false ∧ (bmapOf s.otu.bmaps 7).seen 5 = true ∧ (bmapOf s.otu.bmaps 7).seen 6 = false ∧ (hdr 6).bseq ≠ 0 ∧ s.otu.mapRank msg = some 0 ∧
       msg.config = [] ∧ s.otu.armed = some { tag := 7, bseq := 5, s := 8000000 } ∧ (s.otu.go ed).due 8000000 = false ∧ (s.otu.go ed).startStatus (hdr 6) msg ≠ 0) ∧
    ((sO fun o => { oAt 4000000 o with clk := { st := 2, ft := 4000000, grade := 1 } }).otu.go ed).startStatus (hdr 6) msg = 0 ∧
    (let s := sO fun o => { oAt 4000000 o with jobs := [{ tag := 7, open_ := true }] }
     s.otu.job? 7 = some { tag := 7, open_ := true } ∧ s.otu.clk.st ≠ 0 ∧ (s.otu.go ed).clk.ft < (hdr 6).tAct) := by decide +kernel

theorem witness_AJobStartsEndsAndIsReleasedAtTheDie :
    (let s := sO (oArm 8000000)
     (s.otu.go ed).due 8000000 = false ∧ State.reset.otu.armed = none ∧ State.reset.otu.job? 7 = none) ∧
    (let s := sO (oArm 4000000)
     s.otu.invalid = false ∧ s.otu.armed = some { tag := 7, bseq := 5, s := 4000000 } ∧ (s.otu.go ed).due 4000000 = true ∧ ({ tag := 7, bseq := 5, s := 4000000 } : Armed).fault = false ∧
       (s.otu.go ed).fastCutIfDue.cutIfDue.silSettleAll.freeWindow = some 0 ∧ 63 < 64) ∧
    (let s := sO fun o => { oAt 4000000 o with jobs := [{ tag := 7, open_ := true, window := some 63 }, { tag := 8, ended := true, window := some 63 }] }
     (s.otu.job? 7).any (fun j => j.open_ && !j.ended) = true ∧ (s.otu.job? 8).any (fun j => !j.open_ && j.ended && j.window == some 63) = true ∧
       ((s.otu.go ed).closeWaitsOf 8).silSettleAll.jobHolds 8 = false) ∧
    (let s := sO fun o => { (oAt 4000000 o).setEng 0 { tag := 8 } with eq := [(0, [{ rtype := 1, kind := 0, body := [], tag := 8 }])], jobs := [{ tag := 8, ended := true }] }
     ((s.otu.go ed).closeWaitsOf 8).silSettleAll.jobHolds 8 = true) := by decide +kernel

/-- A Priord in PHASE TREE_WAIT or later: one tray, one slot with job 7 in state `st` whose START was broadcast 5. -/
def pNode (st : Nat) (p : Prd) : Prd := { PrdR.set (PrdR.set (pAt 4000000 p) PRD_BOOT_STATUS 4) PRD_BOOT_STRAPS 0x3000 with
  tree := { p.tree with roles := [(0, 15)], bmaps := [(7, { high := 5 })] }
  cfg := { p.cfg with roles := [(0, 15)] }
  ctx := [(1, { st, tag := 7, s := 9000000, bseq := 5, nRanks := 1, homes := [2 ^ 31] })] }

theorem witness_MessagesAtANode :
    (State.reset.prd.go 9).phase < 3 ∧
    (let p := (sP (pNode 1)).prd.go 9
     3 ≤ p.phase ∧ p.safe = false ∧ p.strapsOk = true ∧ p.tree.reqs = [] ∧ p.tree.switches = [] ∧ msg.config = [] ∧ (bmapOf p.tree.bmaps 7).seen 5 = true ∧ (bmapOf p.tree.bmaps 7).seen 6 = false ∧
       p.slotOf 7 = some 1 ∧ (p.slot 1).bseq = (hdr 6).ref ∧ (p.slot 1).st = 1 ∧ itemsOk [] = true ∧ p.ft < (hdr 6).tAct ∧ ({ hdr 6 with scope := 3 } : AtHdr).scope = 3 ∧
       p.freeSlot = some 0 ∧ p.subtreeRanks (p.slot 1) 0 ≠ [] ∧ p.hang? 5 0 = none) ∧
    (let p := (sP fun p => { pNode 1 p with ctx := [] }).prd.go 9
     p.tree.retracted.contains 6 = false ∧ p.answerRanks msg ≠ [] ∧ itemsOk msg.items = true ∧ p.homesOk msg.nRanks msg.homes = true ∧
       p.badPorts msg.nRanks (msg.ports.filter fun q => q.1 / 32 == p.tray) = [] ∧ p.slotOf 7 = none ∧ p.freeCtx true = some 1 ∧ p.ft < (hdr 6).tAct) ∧
    ((sP (pNode 2)).prd.go 9).slotOf 7 = some 1 ∧ (((sP (pNode 2)).prd.go 9).slot 1).st = 2 := by decide +kernel

/-- Broadcast 5 waits for the dies on ports 0 and 1. -/
def bc : Bcast := { body := { kind := 1, hdr := hdr 5 }, children := [{ child := .port 0, sent := 4000000 }, { child := .port 1, sent := 0 }] }

/-- The hall root, or not, with broadcast 5 and the request `r` under way. -/
def pRoot (root : Bool) (r : List StartReq) (p : Prd) : Prd := { pNode 2 p with
  tree := { (pNode 2 p).tree with roles := [(0, if root then 15 else 1), (1, 1)], bcasts := [bc], reqs := r, maps := [(7, [(0, 0)])] } }

theorem witness_AnswersTimeoutsAndRequests :
    (∀ b, let p := (sP (pRoot b [])).prd.go 0
     p.isRoot = b ∧ p.tree.reqs = [] ∧ p.tree.switches = [] ∧ p.bcast? 6 = none ∧ bc.dups = [] ∧ p.bcast? 5 = some bc ∧ bc.children.length = 2 ∧ p.waiting 5 (.port 0) = some { child := .port 0, sent := 4000000 } ∧
       p.waiting 5 (.port 1) = some { child := .port 1, sent := 0 } ∧ p.ft < 4000000 + PrdR.fld p PRD_ATM_TIMEOUTS 0 8 * tickUs ∧
       p.ft < 4000000 + PrdR.fld p PRD_ATM_TIMEOUTS 8 8 * tickUs ∧ 0 + PrdR.fld p PRD_ATM_TIMEOUTS 0 8 * tickUs ≤ p.ft ∧ 0 + PrdR.fld p PRD_ATM_TIMEOUTS 8 8 * tickUs ≤ p.ft ∧
       1 ≠ p.tray ∧ p.tree.failed.contains 1 = false ∧ p.tree.maps.any (·.1 == 7) = true ∧ p.tree.faulted.contains 7 = false) ∧
    (let r : StartReq := { tag := 7, bseq := 5, s := 4800000 }
     let p := (sP (pRoot true [r])).prd.go 0
     p.tree.reqs.find? (fun r => r.tag == 7 && r.result.isNone) = some r ∧ p.isRoot = true ∧ r.retract = 0 ∧ r.wait = none ∧ r.s ≤ p.ft + 200 * tickUs ∧ (p.bcast? r.bseq).any (·.closed.isNone) = true ∧
       p.ft + 200 * tickUs < ({ r with s := 4800001 } : StartReq).s) ∧
    (let p := (sP (pRoot true [{ tag := 7, wait := some 4000000 }])).prd.go 0
     p.ft < 4000000 + p.atmCfg 24 8 * 100 * tickUs ∧ 4000000 + p.atmCfg 24 8 * 100 * tickUs ≤ ((sP (pRoot true [])).prd.go 400000000).ft) := by decide +kernel

theorem witness_TheRootAndItsStandby :
    (let p := (sP (pRoot true [])).prd.go 0
     p.isRoot = true ∧ p.tree.hbSent + 10 * tickUs ≤ p.ft ∧ p.tree.joined = false ∧ roleBit p.atRoles p.tray 4 = false) ∧
    ((sP fun p => { pRoot true [] p with tree := { (pRoot true [] p).tree with hbSent := 4000000 } }).prd.go 0).ft < 4000000 + 10 * tickUs ∧
    ((sP fun p => { pRoot true [] p with clk := { st := 2, ft := 4000000, grade := 1 } }).prd.go 0).clk.grade ≤ 1 ∧ 1 < ((sP (pRoot true [])).prd.go 0).clk.grade ∧
    (let p := (sP fun p => { pRoot true [] p with tree := { (pRoot true [] p).tree with joined := true, probeAt := 4000000 } }).prd
     p.tree.joined = true ∧ (p.go 403999999).ft < p.tree.probeAt + 400000000 ∧ p.tree.probeAt + 400000000 ≤ (p.go 404000000).ft) ∧
    (let p := (sP fun p => { pRoot false [] p with tree := { (pRoot true [] p).tree with roles := [(0, 0x11)] } }).prd
     roleBit (p.go 0).atRoles (p.go 0).tray 4 = true ∧ (p.go 0).isRoot = false ∧ (p.go 0).tree.hbAt + 50 * tickUs ≤ (p.go 0).ft) := by decide +kernel

theorem witness_ContextsDrainAndEnd :
    (∀ st ∈ [2, 3], let p := (sP (pNode st)).prd.go 0
     p.slotOf 7 = some 1 ∧ p.awayHome (.port 3) 7 0 = none ∧ (p.slot 1).st = st ∧ (p.slot 1).ended.lookup 0 = none ∧ fieldAt [] 1 1 ≠ 2) ∧
    (((sP fun p => { pNode 3 p with ctx := [(1, { st := 3, tag := 7, ended := [(0, 5)] })] }).prd.go 0).slot 1).ended.lookup 0 = some 5 ∧
    (let p := (sP (pNode 3)).prd.go 100000000000
     (p.slot 1).st = 3 ∧ (p.slot 1).since + PrdR.fld p PRD_CTX_CFG 0 16 * 400000 ≤ p.ft) ∧
    (let p := (sP (pNode 4)).prd.go 100000000000
     (p.slot 1).st = 4 ∧ (p.slot 1).since + PrdR.fld p PRD_CTX_CFG 16 16 * 400000 < p.ft) ∧
    (let p := (sP (pNode 4)).prd.go 0
     p.ft < (p.slot 1).since + PrdR.fld p PRD_CTX_CFG 16 16 * 400000) := by decide +kernel

/-- Accord 10 of the fleet context waits, or is under evaluation. -/
def pNose (busy : Bool) (p : Prd) : Prd := { pAt 4000000 p with
  accs := [aFleet]
  nose := { p.nose with model := some { image := [] }, waiting := if busy then [] else [(0, 10)], busy := if busy then some (0, 10) else none } }

theorem witness_TheNoseEvaluatesInOrder :
    (let p := (sP (pNose false)).prd.go 0
     p.nose.waiting = (0, 10) :: [] ∧ p.nose.busy = none ∧ p.nose.copying = false) ∧
    (let p := (sP (pNose true)).prd.go 0
     p.nose.waiting.head? ≠ some (0, 10) ∧ p.nose.busy = some (0, 10) ∧ p.nose.model = some { image := [] } ∧ p.acc? 0 0 10 0 = some aFleet ∧ p.nose.baseNext.lookup 0 = none) := by
  decide +kernel

theorem witness_ModelsAndBaselinesOfTheNose :
    ((sP fun p => PrdR.set p PRD_BOOT_STATUS 8).prd.go 0).safe = true ∧
    (let p := (sP fun p => { PrdR.set (PrdR.set p PRD_NOSE_LOAD_ADDR 0xF36800000) PRD_NOSE_LOAD_LEN 4096 with nose := { p.nose with model := none } }).prd.go 0
     p.safe = false ∧ p.nose.next = none ∧ PrdR.get p PRD_NOSE_LOAD_ADDR % 64 = 0 ∧ inSoftware (PrdR.get p PRD_NOSE_LOAD_ADDR) (PrdR.get p PRD_NOSE_LOAD_LEN) = true ∧
       (match checkImage (p.hbm.read 0xF36800000 4096) 4096 0 p.cfg.signed true with | .refused 5 0 0 => true | _ => false) = true ∧
       p.nose.model = none ∧ p.nose.busy = none ∧ p.nose.waiting = [] ∧ p.nose.copying = false ∧ PrdR.get p PRD_NOSE_BASE_CTX = 0 ∧ p.mramProt = false ∧
       inSoftware (PrdR.get p PRD_NOSE_LOAD_ADDR) (baseBytes 0 0 0 0 []).length = true) ∧
    (let p := (sP fun p => { PrdR.set (PrdR.set p PRD_NOSE_LOAD_ADDR 0xF36800000) PRD_NOSE_LOAD_LEN 32 with
       hbm := p.hbm.write 0xF36800000 (baseBytes 0 0 0 0 []), nose := { p.nose with model := some { image := [] } } }).prd.go 0
     let b := p.hbm.read (PrdR.get p PRD_NOSE_LOAD_ADDR) (PrdR.get p PRD_NOSE_LOAD_LEN)
     baseOk b (nFeat []) p.baseTag (some 0) = true ∧ baseOk b (nFeat []) p.baseTag (some 1) = false ∧ p.nose.model = some { image := [] } ∧ p.nose.busy = none) ∧
    ((sP fun p => { p with nose := { p.nose with next := some { image := [] } } }).prd.go 0).nose.next.isSome = true ∧
    ((sP fun p => { p with nose := { p.nose with next := some { image := [] }, copying := true } }).prd.go 0).nose.copying = true := by decide +kernel

/-! ### Witnesses: links, gates and frames, the event recorder, compressors and check values -/

/-- The OTU's link is UP. -/
def oUp (o : Otu) : Otu := { o with link := { o.link with st := 2 } }

/-- A CTRL flit with a message, received without symbol errors. -/
def ctrlFlit (m : List Byte) : FlitRx := ⟨flitBytes 2 0 0 0 0 31 m, []⟩

/-- A DATA flit with FSEQ `q` whose payload holds no frame, received without symbol errors. -/
def dataFlit (q : Nat) : FlitRx := ⟨flitBytes 1 1 q 0 0 31 [], []⟩

theorem ctrlFlit_checks : (∀ m ∈ [nakMsg 4095, resyncMsg 0x401 7, keyMsg 3, retrainMsg], ({ st := 2 } : LinkSt).checks (ctrlFlit m) = true ∧
    ctrlType (ctrlFlit m).bytes (fieldAt m 0 1) = true) ∧ fieldAt (ctrlFlit (nakMsg 4095)).bytes 9 2 = 4095 := by decide +kernel

theorem dataFlit_checks : ({ st := 2 } : LinkSt).checks (dataFlit 4095) = true ∧ flitType (dataFlit 4095).bytes 1 = true ∧
    flitOf (dataFlit 4095).bytes = { fseq := 4095, alive := 1, payload := (flitOf (dataFlit 4095).bytes).payload } ∧
    ({ st := 2 } : LinkSt).checks ⟨(dataFlit 4095).bytes, [16]⟩ = false ∧ flitType (ctrlFlit retrainMsg).bytes 1 = false := by decide +kernel

/-- Die port 31 of a Priord with all ports populated is UP. -/
def pUp (p : Prd) : Prd := PrdR.set { pAll 4000000 p with dp := [(30, { downSince := 3600001 }), (31, { link := { st := 2 } })] } PRD_BOOT_STATUS 2

theorem witness_LinksTrainGoDownAndRetrain :
    (let s := sO fun o => oUp { OtuR.set o (OTU_FB_RELAY 3) (2 ^ 32) with fbLast := [(7, 0), (6, 9)], lt := 1000000 }
     let g := s.otu.go ed
     s.otu.invalid = false ∧ g.link.st = 2 ∧ OtuR.flag g OTU_FB_CTRL 0 = true ∧ g.fb = false ∧ g.pickRelay [false, false, false, true] = some 3 ∧
       g.fbLast.lookup 7 = some 0 ∧ 0 + OtuR.fld g OTU_FB_CTRL 16 8 * 4000 ≤ g.now ∧ g.fbLast.lookup 5 = none) ∧
    (let g := (sO fun o => { o with fb := true, fbLast := [(7, 9)] }).otu.go ed
     g.fb = true ∧ g.link.st ≠ 2 ∧ g.fbLast.lookup 7 = some 9 ∧ g.now < 9 + OtuR.fld g OTU_FB_CTRL 16 8 * 4000) ∧
    OtuR.flag (sO fun o => OtuR.set o OTU_FB_CTRL 0).otu OTU_FB_CTRL 0 = false ∧
    (let p := (sP fun p => PrdR.set (pUp p) (PRD_UL_STATUS 3) 1).prd.go 9
     (p.port 31).link.dead p.ft = true ∧ bit (p.portCfg 31) 2 = true ∧ (p.port 30).link.st = 0 ∧ (p.port 30).link.dead p.ft = false ∧ p.squelched = false ∧ (p.port 31).link.st = 2 ∧ PrdR.flag p (PRD_UL_STATUS 3) 0 = true ∧
       PrdR.flag p (PRD_UL_STATUS 2) 0 = false ∧ PrdR.flag p PRD_PWR_OSFP_CTRL 3 = true ∧ p.populated 30 = true ∧ (p.port 30).failedOtu = none ∧
       p.ft < max (p.port 30).downSince (p.port 30).fbAt + PrdR.get p PRD_OTU_FAULT_WAIT * tickUs ∧ (p.port 31).link.st ≠ 0) ∧
    (let p := (sP fun p => PrdR.set (pUp p) PRD_PWR_OSFP_CTRL 0).prd.go 4000000000
     max (p.port 30).downSince (p.port 30).fbAt + PrdR.get p PRD_OTU_FAULT_WAIT * tickUs ≤ p.ft ∧ PrdR.flag p PRD_PWR_OSFP_CTRL 3 = false) ∧
    (State.reset.prd.go 9).populated 31 = false ∧ (sP fun p => { p with pw := { p.pw with on := 0 } }).prd.squelched = true ∧
    (let g := (sO oUp).otu.go ⟨9, 5⟩
     g.link.st ≠ 0 ∧ g.link.dead g.now = false ∧ (State.reset.otu.go ed).link.st = 0) := by decide +kernel

/-- A DATA flit with FSEQ `q`. -/
def flit (q : Nat) : Flit := { fseq := q, alive := 1 }

theorem witness_FlitsAreTakenInOrder :
    (let l : LinkSt := { st := 2, rxSeq := 4095 }
     (l.rxSeq + 4096 - (flit 4095).fseq % 4096) % 4096 = 0 ∧ (flit 4095).alive = (Tbl.get (fun _ => 0) l.rxAlive 0 + 1) % 256 ∧
       (l.rxSeq + 4096 - (flit 2047).fseq % 4096) % 4096 = 2048 ∧ l.discarding = false ∧ l.verdict (flit 4095) true = .accept ∧
       ({ l with rxAlive := [(0, 1)] } : LinkSt).verdict (flit 4095) true = .repeat ∧ Tbl.get (fun _ => 0) ({ l with rxAlive := [(0, 1)] } : LinkSt).rxAlive 0 < 256) ∧
    (let s := sO fun o => { oUp o with link := { (oUp o).link with held := [flit 4094, flit 4095], nakSeq := some 4095, nakCount := 2, discarding := true, resend := [flit 4095] } }
     let g := s.otu.go ed
     s.otu.invalid = false ∧ g.link.st = 2 ∧ g.link.discarding = true ∧ g.link.held.any (fun f => f.fseq == 4095) = true ∧ g.link.nakSeq = some 4095 ∧ 2 ≤ g.link.nakCount ∧
       g.link.nakSeq ≠ some 4094 ∧ g.link.held.any (fun f => f.fseq == 0) = false ∧ g.now < g.link.idleAt + 3600 ∧ g.link.ctrl = [] ∧ g.link.resend = [flit 4095]) ∧
    (let g := (sO oUp).otu.go ⟨9, 1800⟩
     g.link.st = 2 ∧ g.link.discarding = false ∧ g.link.idleAt + 3600 ≤ g.now) ∧
    ((sO fun o => { oUp o with link := { (oUp o).link with ctrl := [[1]] } }).otu.go ed).link.ctrl = [[1]] ∧
    State.reset.otu.link.st ≠ 2 ∧
    (let p := (sP fun p => { pUp p with dp := [(31, { link := { st := 2, held := [flit 4095], discarding := true, ctrl := [[1]], idleAt := 4000000 } })] }).prd.go 9
     (p.port 31).link.st = 2 ∧ (p.port 30).link.st ≠ 2 ∧ (p.port 31).link.held.any (fun f => f.fseq == 4095) = true ∧ (p.port 31).link.nakSeq ≠ some 4095 ∧ (p.port 31).link.nakAt + tickUs ≤ p.ft ∧
       ((p.port 31).link.hear p.ft (ctrlFlit (nakMsg 4095))).held.any (fun f => f.fseq == 4095) = true ∧ ((p.port 31).link.hear p.ft (ctrlFlit (nakMsg 0))).held.any (fun f => f.fseq == 0) = false ∧
       (p.port 31).link.verdict { flit 0 with alive := 1 } true = .accept ∧ (p.port 31).link.discarding = true ∧ p.ft < (p.port 31).link.idleAt + 3600 ∧ (p.port 31).link.ctrl = [[1]]) := by decide +kernel

/-- A record that waits in an egress queue of the OTU, or of an uplink. -/
def qrec : QRec := { rtype := 1, kind := 1, body := [1] }

theorem witness_GatesShapersAndPolicers :
    (let s := sO (fun o => oAt 4000000 { oUp o with fb := true, eq := [(1023, [qrec])], gate := { (oUp o).gate with gates := 0xFF } })
     let g := s.otu.go ed
     s.otu.invalid = false ∧ OtuR.get g OTU_GCL_ADMIN_BASE ≤ 4000001 ∧ g.clk.st ≠ 0 ∧ g.clk.ft < 4000001 ∧ 4000000 ≤ g.clk.ft ∧ 4000000 ≠ absent ∧
       OtuR.fld g OTU_GCL_CTRL 1 9 ≤ 256 ∧ g.due (OtuR.get g OTU_GCL_CHANGE_T) = false ∧ g.gate.busyTill ≤ g.now ∧ g.gate.aggAt ≤ g.now ∧
       g.eq = [(1023, [qrec])] ∧ g.fbPart = [] ∧ g.fb = true ∧ bit (OtuR.fld g OTU_FB_CTRL 8 8) (1023 / 128) = true ∧ OtuR.flag g OTU_GCL_CTRL 0 = false ∧
       bit g.gate.gates (1023 / 128) = true ∧
       (g.eqSt 1023).eligible (g.eqReg 1023) g.now (effLen (min (OtuR.get g (OTU_EQ_CLASS (1023 / 128))) (g.recLen qrec)) (OtuR.fld g OTU_PORT_OVH 16 9)) ≠ 0 ∧
       ((⟨31, 7, false, false, [1]⟩ : FbPacket).origin < 32) ∧ g.link.st ≠ 0) ∧
    (let g := (sO fun o => oAt 4000000 (OtuR.set (OtuR.set (OtuR.set o OTU_GCL_CTRL 513) OTU_GCL_ADMIN_BASE 5000000) OTU_GCL_CHANGE_T 4000000)).otu.go ed
     g.due (OtuR.get g OTU_GCL_CHANGE_T) = true ∧ OtuR.fld g OTU_GCL_CTRL 1 9 = 256 ∧ OtuR.flag g OTU_GCL_CTRL 0 = true ∧ 4999999 < OtuR.get g OTU_GCL_ADMIN_BASE) ∧
    ((sO fun o => OtuR.set o OTU_GCL_CTRL 1).otu.go ed).clk.st = 0 ∧
    (let g := (sO fun o => oAt 9 { o with gate := { o.gate with busyTill := 11, aggAt := 11 } }).otu.go ed
     g.now < g.gate.busyTill ∧ g.now < g.gate.aggAt ∧ g.link.st = 0) ∧
    (let p := (sP fun p => PrdR.set (PrdR.set { pAll 79999 p with ulq := [(3, { q := [(1023, [{ dst := 1, body := [1] }])] })] } (PRD_UL_STATUS 3) 1) (PRD_UL 2 + 0x58) 80000).prd.go 9
     p.ub 0 0x58 = absent ∧ p.ft < p.ub 2 0x58 ∧ 400000 ≤ PrdR.get p (PRD_DP_POL_PIR 31) ∧ PrdR.get p (PRD_DP_POL_PIR 31) < 400001 ∧
       p.ingestAt + 40000 ≤ p.ft ∧ p.ft < p.ingestAt + 80000 ∧ PrdR.flag p (PRD_UL_STATUS 2) 0 = false ∧ PrdR.flag p (PRD_UL_STATUS 3) 0 = true ∧
       (p.uplink 3).gate.busyTill ≤ p.ft ∧ (p.uplink 3).q = [(1023, [{ dst := 1, body := [1] }])] ∧ bit (p.ub 3 0x40) 0 = false ∧
       (Tbl.get (fun _ => {}) (p.uplink 3).qs 1023 : EqSt).eligible (p.eqReg 3 1023) p.ft (effLen ([1] : List Byte).length (getF (p.ub 3 8) 0 9)) ≠ 0) ∧
    ((sP (pAll 39999)).prd.go 9).ft < ((sP (pAll 39999)).prd.go 9).ingestAt + 40000 ∧
    (let p := (sP fun p => { pAll 9 p with ulq := [(3, { gate := { busyTill := 10 } })] }).prd.go 9
     p.ft < (p.uplink 3).gate.busyTill) := by decide +kernel

/-- A frame of record type `rtype` on stream `stream` from the die on port `n` of tray 0, of the fleet context. -/
def frameOf (n rtype stream : Nat) (body : List Byte) : List Byte := frameBytes rtype 0 stream 0 n n 0 body

theorem witness_FramesAreCheckedAndWritten :
    (let p := (sP fun p => PrdR.set (PrdR.set { pUp p with dp := [(31, { link := { st := 2 }, expect := [((0x800, 0), 0)] })] } (PRD_DP_POL_CTRL 31) 0) PRD_BOOT_STATUS 2).prd.go 9
     Frame.parse [] = none ∧ (p.port 31).expect = [((0x800, 0), 0)] ∧ (0x800 / 256 = 0xF ∨ kindClass (0x800 / 256) = kindClass 8) ∧
       PrdR.flag p (PRD_DP_POL_CTRL 31) 0 = false ∧ p.mramProt = false ∧ 2 ≤ p.phase ∧ p.hnr.open_.used + 16 + 8 ≤ 8388608 ∧
       (Frame.parse (frameBytes 0xA 0 0x800 7 31 31 0 [7])).any (fun f => f.rtype == 0xA && (p.portRank 31 f.tag).isNone) = true ∧
       (Frame.parse (frameOf 31 0xA 0x800 [7])).any (fun f => f.rtype == 0xA && f.body == [7] && p.portRank 31 f.tag == some 31 &&
         f.check 31 (p.location 31) ((p.port 31).expect.lookup (f.stream, f.tag)) ((p.port 31).hunt.contains (f.stream, f.tag)) == .pass 1) = true ∧
       (Frame.parse (frameOf 31 9 0x700 [7])).any (fun f => f.rtype == 9 && f.check 31 31 none false == .pass 1) = true ∧
       (Frame.parse (frameOf 31 4 0x37F [7])).any (fun f => f.rtype == 4 && f.check 31 31 none false == .pass 1) = true ∧
       (Frame.parse (frameOf 30 0xA 0x800 [7])).any (fun f => f.rtype == 0xA &&
         f.check 31 (p.location 31) ((p.port 31).expect.lookup (f.stream, f.tag)) ((p.port 31).hunt.contains (f.stream, f.tag)) == .fail) = true ∧
       (Frame.parse (frameOf 31 0x20 0xF00 (le 4 0 ++ zeros 4 ++ frameOf 0 0xA 0x800 [7]))).any (fun f => f.rtype == 0x20 && fieldAt f.body 0 4 % 32 == 0 && f.stream % 256 == 0 &&
         f.check 31 (p.location 31) ((p.port 31).expect.lookup (f.stream, f.tag)) ((p.port 31).hunt.contains (f.stream, f.tag)) == .pass 1 &&
         (Frame.parse (f.body.drop 8)).any (fun g => g.rtype == 0xA && p.portRank 0 g.tag == some 0 &&
           g.check 0 (p.location 0) ((p.port 0).expect.lookup (g.stream, g.tag)) ((p.port 0).hunt.contains (g.stream, g.tag)) == .pass 1)) = true) := by decide +kernel

/-- Priord's recorder has one request in flight and may commit it. -/
def pEvq : Prd := (sP fun p => { PrdR.set (pUp p) PRD_BOOT_STATUS 2 with evr := { p.evr with inflight := [{ sev := 6 }], lastFt := 3999000 } }).prd.go 9

theorem pEvq_bucket : rlKey pEvq.rlEntries 0 = 65536 := by decide +kernel

theorem oEvq :
    (let s := sO fun o => { o with evr := { o.evr with inflight := [{ sev := 6 }] } }
     let g := s.otu.go ed
     s.otu.invalid = false ∧ 6 ≤ ({ code := 1, sev := 6 } : EvReq).sev ∧ g.evr.inflight.length < 64 ∧ g.evr.inflight = [{ sev := 6 }] ∧ OtuR.flag g OTU_EVR_CTRL 0 = true ∧
       g.evr.full = false ∧ g.evr.lastFt ≠ g.lt + 1 ∧ g.evr.was = none ∧ (State.reset.otu.go ed).evr.inflight = []) ∧
    64 ≤ (sO fun o => { o with evr := { o.evr with inflight := List.replicate 64 {} } }).otu.evr.inflight.length ∧
    OtuR.get (sO fun o => OtuR.set o OTU_EVR_FRONTIER 4095).otu OTU_EVR_FRONTIER = 4095 ∧ OtuR.flag (sO fun o => OtuR.set o OTU_EVR_CTRL 0).otu OTU_EVR_CTRL 0 = false := by decide +kernel

theorem pEvq_state :
    (let p := pEvq
     p.pw.fail = none ∧ p.evr.inflight.length < 56 ∧ p.evr.inflight = [{ sev := 6 }] ∧ PrdR.get p PRD_EVR_FRONTIER < 262143 ∧ PrdR.flag p PRD_EVR_CTRL 0 = true ∧
       p.evr.full = false ∧ p.evr.lastFt + 1000 ≤ p.ft ∧ p.evr.was = none ∧ 2 ≤ p.phase ∧ p.mramProt = false ∧ p.hnr.open_.used + 80 ≤ 8388608 ∧ ({ sev := 5 } : EvRec).sev ≠ 6 ∧
       PrdR.fld p PRD_EVR_CTRL 1 3 ≤ 5) := by decide +kernel

theorem evq_others :
    (let p := (sP fun p => PrdR.set p PRD_EVR_RL_DEFAULT 0).prd
     PrdR.fld p PRD_EVR_RL_DEFAULT 32 16 = 0) ∧
    (sP fun p => PrdR.set p PRD_EVR_CTRL 0x0E).prd.evr.inflight = [] ∧ PrdR.flag (sP fun p => PrdR.set p PRD_EVR_CTRL 0x0E).prd PRD_EVR_CTRL 0 = false ∧
    2 < PrdR.fld (sP fun p => PrdR.set p PRD_EVR_CTRL 7).prd PRD_EVR_CTRL 1 3 ∧
    (sP fun p => { p with pw := { p.pw with fail := some 0 } }).prd.pw.fail.isSome = true := by decide +kernel

theorem witness_EventsAreQueuedAndCommitted :
    (let s := sO fun o => { o with evr := { o.evr with inflight := [{ sev := 6 }] } }
     let g := s.otu.go ed
     s.otu.invalid = false ∧ 6 ≤ ({ code := 1, sev := 6 } : EvReq).sev ∧ g.evr.inflight.length < 64 ∧ g.evr.inflight = [{ sev := 6 }] ∧ OtuR.flag g OTU_EVR_CTRL 0 = true ∧
       g.evr.full = false ∧ g.evr.lastFt ≠ g.lt + 1 ∧ g.evr.was = none ∧ (State.reset.otu.go ed).evr.inflight = []) ∧
    64 ≤ (sO fun o => { o with evr := { o.evr with inflight := List.replicate 64 {} } }).otu.evr.inflight.length ∧
    OtuR.get (sO fun o => OtuR.set o OTU_EVR_FRONTIER 4095).otu OTU_EVR_FRONTIER = 4095 ∧ OtuR.flag (sO fun o => OtuR.set o OTU_EVR_CTRL 0).otu OTU_EVR_CTRL 0 = false ∧
    (let p := pEvq
     p.pw.fail = none ∧ p.evr.inflight.length < 56 ∧ p.evr.inflight = [{ sev := 6 }] ∧ PrdR.get p PRD_EVR_FRONTIER < 262143 ∧ PrdR.flag p PRD_EVR_CTRL 0 = true ∧
       p.evr.full = false ∧ p.evr.lastFt + 1000 ≤ p.ft ∧ p.evr.was = none ∧ 2 ≤ p.phase ∧ p.mramProt = false ∧ p.hnr.open_.used + 80 ≤ 8388608 ∧ ({ sev := 5 } : EvRec).sev ≠ 6 ∧
       PrdR.fld p PRD_EVR_CTRL 1 3 ≤ 5) ∧ rlKey pEvq.rlEntries 0 = 65536 ∧
    (let p := (sP fun p => PrdR.set p PRD_EVR_RL_DEFAULT 0).prd
     PrdR.fld p PRD_EVR_RL_DEFAULT 32 16 = 0) ∧
    (sP fun p => PrdR.set p PRD_EVR_CTRL 0x0E).prd.evr.inflight = [] ∧ PrdR.flag (sP fun p => PrdR.set p PRD_EVR_CTRL 0x0E).prd PRD_EVR_CTRL 0 = false ∧
    2 < PrdR.fld (sP fun p => PrdR.set p PRD_EVR_CTRL 7).prd PRD_EVR_CTRL 1 3 ∧
    (sP fun p => { p with pw := { p.pw with fail := some 0 } }).prd.pw.fail.isSome = true := ⟨oEvq.1, oEvq.2.1, oEvq.2.2.1, oEvq.2.2.2, pEvq_state, pEvq_bucket, evq_others⟩

theorem witness_RecorderRegistersAndResets :
    nextSession [] (OtuR.get State.reset.otu OTU_EVR_SESSION) = 2 ∧ nextSession [] 0xFFFFFFFE = 1 ∧
    (let g := State.reset.otu.go ed
     let p := (sP fun p => PrdR.set { p with jnl := [(jnlKey (1 - p.jnlBank) 0, { seq := 0, valid := 9 })] } PRD_JNL_PREV_SESSION 9).prd.go 9
     State.reset.otu.invalid = false ∧ 1 = OtuR.get g OTU_EVR_SESSION ∧ 2 ≠ OtuR.get g OTU_EVR_SESSION ∧ 1 = PrdR.get p PRD_EVR_SESSION ∧ 2 ≠ PrdR.get p PRD_EVR_SESSION ∧
       rlWordOk g.rlEntries 63 0x0001_0000_0001_0005 = true ∧ rlWordOk g.rlEntries 63 0x0000_0000_0001_0005 = false ∧ rlWordOk p.rlEntries 255 0x0001_0000 = false ∧
       getF (2 ^ 48 - 1) 48 16 = 0 ∧ p.phase ≠ 1 ∧ (p.jnl.lookup (jnlKey (1 - p.jnlBank) 0)).any (fun r => r.valid == PrdR.get p PRD_JNL_PREV_SESSION && r.seq == 0) = true ∧
       p.jnl.lookup (jnlKey (1 - p.jnlBank) 1) = none) := by decide +kernel

/-- The OTU's compressor has a job over 2 bytes at 0 to a 4096-byte output at 4096, method 0. -/
def oCmp (st : Nat) (o : Otu) : Otu :=
  let o := OtuR.set (OtuR.set (OtuR.set o (OTU_CMP_BASE + 0x8) 2) (OTU_CMP_BASE + 0x10) 4096) (OTU_CMP_BASE + 0x18) 4096
  OtuR.set (OtuR.set (OtuR.set o (OTU_CMP_BASE + 0x20) 0x400) (OTU_CMP_BASE + 0x28) st) OTU_ACC_DUMP_SIZE 8192

/-- Decompressor 7 of Priord has a job over the container block of 2 zero bytes, to a 64-byte output at 4096. -/
def pDec (st : Nat) (p : Prd) : Prd :=
  let l := containerObject 0 0 4096 (zeros 2)
  let b := PRD_DEC_BASE 7
  let p := PrdR.set (PrdR.set (PrdR.set (PrdR.set p (b + 0x8) l.length) (b + 0x10) 4096) (b + 0x18) 64) (b + 0x28) st
  PrdR.set { p with hbm := p.hbm.splice 0 l.length [(0, l)] } PRD_CMP_ASSIGN 0xFFFF

theorem witness_CompressorsAndDecompressorsRunJobs :
    (let t := (sO (oCmp 0)).goTo .otu ed
     (sO (oCmp 0)).otu.invalid = false ∧ engBase .otu false 1 = none ∧ engBase .otu false 0 = some OTU_CMP_BASE ∧ t.running .otu OTU_CMP_BASE = false ∧
       t.direct .otu false 0 = true ∧ t.paramsOk .otu false OTU_CMP_BASE = true ∧ t.inMem .otu (t.rd .otu OTU_CMP_BASE) (t.rd .otu (OTU_CMP_BASE + 0x8)) = true ∧
       t.inMem .otu (t.rd .otu (OTU_CMP_BASE + 0x10)) (t.rd .otu (OTU_CMP_BASE + 0x18)) = true) ∧
    (let t := (sO fun o => OtuR.set (oCmp 0 o) OTU_ACC_DUMP_SIZE 1).goTo .otu ed
     t.inMem .otu (t.rd .otu OTU_CMP_BASE) (t.rd .otu (OTU_CMP_BASE + 0x8)) = false ∧ State.reset.paramsOk .otu false OTU_CMP_BASE = false) ∧
    (let t := (sO (oCmp 1)).goTo .otu ed
     let all := containerBlocks 0 0 4096 false 3 0 ((t.mem .otu).read (t.rd .otu OTU_CMP_BASE) (t.rd .otu (OTU_CMP_BASE + 0x8)))
     t.running .otu OTU_CMP_BASE = true ∧ getF (t.rd .otu (OTU_CMP_BASE + 0x20)) 0 2 = 0 ∧ 1024 * getF (t.rd .otu (OTU_CMP_BASE + 0x20)) 8 9 = 4096 ∧
       bit (t.rd .otu (OTU_CMP_BASE + 0x20)) 17 = false ∧ t.rd .otu (OTU_CMP_BASE + 0x40) = 0 ∧ all ≠ [] ∧
       (all.flatMap (fun x => x.1)).length ≤ t.rd .otu (OTU_CMP_BASE + 0x18)) ∧
    (let t := (sP (pDec 1)).goTo .prd ed
     let b := PRD_DEC_BASE 7
     let src := t.prd.hbm.read (t.rd .prd b) (t.rd .prd (b + 0x8))
     engBase .prd true 7 = some b ∧ engBase .prd true 8 = none ∧ engBase .prd false 7 = some (PRD_CMP_BASE 7) ∧ t.running .prd b = true ∧
       (decodeBlocks (bit (t.rd .prd (b + 0x20)) 0) (t.rd .prd (b + 0x18)) (min (src.length + 1) (src.length / 32 + 1)) (t.rd .prd (b + 0x40)) 0 src 0 0) =
         (zeros 2, src.length, 1, 1, some 0)) ∧
    (let t := (sP (pDec 0)).goTo .prd ed
     t.running .prd (PRD_DEC_BASE 7) = false ∧ t.direct .prd true 7 = true ∧ t.paramsOk .prd true (PRD_DEC_BASE 7) = true ∧
       (State.reset.goTo .prd ed).direct .prd true 7 = false) := by decide +kernel

theorem witness_CheckValuesAdvance :
    (let t := (sO fun o => OtuR.set { o with feeds := [(3, (0, 1))] } (OTU_CV_BASE 3 + 0x28) 1).goTo .otu ed
     State.reset.otu.invalid = false ∧ cvBase .otu 4 = none ∧ cvBase .otu 3 = some (OTU_CV_BASE 3) ∧ bit (t.rd .otu (OTU_CV_BASE 3 + 0x28)) 0 = true ∧
       bit (t.rd .otu (OTU_CV_BASE 2 + 0x28)) 0 = false ∧ (t.feeds .otu).lookup 3 = some (0, 1) ∧ 1 = min 1 ((1 + 63) / 64 * 64) ∧ (t.feeds .otu).lookup 2 = none ∧
       t.inMem .otu (t.rd .otu (OTU_CV_BASE 2 + 0x30)) 1 = false) ∧
    (let t := (sP fun p => { p with feeds := [(15, (0, 0))] }).goTo .prd ed
     cvBase .prd 16 = none ∧ cvBase .prd 15 = some (PRD_CV_BASE 15) ∧ bit (t.rd .prd (PRD_CV_BASE 15 + 0x28)) 0 = false ∧ (t.feeds .prd).lookup 15 = some (0, 0) ∧
       0 = min 0 ((0 + 63) / 64 * 64) ∧ t.inMem .prd (t.rd .prd (PRD_CV_BASE 15 + 0x30)) (t.rd .prd (PRD_CV_BASE 15 + 0x38)) = true) := by decide +kernel

/-! ### Witnesses: the management port, rings, operations, exports and sessions -/

/-- A RUNNING Priord with its die ports populated. -/
def pRun (p : Prd) : Prd := PrdR.set (pAll 4000000 p) PRD_BOOT_STATUS 4

/-- SELF_TEST of level 2 holds the management engine. -/
def cmdRun : MgmtCmd := { cmd := 0x12, seq := 65535, arg := 2 }

theorem witness_ManagementRequestsAreAnswered :
    65535 < 2 ^ 16 ∧ ((sP fun p => { p with pw := { p.pw with on := 0 } }).prd.go 9).alive = false ∧
    (let p := State.reset.prd.go 9
     p.alive = true ∧ p.phase ≠ 4 ∧ p.mgmt.last = none) ∧
    (let p := (sP fun p => { pRun p with mgmt := { p.mgmt with run := some cmdRun } }).prd.go 9
     p.alive = true ∧ p.phase = 4 ∧ p.mgmt.run = some cmdRun ∧ cmdRun.cmd = 0x12) ∧
    (let p := (sP pRun).prd.go 9
     p.alive = true ∧ p.phase = 4 ∧ p.mgmt.run = none ∧ p.mgmt.taken = none ∧ p.mgmt.last = none ∧ p.jobOpen = false ∧
       63 * 1048576 + 1048575 + ([0] : List Byte).length ≤ 67108864 ∧ 67108860 + 4 ≤ 67108864 ∧ 50331648 ≤ 50331648 ∧ ¬67108864 + 1 ≤ 67108864) ∧
    (let p := (sP fun p => { pRun p with mgmt := { p.mgmt with last := some (0x01, 65535, 0, [1]) }, ctx := [(1, { st := 2, tag := 7 })] }).prd.go 9
     p.mgmt.last = some (0x01, 65535, 0, [1]) ∧ p.jobOpen = true ∧ p.mgmt.run = none ∧ p.mgmt.taken = none) ∧
    (let p := (sP fun p => { pRun p with mgmt := { p.mgmt with taken := some (4000000, 0x13) } }).prd.go 9
     p.alive = true ∧ p.phase = 4 ∧ p.mgmt.run = none ∧ p.mgmt.taken = some (p.ft, 0x13)) := by decide +kernel

theorem witness_LongCommandsHoldTheEngine :
    (let p := (sP pRun).prd.go 9
     p.alive = true ∧ p.phase = 4 ∧ p.mgmt.run = none ∧ p.mgmt.taken = none ∧ p.mgmt.last = none ∧ p.jobOpen = false ∧ 50331648 ≤ 50331648 ∧ (State.reset.prd.go 9).mgmt.run = none) ∧
    (∀ c ∈ [0x10, 0x11, 0x12, 0x13], ((sP fun p => { pRun p with mgmt := { p.mgmt with run := some { cmdRun with cmd := c } } }).prd.go 9).mgmt.run = some { cmdRun with cmd := c }) ∧
    ((sP fun p => { pRun p with mgmt := { p.mgmt with run := some { cmd := 0x10, pldm := true } } }).prd.go 9).mgmt.run = some { cmd := 0x10, pldm := true } := by decide +kernel

/-- A descriptor with TAG 5 of job `job` at level `level`, with FIRST, LAST, the bytes of its selector, and QFLAGS. -/
def dsc (opc job level first last : Nat) (sel : List Byte := []) (qf : Nat := 0) : List Byte :=
  le 1 opc ++ le 1 0 ++ le 2 5 ++ le 2 job ++ le 1 level ++ le 1 0 ++ le 8 first ++ le 8 last ++ le 4 0 ++ le 4 0x1FFFF ++ fit 16 sel ++ le 8 4096 ++ le 4 4096 ++ le 4 qf

/-- Operation 5 of ring `k`, which has just been fetched. -/
def opq (k : Nat) (d : List Byte) : Op := { ring := k, idx := 0, desc := d }

/-- Ring `k` has the configuration `c` and these operations in flight. -/
def pOps (k : Nat) (c : RingCfg) (l : List Op) (p : Prd) : Prd := { pRun p with rings := { p.rings with cfg := [(k, c)], ops := l } }

/-- Ring `k` is ACTIVE, with a descriptor to fetch, in slot 1 that job 7 holds. -/
def pRing (k : Nat) (c : RingCfg) (l : List Op) (p : Prd) : Prd :=
  PrdR.set (PrdR.set { pOps k c l p with ctx := [(1, { st := 2, tag := 7, nRanks := 1, homes := [2 ^ 31] })] } (PRD_RING_STATE k) 1) (PRD_RING_TAIL k) 64

theorem witness_RingsAreConfiguredAndRung :
    (let p := (sP fun p => PrdR.set (PrdR.set (pOps 255 {} [] p) PRD_RING_SEL 255) PRD_RING_STAGE_CFG 0x100C0).prd.go 9
     let c : RingCfg := { p.ring 255 with cfg := PrdR.get p PRD_RING_STAGE_CFG, limits := PrdR.get p PRD_RING_STAGE_LIMITS, descBase := PrdR.get p PRD_RING_STAGE_DESC_BASE, cmplBase := PrdR.get p PRD_RING_STAGE_CMPL_BASE }
     PrdR.get p PRD_RING_SEL = 255 ∧ p.commitOk 255 c = true ∧ c.enabled = true ∧ (p.ring 255).enabled = false ∧ p.ringState 255 ≠ 2) ∧
    (let p := (sP fun p => PrdR.set (PrdR.set (pOps 65535 { cfg := 0x104C0 } [] p) PRD_RING_SEL 65535) PRD_RING_STAGE_CFG 0x4C0).prd.go 9
     let c : RingCfg := { p.ring 65535 with cfg := PrdR.get p PRD_RING_STAGE_CFG, limits := PrdR.get p PRD_RING_STAGE_LIMITS, descBase := PrdR.get p PRD_RING_STAGE_DESC_BASE, cmplBase := PrdR.get p PRD_RING_STAGE_CMPL_BASE }
     PrdR.get p PRD_RING_SEL = 65535 ∧ p.commitOk 65535 c = true ∧ c.enabled = false ∧ (p.ring 65535).enabled = true ∧ p.rings.ops = []) ∧
    (let p := (sP fun p => PrdR.set p PRD_RING_SEL 256).prd.go 9
     PrdR.get p PRD_RING_SEL = 256 ∧ ({ p.ring 256 with cfg := 0xC0 } : RingCfg).slot = 0) ∧
    (let p := (sP (pRing 256 { cfg := 0x104C0 } [])).prd.go 9
     p.ringState 256 = 1 ∧ sub32 64 (PrdR.get p (PRD_RING_DESC_HEAD 256)) ≤ (p.ring 256).size ∧ (p.ring 256).size < sub32 65 (PrdR.get p (PRD_RING_DESC_HEAD 256)) ∧
       p.openChain 256 = 0 ∧ p.nextRing = some 256 ∧ p.slotFree 256 = true ∧ (p.ring 256).origin = 0 ∧ p.readDesc 256 (some (dsc 5 7 0 0 0)) = some (dsc 5 7 0 0 0) ∧
       bit (dFlags (dsc 5 7 0 0 0)) 0 = false ∧ p.rings.ops = [] ∧ opcodeOk (p.ring 256).type 5 = true ∧ opcodeOk (p.ring 256).type 0x31 = false ∧
       (State.reset.prd.go 9).nextRing = none) ∧
    (let p := (sP (pRing 256 { cfg := 0x104C0 } (List.replicate 960 { ring := 300 }))).prd.go 9
     p.nextRing = some 256 ∧ p.slotFree 256 = false) ∧
    (let p := (sP (pRing 256 { cfg := 0x104C0, limits := 2 } [{ opq 256 (dsc 5 7 0 0 0) with wait := .sub {}, idx := 3 }])).prd.go 9
     p.rings.ops[0]? = some { opq 256 (dsc 5 7 0 0 0) with wait := .sub {}, idx := 3 } ∧ p.nextRing = some 256 ∧ p.slotFree 256 = true ∧ p.openChain 256 = 0 ∧
       p.rings.ops.any (fun q => q.ring == 256 && dTag q.desc == 5) = true ∧ PrdR.get p (PRD_RING_DESC_HEAD 256) = 0) := by decide +kernel

/-- Closed accord 10 of the fleet context at tray level. -/
def accDone : AccNode := { aFleet with st := 1, closeT := 3999998 }

/-- Whether one accord answers, and it is `a`. -/
def answersOne (a : AccNode) : Resolved → Bool
  | .accords [b] => a == b
  | _ => false

theorem witness_OperationsTakeTheirTurn :
    (let q := opq 255 (dsc 2 0 1 absent 0)
     let p := (sP fun p => { pOps 255 {} [q] p with accs := [accDone] }).prd.go 9
     p.opOf 255 5 (· == 3) = none ∧ p.opOf 255 5 (· == 2) = some q ∧ p.canStart q = true ∧ p.ringsBusy = false ∧ p.sameAccord q = false ∧
       p.rings.ops.all (fun y => y.wait != .accord) = true ∧ p.selectorStop q 2 = none ∧ p.rangeOk 0 (dFirst q.desc) (dLast q.desc) = true ∧
       p.levelCode (dJob q.desc) (dLevel q.desc) = 1 ∧ answersOne accDone (p.resolve 0 0 1 (dFirst q.desc) (dLast q.desc) (bit (dQf q.desc) 1)) = true ∧
       (p.answerBlock 255 2 1 q.desc accDone).length ≤ dLen q.desc ∧ (p.ring 255).origin = 0) ∧
    (let q := opq 255 (dsc 2 0 1 20 20 [] 2)
     let p := (sP (pOps 255 {} [q])).prd.go 9
     p.opOf 255 5 (· == 2) = some q ∧ p.selectorStop q 2 = none ∧ p.rangeOk 0 20 20 = true ∧ p.rangeOk 0 21 20 = false ∧ p.rangeOk 0 0 40959 = true ∧ p.rangeOk 0 0 40960 = false ∧
       (match p.resolve 0 0 1 20 20 true with | .wait => true | _ => false) = true ∧
       (match p.resolve 0 0 1 absent 20 true with | .stop 2 n => n == absent | _ => false) = true) ∧
    (let q := opq 255 (dsc 1 9 1 absent 0)
     (((sP (pOps 255 {} [q])).prd.go 9).selectorStop q 1).isSome = true) ∧
    (let q := opq 255 (dsc 5 0 0 0 absent [1, 0])
     let r := opq 255 (dsc 5 0 0 0 absent [0])
     let p := (sP (pOps 255 {} [{ ring := 3, idx := 9 }, q, r])).prd.go 9
     p.opOf 255 5 (· == 5) = some q ∧ p.canStart q = true ∧ p.canStart { r with idx := 1 } = false ∧ p.recordStop q = none ∧ (p.recordStop r).isSome = true ∧ (p.ring 255).origin = 0) ∧
    (let q := opq 255 (dsc 5 0 0 0 0)
     let p := (sP fun p => { pOps 255 {} [q] p with mgmt := { p.mgmt with run := some cmdRun } }).prd.go 9
     p.opOf 255 5 (· == 5) = some q ∧ p.canStart q = true ∧ p.ringsBusy = true) := by decide +kernel

/-- A record of heart notes. -/
def note : HRec := { rcls := 1, body := [1], ft := 5 }

/-- What a delivery writes, where it is ready. -/
def readyBytes : Delivery → Option (List Byte)
  | .ready b _ => some b
  | _ => none

theorem witness_SubscriptionsDeliverAndCompletionsAreWritten :
    (let q := opq 255 (dsc 0x12 0 0 0 absent [1])
     let p := (sP (pOps 255 {} [q])).prd.go 9
     p.opOf 255 5 (· == 0x12) = some q ∧ p.canStart q = true ∧ p.ringsBusy = false ∧ p.sameAccord q = false ∧ p.recordStop q = none ∧
       (p.recordStop (opq 255 (dsc 0x12 0 0 0 absent [0]))).isSome = true ∧ p.tree.reqs = [] ∧ p.tree.switches = [] ∧ p.rings.ops.all (fun q => q.ring != 256) = true) ∧
    (let q := opq 255 (dsc 0x11 0 1 2 0)
     let p := (sP (pOps 255 {} [q])).prd.go 9
     p.opOf 255 5 (· == 0x11) = some q ∧ p.canStart q = true ∧ fieldAt q.desc 8 1 = 2 ∧ fieldAt q.desc 9 15 = 0 ∧ p.selectorStop q 2 = none ∧ p.ctxStop q = none ∧
       fieldAt (dsc 0x11 0 1 4 0) 8 1 = 4 ∧ fieldAt (dsc 0x11 0 1 256 0) 9 15 ≠ 0 ∧ p.ctxStop (opq 255 (dsc 0x11 9 1 2 0)) = some 0x0F) ∧
    ((sP fun p => { p with ctx := [(0, { items := [{ op := 0, src := 0 }] })] }).prd.go 9).indexOk 0 0 [] = true ∧
    (let q := opq 255 (dsc 0x1F 0 0 0 0 (zeros 8 ++ [5]))
     let y : Op := { opq 255 (dsc 0x12 0 0 0 0) with idx := 3, wait := .sub {} }
     let p := (sP (pOps 255 {} [y, q])).prd.go 9
     p.opOf 255 5 (· == 0x1F) = some q ∧ p.canStart q = true ∧ p.ctxStop q = none ∧ dKey q.desc % 65536 = 5 ∧
       p.rings.ops.find? (fun z => z.ring == 255 && dTag z.desc == 5 && (match z.wait with | .sub _ => true | _ => false)) = some y ∧
       ((sP (pOps 255 {} [q])).prd.go 9).rings.ops = [q]) ∧
    (let q : Op := { opq 255 (dsc 5 0 0 0 0) with wait := .done {} }
     let p := (sP (pOps 255 {} [q])).prd.go 9
     p.rings.ops.filter (·.ring == 255) = [q] ∧ q.chain = 0 ∧ p.cmplFree 255 = true ∧ (p.ring 255).origin = 0 ∧ p.ringState 255 ≠ 2 ∧
       ((sP fun p => PrdR.set (pOps 255 {} [q] p) (PRD_RING_CMPL_TAIL 255) 64).prd.go 9).cmplFree 255 = false) ∧
    (let x : Subscr := { due := [.record note], off := 4096 }
     let q : Op := { opq 255 (dsc 0x12 0 0 0 absent [1]) with wait := .sub x }
     let p := (sP (pOps 255 {} [q])).prd.go 9
     p.rings.ops.filter (·.ring == 255) = [q] ∧ (readyBytes (p.delivery q (.record note))).any (fun b => x.place b.length (dLen q.desc) == some 0) = true ∧ x.lost = 0 ∧
       p.cmplFree 255 = true ∧ x.place 4097 (dLen q.desc) = none) := by decide +kernel

/-- A hall root of one tray. -/
def pHall (p : Prd) : Prd := { PrdR.set p PRD_BOOT_STRAPS 0x3000 with
  tree := { p.tree with roles := [(0, 15)] }
  cfg := { p.cfg with roles := [(0, 15)], ports := (List.range 32).map fun n => (n, 5) } }

/-- The loaded model of a Nose. -/
def nmod : NoseModel := { digest := 9 }

theorem witness_ControlOperationsAct :
    (let q := opq 256 (dsc 0x21 7 0 1 0)
     let p := (sP (pRing 256 { cfg := 0x4C1 } [q])).prd.go 9
     p.opOf 256 5 (· == 0x21) = some q ∧ p.canStart q = true ∧ p.ringsBusy = false ∧ p.sameAccord q = false ∧ p.ctxStop q = none ∧ getF (fieldAt q.desc 8 8) 0 2 ≠ 2) ∧
    (let q := opq 256 (dsc 0x21 7 0 2 0)
     let p := (sP (pRing 256 { cfg := 0x4C1 } [q])).prd.go 9
     p.opOf 256 5 (· == 0x21) = some q ∧ p.ctxStop q = none ∧ getF (fieldAt q.desc 8 8) 0 2 = 2 ∧ getF (fieldAt q.desc 8 8) 2 30 = 0 ∧ dJob q.desc ≠ 0 ∧ dFlags q.desc < 16 ∧
       fieldAt q.desc 7 1 = 0 ∧ getF (fieldAt q.desc 8 8) 52 12 = 0) ∧
    (let q := opq 256 (dsc 0x22 7 0 3 8)
     let p := (sP fun p => { pRing 256 { cfg := 0x4C1 } [q] p with hnr := { p.hnr with flc := [(2, { st := 4, scope := 2, tag := 8, freezeT := 8 }), (3, { st := 4, scope := 2, tag := 7, freezeT := 8 })] } }).prd.go 9
     p.opOf 256 5 (· == 0x22) = some q ∧ p.ctxStop q = none ∧ fieldAt q.desc 8 1 = 3 ∧ (p.flacon 3).scope = 2 ∧ (p.flacon 3).tag = dJob q.desc ∧ (p.flacon 3).st = 4 ∧
       (p.flacon 3).freezeT = fieldAt q.desc 16 8 ∧ p.hnr.queue = [] ∧ fieldAt (dsc 0x22 7 0 4 8) 8 1 = 4 ∧ (p.flacon 2).tag ≠ dJob q.desc ∧
       (p.flacon 3).freezeT ≠ fieldAt (dsc 0x22 7 0 3 9) 16 8) ∧
    (∀ b, let q := opq 255 (dsc 0x23 0 0 4000400 0)
     let p := (sP fun p => if b then pHall (pOps 255 { cfg := 0xC1 } [q] p) else pOps 255 { cfg := 0xC1 } [q] p).prd.go 9
     p.opOf 255 5 (· == 0x23) = some q ∧ p.canStart q = true ∧ p.ctxStop q = none ∧ p.isRoot = b) ∧
    ([CfgEntry.accordSwitch 1 1].all jobKey = false ∧ [CfgEntry.itemTable []].all jobKey = true) ∧
    (∀ b, let q := opq 255 (dsc 0x24 0 0 0 0)
     let p := (sP fun p => if b then pHall (pOps 255 { cfg := 0xC1 } [q] p) else pOps 255 { cfg := 0xC1 } [q] p).prd.go 9
     p.opOf 255 5 (· == 0x24) = some q ∧ p.canStart q = true ∧ p.isRoot = b ∧ itemsOk msg.items = true ∧
       (b = true → p.homesOk msg.nRanks msg.homes = true ∧ p.portsOk msg.nRanks msg.ports = true ∧ p.tree.reqs = [])) ∧
    ((sP fun p => { pHall p with tree := { (pHall p).tree with reqs := [{ tag := 65535 }] } }).prd.go 9).tree.reqs = [{ tag := 65535 }] ∧
    (∀ c ∈ [1, 2, 4, 8], let q := opq 255 (dsc 0x25 0 0 c 0)
     let p := (sP (pOps 255 { cfg := 0xC1 } [q])).prd.go 9
     p.opOf 255 5 (· == 0x25) = some q ∧ p.canStart q = true ∧ fieldAt q.desc 8 8 = c ∧ fieldAt q.desc 32 8 ≤ 32 ∧ p.safe = false ∧ p.flashing = false ∧
       p.nose.busy = none ∧ p.nose.waiting = []) ∧
    (PrdR.set State.reset.prd PRD_BOOT_STATUS 12).safe = true ∧ ({ State.reset.prd with mgmt := { run := some { cmd := 0x10 } } } : Prd).flashing = true := by decide +kernel

theorem witness_ControlOperationsAct_config :
    (let q := opq 255 (dsc 0x23 0 0 4000400 0)
     let p := (sP fun p => pHall (pOps 255 { cfg := 0xC1 } [q] p)).prd.go 9
     dFlags q.desc < 16 ∧ fieldAt q.desc 7 1 = 0 ∧ p.configRefused (fieldAt q.desc 8 8) [] = none ∧ p.configRefused 0 [.itemTable []] = some 4 ∧ cfgSwitch [] = none ∧
       p.tree.reqs = [] ∧ p.tree.switches = []) := by decide +kernel

/-- An export object of the software area that holds nothing. -/
def emptyExport : List Byte := exportObject { kind := 0, flags := 0, tray := 0, first := 0, last := 9 } []

theorem witness_ExportsAndReplays :
    (let q := opq 255 (dsc 0x31 0 0 5 5)
     let p := (sP fun p => { pOps 255 { cfg := 0xC3 } [q] p with hnr := { p.hnr with open_ := { recs := [note] } } }).prd.go 9
     p.opOf 255 5 (· == 0x31) = some q ∧ p.canStart q = true ∧ p.ringsBusy = false ∧ p.sameAccord q = false ∧ p.compressors = true ∧ p.pw.fail = none ∧ p.ctxStop q = none ∧
       dFlags q.desc < 16 ∧ fieldAt q.desc 7 1 = 0 ∧ fieldAt q.desc 8 8 ≤ fieldAt q.desc 16 8 ∧ p.notes.filter (fun r => decide (5 ≤ r.stamp && r.stamp ≤ 5)) = [note] ∧
       fieldAt (dsc 0x31 0 0 6 5) 16 8 < fieldAt (dsc 0x31 0 0 6 5) 8 8) ∧
    (PrdR.set State.reset.prd PRD_CMP_ASSIGN 0xFF).compressors = false ∧
    (let q := opq 255 (dsc 0x32 0 0 3 8)
     let p := (sP fun p => { pOps 255 { cfg := 0xC3 } [q] p with hnr := { p.hnr with flc := [(3, { st := 4, freezeT := 8, segs := [{ recs := [note] }] })] } }).prd.go 9
     p.opOf 255 5 (· == 0x32) = some q ∧ p.canStart q = true ∧ p.compressors = true ∧ p.ctxStop q = none ∧ fieldAt q.desc 8 1 = 3 ∧ (p.flacon 3).st = 4 ∧
       (p.flacon 3).freezeT = fieldAt q.desc 16 8 ∧ p.buddy.gap = false ∧ (p.flacon 2).st ≠ 4) ∧
    PrdR.fld (PrdR.set State.reset.prd PRD_CMP_ASSIGN 0xFF00) PRD_CMP_ASSIGN 8 8 = 0xFF := by decide +kernel

theorem witness_ExportsAndReplays_periodic :
    (let p := (sP fun p => { pRing 255 { cfg := 0x300C3 } [] p with clk := { st := 2, ft := 4000000000 } }).prd.go 9
     p.ringState 255 = 1 ∧ (p.ring 255).type = 3 ∧ bit (p.ring 255).cfg 17 = true ∧ p.ringsBusy = false ∧ p.compressors = true ∧ p.pw.fail = none ∧
       (p.ring 255).autoAt + PrdR.get p PRD_EXPORT_PERIOD * 400000 ≤ p.ft ∧ p.buddy.gap = false ∧ p.ringState 254 ≠ 1) := by decide +kernel

theorem witness_ExportsAndReplays_replay :
    (let q := opq 255 (dsc 0x41 0 0 0xF36800000 emptyExport.length (le 8 9))
     let p := (sP fun p => { pOps 255 { cfg := 0xC4 } [q] p with nose := { p.nose with model := some nmod }, hbm := p.hbm.splice 0xF36800000 emptyExport.length [(0, emptyExport)] }).prd.go 9
     (p.ring 255).type = 4 ∧ p.opOf 255 5 (fun _ => true) = some q ∧ p.canStart q = true ∧ p.nose.busy = none ∧ p.nose.waiting = [] ∧ PrdR.fld p PRD_CMP_ASSIGN 8 8 ≠ 0xFF ∧
       p.ctxStop q = none ∧ inSoftware (fieldAt q.desc 8 8) (fieldAt q.desc 16 8) = true ∧ p.hbm.read 0xF36800000 emptyExport.length = emptyExport ∧ exHeadOk emptyExport = true ∧
       p.nose.model = some nmod ∧ fieldAt q.desc 32 8 = nmod.digest % 2 ^ 64 ∧ fieldAt q.desc 24 8 ≠ 8 ∧ (p.ring 255).origin = 0 ∧
       decodeBlocks true (fieldAt emptyExport 32 8) (fieldAt emptyExport 12 4) 0 0 (emptyExport.drop 64) 0 0 = ([], 0, 0, 0, none)) := by decide +kernel

/-- A packet that has been sent `n` times. -/
def pkt (n : Nat) : QpPkt := { seq := 9, sends := n, at_ := 4000000, frees := true }

/-- Session 1 of REMOTE ring 255. -/
def pQp (l : List QpPkt) (p : Prd) : Prd :=
  { pOps 255 { cfg := 0xC8, descBase := 0xF36800000 } [opq 255 (dsc 5 0 0 0 0)] p with
    rings := { (pOps 255 { cfg := 0xC8, descBase := 0xF36800000 } [opq 255 (dsc 5 0 0 0 0)] p).rings with qp := [{ id := 1, ring := 255, rx := 7, unacked := l }] } }

theorem witness_QuerySessionsCarryPackets :
    (let p := (sP (pQp [])).prd.go 9
     PrdR.flag p PRD_QP_CFG 16 = true ∧ p.rings.qp.find? (·.id == 1) = some { id := 1, ring := 255, rx := 7 } ∧ 7 + 1 < 9 ∧ 7 ≤ 7 ∧
       sub32 (PrdR.get p (PRD_RING_TAIL 255)) (PrdR.get p (PRD_RING_DESC_HEAD 255)) + 64 ≤ (p.ring 255).size ∧ inSoftware (p.ring 255).descBase (64 * (p.ring 255).size) = true) ∧
    (let p := (sP fun p => { pOps 255 { cfg := 0xC8 } [] p with rings := { (pOps 255 { cfg := 0xC8 } [] p).rings with qp := [] } }).prd.go 9
     p.rings.cfg.lookup 255 = some { cfg := 0xC8 } ∧ (p.ring 255).origin = 1 ∧ p.rings.qp = []) ∧
    PrdR.flag (PrdR.set State.reset.prd PRD_QP_CFG 0) PRD_QP_CFG 16 = false ∧
    (let p := (sP (pQp [pkt 7])).prd.go 9
     p.ft < 4000000 + PrdR.get p PRD_QP_RETX * tickUs ∧ ([pkt 7].filter fun x => decide (x.seq ≤ 9) && x.frees).length = 1) ∧
    (let p := (sP (pQp [pkt 7])).prd.go 6000000
     4000000 + PrdR.get p PRD_QP_RETX * tickUs ≤ p.ft ∧ (pkt 7).sends < 8 ∧ 8 ≤ (pkt 8).sends ∧
       p.rings.ops.filter (·.ring == 255) = [opq 255 (dsc 5 0 0 0 0)] ∧ (opq 255 (dsc 5 0 0 0 0)).wait.isDone = false) := by decide +kernel

/-! ### Witnesses: start-up, buddies, power and registers -/

/-- A descriptor of the management complex with no entries, for a carve-out of 64 MiB at 0. -/
def descOf : List Byte :=
  let d (crc : Nat) : List Byte := [0x55, 0x4F, 0x54, 0x44] ++ le 2 1 ++ le 2 0 ++ le 4 80 ++ le 4 crc ++ le 8 0 ++ le 8 67108864 ++ le 2 1200 ++ zeros 46
  d (crc32c (d 0))

theorem witness_StartUpReadsStrapsImageAndDescriptor :
    (let p := (sP fun p => { p with pw := { p.pw with inReset := true } }).prd.go 9
     p.pw.on = 2 ∧ p.pw.inReset = true) ∧
    (let p := State.reset.prd.go 9
     4095 < 4096 ∧ p.pw.on = 2 ∧ p.pw.inReset = false ∧ p.phase = 0 ∧ p.mgmt.run = none ∧ p.strapsOk = true ∧ (PrdR.set p PRD_BOOT_STRAPS 0).strapsOk = false ∧ cfgCheck p.pw.nor p.tray true true = 1 ∧ cfgCheck p.pw.nor p.tray false true = 0x0C) ∧
    (∀ b, let p := (sP fun p => PrdR.set p PRD_BOOT_STATUS (if b then 9 else 1)).prd.go 9
     p.phase = 1 ∧ p.safe = b) ∧
    (let g := State.reset.otu.go ed
     State.reset.otu.invalid = false ∧ OtuR.get g OTU_DESC_STATUS = 0 ∧ descCrcOk descOf = true ∧ descHeader descOf = some [] ∧ fieldAt descOf 16 8 + fieldAt descOf 24 8 = 67108864 ∧
       descCrcOk (descOf ++ [0]) = false ∧ descCrcOk (zeros 12) = false ∧
       (let d := [0, 0, 0, 0] ++ (descOf.drop 4).take 8; let e := d ++ le 4 (crc32c (d ++ zeros 4)); descCrcOk e = true ∧ descHeader e = none) ∧
       OtuR.get (OtuR.set g OTU_DESC_STATUS 1) OTU_DESC_STATUS ≠ 0) := by decide +kernel

/-- The ROLES section of a fleet of one tray. -/
def imgRoles : List Byte := [15] ++ zeros 4095

/-- A configuration image of a fleet of one tray, whose SHA-384 is taken from outside this model. -/
def cfgImg : List Byte :=
  let sect (t o n c : Nat) : List Byte := le 2 t ++ le 2 0 ++ le 4 o ++ le 4 n ++ le 4 c ++ zeros 16
  [0x55, 0x43, 0x46, 0x47] ++ le 2 1 ++ le 2 4 ++ le 4 4664 ++ le 4 64 ++ le 8 7 ++ le 2 0x0100 ++ zeros 38 ++
  sect 1 192 4096 0xd71d2b27 ++ sect 2 4288 256 0xb872b190 ++ sect 4 4544 16 0x551c3da9 ++ sect 8 4608 8 0x8c28b28a ++
  imgRoles ++ zeros 256 ++ le 4 5722 ++ le 4 1907 ++ le 8 0xF36800000 ++ zeros 48 ++ zeros 8 ++
  le 48 0x7247d1ebeac92c032b89bd19b56fcc76882e5a3eee86a3c210e3b8d881af20e703de777eb38625c1d95e5925d3270ea0

theorem witness_StartUpReadsStrapsImageAndDescriptor_image :
    (let p := (sP fun p => PrdR.set { p with pw := { p.pw with nor := cfgImg } } PRD_BOOT_STRAPS 0x2000).prd.go 9
     p.pw.on = 2 ∧ p.pw.inReset = false ∧ p.phase = 0 ∧ p.mgmt.run = none ∧ p.strapsOk = true ∧ p.tray = 0 ∧ p.pw.nor = cfgImg) := by decide +kernel

/-- The padded message under the image's digest. -/
def imgMsg : List Byte := shaPad (cfgImg.take 4616)

/-- The SHA-384 state after 8 × `i` of its 37 blocks. -/
def imgSt : Nat → List Nat
  | 1 => [0xb24b6a4ce9a60a3b, 0xbd0f629d0160a1f4, 0xbf9ed54984163133, 0xffd5fc35d6898c5c,
      0x28104d9e51be2473, 0x3095d08e1106e184, 0x781c12ddf69ba570, 0x75bc76aa4a9bfe70]
  | 2 => [0xb3d3792a79f057e6, 0x3b592c2c59370e6c, 0xc9d6d24eae1159dd, 0xd1280c1c5ba55bff,
      0x8d5d040e70a5328f, 0x5b0638876405af4f, 0xa3aec5b6646d5e59, 0x8f82d8069b1ecdf6]
  | 3 => [0x65a2fa9ea918a574, 0xbb5802ff371bd5fa, 0xa4a4b84a786eb49a, 0x4ad19a66aa43b511,
      0x1b3dac165ea09dd4, 0x735d248f446aad07, 0x5adad1c941e6c2a9, 0x58da20a3784f82ef]
  | 4 => [0xce1f4c1f6ceb3dd9, 0xf8ce1d1915399f6d, 0xeafa73e467676fa1, 0xfe5a0d31dd054230,
      0xc0dc66ddcd90dca9, 0xa0c6a73266d79cea, 0xf137b9ef0fc52a4, 0x2c3fb698777f46c6]
  | _ => shaIv

/-- SHA-384 over consecutive blocks. -/
theorem shaBlocks_add (n : Nat) : ∀ (m : Nat) (s : List Nat) (l : List Byte),
    shaBlocks (m + n) s l = shaBlocks n (shaBlocks m s l) (l.drop (128 * m))
  | 0, s, l => by simp [shaBlocks]
  | m + 1, s, l => by
    have h : m + 1 + n = (m + n) + 1 := by omega
    have d : 128 + 128 * m = 128 * (m + 1) := by omega
    rw [h, shaBlocks, shaBlocks, shaBlocks_add n m, List.drop_drop, d]

theorem img_sha_1 : shaBlocks 8 shaIv imgMsg = imgSt 1 := by decide +kernel
theorem img_sha_2 : shaBlocks 8 (imgSt 1) (imgMsg.drop 1024) = imgSt 2 := by decide +kernel
theorem img_sha_3 : shaBlocks 8 (imgSt 2) (imgMsg.drop 2048) = imgSt 3 := by decide +kernel
theorem img_sha_4 : shaBlocks 8 (imgSt 3) (imgMsg.drop 3072) = imgSt 4 := by decide +kernel
theorem img_sha_5 :
    ((shaBlocks 5 (imgSt 4) (imgMsg.drop 4096)).take 6).flatMap (be 8) = (cfgImg.drop 4616).take 48 := by decide +kernel

theorem img_sha_steps : shaBlocks 37 shaIv imgMsg = shaBlocks 5 (imgSt 4) (imgMsg.drop 4096) := by
  rw [show 37 = 8 + (8 + (8 + (8 + 5))) from rfl, shaBlocks_add, img_sha_1, shaBlocks_add, img_sha_2, shaBlocks_add,
    List.drop_drop, List.drop_drop, img_sha_3, shaBlocks_add, List.drop_drop, img_sha_4]

theorem img_digest : cfgDigestOk cfgImg = true := by
  have h : cfgTotal cfgImg - 48 = 4616 := by decide +kernel
  have n : (shaPad (cfgImg.take 4616)).length / 128 = 37 := by decide +kernel
  have e := img_sha_steps
  unfold imgMsg at e
  rw [cfgDigestOk, cfgSha, h, sha384, n, e, ← imgMsg, img_sha_5]
  exact beq_self_eq_true _

theorem img_head : cfgImg.take 4 = [0x55, 0x43, 0x46, 0x47] ∧ cfgHeaderOk cfgImg = true ∧ cfgSectionsOk cfgImg = true ∧
    cfgRegsOk cfgImg = true := by decide +kernel
theorem img_crcs : cfgCrcsOk cfgImg = true := by decide +kernel
theorem img_roles : rolesOk (cfgRoles cfgImg) 0 = true := by decide +kernel
theorem img_values : cfgValuesOk cfgImg = true := by decide +kernel

theorem test_config_image_valid : cfgCheck cfgImg 0 true true = 0 := by
  simp [cfgCheck, img_head, img_crcs, img_digest, img_roles, img_values]

/-- Both buddies are up and checked; the rebuild is in state `r`. -/
def pBuddy (r : Nat) (p : Prd) : Prd := PrdR.set (PrdR.set (pAt 4000000 p) PRD_BUDDY_STATUS 5) PRD_RBLD_STATUS r

theorem witness_BuddiesMirrorServeAndRebuild :
    (let p := (sP fun p => { pBuddy 1 p with buddy := { p.buddy with epochs := [(7, 5)], store := [.epoch 7 3 5] } }).prd.go 9
     p.safe = false ∧ PrdR.fld p PRD_BUDDY_STATUS 0 2 = 1 ∧ PrdR.fld p PRD_BUDDY_STATUS 2 2 = 1 ∧ p.rebuild = 1 ∧ fieldAt [] 5 1 = 0 ∧ (p.buddy.epochs.lookup 7).getD 0 = 5 ∧ 4 < 5 ∧
       (MirrorItem.epoch 4095 0 0).tray ≠ p.tray ∧ p.buddy.store.filter (fun x => x.tray == 7) = [.epoch 7 3 5] ∧ p.ft < p.buddy.askedAt + 10000 * tickUs) ∧
    (let p := (sP (pBuddy 1)).prd.go 40000000
     p.rebuild = 1 ∧ p.buddy.askedAt + 10000 * tickUs ≤ p.ft) ∧
    (let p := (sP fun p => PrdR.set (pBuddy 2 p) PRD_RBLD_STORE_ADDR 0xF36800000).prd.go 9
     p.rebuild = 2 ∧ inSoftware (PrdR.get p PRD_RBLD_STORE_ADDR) (PrdR.get p PRD_RBLD_STORE_LEN) = true ∧
       storeObjects (PrdR.get p PRD_RBLD_STORE_LEN / 64 + 1) (p.hbm.read (PrdR.get p PRD_RBLD_STORE_ADDR) (PrdR.get p PRD_RBLD_STORE_LEN)) = []) ∧
    (let p := (sP (pBuddy 0)).prd.go 9
     p.rebuild = 0 ∧ OtuR.get (State.reset.otu.go ed) OTU_RCV_EPOCH = 0) ∧
    inSoftware (PrdR.get State.reset.prd PRD_RBLD_STORE_ADDR) (PrdR.get State.reset.prd PRD_RBLD_STORE_LEN) = false ∧
    ((sP pRun).prd.go 9).squelched = false ∧ (State.reset.prd.go 9).squelched = true ∧ PrdR.fld State.reset.prd PRD_BUDDY_STATUS 0 2 ≠ 1 ∧ OtuR.get (OtuR.set State.reset.otu OTU_RCV_EPOCH 2) OTU_RCV_EPOCH = 2 := by decide +kernel

/-- Power failed at fleet time 0, in state `on`. -/
def pFail (on : Nat) (p : Prd) : Prd := { p with pw := { p.pw with on, fail := some 0 } }

theorem witness_PowerComesFailsAndFalls :
    ((sP fun p => { p with pw := { p.pw with on := 0 } }).prd.go 9).pw.on = 0 ∧
    (let p := State.reset.prd.go 9
     p.pw.on = 2 ∧ p.pw.fail = none ∧ p.evr.inflight = []) ∧
    (let p := (sP (pFail 2)).prd.go 79999
     p.pw.fail = some 0 ∧ p.ft < 0 + 20 * tickUs) ∧
    (let p := (sP (pFail 2)).prd.go 80000
     p.pw.fail = some 0 ∧ 0 + 20 * tickUs ≤ p.ft ∧ p.mramProt = false ∧ p.evr.inflight = [] ∧ p.ft < 0 + 2000 * tickUs) ∧
    (let p := (sP fun p => { pFail 2 p with mramProt := true }).prd.go 8000000
     p.pw.fail = some 0 ∧ 0 + 2000 * tickUs ≤ p.ft ∧ p.mramProt = true) := by decide +kernel

theorem witness_ThermalClockCageAndTestEvents :
    (let p := State.reset.prd.go 9
     (0, PRD_THERM_HOTSPOT) ∈ [(0, PRD_THERM_HOTSPOT), (1, PRD_THERM_HBM 0), (2, PRD_THERM_HBM 1), (3, PRD_THERM_OCXO), (4, PRD_THERM_INLET)] ∧
       (0, PrdR.fld p PRD_THERM_CFG 0 8) ∈ [(0, PrdR.fld p PRD_THERM_CFG 0 8), (1, 85), (2, 85), (3, 75), (4, 40)] ∧ (4, 40) ∈ [(0, PrdR.fld p PRD_THERM_CFG 0 8), (1, 85), (2, 85), (3, 75), (4, 40)] ∧
       bit p.pw.warn 0 = false ∧ p.pw.warn < 32 ∧ (16 * (105 : Int) ≤ 1680) ∧ ((1679 : Int) < 16 * 105) ∧ PrdR.flag p PRD_PWR_OSFP_CTRL 3 = true ∧ bit 7 3 = false ∧
       p.clk.st ≠ 2 ∧ PrdR.get p PRD_TMUX_GRANT_EXPIRY ≤ p.ft ∧ p.phase = 0 ∧ otuSource 0x43F = true ∧ otuSource 0x440 = false ∧ prdSource 0x501 = true ∧ prdSource 0x502 = false ∧
       (bit 8 3 && decide (PrdR.get p PRD_UID = PrdR.get p PRD_UID) && decide (p.ft < 10)) = true) ∧
    ((sP (pAt 9)).prd.go 9).clk.st = 2 ∧ ((sP pRun).prd.go 9).phase ≠ 0 ∧ State.reset.otu.invalid = false := by decide +kernel

theorem witness_RegisterAccessesFollowTheTables :
    (let s := sO fun o => OtuR.set (OtuR.set o (OTU_TW_BIND 63) 0x1FFFF) (OTU_TW_BIND 62) 0x10007
     let g := s.otu.go ed
     s.otu.invalid = false ∧ g.winTag 63 = some 0xFFFF ∧ g.winTag 61 = none ∧ g.winTag 64 = none ∧ g.boundTag 62 = some 7 ∧ bit 0x10007 16 = true ∧ bit 0 16 = false ∧
       0x10008 % 2 ^ 16 ≠ 0 ∧ (List.range 64).all (fun m => g.boundTag m != some 8) = true ∧ 0x3FFFFF < 0x400000 ∧ 2 ^ 26 ≤ 2 ^ 26 ∧ 2 ^ 22 ≤ 2 ^ 22 ∧ 0x8000 ≤ 0x8000) ∧
    (let p := State.reset.prd.go 9
     inSoftware (p.bar4.inForce p.ft * 2 ^ 30 + (0xF36800000 - p.bar4.inForce p.ft * 2 ^ 30)) 1 = true ∧ p.bar4.inForce p.ft * 2 ^ 30 ≤ 0xF36800000 ∧
       0xF36800000 - p.bar4.inForce p.ft * 2 ^ 30 + 1 ≤ 2 ^ 32 ∧ p.meetsStreamed 0xF36800000 1 = false ∧ inSoftware (p.bar4.inForce p.ft * 2 ^ 30) 1 = false ∧ p.mramProt = false) := by decide +kernel

/-! ### WellFormed: for each check, a term that it refuses -/

/-- A time edge whose fleet time has 65 bits. -/
def badEdge : Edge := ⟨2 ^ 64, 5⟩

theorem test_wf_accepts : ([.registerWrite (.tenant 63) 0xFFFFFFFF 8 (2 ^ 64 - 1) ed, .portDown (.prd 31) [] ed, .accordRecordRx (.fwd 4095) 65535 (2 ^ 20 - 1) [] (2 ^ 64 - 1),
    .gateChange (.uplink 3) ed, .wrap (some 511) 255 0 ed, .startBarrier [511] [] [] ed] : List Instr).all Instr.wf = true := by decide +kernel

theorem test_wf_refuses_edges : ([.twLoss badEdge, .accordCut ⟨0, 2 ^ 64⟩, .heartbeatTx (2 ^ 64)] : List Instr).any Instr.wf = false := by decide +kernel

theorem test_wf_refuses_widths : ([.registerWrite .prd 0 3 0 ed, .registerWrite .prd (2 ^ 32) 4 0 ed, .registerWrite .prd 0 4 (2 ^ 64) ed] : List Instr).any Instr.wf = false := by
  decide +kernel

theorem test_wf_refuses_paths_and_ends : ([.rcRead (.tenant 64) 0 ed, .portDown (.prd 32) [] ed, .gapRecordRx (.port 32) {} 0, .gapRecordRx (.fwd 4096) {} 0, .gateChange (.uplink 4) ed] : List Instr).any Instr.wf = false := by
  decide +kernel

theorem test_wf_refuses_indices : ([.ptpDelayReqTx 4 0 0, .synceQlChange 0 16 true 0, .cmdComplete ⟨512, none⟩ ed, .queueDequeue 4096 ed, .spanExit 64 0 ed, .outFlush 128 ed, .grantRevoke 4 ed,
    .tiebreakWait 32 ed, .fbSettle 8 ed, .policerWrite 0 4 0 0, .shaperWrite .otu 1024 0 0 ed, .decStart 8 0, .feedStart .otu 16 ed, .pldmPlatform 5 0, .resetRelease 4096 false 0,
    .buddyPortDown 2 0, .powerGood 16 0, .twBind 64 0 ed, .drainLimit 33 0, .freezeFire 4 0, .silRecordRx 0 16 [] 0, .rlEntryWrite .prd (some 256) 0 ed, .wrap (some 512) 0 0 ed,
    .canaryComplete 512 [] {} ed, .startBarrier [512] [] [] ed] : List Instr).any Instr.wf = false := by decide +kernel

theorem test_wf_refuses_numbers : ([.ptpFollowUp 0 65536 ⟨0, 0⟩ 0 0, .ptpFollowUp 0 0 ⟨0, 10 ^ 9⟩ 0 0, .accordRecordRx (.port 0) 0 (2 ^ 20) [] 0, .portTrain .otu (2 ^ 17) false 0 0 ed, .nak .otu ⟨[], []⟩ ed, .qpClose (2 ^ 32) true 0,
    .selfTest .mailbox 0 256 0, .closureDeadline 0 (2 ^ 17) 0 0 0, .gchSample [] (2 ^ 43) ed, .queueEnqueue 0 ⟨true, 3⟩ ed, .canaryStart 0 (2 ^ 64) ⟨true, []⟩ ed] : List Instr).any Instr.wf = false := by decide +kernel

/-! ### The table gives no bits -/

theorem test_decode_no_word : decodeTableWord 16 0 = none ∧ decodeTableWord 0 0 = none := by decide

theorem test_withFetchWord_keeps : State.reset.withFetchWord 8 3 = State.reset := rfl

/-! ### The queue, and what the spec works out -/

/-- R8: the step takes the front command; the next one waits. -/
theorem test_step_front : (match step { State.reset with pending := [.heartbeatTx 9, .heartbeatTx 10] } with
    | .next t => t.pending == [.heartbeatTx 10] && t.prd.clk.ft == 9
    | _ => false) = true := by decide +kernel

/-- The worked case of 00 R10. -/
theorem test_time_stamp_bytes : le 8 5000000000 = [0x00, 0xF2, 0x05, 0x2A, 0x01, 0x00, 0x00, 0x00] := by decide

/-- The worked delay measurement of 02 R45: delay 12,928 and offset 3,040 in 1/256 tick. -/
theorem test_worked_delay : fourStamp (5000000000 * 256) (5000000062 * 256 + 0x60) (5000000462 * 256) (5000000500 * 256 + 0xA0) 0 = (12928, 3040) := by decide +kernel

/-- The CYCLE and PMC_0 deltas of the worked encode of 03 R77. -/
theorem test_worked_delta : leb (zigzag 64 500000000 502000000) = [0x80, 0x92, 0xF4, 0x01] ∧ leb (zigzag 48 900 150) = [0xDB, 0x0B] := by decide +kernel

/-- The counter section of the worked encode of 03 R78, as far as its first delta. -/
theorem test_worked_counter_section : (counterSection [(3, 17), (96, 81920), (97, 280), (352, 500000000), (353, 900), (361, 300000000), (363, 200000000), (365, 300000000), (367, 200000000)]
    [(3, 18), (96, 82224), (97, 281), (352, 502000000), (353, 150), (361, 301600000), (363, 200400000), (365, 301600000), (367, 200400000)]).take 67 =
    [0x23] ++ zeros 39 ++ [0x08, 0, 0, 0, 0, 0, 0, 0] ++ [0, 0, 0, 0, 3, 0, 0, 0] ++ [0, 0, 0, 0, 3, 0xAA, 0, 0] ++ [0x02, 0xE0, 0x04] := by decide +kernel

/-- The worked fingerprint of 08 R206. -/
theorem test_worked_fingerprint : tileContribution (tileData 0 [0x38, 0x40, 0xB8, 0x30] []) 0 (some 4) 0 1 0 = 0x013F9E13B9CFCF09DCA8 := by decide +kernel

/-- The check value of 13 R354, fed in two parts as the worked sequence of 13 does. -/
theorem test_worked_crc32c : crc32cFeed (crc32cFeed 0xFFFFFFFF (le 4 0x34333231)) (le 4 0x38373635 ++ [0x39]) = 0x1CF96D7C ∧
    crc32c [0x31, 0x32, 0x33, 0x34, 0x35, 0x36, 0x37, 0x38, 0x39] = 0xE3069283 := by decide +kernel

/-- CRC-64 of the same bytes. -/
theorem test_worked_crc64 : crc64 [0x31, 0x32, 0x33, 0x34, 0x35, 0x36, 0x37, 0x38, 0x39] = 0x6C40DF5F0B497347 := by decide +kernel

/-- The tenant address worked out in 17 R453: PMC_5 of engine 130 in window 7. -/
theorem test_worked_window : ((OtuR.set (OtuR.set State.reset.otu (OTU_TW_BIND 7) 0x14E21) (OTU_TW_ENG_PAGE 7) 8).setEng 130 { tag := 0x4E21 }).windowAddr 7 0x2230 = some 0x48230 := by
  decide +kernel

/-- BLAKE3 of the empty sequence, as its specification's test vectors give it. -/
theorem test_blake3_empty : blake3 [] = fieldAt [0xaf, 0x13, 0x49, 0xb9, 0xf5, 0xf9, 0xa1, 0xa6, 0xa0, 0x40, 0x4d, 0xea, 0x36, 0xdc, 0xc9, 0x49, 0x9b, 0xcb, 0x25, 0xc9, 0xad, 0xc1, 0x12, 0xb7,
    0xcc, 0x9a, 0x93, 0xca, 0xe4, 0x1f, 0x32, 0x62] 0 32 := by decide +kernel

end Sys2Proof.Tests
end

section
namespace Sys2Proof.Machine.FleetTime
open Sys2Proof

/-! ### The idle step and reset (R36, R39, R47, R50) -/

/-- A clock of the nominal period that has nothing to slew counts two ticks in an engine cycle (R36). -/
theorem cycle_nominal (c : Clk) (ppm : Nat) (hs : c.slew = 0) (hsub : c.sub < 1000000) :
    (c.cycle 512 ppm).ft = (c.ft + 2) % 2 ^ 64 ∧ (c.cycle 512 ppm).sub = c.sub := by
  have hn : ((c.sub : Int) + (512 : Nat) * 1000000 / 256 + max 0 (-(slewMax 512 ppm : Int))).toNat = c.sub + 2000000 := by omega
  have hd : (c.sub + 2000000) / 1000000 = 2 ∧ (c.sub + 2000000) % 1000000 = c.sub := by omega
  simp only [Clk.cycle, hs, gt_iff_lt, lt_self_iff_false, if_false, hn, hd, and_self]

/-- Settles O2: on an empty queue the step is the idle cycle of both clocks. -/
theorem anEmptyQueueIdlesOneCycle : Obligations.AnEmptyQueueIdlesOneCycle := by
  intro s hq
  have hst (c : Clk) (p q : Nat) : (c.cycle p q).st = c.st := rfl
  refine ⟨s.idle, by rw [step, hq], rfl, fun h0 => ?_, fun h1 hp hs hsub => ?_, fun hs hsub => cycle_nominal _ _ hs hsub, ?_, rfl⟩
  · exact if_pos h0
  · have hc : s.idle.otu.clk = s.otu.clk.cycle s.otu.period (OtuR.fld s.otu OTU_TIME_CTRL 4 8) := if_neg h1
    rw [hc, hp]
    exact cycle_nominal _ _ hs hsub
  · change (if s.otu.clk.st = 0 then s.otu.clk else _).st = s.otu.clk.st
    split
    · rfl
    · exact hst _ _ _

/-- Settles O3: the reset state is the default of every field, and the tables give the unlisted registers. -/
theorem resetLeavesTheTablesValues : Obligations.ResetLeavesTheTablesValues :=
  ⟨rfl, rfl, rfl, rfl, rfl, rfl, rfl, rfl, fun _ => rfl, by decide +kernel, by decide +kernel⟩

end Sys2Proof.Machine.FleetTime
end

section
namespace Sys2Proof.Machine.FleetTime
open Sys2Proof

/-! ### Counts and egress queues -/

theorem otu_get_lt (o : Otu) (a : Nat) : OtuR.get o a < 2 ^ 64 := BitVec.isLt _

/-- A saturating count that hardware raises. -/
theorem fld_cnt (o : Otu) (a lo w n : Nat) (h : lo + w ≤ 64) :
    OtuR.fld (OtuR.cnt o a lo w n) a lo w = satAdd w (OtuR.fld o a lo w) n :=
  (OtuR.fld_setFld o a lo w _ h).trans (Nat.mod_eq_of_lt (satAdd_lt _ _ _))

/-- A record sent stands at the end of its queue (R299). -/
theorem eqGet_send (o : Otu) (kind inst rtype tag : Nat) (body : List Byte) :
    (o.send kind inst rtype tag body).eqGet (o.eqOf kind inst tag) =
      o.eqGet (o.eqOf kind inst tag) ++ [{ rtype, kind, inst, tag, rank := o.rankOf tag, body, ft := o.now }] :=
  Tbl.get_put_same _ _ _ _

/-- All that sending a record does. -/
theorem send_all (o : Otu) (kind inst rtype tag : Nat) (body : List Byte) :
    o.send kind inst rtype tag body = { o with eq := (o.send kind inst rtype tag body).eq, eqs := (o.send kind inst rtype tag body).eqs } := rfl

theorem send_fld (o : Otu) (kind inst rtype tag : Nat) (body : List Byte) (a lo w : Nat) :
    OtuR.fld (o.send kind inst rtype tag body) a lo w = OtuR.fld o a lo w := rfl

/-! ### Marks (R58, R59) -/

/-- MARK through the privileged block. -/
theorem exec_mark_otu (s : State) (value : Nat) (e : Edge) (h : s.otu.invalid = false) :
    exec (.mark .otu value e) s = .next (s.withOtu ((s.otu.go e).putMark false 0 value)) :=
  congrArg _ (State.onOtu_with s _ h)

/-- MARK through a bound window. -/
theorem exec_mark_window (s : State) (value w tag : Nat) (e : Edge) (h : s.otu.invalid = false) (hw : (s.otu.go e).winTag w = some tag) :
    exec (.mark (.tenant w) value e) s = .next (s.withOtu ((s.otu.go e).putMark true tag value)) := by
  refine congrArg _ ((State.onOtu_with s _ h).trans (congrArg _ ?_))
  simp only [Otu.pathTag, hw]

/-- The entry that a write of OTU_MARK makes. -/
def markEnt (o : Otu) (window : Bool) (tag value : Nat) : MarkEnt :=
  { id := getF value 48 16, payload := getF value 0 48, hw := o.ft, window, tag }

/-- With room a mark joins the FIFO at its end. -/
theorem putMark_room (o : Otu) (window : Bool) (tag value : Nat) (h : o.marks.length < 64) :
    o.putMark window tag value = { o with marks := o.marks ++ [markEnt o window tag value] } := by
  have h : ¬ o.marks.length ≥ 64 := by omega
  simp only [Otu.putMark, h, if_false, markEnt]

/-- Without room DROPPED counts it, and the cycle remembers the first such mark. -/
theorem putMark_full (o : Otu) (window : Bool) (tag value : Nat) (h : 64 ≤ o.marks.length) :
    o.putMark window tag value = { OtuR.cnt o OTU_MARK_STATUS 8 16 1 with cyc := { (OtuR.cnt o OTU_MARK_STATUS 8 16 1).cyc with
      mark := o.cyc.mark <|> some (markEnt o window tag value, decide (OtuR.fld o OTU_MARK_STATUS 8 16 < 0xFFFF)) } } := by
  have h : o.marks.length ≥ 64 := h
  simp only [Otu.putMark, h, if_true, markEnt]

/-- It takes no register but the status of the marks. -/
theorem putMark_get (o : Otu) (window : Bool) (tag value : Nat) {a : Nat} (h : 64 ≤ o.marks.length) (ha : a ≠ OTU_MARK_STATUS) :
    OtuR.get (o.putMark window tag value) a = OtuR.get o a := by
  rw [putMark_full o window tag value h]
  exact OtuR.get_cnt_ne o 8 16 1 ha.symm

/-- All that a dequeue's making room does. -/
theorem markRoom_all (o : Otu) : o.markRoom = { o with
    marks := o.marks ++ (o.cyc.mark.map (·.1)).toList, regs := o.markRoom.regs, cyc := o.markRoom.cyc } := by
  unfold Otu.markRoom
  cases hm : o.cyc.mark with
  | none => simp
  | some x => rfl

/-- It takes no register but the status of the marks, and none where no mark waits for room. -/
theorem markRoom_get (o : Otu) (a : Nat) (h : o.cyc.mark = none ∨ a ≠ OTU_MARK_STATUS) : OtuR.get o.markRoom a = OtuR.get o a := by
  unfold Otu.markRoom
  cases hm : o.cyc.mark with
  | none => rfl
  | some x => exact OtuR.get_touch_ne o _ (Ne.symm (h.resolve_left (by simp [hm])))

theorem markRoom_regs (o : Otu) (h : o.cyc.mark = none) : o.markRoom.regs = o.regs := by
  unfold Otu.markRoom
  rw [h]

/-- MARK_RECORD_EMIT of a FIFO that is not empty. -/
theorem exec_markRecordEmit_cons (s : State) (e : Edge) (m : MarkEnt) (r : List MarkEnt) (h : s.otu.invalid = false) (hm : s.otu.marks = m :: r) :
    exec (.markRecordEmit e) s = .next (s.withOtu (({ s.otu.go e with marks := r, lastFw := (s.otu.go e).ft } : Otu).markRoom.send 10 0 0x07 m.tag
      (markBytes m (s.otu.go e).ft (s.otu.go e).clk.grade))) := by
  refine congrArg _ ((State.onOtu_with s _ h).trans (congrArg _ ?_))
  simp only [Otu.go_marks, hm]

theorem exec_markRecordEmit_nil (s : State) (e : Edge) (h : s.otu.invalid = false) (hm : s.otu.marks = []) :
    exec (.markRecordEmit e) s = .next (s.withOtu (s.otu.go e)) := by
  refine congrArg _ ((State.onOtu_with s _ h).trans (congrArg _ ?_))
  simp only [Otu.go_marks, hm]

/-- The grade stands while time moves. -/
theorem go_grade (o : Otu) (e : Edge) : (o.go e).clk.grade = o.clk.grade := by
  by_cases h : o.clk.st = 0 <;> simp [Otu.go, h]

/-- What moved to an edge, and has not moved since, stands there. -/
theorem go_of_clocks (o p : Otu) (e : Edge) (hl : p.lt = (o.go e).lt) (hc : p.clk = (o.go e).clk) : p.go e = p := by
  have h : ¬ max o.lt e.lt < e.lt := by omega
  by_cases k : o.clk.st = 0 <;> cases p <;> simp_all [Otu.go]

/-- A mark found the FIFO full in this cycle and nothing was dequeued: the next dequeue takes it in, and its count back. -/
theorem markRoom_putMark (o : Otu) (window : Bool) (tag value : Nat) (ms : List MarkEnt) (fw : Nat)
    (h : 64 ≤ o.marks.length) (hn : o.cyc.mark = none) :
    (({ o.putMark window tag value with marks := ms, lastFw := fw } : Otu).markRoom).marks = ms ++ [markEnt o window tag value] ∧
    OtuR.fld ({ o.putMark window tag value with marks := ms, lastFw := fw } : Otu).markRoom OTU_MARK_STATUS 8 16 =
      OtuR.fld o OTU_MARK_STATUS 8 16 := by
  have hv : OtuR.fld o OTU_MARK_STATUS 8 16 < 2 ^ 16 := getF_lt _ _ _
  have hc := fld_cnt o OTU_MARK_STATUS 8 16 1 (by omega)
  rw [putMark_full o window tag value h, hn]
  generalize hp : OtuR.cnt o OTU_MARK_STATUS 8 16 1 = p at hc ⊢
  refine ⟨rfl, ?_⟩
  by_cases hd : OtuR.fld o OTU_MARK_STATUS 8 16 < 0xFFFF
  · simp only [hd, decide_true]
    refine (OtuR.fld_setFld p OTU_MARK_STATUS 8 16 (OtuR.fld p OTU_MARK_STATUS 8 16 - 1) (by omega)).trans ?_
    simp only [hc, satAdd]
    omega
  · simp only [hd, decide_false]
    have hg : OtuR.get (OtuR.touch p OTU_MARK_STATUS id) OTU_MARK_STATUS = OtuR.get p OTU_MARK_STATUS :=
      (OtuR.get_touch_same p OTU_MARK_STATUS id).trans (Nat.mod_eq_of_lt (otu_get_lt _ _))
    refine (congrArg (getF · 8 16) hg).trans (hc.trans ?_)
    simp only [satAdd]
    omega

/-- A dequeue of a FIFO whose oldest mark is `m`. -/
theorem emit_facts (o : Otu) (m : MarkEnt) (r : List MarkEnt) (fw grade : Nat) :
    ∃ p, p = (({ o with marks := r, lastFw := fw } : Otu).markRoom.send 10 0 0x07 m.tag (markBytes m fw grade)) ∧
      p = { o with marks := r ++ (o.cyc.mark.map (·.1)).toList, lastFw := fw, regs := p.regs, cyc := p.cyc, eq := p.eq, eqs := p.eqs } ∧
      (o.cyc.mark = none → p.regs = o.regs) ∧ (∀ a, a ≠ OTU_MARK_STATUS → OtuR.get p a = OtuR.get o a) ∧
      p.eqGet (o.eqOf 10 0 m.tag) = o.eqGet (o.eqOf 10 0 m.tag) ++
        [{ rtype := 7, kind := 10, inst := 0, tag := m.tag, rank := o.rankOf m.tag, body := markBytes m fw grade, ft := o.now }] := by
  have hloc : OtuR.get ({ o with marks := r, lastFw := fw } : Otu).markRoom OTU_PORT_LOC = OtuR.get o OTU_PORT_LOC :=
    markRoom_get _ _ (.inr (by decide))
  have hall := markRoom_all { o with marks := r, lastFw := fw }
  have hrank : ({ o with marks := r, lastFw := fw } : Otu).markRoom.rankOf m.tag = o.rankOf m.tag := by
    simp only [Otu.rankOf, hloc]
    rw [hall]; rfl
  have heq : ({ o with marks := r, lastFw := fw } : Otu).markRoom.eqOf 10 0 m.tag = o.eqOf 10 0 m.tag := by rw [hall]; rfl
  refine ⟨_, rfl, ?_, markRoom_regs { o with marks := r, lastFw := fw }, fun a ha => markRoom_get { o with marks := r, lastFw := fw } a (.inr ha), ?_⟩
  · rw [send_all, hall]
  · have := eqGet_send ({ o with marks := r, lastFw := fw } : Otu).markRoom 10 0 7 m.tag (markBytes m fw grade)
    rw [heq, hrank] at this
    rw [this, hall]
    rfl

/-- Settles O7: a mark is put as `putMark_room` and `putMark_full` say, and a dequeue sends the oldest mark's record after
making room (`emit_facts`, `markRoom_putMark`). -/
theorem marksQueueAndLeaveInOrder : Obligations.MarksQueueAndLeaveInOrder := by
  intro s value w tag e hv
  refine ⟨fun hm => ?_, fun hm hw => ?_, fun hm => ⟨_, exec_mark_otu s value e hv, ?_, ?_, fun a ha => ?_⟩, fun m r hm => ?_, fun m r hm hl hn => ?_,
    exec_markRecordEmit_nil s e hv⟩
  · rw [exec_mark_otu s value e hv, putMark_room (s.otu.go e) _ _ _ hm]; rfl
  · rw [exec_mark_window s value w tag e hv hw, putMark_room (s.otu.go e) _ _ _ hm]; rfl
  · rw [putMark_full (s.otu.go e) _ _ _ hm]; rfl
  · rw [putMark_full (s.otu.go e) _ _ _ hm]
    exact fld_cnt (s.otu.go e) OTU_MARK_STATUS 8 16 1 (by omega)
  · exact putMark_get (s.otu.go e) false 0 value hm ha
  · obtain ⟨p, hp, hall, hregs, hget, heq⟩ := emit_facts (s.otu.go e) m r (s.otu.go e).ft (s.otu.go e).clk.grade
    refine ⟨p, (exec_markRecordEmit_cons s e m r hv hm).trans (by rw [hp]), hall, hregs, hget, ?_⟩
    rw [go_grade] at heq
    exact heq
  · have h64 : 64 ≤ (s.otu.go e).marks.length := le_of_eq hl.symm
    obtain ⟨hmarks, hcount⟩ := markRoom_putMark (s.otu.go e) false 0 value r (s.otu.go e).ft h64 hn
    obtain ⟨p, hp⟩ : ∃ p, p = (s.otu.go e).putMark false 0 value := ⟨_, rfl⟩
    rw [← hp] at hmarks hcount
    have hput := hp.trans (putMark_full (s.otu.go e) false 0 value h64)
    have hgo : p.go e = p := go_of_clocks s.otu p e (by rw [hput]; rfl) (by rw [hput]; rfl)
    have hinv : (s.withOtu p).otu.invalid = false := by
      have hd : OtuR.get p OTU_DESC_STATUS = OtuR.get s.otu OTU_DESC_STATUS :=
        (congrArg (OtuR.get · _) hp).trans (putMark_get (s.otu.go e) false 0 value h64 (by decide))
      change (getF (OtuR.get p OTU_DESC_STATUS) 0 2 == 2) = false
      rw [hd]
      exact hv
    have hemit := exec_markRecordEmit_cons (s.withOtu p) e m r hinv (by rw [hput]; exact hm)
    change _ = Host.Outcome.next (s.withOtu (({ p.go e with marks := r, lastFw := (p.go e).ft } : Otu).markRoom.send 10 0 0x07 m.tag _)) at hemit
    have hft : p.ft = (s.otu.go e).ft := by rw [hput]; rfl
    rw [hgo, hft] at hemit
    exact ⟨_, _, _, (exec_mark_otu s value e hv).trans (by rw [hp]), hemit, rfl, (Otu.send_marks _ _ _ _ _ _).trans hmarks, (send_fld _ _ _ _ _ _ _ _ _).trans hcount⟩

/-! ### Snapshots and the age of a lock (R39, R48, R60, R61) -/

/-- LOCK_10MIN sets the mark of a lock that has lasted ten minutes, and nothing else of the clock. -/
theorem tenMinutes_eq (c : Clk) : c.tenMinutes =
    { c with tenMin := c.tenMin || (decide (c.st = 2) && decide (600 * 4000000000 ≤ c.ft - c.lockAt)) } := by
  have hp : tenMinTicks = 600 * 4000000000 := rfl
  unfold Clk.tenMinutes
  rw [hp]
  by_cases h : (decide (c.st = 2) && decide (600 * 4000000000 ≤ c.ft - c.lockAt)) = true
  · simp only [ge_iff_le, h, if_true, Bool.or_true]
  · rw [if_neg h, Bool.eq_false_iff.mpr h, Bool.or_false]

/-- Settles O8: TIME_SNAP sets two registers, LOCK_10MIN one mark of the clock (`tenMinutes_eq`). -/
theorem timeSnapshotsAndLockAges : Obligations.TimeSnapshotsAndLockAges := by
  intro s value t e
  refine ⟨fun hv => ⟨fun hb => ?_, fun hb => ?_, ?_⟩, ?_⟩
  · refine ⟨OtuR.set (OtuR.set (s.otu.go e) OTU_TIME_SNAP_FT (s.otu.go e).ft) OTU_TIME_SNAP_LT (s.otu.go e).lt,
      (congrArg _ (State.onOtu_with s _ hv)).trans (by simp only [hb, if_true]), rfl, ?_, OtuR.get_set_same _ _ _, fun a h1 h2 => ?_⟩
    · exact (OtuR.get_set_ne _ _ (by decide)).trans (OtuR.get_set_same _ _ _)
    · exact (OtuR.get_set_ne _ _ h2.symm).trans (OtuR.get_set_ne _ _ h1.symm)
  · exact (congrArg _ (State.onOtu_with s _ hv)).trans (by simp only [hb, Bool.false_eq_true, if_false])
  · refine (congrArg _ ((State.onOtu_with s _ hv).trans (congrArg _ ?_)))
    by_cases h0 : s.otu.clk.st = 0 <;> simp [tenMinutes_eq, Otu.go, h0]
  · change Host.Outcome.next (s.withPrd { s.prd.go t with clk := (s.prd.go t).clk.tenMinutes }) = _
    rw [tenMinutes_eq, Prd.go_clk]

end Sys2Proof.Machine.FleetTime
end

section
namespace Sys2Proof.Machine.FleetTime
open Sys2Proof

/-! ### Clocks that lose their reference (R47 to R52) -/

/-- The grade of a clock in HOLDOVER whose last continuous lock lasted ten minutes or not, and whose last LOCKED measurement is
`age` ticks old (R48). -/
def holdoverGrade (ten : Prop) [Decidable ten] (age : Nat) : Nat := if ten ∧ age < 4000000000 then 2 else 3

/-- Moving to an edge changes nothing of the OTU's clock but the fleet time. -/
theorem otu_go_clk (o : Otu) (e : Edge) : (o.go e).clk = { o.clk with ft := (o.go e).clk.ft } := by
  simp only [Otu.go]
  split <;> rfl

/-- A clock that has locked enters HOLDOVER when measurements stop. -/
theorem lose_holdover (c : Clk) (h : c.st = 2 ∨ (c.st = 1 ∧ c.ever = true)) :
    c.lose.st = 3 ∧ c.lose.slew = 0 ∧ c.lose.slewing = false ∧ c.lose.ft = c.ft ∧
      c.lose.own = holdoverGrade (c.tenMin = true ∨ (c.st = 2 ∧ 600 * 4000000000 ≤ c.ft - c.lockAt)) (c.ft - c.lastLocked) := by
  have hp : tenMinTicks = 600 * 4000000000 := rfl
  have hs : (c.ft - c.lastLocked < tickS) = (c.ft - c.lastLocked < 4000000000) := rfl
  rcases h with h | ⟨h, he⟩
  · simp [Clk.lose, h, Clk.unlock, Clk.unlockedGrade, holdoverGrade, hp, hs]
  · simp [Clk.lose, h, he, Clk.unlockedGrade, holdoverGrade, hs]

/-- One that never has stays as it is, with slewing stopped. -/
theorem lose_never (c : Clk) (h : c.st = 1) (he : c.ever = false) :
    c.lose = { c with slew := 0, slewing := false, run25 := 0, run2 := 0 } := by
  simp [Clk.lose, h, he]

/-- The grade of an unlocked clock whose last LOCKED measurement is a second old. -/
theorem unlockedGrade_old (c : Clk) (h : c.st = 3 ∨ (c.st = 1 ∧ c.ever = true)) (ha : 4000000000 ≤ c.ft - c.lastLocked) :
    c.unlockedGrade = 3 := by
  have ht : ¬ c.ft - c.lastLocked < tickS := Nat.not_lt.mpr ha
  have h : (decide (c.st = 3) || (decide (c.st = 1) && c.ever)) = true := by simpa using h
  simp [Clk.unlockedGrade, h, ht]

/-! #### Taking the grade again -/

theorem prd_regrade_clk (o : Prd) : o.regrade.clk = { o.clk with grade := o.regrade.clk.grade } := congrArg Prd.clk (Prd.regrade_all o)
theorem otu_regrade_clk (o : Otu) : o.regrade.clk = { o.clk with grade := o.regrade.clk.grade } := congrArg Otu.clk (Otu.regrade_all o)

/-- An event bit of a register stays set while another is set. -/
theorem flag_ev_of_flag (o : Otu) (a j k : Nat) (hk : k < 64) (h : OtuR.flag o a k = true) : OtuR.flag (OtuR.ev o a j) a k = true := by
  rw [OtuR.flag, OtuR.ev, OtuR.get_touch_same, bit_mod _ _ _ hk, bit_setBit, show bit (OtuR.get o a) k = true from h, Bool.or_true]

/-- Taking the grade again leaves every event bit of the clock that is set. -/
theorem regrade_flag (o : Otu) (k : Nat) (hk : k < 64) (h : OtuR.flag o OTU_TIME_EVENTS k = true) :
    OtuR.flag o.regrade OTU_TIME_EVENTS k = true := by
  unfold Otu.regrade
  generalize (if o.clk.st = 0 then 4 else max o.clk.own o.prdGrade) = g
  by_cases hg : g = o.clk.grade
  · simpa only [hg, if_true] using h
  · simp only [hg, if_false]
    rw [OtuR.flag, Otu.event_get _ _ _ (by decide) (by decide)]
    exact flag_ev_of_flag { o with clk := { o.clk with grade := g } } _ _ _ hk h

/-- What a command that moved Priord's clock and took its grade again leaves alone. -/
theorem prd_regrade_frame {o p : Prd} (h : p = { o with clk := p.clk, regs := p.regs, cyc := p.cyc }) :
    p.regrade = { o with clk := p.regrade.clk, regs := p.regrade.regs, cyc := p.regrade.cyc, evr := p.regrade.evr } := by
  rw [Prd.regrade_all p, h]

theorem otu_regrade_frame {o p : Otu} (h : p = { o with clk := p.clk, trayLock := p.trayLock, regs := p.regs, cyc := p.cyc }) :
    p.regrade = { o with clk := p.regrade.clk, trayLock := p.trayLock, regs := p.regrade.regs, cyc := p.regrade.cyc, evr := p.regrade.evr } := by
  rw [Otu.regrade_all p, h]

/-! #### HOLDOVER_ENTRY -/

/-- Priord as it stands when its clock has lost its reference and the grade is still to be taken. -/
def prdLost (o : Prd) : Prd :=
  if o.clk.st = 2 then PrdR.ev { o with clk := o.clk.lose } PRD_TIME_EVENTS 1 else { o with clk := o.clk.lose }

theorem prdLost_all (o : Prd) : prdLost o = { o with clk := o.clk.lose, regs := (prdLost o).regs, cyc := (prdLost o).cyc } := by
  unfold prdLost
  split <;> rfl

theorem exec_holdoverEntry_lost (s : State) (t : Nat) (hst : s.prd.clk.st = 1 ∨ s.prd.clk.st = 2)
    (ht : (s.prd.go t).clk.lastMeas + getF s.prd.loopCfg 12 4 * s.prd.syncInterval ≤ (s.prd.go t).clk.ft) :
    exec (.holdoverEntry t) s = .next (s.withPrd (prdLost (s.prd.go t)).regrade) := by
  have hs : (s.prd.go t).syncInterval = s.prd.syncInterval := by
    have hf : PrdR.fld (s.prd.go t) PRD_TIME_PTP_CFG 8 4 = PrdR.fld s.prd PRD_TIME_PTP_CFG 8 4 := by simp only [PrdR.fld, Prd.get_go]
    rw [Prd.syncInterval, hf, Prd.syncInterval]
  have h0 : (s.prd.go t).clk.st = s.prd.clk.st := by rw [Prd.go_clk]
  have h1 : ¬ (s.prd.go t).clk.st = 0 := by omega
  have h3 : ¬ (s.prd.go t).clk.st = 3 := by omega
  rw [← hs, ← Prd.go_loopCfg s.prd t] at ht
  refine congrArg (fun o => Host.Outcome.next (s.withPrd o)) (if_neg ?_)
  simp only [h1, h3, Nat.not_lt.mpr ht, decide_false, Bool.or_false, Bool.false_eq_true, not_false_eq_true]

theorem holdoverEntry_frame (o : Prd) : ∃ p, p = (prdLost o).regrade ∧ p = { o with clk := p.clk, regs := p.regs, cyc := p.cyc, evr := p.evr } ∧
    p.clk = { o.clk.lose with grade := p.clk.grade } ∧
    p.clk.grade = if o.clk.lose.st = 0 then 4 else if o.pw.ocxoFail then max 3 o.clk.lose.own else o.clk.lose.own := by
  have hl := prdLost_all o
  have hc : (prdLost o).clk = o.clk.lose := congrArg Prd.clk hl
  refine ⟨_, rfl, prd_regrade_frame (by rw [hc]; exact hl), ?_, ?_⟩
  · rw [prd_regrade_clk, hc]
  · rw [Prd.regrade_grade, hc, hl]

/-! #### TW_LOSS -/

/-- The OTU as it stands when its clock has lost the time words and the grade is still to be taken. -/
def otuLost (o : Otu) : Otu :=
  if o.clk.lose.st = 3 then OtuR.ev { o with clk := o.clk.lose, trayLock := false } OTU_TIME_EVENTS 1 else { o with clk := o.clk.lose }

theorem timeLoss_lost (o : Otu) (hst : o.clk.st = 1 ∨ o.clk.st = 2) (ht : o.clk.lastMeas + 40000 ≤ o.clk.ft) :
    o.timeLoss = (otuLost o).regrade := by
  have h1 : ¬ o.clk.st = 0 := by omega
  have h3 : ¬ o.clk.st = 3 := by omega
  have h4 : ¬ o.clk.ft < o.clk.lastMeas + 10 * tickUs := Nat.not_lt.mpr ht
  unfold Otu.timeLoss otuLost
  simp only [h1, h3, h4, decide_false, Bool.or_false, Bool.false_eq_true, if_false]

theorem exec_twLoss_lost (s : State) (e : Edge) (hv : s.otu.invalid = false) (hst : s.otu.clk.st = 1 ∨ s.otu.clk.st = 2)
    (ht : (s.otu.go e).clk.lastMeas + 40000 ≤ (s.otu.go e).clk.ft) :
    exec (.twLoss e) s = .next (s.withOtu (otuLost (s.otu.go e)).regrade) := by
  have h0 : (s.otu.go e).clk.st = s.otu.clk.st := by rw [otu_go_clk]
  exact congrArg _ ((State.onOtu_with s _ hv).trans (congrArg _ (timeLoss_lost (s.otu.go e) (by rwa [h0]) ht)))

theorem otuLost_holdover (o : Otu) (h : o.clk.lose.st = 3) :
    otuLost o = OtuR.ev { o with clk := o.clk.lose, trayLock := false } OTU_TIME_EVENTS 1 := if_pos h

theorem otuLost_never (o : Otu) (h : o.clk.lose.st ≠ 3) : otuLost o = { o with clk := o.clk.lose } := if_neg h

theorem otuLost_clk (o : Otu) : (otuLost o).clk = o.clk.lose := by
  unfold otuLost
  split <;> rfl

/-- What the lost reference leaves of the clock. -/
theorem otuLost_regrade_clk (o : Otu) : (otuLost o).regrade.clk = { o.clk.lose with grade := (otuLost o).regrade.clk.grade } := by
  rw [otu_regrade_clk, otuLost_clk]

theorem otuLost_regrade_grade (o : Otu) (h : o.clk.lose.st ≠ 0) : (otuLost o).regrade.clk.grade = max o.clk.lose.own o.prdGrade := by
  have hp : (otuLost o).prdGrade = o.prdGrade := by unfold otuLost; split <;> rfl
  rw [Otu.regrade_grade, otuLost_clk, if_neg h, hp]

/-! #### HOLDOVER_AGE_GRADE3 -/

theorem exec_holdoverAgeGrade3_otu (s : State) (e : Edge) (hv : s.otu.invalid = false) (h : (s.otu.go e).clk.own = 2) :
    exec (.holdoverAgeGrade3 .otu e) s = .next (s.withOtu
      ({ s.otu.go e with clk := { (s.otu.go e).clk with own := (s.otu.go e).clk.unlockedGrade } } : Otu).regrade) :=
  congrArg Host.Outcome.next ((State.onOtu_with s _ hv).trans (congrArg _ (if_pos h)))

theorem exec_holdoverAgeGrade3_prd (s : State) (e : Edge) (h : (s.prd.go e.ft).clk.own = 2) :
    exec (.holdoverAgeGrade3 .prd e) s = .next (s.withPrd
      ({ s.prd.go e.ft with clk := { (s.prd.go e.ft).clk with own := (s.prd.go e.ft).clk.unlockedGrade } } : Prd).regrade) :=
  congrArg (fun o => Host.Outcome.next (s.withPrd o)) (if_pos h)

/-- Settles O11: each clock loses its reference as `lose_holdover` and `lose_never` say and takes its grade again; the grade of age
is `unlockedGrade_old`. -/
theorem clocksLoseTheirReference : Obligations.ClocksLoseTheirReference := by
  intro s t e
  have hpc := Prd.go_clk s.prd
  have hoc := otu_go_clk s.otu e
  refine ⟨fun ht => ⟨fun hst => ?_, fun hst he => ?_⟩, fun hv ht => ⟨fun hst => ?_, fun hst he => ?_⟩, fun hv hst hown hage => ?_, fun hst hown hage => ?_⟩
  · obtain ⟨p, hp, hall, hclk, hgrade⟩ := holdoverEntry_frame (s.prd.go t)
    obtain ⟨hs3, hslew, hslewing, hft, hown⟩ := lose_holdover (s.prd.go t).clk (by rw [hpc]; exact hst)
    refine ⟨p, (exec_holdoverEntry_lost s t (by omega) ht).trans (by rw [hp]), hall, (congrArg Clk.st hclk).trans hs3,
      (congrArg Clk.slew hclk).trans hslew, (congrArg Clk.slewing hclk).trans hslewing, (congrArg Clk.ft hclk).trans hft, ?_⟩
    rw [hgrade, if_neg (by omega), hown, Prd.go_pw, hpc, holdoverGrade]
    cases s.prd.pw.ocxoFail <;> rfl
  · obtain ⟨p, hp, hall, hclk, -⟩ := holdoverEntry_frame (s.prd.go t)
    have hl := lose_never (s.prd.go t).clk (by rw [hpc]; exact hst) (by rw [hpc]; exact he)
    refine ⟨p, (exec_holdoverEntry_lost s t (.inl hst) ht).trans (by rw [hp]), hall, ?_, ?_⟩
    · rw [hclk, hl, hpc]; exact hst
    · rw [hclk, hl]
  · obtain ⟨hs3, hslew, -, hft, hown⟩ := lose_holdover (s.otu.go e).clk (by rw [hoc]; exact hst)
    have hclk := otuLost_regrade_clk (s.otu.go e)
    have hl := otuLost_holdover (s.otu.go e) hs3
    refine ⟨_, exec_twLoss_lost s e hv (by omega) ht, ?_, (congrArg Clk.st hclk).trans hs3, (congrArg Clk.slew hclk).trans hslew,
      (congrArg Clk.ft hclk).trans hft, regrade_flag _ 1 (by omega) (by rw [hl]; exact OtuR.flag_ev _ _ _ (by omega)), ?_⟩
    · exact (otu_regrade_frame (p := otuLost (s.otu.go e)) (by rw [hl])).trans (by rw [hl]; rfl)
    · rw [otuLost_regrade_grade _ (by omega), hown, hoc, max_comm, holdoverGrade]
      rfl
  · have hl := lose_never (s.otu.go e).clk (by rw [hoc]; exact hst) (by rw [hoc]; exact he)
    have hclk := otuLost_regrade_clk (s.otu.go e)
    refine ⟨_, exec_twLoss_lost s e hv (.inl hst) ht, ?_, ?_, ?_⟩
    · have hn := otuLost_never (s.otu.go e) (by rw [hl, hoc]; simp [hst])
      exact (otu_regrade_frame (p := otuLost (s.otu.go e)) (by rw [hn])).trans (by rw [hn])
    · rw [hclk, hl, hoc]; exact hst
    · rw [hclk, hl]
  · have hg := unlockedGrade_old (s.otu.go e).clk (by rw [hoc]; exact hst) (by rw [hoc]; exact hage)
    have hown' : (s.otu.go e).clk.own = 2 := by rw [hoc]; exact hown
    have h0 : (s.otu.go e).clk.st ≠ 0 := by rw [hoc]; dsimp only; omega
    refine ⟨_, exec_holdoverAgeGrade3_otu s e hv hown', otu_regrade_frame rfl, ?_, ?_⟩
    · rw [Otu.regrade_st, hoc]
    · rw [Otu.regrade_grade, if_neg h0, hg]; rfl
  · have hg := unlockedGrade_old (s.prd.go e.ft).clk (by rw [hpc]; exact hst) (by rw [hpc] at hage ⊢; exact hage)
    have hown' : (s.prd.go e.ft).clk.own = 2 := by rw [hpc]; exact hown
    have h0 : (s.prd.go e.ft).clk.st ≠ 0 := by rw [hpc]; dsimp only; omega
    refine ⟨_, exec_holdoverAgeGrade3_prd s e hown', prd_regrade_frame rfl, ?_, ?_⟩
    · rw [prd_regrade_clk, hpc]
    · rw [Prd.regrade_grade, if_neg h0, hg, max_self, ite_self]

end Sys2Proof.Machine.FleetTime
end

section
namespace Sys2Proof.Machine.FleetTime
open Sys2Proof

/-! ### Selecting a master (R41) -/

/-- What the default data set comparison orders Announces by. -/
def annKey (a : Announce) : List Nat :=
  [a.priority1, a.clockClass, a.clockAccuracy, a.variance, a.priority2, a.gmIdentity, a.stepsRemoved, a.senderId]

theorem better_eq (a b : Announce) : a.better b = decide (annKey a < annKey b) := rfl

/-- A fold that keeps the better of two by a key ends at one of the list that no other betters, or with none of an empty list. -/
theorem foldl_best {α β : Type} [LinearOrder β] (key : α → β) (f : Option α → α → Option α) (h0 : ∀ x, f none x = some x)
    (h1 : ∀ y x, f (some y) x = if key x < key y then some x else some y) (l : List α) :
    (l.foldl f none = none → l = []) ∧ ∀ z, l.foldl f none = some z → z ∈ l ∧ ∀ x ∈ l, ¬ key x < key z := by
  have hfrom : ∀ (l : List α) (y : α), ∃ z, l.foldl f (some y) = some z ∧ (z = y ∨ z ∈ l) ∧ ∀ x, x = y ∨ x ∈ l → key z ≤ key x := by
    intro l
    induction l with
    | nil => exact fun y => ⟨y, rfl, .inl rfl, fun x hx => by simp_all⟩
    | cons a r ih =>
      intro y
      rw [List.foldl_cons, h1]
      split
      case isTrue h =>
        obtain ⟨z, hz, hm, hle⟩ := ih a
        refine ⟨z, hz, .inr (List.mem_cons.mpr hm), fun x hx => ?_⟩
        rcases hx with rfl | hx
        · exact (hle a (.inl rfl)).trans h.le
        · exact hle x (List.mem_cons.mp hx)
      case isFalse h =>
        obtain ⟨z, hz, hm, hle⟩ := ih y
        refine ⟨z, hz, hm.imp_right (List.mem_cons_of_mem _), fun x hx => ?_⟩
        rcases hx with rfl | hx
        · exact hle x (.inl rfl)
        · rcases List.mem_cons.mp hx with rfl | hx
          · exact (hle y (.inl rfl)).trans (not_lt.mp h)
          · exact hle x (.inr hx)
  cases l with
  | nil => exact ⟨fun _ => rfl, fun z hz => by simp at hz⟩
  | cons a r =>
    rw [List.foldl_cons, h0]
    obtain ⟨z, hz, hm, hle⟩ := hfrom r a
    refine ⟨fun h => by simp [hz] at h, fun w hw => ?_⟩
    obtain rfl : z = w := Option.some.inj (hz.symm.trans hw)
    exact ⟨List.mem_cons.mpr hm, fun x hx => not_lt.mpr (hle x (List.mem_cons.mp hx))⟩

/-- The uplinks that take part in the selection, with their data sets. -/
def candidates (o : Prd) : List (Nat × Announce) :=
  ((List.range 4).filter o.ptpOn).filterMap fun u => ((o.ulT u).qualified o.ft).map fun a => (u, a)

theorem mem_candidates (o : Prd) (u : Nat) (a : Announce) :
    (u, a) ∈ candidates o ↔ o.ptpOn u = true ∧ (o.ulT u).qualified o.ft = some a := by
  have hlt (h : o.ptpOn u = true) : u < 4 := by
    simp only [Prd.ptpOn, Bool.and_eq_true, decide_eq_true_eq] at h
    exact h.1.1
  simp only [candidates, List.mem_filterMap, List.mem_filter, List.mem_range, Option.map_eq_some_iff, Prod.mk.injEq]
  constructor
  · rintro ⟨v, ⟨-, hon⟩, b, hb, rfl, rfl⟩
    exact ⟨hon, hb⟩
  · rintro ⟨hon, ha⟩
    exact ⟨u, ⟨hlt hon, hon⟩, a, ha, rfl, rfl⟩

theorem prd_get_lt (o : Prd) (a : Nat) : PrdR.get o a < 2 ^ 64 := BitVec.isLt _

/-- Where none is selected no uplink qualifies; the one selected is a candidate that no other betters, and its grandmaster is
shown. -/
theorem bmca_selects (o : Prd) :
    (o.bmca.src = none → candidates o = []) ∧
    ∀ v, o.bmca.src = some v → ∃ a, (v, a) ∈ candidates o ∧ PrdR.get o.bmca PRD_TIME_GM_ID = a.gmIdentity % 2 ^ 64 ∧
      ∀ x ∈ candidates o, x.2.better a = false := by
  have hbest := foldl_best (fun x : Nat × Announce => annKey x.2)
    (fun (b : Option (Nat × Announce)) x => match b with | none => some x | some y => if x.2.better y.2 then some x else some y)
    (fun _ => rfl) (fun y x => by by_cases h : annKey x.2 < annKey y.2 <;> simp [better_eq, h]) (candidates o)
  have hcheck (x y : Nat × Announce) (h : ¬ annKey x.2 < annKey y.2) : x.2.better y.2 = false := decide_eq_false h
  obtain ⟨hnone, hsome⟩ := hbest
  unfold Prd.bmca
  dsimp only
  split
  case h_1 heq => exact ⟨fun _ => hnone heq, fun v hv => by simp at hv⟩
  case h_2 u a heq =>
    obtain ⟨hmem, hmin⟩ := hsome _ heq
    have hmin (x : Nat × Announce) (hx : x ∈ candidates o) : x.2.better a = false := hcheck x (u, a) (hmin x hx)
    split
    case isTrue hold =>
      refine ⟨fun h => by simp at h, fun v hv => ⟨a, Option.some.inj hv ▸ hmem, ?_, hmin⟩⟩
      rw [← hold, Nat.mod_eq_of_lt (prd_get_lt _ _)]
      exact PrdR.get_set_ne _ _ (by decide)
    case isFalse hold =>
      refine ⟨fun h => by simp at h, fun v hv => ⟨a, ?_, ?_, hmin⟩⟩
      · simp only [Prd.event_src, PrdR.ev_src, PrdR.set_src, Option.some.injEq] at hv
        exact hv ▸ hmem
      · rw [Prd.event_get _ _ _ (by decide) (by decide), PrdR.get_ev_ne _ _ (by decide), PrdR.get_set_same]

theorem ulT_bmca (o : Prd) (u : Nat) : o.bmca.ulT u = o.ulT u := by simp only [Prd.ulT, Prd.bmca_ul]

/-- PTP_ANNOUNCE of the configured domain. -/
theorem exec_ptpAnnounce_taken (s : State) (u t : Nat) (m : Announce) (hon : s.prd.ptpOn u = true)
    (hd : m.domain = PrdR.fld s.prd PRD_TIME_PTP_CFG 0 7) : exec (.ptpAnnounce u m t) s =
      .next (s.withPrd ((s.prd.go t).setUlT u (((s.prd.go t).ulT u).announce m (s.prd.go t).ft)).bmca) := by
  refine congrArg (fun o => Host.Outcome.next (s.withPrd o)) (if_pos ?_)
  rw [Prd.ptpOn_go, Prd.fld_go, hon, hd, beq_self_eq_true, Bool.and_self]

/-! ### Frequency (R42) -/

/-- Priord once the uplink that gives frequency has been picked. -/
def syncePicked (o : Prd) (pick : Option Nat) : Prd :=
  if o.synceSrc.isSome && pick.isNone then PrdR.ev { o with synceSrc := pick } PRD_TIME_EVENTS 6 else { o with synceSrc := pick }

/-- With the function disabled no uplink is picked. -/
theorem synceSelect_picks (o : Prd) : ∃ pick, o.synceSelect = syncePicked o pick ∧
    (PrdR.flag o PRD_TIME_SYNCE_CFG 3 = false → pick = none) := by
  refine ⟨_, rfl, fun h => if_pos ?_⟩
  have h : bit (PrdR.get o PRD_TIME_SYNCE_CFG) 3 = false := h
  rw [h, Bool.not_false]

/-- All that the pick changes. -/
theorem syncePicked_all (o : Prd) (pick : Option Nat) : syncePicked o pick = { o with
    synceSrc := pick, regs := (syncePicked o pick).regs, cyc := (syncePicked o pick).cyc } := by
  unfold syncePicked
  split <;> rfl

theorem syncePicked_get (o : Prd) (pick : Option Nat) (a : Nat) (h : a ≠ PRD_TIME_EVENTS) :
    PrdR.get (syncePicked o pick) a = PrdR.get o a := by
  unfold syncePicked
  split
  · exact PrdR.get_ev_ne _ _ h.symm
  · rfl

/-- Settles O10: the Announce enters the uplink's data set, and `bmca_selects` says which uplink is chosen from them. -/
theorem ptpSourceAndFrequencySelection : Obligations.PtpSourceAndFrequencySelection := by
  intro s u t
  refine ⟨fun m hon hd => ?_, fun ql lost hu => ?_, fun value => ?_⟩
  · obtain ⟨x, hx⟩ : ∃ x, x = (s.prd.go t).setUlT u (((s.prd.go t).ulT u).announce m (s.prd.go t).ft) := ⟨_, rfl⟩
    have hcand (v : Nat) (a : Announce) : (v, a) ∈ candidates x ↔
        s.prd.ptpOn v = true ∧ (x.bmca.ulT v).qualified (s.prd.go t).ft = some a := by
      rw [mem_candidates, ulT_bmca, hx, ← Prd.ptpOn_go s.prd t v]
      rfl
    obtain ⟨hnone, hsome⟩ := bmca_selects x
    refine ⟨x.bmca, (exec_ptpAnnounce_taken s u t m hon hd).trans (by rw [hx]), ?_, ?_, fun v hv => ?_, fun h v hv => ?_, fun v hv => ?_⟩
    · rw [Prd.bmca_all, hx]; rfl
    · rw [ulT_bmca, hx, Prd.ulT_setUlT, Prd.ulT_go]
    · rw [ulT_bmca, hx, Prd.ulT_setUlT_ne _ _ hv.symm, Prd.ulT_go]
    · refine Option.eq_none_iff_forall_ne_some.mpr fun a ha => ?_
      have := (hcand v a).mpr ⟨hv, ha⟩
      rw [hnone h] at this
      exact absurd this List.not_mem_nil
    · obtain ⟨a, hmem, hgm, hmin⟩ := hsome v hv
      obtain ⟨hon', hq⟩ := (hcand v a).mp hmem
      exact ⟨hon', a, hq, hgm, fun v' a' h1 h2 => hmin (v', a') ((hcand v' a').mpr ⟨h1, h2⟩)⟩
  · obtain ⟨x, hx⟩ : ∃ x, x = (s.prd.go t).setUlT u { (s.prd.go t).ulT u with ql := ql, synce := !lost } := ⟨_, rfl⟩
    have hget (a : Nat) : PrdR.get x a = PrdR.get s.prd a := by rw [hx, ← Prd.get_go s.prd t]; rfl
    obtain ⟨pick, hp, hoff⟩ := synceSelect_picks x
    have hall := syncePicked_all x pick
    have hul (v : Nat) : (syncePicked x pick).ulT v = x.ulT v := by rw [hall]; rfl
    refine ⟨syncePicked x pick, congrArg (fun o => Host.Outcome.next (s.withPrd o)) ((if_pos hu).trans (by rw [← hp, hx])), ?_, ?_, fun v hv => ?_,
      fun a ha => (syncePicked_get x pick a ha).trans (hget a), fun h => ?_⟩
    · rw [hall, hx]; rfl
    · rw [hul, hx, Prd.ulT_setUlT, Prd.ulT_go]
    · rw [hul, hx, Prd.ulT_setUlT_ne _ _ hv.symm, Prd.ulT_go]
    · rw [hall, hoff (by rw [PrdR.flag, hget]; exact h)]
  · exact ⟨_, rfl, Prd.bmca_all _, Prd.bmca_clk _⟩

end Sys2Proof.Machine.FleetTime
end

section
namespace Sys2Proof.Machine.FleetTime
open Sys2Proof

/-! ### What an accepted measurement can change at Priord (R46, R49, R50) -/

/-- `p` is `o` but for the clock, what follows its steps, registers and events. -/
def ClockOnly (o p : Prd) : Prop :=
  p = { o with clk := p.clk, regs := p.regs, cyc := p.cyc, evr := p.evr, tw := p.tw, loopCfg := p.loopCfg
               ptpRestart := p.ptpRestart, stepPending := p.stepPending }

theorem ClockOnly.trans {o p q : Prd} (h : ClockOnly o p) (k : ClockOnly p q) : ClockOnly o q := by
  unfold ClockOnly at *
  rw [h] at k
  exact k

theorem ClockOnly.ul {o p : Prd} (h : ClockOnly o p) : p.ul = o.ul := by
  unfold ClockOnly at h
  rw [h]

theorem ClockOnly.ev {o p : Prd} (h : ClockOnly o p) (a k : Nat) : ClockOnly o (PrdR.ev p a k) := h.trans rfl

theorem ClockOnly.event {o p : Prd} (h : ClockOnly o p) (r : EvReq) : ClockOnly o (p.event r) := by
  refine h.trans ?_
  rw [Prd.event, ClockOnly, Prd.charge_all]

theorem ClockOnly.regrade {o p : Prd} (h : ClockOnly o p) : ClockOnly o p.regrade := by
  refine h.trans ?_
  rw [ClockOnly, Prd.regrade_all]

/-- Priord once a measurement has been put through the filter and the state judged. -/
def judged (o : Prd) (th : Int) : Prd :=
  let o := { o with loopCfg := PrdR.get o PRD_TIME_LOOP_CFG }
  let c0 : Clk := if o.ptpRestart && o.clk.st == 2 then o.clk.unlock 1 else o.clk
  let c := (c0.push (PrdR.fld o PRD_TIME_LOOP_CFG 0 4) (PrdR.get o PRD_TIME_UNCERT) th).judge (PrdR.fld o PRD_TIME_LOOP_CFG 16 5)
  if o.clk.st == 2 && c.st != 2 then PrdR.ev { o with clk := c, ptpRestart := false } PRD_TIME_EVENTS 1 else { o with clk := c, ptpRestart := false }

/-- Priord once the clock has stepped or begun to slew. -/
def disciplined (o : Prd) (limit ppm : Nat) : Prd :=
  match o.clk.stepDue limit with
  | some n =>
    if !o.jobOpen then
      (PrdR.ev { o with clk := o.clk.step n (PrdR.get o PRD_TIME_UNCERT), stepPending := false
                        tw := o.tw.map fun (x : Nat × TwEnd) => (x.1, x.2.shift n) } PRD_TIME_EVENTS 2).event
        { code := 0x11, sev := 2, payload := le 8 n }
    else { o with stepPending := true, clk := { o.clk with st := 1, slew := 0, slewing := false } }
  | none =>
    let c := o.clk.slewTo 512 ppm
    let o := { o with clk := c, stepPending := false }
    let o := if c.slewing then PrdR.ev o PRD_TIME_EVENTS 3 else o
    if o.clk.theta > 256 * (limit : Int) then PrdR.ev o PRD_TIME_EVENTS 5 else o

theorem measure_eq (o : Prd) (th : Int) : o.measure th = if o.pw.ocxoFail then o else
    (disciplined (judged o th) (PrdR.get o PRD_TIME_STEP_LIMIT) (PrdR.fld o PRD_TIME_LOOP_CFG 4 8)).regrade := rfl

theorem judged_clockOnly (o : Prd) (th : Int) : ClockOnly o (judged o th) := by
  unfold judged
  dsimp only
  generalize Clk.judge _ _ = c
  split <;> rfl

theorem disciplined_clockOnly (o : Prd) (limit ppm : Nat) : ClockOnly o (disciplined o limit ppm) := by
  unfold disciplined
  split
  case h_1 n _ =>
    split
    · refine ClockOnly.event (ClockOnly.ev ?_ _ _) _
      rfl
    · rfl
  case h_2 _ =>
    generalize o.clk.slewTo 512 ppm = c
    dsimp only
    split <;> split <;> rfl

theorem measure_clockOnly (o : Prd) (th : Int) : ClockOnly o (o.measure th) := by
  rw [measure_eq]
  split
  · rfl
  · exact ((judged_clockOnly o th).trans (disciplined_clockOnly _ _ _)).regrade

/-! ### The offset of an uplink (R41) -/

/-- With no delay known the Sync waits for one. -/
theorem ptpOffset_waits (o : Prd) (u : Nat) (h : (o.ulT u).delay = none) :
    o.ptpOffset u = o.setUlT u { o.ulT u with waiting := (o.ulT u).have12 } := by
  unfold Prd.ptpOffset
  dsimp only
  rw [h]

/-- With one known the uplink has its offset, and beyond the uplink only the clock can follow. -/
theorem ptpOffset_gives (o : Prd) (u : Nat) (d : Int) (h : (o.ulT u).delay = some d) (h12 : (o.ulT u).have12 = true) :
    ClockOnly (o.setUlT u { o.ulT u with offset := (((o.ulT u).t2 : Nat) : Int) - (o.ulT u).t1 - (o.ulT u).corr - d, waiting := false })
      (o.ptpOffset u) := by
  unfold Prd.ptpOffset
  dsimp only
  rw [h]
  simp only [h12, if_true]
  split
  · exact measure_clockOnly _ _
  · rfl

/-! ### PTP messages (R41, R61) -/

/-- Losing a selected source takes no register but those that say so. -/
theorem annCheck_get (o : Prd) (a : Nat) (h : a ≠ PRD_TIME_EVENTS) (h1 : a ≠ PRD_EVR_EVENTS) (h2 : a ≠ PRD_EVR_DROPPED)
    (h3 : a ≠ PRD_TIME_UTC_OFFSET) (h4 : a ≠ PRD_TIME_GM_ID) : PrdR.get o.annCheck a = PrdR.get o a := by
  unfold Prd.annCheck
  split
  · split
    · exact Prd.bmca_get o a h h1 h2 h3 h4
    · rfl
  · rfl

theorem ptpOn_annCheck (o : Prd) (u : Nat) : o.annCheck.ptpOn u = o.ptpOn u := by
  by_cases hu : u < 4
  · have hs : PrdR.get o.annCheck (PRD_UL_STATUS u) = PrdR.get o (PRD_UL_STATUS u) := by
      interval_cases u <;> exact annCheck_get o _ (by decide) (by decide) (by decide) (by decide) (by decide)
    simp only [Prd.ptpOn, PrdR.flag, hs, annCheck_get o PRD_TIME_PTP_CFG (by decide) (by decide) (by decide) (by decide) (by decide)]
  · simp only [Prd.ptpOn, hu, decide_false, Bool.false_and]

theorem ptpP2p_annCheck (o : Prd) (u : Nat) : o.annCheck.ptpP2p u = o.ptpP2p u := by
  simp only [Prd.ptpP2p, PrdR.flag, annCheck_get o PRD_TIME_PTP_CFG (by decide) (by decide) (by decide) (by decide) (by decide)]

theorem ulT_annCheck_go (o : Prd) (t u : Nat) : (o.go t).annCheck.ulT u = o.ulT u := by
  rw [← Prd.ulT_go o t u, Prd.annCheck_all]
  rfl

/-- Priord as a Sync finds it: its source checked, a restart of reception taken, and the strobe of the selected uplink's Sync. -/
def syncBegun (o : Prd) (u : Nat) : Prd :=
  if o.annCheck.ptpBegin.src == some u then o.annCheck.ptpBegin.pulse 0x102 o.annCheck.ptpBegin.ft else o.annCheck.ptpBegin

theorem syncBegun_all (o : Prd) (u : Nat) : syncBegun o u = { o with
    clk := (syncBegun o u).clk, regs := (syncBegun o u).regs, cyc := (syncBegun o u).cyc, evr := (syncBegun o u).evr, src := (syncBegun o u).src
    strobes := (syncBegun o u).strobes, ptpRestart := (syncBegun o u).ptpRestart } := by
  unfold syncBegun
  split
  · rw [Prd.ptpBegin_all, Prd.annCheck_all]
    rfl
  · rw [Prd.ptpBegin_all, Prd.annCheck_all]

theorem exec_ptpSync_taken (s : State) (u t : Nat) (m : PtpSync) (hon : s.prd.ptpOn u = true)
    (hd : m.domain = PrdR.fld s.prd PRD_TIME_PTP_CFG 0 7) : exec (.ptpSync u m t) s = .next (s.withPrd
      (if m.twoStep then (syncBegun (s.prd.go t) u).setUlT u { (syncBegun (s.prd.go t) u).ulT u with sync := some m }
       else ((syncBegun (s.prd.go t) u).setUlT u { (syncBegun (s.prd.go t) u).ulT u with
         sync := none, t1 := m.origin.fine, t2 := m.rx, corr := m.corr, have12 := true }).ptpOffset u)) := by
  refine congrArg (fun o => Host.Outcome.next (s.withPrd o)) (if_neg ?_)
  rw [Prd.ptpOn_go, Prd.fld_go, hon, hd]
  simp

theorem exec_ptpFollowUp_taken (s : State) (u t : Nat) (m : PtpSync) (origin : PtpTs) (corr : Int) (hon : s.prd.ptpOn u = true)
    (hm : (s.prd.ulT u).sync = some m) : exec (.ptpFollowUp u m.seqId origin corr t) s = .next (s.withPrd
      (((s.prd.go t).annCheck.setUlT u { (s.prd.go t).annCheck.ulT u with
        sync := none, t1 := origin.fine, t2 := m.rx, corr := m.corr + corr, have12 := true }).ptpOffset u)) := by
  refine congrArg (fun o => Host.Outcome.next (s.withPrd o)) ?_
  dsimp only
  rw [ulT_annCheck_go, hm, ptpOn_annCheck, Prd.ptpOn_go, hon]
  exact if_pos (by simp)

theorem exec_ptpDelayResp_taken (s : State) (u seqId t3 t : Nat) (rx : PtpTs) (corr : Int) (hon : s.prd.ptpOn u = true)
    (hp : s.prd.ptpP2p u = false) (hr : (s.prd.ulT u).reqTx = some (seqId, t3)) (h12 : (s.prd.ulT u).have12 = true)
    (hw : (s.prd.ulT u).waiting = false) : exec (.ptpDelayResp u seqId rx corr t) s = .next (s.withPrd
      ((s.prd.go t).annCheck.setUlT u { s.prd.ulT u with
        reqTx := none, delay := some (rhe ((((s.prd.ulT u).t2 : Int) - (s.prd.ulT u).t1 - (s.prd.ulT u).corr) + ((rx.fine : Int) - t3 - corr)) 2) })) := by
  refine congrArg (fun o => Host.Outcome.next (s.withPrd o)) ?_
  dsimp only
  rw [ulT_annCheck_go, hr, ptpOn_annCheck, Prd.ptpOn_go, hon, ptpP2p_annCheck, Prd.ptpP2p_go, hp]
  simp only [h12, hw, beq_self_eq_true, Bool.not_false, Bool.and_self, if_true, Bool.false_eq_true, if_false]

/-- A Pdelay_Resp of the outstanding request: kept for its follow-up, or the delay of a one-step one. -/
theorem exec_ptpPdelayResp_taken (s : State) (u t1 t : Nat) (m : PdelayResp) (hon : s.prd.ptpOn u = true)
    (hp : s.prd.ptpP2p u = true) (hr : (s.prd.ulT u).preqTx = some (m.seqId, t1)) (hf : m.followUp = false)
    (hw : (s.prd.ulT u).waiting = false) : exec (.ptpPdelayResp u m t) s = .next (s.withPrd
      ((s.prd.go t).annCheck.setUlT u (if m.twoStep then { s.prd.ulT u with presp := some m } else { s.prd.ulT u with
        preqTx := none, delay := some (rhe (((m.rx : Int) - t1) - ((m.t3.fine : Int) - m.t2.fine) - m.corr) 2) }))) := by
  refine congrArg (fun o => Host.Outcome.next (s.withPrd o)) ?_
  dsimp only
  rw [ulT_annCheck_go, hr, ptpOn_annCheck, Prd.ptpOn_go, hon, ptpP2p_annCheck, Prd.ptpP2p_go, hp]
  simp only [hf, hw, beq_self_eq_true, Bool.and_self, Bool.not_true, Bool.false_eq_true, if_false]
  split <;> rfl

theorem exec_ptpPdelayResp_followUp (s : State) (u t1 t : Nat) (m r : PdelayResp) (hon : s.prd.ptpOn u = true)
    (hp : s.prd.ptpP2p u = true) (hr : (s.prd.ulT u).preqTx = some (m.seqId, t1)) (hf : m.followUp = true)
    (hx : (s.prd.ulT u).presp = some r) (hw : (s.prd.ulT u).waiting = false) : exec (.ptpPdelayResp u m t) s = .next (s.withPrd
      ((s.prd.go t).annCheck.setUlT u { s.prd.ulT u with
        preqTx := none, presp := none, delay := some (rhe (((r.rx : Int) - t1) - ((m.t3.fine : Int) - r.t2.fine) - r.corr - m.corr) 2) })) := by
  refine congrArg (fun o => Host.Outcome.next (s.withPrd o)) ?_
  dsimp only
  rw [ulT_annCheck_go, hr, ptpOn_annCheck, Prd.ptpOn_go, hon, ptpP2p_annCheck, Prd.ptpP2p_go, hp]
  simp only [hf, hw, hx, beq_self_eq_true, Bool.and_self, Bool.not_true, Bool.false_eq_true, if_true, if_false]

theorem ulT_of_ul {o p : Prd} (h : p.ul = o.ul) (v : Nat) : p.ulT v = o.ulT v := congrArg (fun l => Tbl.get _ l v) h

/-- What setting one uplink leaves. -/
theorem ulT_of_setUlT {o p q : Prd} {u : Nat} {x : UlTime} (hq : ∀ v, v ≠ u → q.ulT v = o.ulT v) (hp : p.ul = (q.setUlT u x).ul) :
    (∀ v, v ≠ u → p.ulT v = o.ulT v) ∧ p.ulT u = x := by
  refine ⟨fun v hne => ?_, (ulT_of_ul hp u).trans (Prd.ulT_setUlT q u x)⟩
  rw [ulT_of_ul hp, Prd.ulT_setUlT_ne q x hne.symm, hq v hne]

/-- An uplink that holds a Sync waits for its delay, or has its offset, which only the clock can follow. -/
theorem setUlT_ptpOffset (o : Prd) (u : Nat) (x : UlTime) (h12 : x.have12 = true) : ∃ p, p = (o.setUlT u x).ptpOffset u ∧
    p = { o with ul := p.ul, clk := p.clk, regs := p.regs, cyc := p.cyc, evr := p.evr, tw := p.tw, loopCfg := p.loopCfg
                 ptpRestart := p.ptpRestart, stepPending := p.stepPending } ∧
    (∀ v, v ≠ u → p.ulT v = o.ulT v) ∧ (x.delay = none → p.ulT u = { x with waiting := true }) ∧
    ∀ d, x.delay = some d → p.ulT u = { x with waiting := false, offset := ((x.t2 : Nat) : Int) - x.t1 - x.corr - d } := by
  have hx := Prd.ulT_setUlT o u x
  have hother (v : Nat) (hv : v ≠ u) : (o.setUlT u x).ulT v = o.ulT v := Prd.ulT_setUlT_ne o x hv.symm
  rcases Option.eq_none_or_eq_some x.delay with hd | ⟨d, hd⟩
  · have hwait := ptpOffset_waits (o.setUlT u x) u (by rw [hx, hd])
    rw [hx, h12] at hwait
    obtain ⟨ho, ht⟩ := ulT_of_setUlT hother (congrArg Prd.ul hwait)
    exact ⟨_, rfl, by rw [hwait]; rfl, ho, fun _ => ht, fun d h => by simp [hd] at h⟩
  · have hgive := ptpOffset_gives (o.setUlT u x) u d (by rw [hx, hd]) (by rw [hx, h12])
    rw [hx] at hgive
    obtain ⟨ho, ht⟩ := ulT_of_setUlT hother hgive.ul
    refine ⟨_, rfl, by rw [ClockOnly] at hgive; rw [hgive]; rfl, ho, fun h => by simp [hd] at h, fun d' h => ?_⟩
    obtain rfl : d = d' := Option.some.inj (hd.symm.trans h)
    exact ht

/-- A delay measured for an uplink whose offset waits for none changes that uplink alone. -/
theorem annCheck_setUlT (o : Prd) (t u : Nat) (x : UlTime) : ∃ p, p = (o.go t).annCheck.setUlT u x ∧
    p = { o.go t with ul := p.ul, src := p.src, regs := p.regs, cyc := p.cyc, evr := p.evr } ∧ (∀ v, v ≠ u → p.ulT v = o.ulT v) ∧ p.ulT u = x := by
  have hul : (o.go t).annCheck.ul = o.ul := by rw [Prd.annCheck_all]; exact Prd.go_ul o t
  refine ⟨_, rfl, ?_, ulT_of_setUlT (fun v _ => ulT_of_ul hul v) rfl⟩
  rw [Prd.annCheck_all]
  rfl

/-- Settles O9: each message leaves what its `exec_` lemma says, and an offset reaches the clock alone (`ptpOffset_gives`). -/
theorem ptpExchangesMeasureThePath : Obligations.PtpExchangesMeasureThePath := by
  intro s u t
  refine ⟨fun tx hon hp => ?_, fun tx hon hp => ?_, rfl, fun m hon hd => ?_, fun m origin corr d hon hm hd => ?_,
    fun seqId t3 rx corr hon hp hr h12 hw => ?_, fun m t1 hon hp hr hf hw => ?_, fun m r t1 hon hp hr hf hx hw => ?_, fun x => ⟨rfl, rfl⟩⟩
  · refine congrArg (fun o => Host.Outcome.next (s.withPrd o)) ((if_pos ?_).trans ?_)
    · rw [Prd.ptpOn_go, Prd.ptpP2p_go, hon, hp]; rfl
    · rw [Prd.ulT_go]
  · refine congrArg (fun o => Host.Outcome.next (s.withPrd o)) ((if_pos ?_).trans ?_)
    · rw [Prd.ptpOn_go, Prd.ptpP2p_go, hon, hp]; rfl
    · rw [Prd.ulT_go]
  · obtain ⟨b, hb⟩ : ∃ b, b = syncBegun (s.prd.go t) u := ⟨_, rfl⟩
    have hexec := exec_ptpSync_taken s u t m hon hd
    have hall := syncBegun_all (s.prd.go t) u
    have hul : b.ul = s.prd.ul := by rw [hb, hall]; exact Prd.go_ul s.prd t
    have hx := ulT_of_ul hul
    rw [← hb] at hexec hall
    rw [hx] at hexec
    cases htwo : m.twoStep with
    | true =>
      rw [htwo, if_pos rfl] at hexec
      obtain ⟨hother, hthis⟩ := ulT_of_setUlT (u := u) (x := { s.prd.ulT u with sync := some m }) (fun v _ => ulT_of_ul hul v) rfl
      refine ⟨_, hexec, ?_, hother, fun _ => hthis, fun h => by simp at h, fun _ h => by simp at h⟩
      rw [hall]; rfl
    | false =>
      rw [htwo, if_neg Bool.false_ne_true] at hexec
      obtain ⟨p, hp, hframe, hother, hwaits, hgives⟩ := setUlT_ptpOffset b u
        { s.prd.ulT u with sync := none, t1 := m.origin.fine, t2 := m.rx, corr := m.corr, have12 := true } rfl
      refine ⟨p, hexec.trans (by rw [hp]), ?_, fun v hv => (hother v hv).trans (hx v), fun h => by simp at h, fun _ hd => hwaits hd,
        fun d _ hd => hgives d hd⟩
      rw [hframe, hall]
  · have hall := Prd.annCheck_all (s.prd.go t)
    have hul : (s.prd.go t).annCheck.ul = s.prd.ul := by rw [hall]; exact Prd.go_ul s.prd t
    have hexec := exec_ptpFollowUp_taken s u t m origin corr hon hm
    rw [ulT_of_ul hul] at hexec
    obtain ⟨p, hp, hframe, hother, -, hgives⟩ := setUlT_ptpOffset (s.prd.go t).annCheck u
      { s.prd.ulT u with sync := none, t1 := origin.fine, t2 := m.rx, corr := m.corr + corr, have12 := true } rfl
    refine ⟨p, hexec.trans (by rw [hp]), ?_, fun v hv => (hother v hv).trans (ulT_of_ul hul v), hgives d hd⟩
    rw [hframe, hall]
  · obtain ⟨p, hp', hall, hother, hthis⟩ := annCheck_setUlT s.prd t u _
    exact ⟨p, (exec_ptpDelayResp_taken s u seqId t3 t rx corr hon hp hr h12 hw).trans (by rw [hp']), hall, hother, hthis⟩
  · obtain ⟨p, hp', hall, hother, hthis⟩ := annCheck_setUlT s.prd t u _
    refine ⟨p, (exec_ptpPdelayResp_taken s u t1 t m hon hp hr hf hw).trans (by rw [hp']), hall, hother, fun h2 => ?_, fun h2 => ?_⟩
    · rw [hthis, h2]; rfl
    · rw [hthis, h2]; rfl
  · obtain ⟨p, hp', hall, hother, hthis⟩ := annCheck_setUlT s.prd t u _
    exact ⟨p, (exec_ptpPdelayResp_followUp s u t1 t m r hon hp hr hf hx hw).trans (by rw [hp']), hall, hother, hthis⟩

end Sys2Proof.Machine.FleetTime
end

section
namespace Sys2Proof.Machine.FleetTime
open Sys2Proof

/-! ### Time words on the link (R43, R44, R288) -/

/-- The time word that an end puts out: `w` with its sequence, its stamp and its echo. -/
def sentWord (y : TwEnd) (valid : Bool) (tx : Nat) (w : TimeWord) : TimeWord :=
  let echo := y.rxSeq.isSome && y.rxOk
  { w with seq := y.seq, txStamp := if valid then tx / 256 else absent, txFrac := if valid then tx % 256 else 0
           echoValid := echo, echoSeq := y.rxSeq.getD 0
           rxStamp := if echo then y.rxAt / 256 else absent, rxFrac := if echo then y.rxAt % 256 else 0 }

/-- A stamp in 1/256 tick and its parts. -/
theorem stamp_parts (tx frac : Nat) : (tx * 256 + frac % 256) / 256 = tx ∧ (tx * 256 + frac % 256) % 256 = frac % 256 := by omega

/-- The parts of the echo, once a word of valid time has been received. -/
theorem sentWord_echo (y : TwEnd) (valid : Bool) (tx : Nat) (w : TimeWord) (q : Nat) (hq : y.rxSeq = some q) :
    (sentWord y valid tx w).echoSeq = q ∧ (y.rxOk = true → (sentWord y valid tx w).rxStamp = y.rxAt / 256 ∧ (sentWord y valid tx w).rxFrac = y.rxAt % 256) := by
  refine ⟨by simp [sentWord, hq], fun hok => ?_⟩
  simp [sentWord, hq, hok]

theorem creditOut_tw (l : LinkSt) : l.creditOut.1.tw = l.tw ∧ l.creditOut.1.idleAt = l.idleAt := by
  unfold LinkSt.creditOut
  split <;> exact ⟨rfl, rfl⟩

/-- An IDLE flit takes neither the time words nor the time of the last IDLE. -/
theorem putIdle_tw (l : LinkSt) (word : List Byte) : (l.putIdle word).tw = l.tw ∧ (l.putIdle word).idleAt = l.idleAt := creditOut_tw l

theorem hear_tw (l : LinkSt) (now : Nat) (x : FlitRx) : (l.hear now x).tw = l.tw := by
  unfold LinkSt.hear
  dsimp only
  split <;> rfl

/-- All that an addition to a counter of the die does. -/
theorem otu_dctrAdd_all (o : Otu) (i n : Nat) : ∃ d, o.dctrAdd i n = { o with dctr := d } := ⟨_, rfl⟩

/-- All that hearing a flit does at the OTU. -/
theorem otu_hear_all (o : Otu) (x : FlitRx) : ∃ d, o.hear x = { o with dctr := d, link := o.link.hear o.now x } := by
  let p : Otu := { o with link := o.link.hear o.now x }
  obtain ⟨d, hd⟩ := otu_dctrAdd_all p 0x63 (corrected (o.link.codewords x.errs))
  obtain ⟨d', hd'⟩ := otu_dctrAdd_all (p.dctrAdd 0x63 (corrected (o.link.codewords x.errs))) 0x64 (uncorrectable (o.link.codewords x.errs))
  refine ⟨d', ?_⟩
  unfold Otu.hear
  rw [hd', hd]

/-- A flit that fails its checks, holds no time word, or reaches a port that is not UP brings no time word. -/
theorem wordOf_none (l : LinkSt) (f : FlitRx)
    (h : l.st ≠ 2 ∨ l.checks f = false ∨ flitType f.bytes 0 = false ∨ isTimeWord ((f.bytes.drop 8).take 32) = false) : l.wordOf f = none := by
  unfold LinkSt.wordOf
  rcases h with h | h | h | h <;> simp [h]

theorem wordOf_some (l : LinkSt) (f : FlitRx) (w : TimeWord) (hst : l.st = 2) (hc : l.checks f = true) (hf : flitType f.bytes 0 = true)
    (ht : isTimeWord ((f.bytes.drop 8).take 32) = true) (hw : w = .ofBytes ((f.bytes.drop 8).take 32)) : l.wordOf f = some w := by
  unfold LinkSt.wordOf
  simp [hst, hc, hf, ht, hw]

/-! ### What an accepted time word can change at the OTU (R43 to R46, R50) -/

/-- `p` is `o` but for the clock, the lock, the link, the instants that wait for time, registers and events. -/
def WordOnly (o p : Otu) : Prop :=
  p = { o with clk := p.clk, trayLock := p.trayLock, link := p.link, acc := p.acc, gchNext := p.gchNext, qsLast := p.qsLast, qOld := p.qOld
               gate := p.gate, regs := p.regs, cyc := p.cyc, evr := p.evr }

theorem WordOnly.refl (o : Otu) : WordOnly o o := rfl

theorem WordOnly.trans {o p q : Otu} (h : WordOnly o p) (k : WordOnly p q) : WordOnly o q := by
  unfold WordOnly at *
  rw [h] at k
  exact k

theorem WordOnly.event {o p : Otu} (h : WordOnly o p) (r : EvReq) : WordOnly o (p.event r) := by
  refine h.trans ?_
  rw [WordOnly, Otu.event_all]

theorem WordOnly.regrade {o p : Otu} (h : WordOnly o p) : WordOnly o p.regrade := by
  refine h.trans ?_
  rw [WordOnly, Otu.regrade_all]

theorem stepBy_wordOnly (o : Otu) (n : Nat) : WordOnly o (o.stepBy n) := by
  unfold Otu.stepBy
  refine WordOnly.event ?_ _
  rfl

/-- The OTU once a round has been put through the filter and the state judged. -/
def otuJudged (o : Otu) (delay th : Int) : Otu :=
  { o with clk := { ((o.clk.push (OtuR.fld o OTU_TIME_CTRL 0 4) (o.linkExtra + o.prdErr) th).judge 16) with delay := ofS 32 delay } }

/-- The OTU once its clock has stepped or begun to slew. -/
def otuDisciplined (o : Otu) (ppm : Nat) : Otu :=
  match o.stepIfDue with
  | some n => o.stepBy n
  | none =>
    let c := o.clk.slewTo o.period ppm
    if c.slewing then OtuR.ev { o with clk := c } OTU_TIME_EVENTS 3 else { o with clk := c }

theorem otu_measure_eq (o : Otu) (delay th : Int) :
    o.measure delay th = (otuDisciplined (otuJudged o delay th) (OtuR.fld o OTU_TIME_CTRL 4 8)).setTrayLock.regrade := rfl

theorem otuDisciplined_wordOnly (o : Otu) (ppm : Nat) : WordOnly o (otuDisciplined o ppm) := by
  unfold otuDisciplined
  split
  · exact stepBy_wordOnly _ _
  · dsimp only
    split <;> rfl

theorem otu_measure_wordOnly (o : Otu) (delay th : Int) : WordOnly o (o.measure delay th) := by
  rw [otu_measure_eq]
  refine WordOnly.regrade (WordOnly.trans (p := otuJudged o delay th) rfl ((otuDisciplined_wordOnly _ _).trans rfl))

theorem noRound_wordOnly (o : Otu) : WordOnly o o.noRound := by
  unfold Otu.noRound
  dsimp only
  refine WordOnly.regrade (WordOnly.trans ?_ rfl)
  split
  · exact stepBy_wordOnly _ _
  · rfl

/-- An error bound leaves the path delay, the offsets measured and the time. -/
theorem bound_keeps (c : Clk) (extra : Nat) :
    (c.bound extra).delay = c.delay ∧ (c.bound extra).thetas = c.thetas ∧ (c.bound extra).ft = c.ft := by
  unfold Clk.bound
  split <;> exact ⟨rfl, rfl, rfl⟩

/-- Stepping leaves the path delay. -/
theorem stepBy_delay (o : Otu) (n : Nat) : (o.stepBy n).clk.delay = o.clk.delay := by
  unfold Otu.stepBy
  rw [Otu.event_clk]
  exact (bound_keeps _ _).1

/-- With a job open no step is due. -/
theorem stepIfDue_job (o : Otu) (h : o.openJob.isSome = true) : o.stepIfDue = none := by
  have hn : o.openJob.isNone = false := by rw [Option.isNone_eq_false_iff]; exact h
  unfold Otu.stepIfDue
  rw [hn]
  rfl

theorem otuDisciplined_delay (o : Otu) (ppm : Nat) : (otuDisciplined o ppm).clk.delay = o.clk.delay := by
  unfold otuDisciplined
  split
  · exact stepBy_delay _ _
  · dsimp only
    split <;> rfl

theorem otuDisciplined_job (o : Otu) (ppm : Nat) (h : o.openJob.isSome = true) :
    (otuDisciplined o ppm).clk = o.clk.slewTo o.period ppm ∧ (otuDisciplined o ppm).link = o.link := by
  unfold otuDisciplined
  rw [stepIfDue_job o h]
  dsimp only
  split <;> exact ⟨rfl, rfl⟩

/-- Judging a measurement leaves the filter. -/
theorem judge_filter (c : Clk) (n : Nat) : (c.judge n).thetas = c.thetas ∧ (c.judge n).theta = c.theta := by
  have hu (c : Clk) : (c.unlock 1).thetas = c.thetas ∧ (c.unlock 1).theta = c.theta := ⟨rfl, rfl⟩
  unfold Clk.judge
  dsimp only
  split_ifs <;> exact ⟨rfl, rfl⟩

/-- A round gives the path delay; with a job open its offset enters the filter, and no time is stepped. -/
theorem otu_measure_delay (o : Otu) (delay th : Int) : (o.measure delay th).clk.delay = ofS 32 delay := by
  rw [otu_measure_eq, otu_regrade_clk]
  exact otuDisciplined_delay _ _

theorem otu_measure_job (o : Otu) (delay th : Int) (h : o.openJob.isSome = true) :
    (o.measure delay th).clk.thetas = (th :: o.clk.thetas).take (2 ^ OtuR.fld o OTU_TIME_CTRL 0 4) ∧
    (o.measure delay th).clk.theta = meanInt (o.measure delay th).clk.thetas ∧ (o.measure delay th).link = o.link := by
  obtain ⟨hclk, hlink⟩ := otuDisciplined_job (otuJudged o delay th) (OtuR.fld o OTU_TIME_CTRL 4 8) h
  obtain ⟨ht, hm⟩ := judge_filter (o.clk.push (OtuR.fld o OTU_TIME_CTRL 0 4) (o.linkExtra + o.prdErr) th) 16
  have hthetas : (o.measure delay th).clk.thetas = (th :: o.clk.thetas).take (2 ^ OtuR.fld o OTU_TIME_CTRL 0 4) := by
    rw [otu_measure_eq, otu_regrade_clk]
    exact (congrArg Clk.thetas hclk).trans ht
  have htheta : (o.measure delay th).clk.theta = meanInt ((th :: o.clk.thetas).take (2 ^ OtuR.fld o OTU_TIME_CTRL 0 4)) := by
    rw [otu_measure_eq, otu_regrade_clk]
    exact (congrArg Clk.theta hclk).trans hm
  refine ⟨hthetas, by rw [htheta, hthetas], ?_⟩
  rw [otu_measure_eq, Otu.regrade_link]
  exact hlink

theorem noRound_job (o : Otu) (h : o.openJob.isSome = true) :
    o.noRound.clk.thetas = o.clk.thetas ∧ o.noRound.clk.ft = o.clk.ft ∧ o.noRound.link = o.link := by
  obtain ⟨-, hthetas, hft⟩ := bound_keeps o.clk (o.linkExtra + o.prdErr)
  unfold Otu.noRound
  rw [stepIfDue_job o h, otu_regrade_clk, Otu.regrade_link]
  exact ⟨hthetas, hft, rfl⟩

end Sys2Proof.Machine.FleetTime
end

section
namespace Sys2Proof.Machine.FleetTime
open Sys2Proof

/-! ### TIME_WORD_TX and TIME_WORD_RX at the OTU -/

/-- What the OTU tells of itself in a time word. -/
def otuWord (o : Otu) : TimeWord :=
  { grade := o.clk.grade, ftValid := o.clk.st != 0, holdover := o.clk.st == 3, fromDie := true, jobOpen := o.openJob.isSome, errBound := o.clk.err }

/-- The OTU's time word goes out in an IDLE flit, and its next one takes the next TW_SEQ. -/
theorem otu_timeWordOut (o : Otu) (tx : Nat) : ∃ l, o.timeWordOut tx = { o with link := l } ∧ l.idleAt = o.now ∧
    l.tw = o.link.tw.send (o.clk.st != 0) tx (otuWord o) := by
  obtain ⟨htw, hidle⟩ := putIdle_tw
    { o.link with tw := o.link.tw.send (o.clk.st != 0) tx (otuWord o), idleAt := o.now } (o.link.tw.send (o.clk.st != 0) tx (otuWord o)).out
  exact ⟨_, rfl, hidle, htw⟩

theorem exec_timeWordTx_otu_down (s : State) (tx frac : Nat) (e : Edge) (hv : s.otu.invalid = false) (h : s.otu.link.st ≠ 2) :
    exec (.timeWordTx .otu tx frac e) s = .next (s.withOtu (s.otu.go e)) := by
  refine congrArg _ ((State.onOtu_with s _ hv).trans (congrArg _ ?_))
  exact if_neg h

theorem exec_timeWordTx_otu_up (s : State) (tx frac : Nat) (e : Edge) (hv : s.otu.invalid = false) (h : s.otu.link.st = 2) :
    exec (.timeWordTx .otu tx frac e) s = .next (s.withOtu (((s.otu.go e).timeWordOut (tx * 256 + frac % 256)).dctrAdd 0x67 1)) := by
  refine congrArg _ ((State.onOtu_with s _ hv).trans (congrArg _ ?_))
  exact if_pos h

/-- The OTU once it has taken in what an accepted time word tells. -/
def wordReceived (o : Otu) (w : TimeWord) (at_ : Nat) : Otu :=
  { o with link := { o.link with tw := o.link.tw.receive w at_ (o.clk.st != 0) }, prdGrade := min w.grade 4, prdErr := w.errBound, asym := w.asym }

/-- The OTU once a time word has stepped its clock to the sender's time. -/
def steppedTo (o : Otu) (w : TimeWord) : Otu :=
  (OtuR.ev { o with clk := { o.clk with st := 1, ft := w.txStamp, lastMeas := w.txStamp } } OTU_TIME_EVENTS 2).event
    { code := 0x11, sev := 2, payload := le 8 w.txStamp }

/-- The OTU once a time word has started its acquisition. -/
def acquiring (o : Otu) (w : TimeWord) : Otu := (steppedTo o w).armTimers.regrade

/-- The round that a time word completes: its path delay and its offset. -/
def roundOf (o : Otu) (w : TimeWord) : Option (Int × Int) :=
  (o.link.tw.echoed w).bind fun x => x.echo.map fun p => fourStamp p.1 p.2 x.tx (w.rxStamp * 256 + w.rxFrac) w.asym

/-- The OTU of a clock that counts, once the time of the word is kept. -/
def heard (o : Otu) (w : TimeWord) (at_ : Nat) : Otu := { wordReceived o w at_ with clk := { o.clk with lastMeas := o.clk.ft } }

/-- What an accepted time word does to a clock that counts. -/
def timed (o : Otu) (w : TimeWord) (at_ : Nat) : Otu :=
  match roundOf o w with
  | some r => (heard o w at_).measure r.1 r.2
  | none => (heard o w at_).noRound

theorem wordReceived_clk (o : Otu) (w : TimeWord) (at_ : Nat) : (wordReceived o w at_).clk = o.clk := rfl

theorem timeWord_seqError (o : Otu) (w : TimeWord) (at_ : Nat) (h : o.link.tw.seqError w = true) :
    o.timeWord w at_ = OtuR.ev { o with link := { o.link with tw := o.link.tw.seqErr } } OTU_TIME_EVENTS 5 := if_pos h

theorem timeWord_accepted (o : Otu) (w : TimeWord) (at_ : Nat) (h : o.link.tw.seqError w = false) :
    o.timeWord w at_ = if o.clk.st = 0 then (if w.ftValid then acquiring (wordReceived o w at_) w else wordReceived o w at_) else timed o w at_ := by
  unfold Otu.timeWord
  rw [if_neg (by rw [h]; exact Bool.false_ne_true)]
  refine if_congr Iff.rfl rfl ?_
  unfold timed roundOf
  cases o.link.tw.echoed w with
  | none => rfl
  | some x =>
    dsimp only [Option.bind]
    cases x.echo <;> rfl

theorem steppedTo_wordOnly (o : Otu) (w : TimeWord) : WordOnly o (steppedTo o w) :=
  WordOnly.event (p := OtuR.ev { o with clk := { o.clk with st := 1, ft := w.txStamp, lastMeas := w.txStamp } } OTU_TIME_EVENTS 2) rfl _

theorem steppedTo_clk (o : Otu) (w : TimeWord) : (steppedTo o w).clk = { o.clk with st := 1, ft := w.txStamp, lastMeas := w.txStamp } :=
  Otu.event_clk _ _

theorem steppedTo_link (o : Otu) (w : TimeWord) : (steppedTo o w).link = o.link := Otu.event_link _ _

theorem armTimers_wordOnly (o : Otu) : WordOnly o o.armTimers := by
  obtain ⟨a, n, q, g, h⟩ := o.armTimers_all
  rw [h]
  rfl

/-- Acquisition begins at the sender's time. -/
theorem acquiring_clk (o : Otu) (w : TimeWord) : (acquiring o w).clk.st = 1 ∧ (acquiring o w).clk.ft = w.txStamp := by
  have h := steppedTo_clk o w
  unfold acquiring
  rw [otu_regrade_clk, Otu.armTimers_clk, h]
  exact ⟨rfl, rfl⟩

theorem acquiring_wordOnly (o : Otu) (w : TimeWord) : WordOnly o (acquiring o w) :=
  WordOnly.regrade ((steppedTo_wordOnly o w).trans (armTimers_wordOnly _))

theorem acquiring_link (o : Otu) (w : TimeWord) : (acquiring o w).link = o.link := by
  rw [acquiring, Otu.regrade_link, Otu.armTimers_link, steppedTo_link]

theorem timed_wordOnly (o : Otu) (w : TimeWord) (at_ : Nat) : WordOnly (wordReceived o w at_) (timed o w at_) := by
  have h : WordOnly (wordReceived o w at_) (heard o w at_) := rfl
  unfold timed
  cases roundOf o w with
  | none => exact h.trans (noRound_wordOnly _)
  | some r => exact h.trans (otu_measure_wordOnly _ _ _)

/-- With a job open a time word moves no stamp that this end holds. -/
theorem timed_link (o : Otu) (w : TimeWord) (at_ : Nat) (h : o.openJob.isSome = true) : (timed o w at_).link = (wordReceived o w at_).link := by
  have hj : (heard o w at_).openJob.isSome = true := h
  unfold timed
  cases roundOf o w with
  | none => exact (noRound_job _ hj).2.2
  | some r => exact (otu_measure_job _ _ _ hj).2.2

/-- With a job open a word that completes no round leaves the offsets measured and the time. -/
theorem timed_noRound (o : Otu) (w : TimeWord) (at_ : Nat) (h : o.openJob.isSome = true) (hr : roundOf o w = none) :
    (timed o w at_).clk.thetas = o.clk.thetas ∧ (timed o w at_).clk.ft = o.clk.ft := by
  unfold timed
  rw [hr]
  obtain ⟨hthetas, hft, -⟩ := noRound_job (heard o w at_) h
  exact ⟨hthetas, hft⟩

/-- A round gives the path delay, and with a job open its offset enters the filter. -/
theorem timed_round (o : Otu) (w : TimeWord) (at_ : Nat) (d th : Int) (hr : roundOf o w = some (d, th)) :
    (timed o w at_).clk.delay = ofS 32 d ∧ (o.openJob.isSome = true →
      (timed o w at_).clk.thetas = (th :: o.clk.thetas).take (2 ^ OtuR.fld o OTU_TIME_CTRL 0 4) ∧
      (timed o w at_).clk.theta = meanInt (timed o w at_).clk.thetas) := by
  unfold timed
  rw [hr]
  refine ⟨otu_measure_delay _ d th, fun h => ?_⟩
  obtain ⟨hthetas, htheta, -⟩ := otu_measure_job (heard o w at_) d th h
  exact ⟨hthetas, htheta⟩

/-- With no time, or with a job open, the link remembers the word, and moves no stamp. -/
theorem timeWord_tw (o : Otu) (w : TimeWord) (at_ : Nat) (h : o.link.tw.seqError w = false) (hor : o.clk.st = 0 ∨ o.openJob.isSome = true) :
    (o.timeWord w at_).link.tw = o.link.tw.receive w at_ (o.clk.st != 0) := by
  rw [timeWord_accepted o w at_ h]
  by_cases h0 : o.clk.st = 0
  · rw [if_pos h0]
    by_cases hv : w.ftValid = true
    · rw [if_pos hv, acquiring_link]
      rfl
    · rw [if_neg hv]
      rfl
  · rw [if_neg h0, timed_link o w at_ (hor.resolve_left h0)]
    rfl

/-- A flit that brings a time word reaches the OTU. -/
theorem exec_timeWordRx_otu (s : State) (rx frac : Nat) (f : FlitRx) (w : TimeWord) (e : Edge) (hv : s.otu.invalid = false)
    (h2 : s.otu.link.st = 2) (hw : s.otu.link.wordOf f = some w) :
    exec (.timeWordRx .otu f.bytes rx frac f.errs e) s = .next (s.withOtu (((s.otu.go e).hear f).timeWord w (rx * 256 + frac % 256))) := by
  refine congrArg _ ((State.onOtu_with s _ hv).trans (congrArg _ ?_))
  dsimp only
  rw [Otu.go_link, if_pos h2, show (⟨f.bytes, f.errs⟩ : FlitRx) = f from rfl, hw]

/-- One that brings none is heard, where the port is UP. -/
theorem exec_timeWordRx_otu_none (s : State) (rx frac : Nat) (f : FlitRx) (e : Edge) (hv : s.otu.invalid = false)
    (hw : s.otu.link.wordOf f = none) :
    exec (.timeWordRx .otu f.bytes rx frac f.errs e) s =
      .next (s.withOtu (if s.otu.link.st = 2 then (s.otu.go e).hear f else s.otu.go e)) := by
  refine congrArg _ ((State.onOtu_with s _ hv).trans (congrArg _ ?_))
  dsimp only
  rw [Otu.go_link, show (⟨f.bytes, f.errs⟩ : FlitRx) = f from rfl, hw]

end Sys2Proof.Machine.FleetTime
end

section
namespace Sys2Proof.Machine.FleetTime
open Sys2Proof

/-! ### TIME_WORD_TX and TIME_WORD_RX at Priord -/

theorem twEnd_setTwEnd (o : Prd) (n : Nat) (x : TwEnd) : (o.setTwEnd n x).twEnd n = x := Tbl.get_put_same _ _ _ _

theorem twEnd_setTwEnd_ne (o : Prd) {n m : Nat} (x : TwEnd) (h : m ≠ n) : (o.setTwEnd n x).twEnd m = o.twEnd m :=
  Tbl.get_put_ne _ _ _ (Ne.symm h)

theorem twEnd_go (o : Prd) (t n : Nat) : (o.go t).twEnd n = o.twEnd n := by rw [Prd.twEnd, Prd.go_tw]; rfl

theorem port_link_go (o : Prd) (t n : Nat) : ((o.go t).port n).link = (o.port n).link := by rw [Prd.port_go]

/-- What Priord tells of itself in a time word of port `n`. -/
def prdWord (o : Prd) (n : Nat) : TimeWord :=
  { grade := o.clk.grade, ftValid := true, holdover := o.clk.st == 3, fromDie := false, jobOpen := o.jobOpen, errBound := o.clk.err
    asym := toS 32 (PrdR.get o (PRD_TIME_DP_ASYM n)) }

/-- Time moving changes nothing that Priord tells of itself but whether a job is open. -/
theorem prdWord_go (o : Prd) (t n : Nat) : prdWord (o.go t) n = { prdWord o n with jobOpen := (o.go t).jobOpen } := by
  unfold prdWord PrdR.get
  rw [Prd.go_clk, Prd.go_regs]

theorem exec_timeWordTx_prd_down (s : State) (n tx frac : Nat) (e : Edge) (h : (s.prd.port n).link.st ≠ 2) :
    exec (.timeWordTx (.prd n) tx frac e) s = .next (s.withPrd (s.prd.go e.ft)) := by
  refine congrArg (fun o => Host.Outcome.next (s.withPrd o)) ?_
  dsimp only
  rw [port_link_go, if_neg (by simp [h])]

theorem exec_timeWordTx_prd_up (s : State) (n tx frac : Nat) (e : Edge) (hn : n < 32) (h : (s.prd.port n).link.st = 2) :
    exec (.timeWordTx (.prd n) tx frac e) s = .next (s.withPrd ((s.prd.go e.ft).timeWordOut n (tx * 256 + frac % 256))) := by
  refine congrArg (fun o => Host.Outcome.next (s.withPrd o)) ?_
  dsimp only
  rw [port_link_go, if_pos (by simp [h, hn])]

theorem exec_timeWordRx_prd_down (s : State) (n rx frac : Nat) (f : FlitRx) (e : Edge) (h : (s.prd.port n).link.st ≠ 2) :
    exec (.timeWordRx (.prd n) f.bytes rx frac f.errs e) s = .next (s.withPrd (s.prd.go e.ft)) := by
  refine congrArg (fun o => Host.Outcome.next (s.withPrd o)) ?_
  dsimp only
  rw [port_link_go, if_pos (by simp [h])]

theorem prd_timeWord_seqError (o : Prd) (n : Nat) (w : TimeWord) (at_ : Nat) (h : (o.twEnd n).seqError w = true) :
    o.timeWord n w at_ = o.setTwEnd n (o.twEnd n).seqErr := if_pos h

/-- An accepted word is remembered, and the port knows whether its die has time; beyond that it changes registers alone. -/
theorem prd_timeWord_accepted (o : Prd) (n : Nat) (w : TimeWord) (at_ : Nat) (h : (o.twEnd n).seqError w = false) :
    ∃ r, o.timeWord n w at_ =
      { (o.setTwEnd n ((o.twEnd n).receive w at_ true)).setPort n { o.port n with noTime := !w.ftValid } with regs := r } := by
  unfold Prd.timeWord
  dsimp only
  rw [if_neg (by rw [h]; exact Bool.false_ne_true)]
  cases (o.twEnd n).echoed w <;> exact ⟨_, rfl⟩

theorem prd_onLink_all (o : Prd) (n : Nat) (f : LinkSt → LinkSt) : ∃ d, o.onLink n f = { o with dp := d } := ⟨_, rfl⟩

/-- What a word that a flit brings can change at Priord. -/
theorem prd_accepted_frame (g : Prd) (f : LinkSt → LinkSt) (n : Nat) (w : TimeWord) (at_ : Nat)
    (h : ((g.onLink n f).twEnd n).seqError w = false) (p : Prd) (hp : p = (g.onLink n f).timeWord n w at_) :
    p = { g with tw := p.tw, dp := p.dp, regs := p.regs } := by
  obtain ⟨r, hr⟩ := prd_timeWord_accepted _ n w at_ h
  obtain ⟨d, hd⟩ := prd_onLink_all g n f
  rw [hp, hr, hd]
  rfl

/-- It shows the die's grade and lock, and sets TW_VALID. -/
theorem prd_timeWord_status (o : Prd) (n : Nat) (w : TimeWord) (at_ : Nat) (h : (o.twEnd n).seqError w = false) : ∃ lock,
    PrdR.get (o.timeWord n w at_) (PRD_TIME_DP_STATUS n) = (min w.grade 7 + 8 * b2n lock + 16) % 2 ^ 64 := by
  refine ⟨w.ftValid && !w.holdover && decide (w.errBound ≤ o.clk.err + e1), ?_⟩
  unfold Prd.timeWord
  dsimp only
  rw [if_neg (by rw [h]; exact Bool.false_ne_true)]
  cases (o.twEnd n).echoed w with
  | none => exact PrdR.get_set_same _ _ _
  | some y =>
    have hoff : PRD_TIME_DP_OFFSET n ≠ PRD_TIME_DP_STATUS n := by unfold PRD_TIME_DP_OFFSET PRD_TIME_DP_STATUS; omega
    have hdelay : PRD_TIME_DP_DELAY n ≠ PRD_TIME_DP_STATUS n := by unfold PRD_TIME_DP_DELAY PRD_TIME_DP_STATUS; omega
    dsimp only
    rw [PrdR.get_set_ne _ _ hoff, PrdR.get_set_ne _ _ hdelay]
    exact PrdR.get_set_same _ _ _

/-- A word of valid time, and one out of sequence, leave a port whose die had time as one that has it. -/
theorem prd_timeWord_noTime (o : Prd) (n : Nat) (w : TimeWord) (at_ : Nat) (h : (o.twEnd n).seqError w = true ∨ w.ftValid = true)
    (hnot : ((o.timeWord n w at_).port n).noTime = true) : (o.port n).noTime = true := by
  cases hq : (o.twEnd n).seqError w with
  | true => rwa [prd_timeWord_seqError o n w at_ hq] at hnot
  | false =>
    obtain ⟨r, hr⟩ := prd_timeWord_accepted o n w at_ hq
    have hport : (o.timeWord n w at_).port n = { o.port n with noTime := !w.ftValid } := by
      rw [hr]; exact Prd.port_setPort _ _ _
    rw [hport, h.resolve_left (by rw [hq]; exact Bool.false_ne_true)] at hnot
    exact absurd hnot Bool.false_ne_true

/-- A flit that brings a time word reaches Priord's port `n`: a die that has lost fleet time is declared absent (R89). -/
theorem exec_timeWordRx_prd (s : State) (n rx frac : Nat) (f : FlitRx) (w : TimeWord) (e : Edge) (hn : n < 32) (h : (s.prd.port n).link.st = 2)
    (hw : (s.prd.port n).link.wordOf f = some w) (hkeep : (s.prd.twEnd n).seqError w = true ∨ w.ftValid = true) :
    exec (.timeWordRx (.prd n) f.bytes rx frac f.errs e) s =
      .next (s.withPrd (((s.prd.go e.ft).onLink n (·.hear (s.prd.go e.ft).ft f)).timeWord n w (rx * 256 + frac % 256))) := by
  refine congrArg (fun o => Host.Outcome.next (s.withPrd o)) ?_
  dsimp only
  rw [port_link_go, if_neg (by simp [h, hn]), show (⟨f.bytes, f.errs⟩ : FlitRx) = f from rfl, hw]
  dsimp only
  have hx : ((s.prd.go e.ft).onLink n (·.hear (s.prd.go e.ft).ft f)).twEnd n = s.prd.twEnd n := twEnd_go _ _ _
  refine if_neg fun hc => ?_
  rw [Bool.and_eq_true, Bool.not_eq_true'] at hc
  exact Bool.false_ne_true (hc.1.symm.trans (prd_timeWord_noTime _ n w _ (by rwa [hx]) hc.2))

/-- The fields of a port's time status. -/
theorem dpStatus_fields (grade lock v : Nat) (hg : grade < 8) (hl : lock ≤ 1) (hv : v = (min grade 7 + 8 * lock + 16) % 2 ^ 64) :
    getF v 0 3 = grade ∧ bit v 4 = true := by
  have h16 : v = grade + 8 * lock + 16 := by omega
  simp only [getF, bit, Nat.shiftRight_eq_div_pow, beq_iff_eq]
  omega

/-- R43: the grade of a received time word has three bits. -/
theorem ofBytes_grade (b : List Byte) : (TimeWord.ofBytes b).grade < 8 := Nat.mod_lt _ (by decide)

/-! ### O12 -/

/-- Time moving changes nothing that the OTU tells of itself. -/
theorem otuWord_go (o : Otu) (e : Edge) : otuWord (o.go e) = otuWord o := by
  unfold otuWord Otu.openJob
  rw [otu_go_clk, Otu.go_jobs]

theorem go_st (o : Otu) (e : Edge) : (o.go e).clk.st = o.clk.st := by rw [otu_go_clk]

/-- A word that is accepted, as it leaves the OTU. -/
theorem otu_accepted_frame (g : Otu) (f : FlitRx) (w : TimeWord) (at_ : Nat) (h : (g.hear f).link.tw.seqError w = false) (p : Otu)
    (hp : p = (g.hear f).timeWord w at_) :
    p = { g with clk := p.clk, trayLock := p.trayLock, prdGrade := min w.grade 4, prdErr := w.errBound, asym := w.asym, dctr := p.dctr
                 link := p.link, acc := p.acc, gchNext := p.gchNext, qsLast := p.qsLast, qOld := p.qOld, gate := p.gate
                 regs := p.regs, cyc := p.cyc, evr := p.evr } := by
  have hword : WordOnly (wordReceived (g.hear f) w at_) p := by
    rw [hp, timeWord_accepted _ _ _ h]
    split
    · split
      · exact acquiring_wordOnly _ _
      · exact WordOnly.refl _
    · exact timed_wordOnly _ _ _
  obtain ⟨d, hd⟩ := otu_hear_all g f
  unfold WordOnly wordReceived at hword
  rw [hd] at hword
  rw [hword]

/-- Settles O12: both ends' time words are `sentWord`; a received one is heard by the link and taken in by `timeWord`, case by case. -/
theorem timeWordsCarryAndMeasure : Obligations.TimeWordsCarryAndMeasure := by
  unfold Obligations.TimeWordsCarryAndMeasure
  intro s n tx frac rx rfrac f w e
  obtain ⟨hdiv, hmod⟩ := stamp_parts tx frac
  refine ⟨fun hv => ⟨exec_timeWordTx_otu_down s tx frac e hv, fun hup => ?_, fun hno => ?_, fun hup hc hf ht hw => ?_⟩,
    fun hn hdown => ⟨exec_timeWordTx_prd_down s n tx frac e hdown, exec_timeWordRx_prd_down s n rx rfrac f e hdown⟩, fun hn hup => ?_,
    fun hn hup hc hf ht hw => ⟨fun hq => ?_, fun hq hft => ?_⟩⟩
  · obtain ⟨l, hl, hidle, htw⟩ := otu_timeWordOut (s.otu.go e) (tx * 256 + frac % 256)
    obtain ⟨d, hd⟩ := otu_dctrAdd_all ((s.otu.go e).timeWordOut (tx * 256 + frac % 256)) 0x67 1
    rw [otuWord_go, go_st, Otu.go_link] at htw
    refine ⟨_, sentWord s.otu.link.tw (s.otu.clk.st != 0) (tx * 256 + frac % 256) (otuWord s.otu),
      (exec_timeWordTx_otu_up s tx frac e hv hup).trans (by rw [hd, hl]), rfl, hidle, congrArg TwEnd.out htw, congrArg TwEnd.seq htw,
      rfl, rfl, rfl, ?_, rfl, rfl, rfl, rfl, fun h => ?_, fun h => ?_, rfl, fun q hqs => sentWord_echo _ _ _ _ q hqs⟩
    · exact Bool.eq_iff_iff.mpr (bne_iff_ne.trans (decide_eq_true_iff).symm)
    · have hvalid : (s.otu.clk.st != 0) = true := bne_iff_ne.mpr h
      rw [hvalid]
      exact ⟨hdiv, hmod⟩
    · rw [h]
      rfl
  · refine ⟨_, exec_timeWordRx_otu_none s rx rfrac f e hv (wordOf_none _ _ hno), ?_⟩
    obtain ⟨d, hd⟩ := otu_hear_all (s.otu.go e) f
    rw [hd]
    split
    · exact ⟨rfl, hear_tw _ _ _⟩
    · exact ⟨rfl, rfl⟩
  · have hexec := exec_timeWordRx_otu s rx rfrac f w e hv hup (wordOf_some _ _ _ hup hc hf ht hw)
    obtain ⟨d, hd⟩ := otu_hear_all (s.otu.go e) f
    have htw : ((s.otu.go e).hear f).link.tw = s.otu.link.tw := by rw [hd]; exact hear_tw _ _ _
    have hclk : ((s.otu.go e).hear f).clk = (s.otu.go e).clk := by rw [hd]
    have hst : ((s.otu.go e).hear f).clk.st = s.otu.clk.st := by rw [hclk, go_st]
    have hthetas : ((s.otu.go e).hear f).clk.thetas = s.otu.clk.thetas := by rw [hclk, otu_go_clk]
    have hjob : ((s.otu.go e).hear f).openJob = s.otu.openJob := by rw [hd]; rfl
    refine ⟨fun hq => ?_, fun hq => ?_⟩
    · rw [timeWord_seqError _ _ _ (by rwa [htw])] at hexec
      refine ⟨_, hexec, ?_, ?_, OtuR.flag_ev _ _ _ (by omega), fun a ha => ?_⟩
      · rw [hd]; rfl
      · exact congrArg TwEnd.seqErr htw
      · rw [OtuR.get_ev_ne _ _ (Ne.symm ha), hd]; rfl
    · have hq' : ((s.otu.go e).hear f).link.tw.seqError w = false := by rwa [htw]
      refine ⟨_, hexec, otu_accepted_frame (s.otu.go e) f w _ hq' _ rfl, fun h0 hv1 => ?_, fun h0 hv0 => ?_, fun hor => ?_, fun h0 hecho hj => ?_,
        fun x t1 t2 h0 hecho hx => ?_⟩
      · obtain ⟨h1, hft⟩ := acquiring_clk (wordReceived ((s.otu.go e).hear f) w (rx * 256 + rfrac % 256)) w
        rw [timeWord_accepted _ _ _ hq', if_pos (hst.trans h0), if_pos hv1]
        exact ⟨h1, hft⟩
      · have hgo : (s.otu.go e).clk = s.otu.clk := if_pos h0
        rw [timeWord_accepted _ _ _ hq', if_pos (hst.trans h0), if_neg (by rw [hv0]; exact Bool.false_ne_true), wordReceived_clk, hclk, hgo]
      · rw [timeWord_tw _ _ _ hq' (by rwa [hst, hjob]), htw, hst]
        exact congrArg (s.otu.link.tw.receive w (rx * 256 + rfrac % 256)) (Bool.eq_iff_iff.mpr (bne_iff_ne.trans (decide_eq_true_iff).symm))
      · obtain ⟨h1, h2⟩ := timed_noRound ((s.otu.go e).hear f) w (rx * 256 + rfrac % 256) (by rwa [hjob]) (by rw [roundOf, htw, hecho]; rfl)
        rw [timeWord_accepted _ _ _ hq', if_neg (by rwa [hst])]
        exact ⟨h1.trans hthetas, h2.trans (congrArg Clk.ft hclk)⟩
      · obtain ⟨hdelay, hfilter⟩ := timed_round ((s.otu.go e).hear f) w (rx * 256 + rfrac % 256) _ _
          (show roundOf _ w = some (fourStamp t1 t2 x.tx (w.rxStamp * 256 + w.rxFrac) w.asym) by rw [roundOf, htw, hecho]; simp [hx])
        rw [timeWord_accepted _ _ _ hq', if_neg (by rwa [hst])]
        refine ⟨hdelay, fun hj => ?_⟩
        rw [hjob, hthetas] at hfilter
        obtain ⟨h1, h2⟩ := hfilter hj
        refine ⟨h1.trans ?_, h2⟩
        rw [hd]
        rfl
  · refine ⟨_, sentWord (s.prd.twEnd n) true (tx * 256 + frac % 256) { prdWord s.prd n with jobOpen := (s.prd.go e.ft).jobOpen },
      exec_timeWordTx_prd_up s n tx frac e hn hup, rfl, ?_, rfl, rfl, rfl, ?_, rfl, rfl, hdiv, hmod, rfl, fun m hm => ?_⟩
    · rw [← prdWord_go, ← twEnd_go s.prd e.ft n]
      exact congrArg TwEnd.out (twEnd_setTwEnd _ _ _)
    · exact Bool.eq_iff_iff.mpr (beq_iff_eq.trans (decide_eq_true_iff).symm)
    · exact (twEnd_setTwEnd_ne _ _ hm).trans (twEnd_go _ _ _)
  · have hx : ((s.prd.go e.ft).onLink n (·.hear (s.prd.go e.ft).ft f)).twEnd n = s.prd.twEnd n := twEnd_go _ _ _
    have hexec := exec_timeWordRx_prd s n rx rfrac f w e hn hup (wordOf_some _ _ _ hup hc hf ht hw) (.inl hq)
    rw [prd_timeWord_seqError _ _ _ _ (by rwa [hx]), hx] at hexec
    exact ⟨_, hexec, rfl, twEnd_setTwEnd _ _ _⟩
  · have hx (m : Nat) : ((s.prd.go e.ft).onLink n (·.hear (s.prd.go e.ft).ft f)).twEnd m = s.prd.twEnd m := twEnd_go _ _ _
    have hq' : (((s.prd.go e.ft).onLink n (·.hear (s.prd.go e.ft).ft f)).twEnd n).seqError w = false := by rwa [hx]
    have hexec := exec_timeWordRx_prd s n rx rfrac f w e hn hup (wordOf_some _ _ _ hup hc hf ht hw) (.inr hft)
    obtain ⟨lock, hlock⟩ := prd_timeWord_status _ n w (rx * 256 + rfrac % 256) hq'
    obtain ⟨hgrade, hvalid⟩ := dpStatus_fields w.grade (b2n lock) _ (by rw [hw]; exact ofBytes_grade _) (by cases lock <;> decide) hlock
    obtain ⟨r, hr⟩ := prd_timeWord_accepted _ n w (rx * 256 + rfrac % 256) hq'
    refine ⟨_, hexec, prd_accepted_frame _ _ n w _ hq' _ rfl, ?_, fun m hm => ?_, ?_, hgrade, hvalid⟩
    · rw [hr]
      exact (twEnd_setTwEnd _ _ _).trans (by rw [hx])
    · rw [hr]
      exact (twEnd_setTwEnd_ne _ _ hm).trans (hx m)
    · rw [hr]
      exact (congrArg DpSt.noTime (Prd.port_setPort _ _ _)).trans (by rw [hft]; rfl)

end Sys2Proof.Machine.FleetTime
end

section
namespace Sys2Proof.Machine.FleetTime
open Sys2Proof

/-! ### What the flow trace and the ends of waits can change (R148 to R159, R129) -/

/-- A job but for what the loss of its records and the cancelling of its waits note in it. -/
def plain (j : JobSt) : JobSt := { j with loss := false, cancelled := false }

/-- `p` is `o` but for the trace, the egress queues, events, what jobs note of losses, and registers from 0xA0000 on. -/
structure Quiet (o p : Otu) : Prop where
  frame : p = { o with jobs := p.jobs, regs := p.regs, cyc := p.cyc, sil := p.sil, silSeq := p.silSeq, eq := p.eq, eqs := p.eqs, evr := p.evr }
  jobs : p.jobs.map plain = o.jobs.map plain
  regs : ∀ a, a < 0xA0000 → OtuR.get p a = OtuR.get o a

theorem Quiet.refl (o : Otu) : Quiet o o := ⟨rfl, rfl, fun _ _ => rfl⟩

theorem Quiet.trans {o p q : Otu} (h : Quiet o p) (k : Quiet p q) : Quiet o q := by
  refine ⟨?_, k.jobs.trans h.jobs, fun a ha => (k.regs a ha).trans (h.regs a ha)⟩
  have hq := k.frame
  rw [h.frame] at hq
  exact hq

theorem Quiet.armed {o p : Otu} (h : Quiet o p) : p.armed = o.armed := by rw [h.frame]
theorem Quiet.clk {o p : Otu} (h : Quiet o p) : p.clk = o.clk := by rw [h.frame]
theorem Quiet.queues {o p : Otu} (h : Quiet o p) : p.queues = o.queues := by rw [h.frame]
theorem Quiet.engs {o p : Otu} (h : Quiet o p) : p.engs = o.engs := by rw [h.frame]

/-- A fold of quiet steps is quiet. -/
theorem Quiet.foldl {α : Type} {f : Otu → α → Otu} (h : ∀ o x, Quiet o (f o x)) (l : List α) (o : Otu) : Quiet o (l.foldl f o) := by
  induction l generalizing o with
  | nil => exact .refl o
  | cons x r ih => exact (h o x).trans (ih _)

/-- A choice between quiet steps is quiet. -/
theorem Quiet.ite {o p q : Otu} {c : Prop} [Decidable c] (hp : c → Quiet o p) (hq : ¬ c → Quiet o q) : Quiet o (if c then p else q) := by
  split
  · exact hp ‹_›
  · exact hq ‹_›

theorem map_updFirst {α β : Type} (p : α → Bool) (f : α → α) (g : α → β) (h : ∀ x, g (f x) = g x) (l : List α) :
    (updFirst p f l).map g = l.map g := by
  induction l with
  | nil => rfl
  | cons x r ih =>
    unfold updFirst
    split
    · rw [List.map_cons, List.map_cons, h]
    · rw [List.map_cons, List.map_cons, ih]

theorem quiet_updJob (o : Otu) (tag : Nat) (f : JobSt → JobSt) (h : ∀ j, plain (f j) = plain j) : Quiet o (o.updJob tag f) :=
  ⟨rfl, map_updFirst _ f plain h o.jobs, fun _ _ => rfl⟩

theorem quiet_jobLoss (o : Otu) (tag : Nat) : Quiet o (o.jobLoss tag) := quiet_updJob o tag _ fun _ => rfl

theorem quiet_touch (o : Otu) (a : Nat) (f : Nat → Nat) (h : 0xA0000 ≤ a) : Quiet o (OtuR.touch o a f) :=
  ⟨rfl, rfl, fun _ hb => OtuR.get_touch_ne o f (by omega)⟩

theorem quiet_ev (o : Otu) (a n : Nat) (h : 0xA0000 ≤ a) : Quiet o (OtuR.ev o a n) := quiet_touch o a _ h

theorem quiet_cnt (o : Otu) (a lo w n : Nat) (h : 0xA0000 ≤ a) : Quiet o (OtuR.cnt o a lo w n) := quiet_touch o a _ h

theorem quiet_event (o : Otu) (r : EvReq) : Quiet o (o.event r) :=
  ⟨by rw [Otu.event_all], by rw [Otu.event_all],
    fun _ ha => Otu.event_get _ _ _ (by unfold OTU_EVR_EVENTS; omega) (by unfold OTU_EVR_DROPPED; omega)⟩

theorem quiet_setSil (o : Otu) (k : Nat) (x : SilSt) : Quiet o (o.setSil k x) := ⟨rfl, rfl, fun _ _ => rfl⟩

theorem quiet_setSeq (o : Otu) (k : Nat) (x : SilSeq) : Quiet o (o.setSeq k x) := ⟨rfl, rfl, fun _ _ => rfl⟩

theorem quiet_eq (o : Otu) (l : List (Nat × List QRec)) : Quiet o { o with eq := l } := ⟨rfl, rfl, fun _ _ => rfl⟩

theorem quiet_enqueue (o : Otu) (q : Nat) (r : QRec) : Quiet o (o.enqueue q r) := ⟨rfl, rfl, fun _ _ => rfl⟩

theorem quiet_send (o : Otu) (kind inst rtype tag : Nat) (body : List Byte) : Quiet o (o.send kind inst rtype tag body) := quiet_enqueue o _ _

/-! #### Records and packets -/

theorem quiet_silLoss (o : Otu) (k pk bytes : Nat) : Quiet o (o.silLoss k pk bytes) :=
  ((quiet_setSil o k _).trans (quiet_jobLoss _ _)).trans ((quiet_cnt _ _ _ _ _ (by decide)).trans (quiet_cnt _ _ _ _ _ (by decide)))

theorem quiet_silWrap (fuel : Nat) (o : Otu) (n : Nat) : Quiet o (Otu.silWrap fuel o n) := by
  induction fuel generalizing o with
  | zero => exact .refl o
  | succ m ih =>
    unfold Otu.silWrap
    refine .ite (fun _ => .refl o) fun _ => ?_
    split
    · exact .refl o
    · refine .trans ?_ (ih _)
      refine .trans ?_ (quiet_setSil _ _ _)
      refine .trans ?_ (quiet_silLoss _ _ _ _)
      exact (quiet_eq o _).trans ((quiet_ev _ _ _ (by decide)).trans (quiet_cnt _ _ _ _ _ (by decide)))

theorem quiet_lossSplit (o : Otu) (k : Nat) : Quiet o (o.lossSplit k) := .ite (fun _ => quiet_setSeq o k _) fun _ => .refl o

theorem quiet_silClose (o : Otu) (k : Nat) : Quiet o (o.silClose k) := by
  unfold Otu.silClose
  dsimp only
  refine .ite (fun _ => .refl o) fun _ => .ite (fun _ => ?_) fun _ => ?_
  · refine .trans ?_ (quiet_enqueue _ _ _)
    refine .trans ?_ (quiet_setSil _ _ _)
    exact .ite (fun _ => quiet_setSil o k _) fun _ => (quiet_setSil o k _).trans (quiet_silWrap _ _ _)
  · refine .trans ?_ (quiet_event _ _)
    refine .trans ?_ (quiet_ev _ _ _ (by decide))
    refine .trans ?_ (quiet_silLoss _ _ _ _)
    refine .trans ?_ (quiet_lossSplit _ _)
    exact (quiet_setSil o k _).trans (quiet_setSil _ _ _)

theorem quiet_silPut (o : Otu) (k : Nat) (p : List Byte) (sync ovf : Bool) : Quiet o (o.silPut k p sync ovf) := by
  unfold Otu.silPut
  refine .ite (fun _ => quiet_silLoss o _ _ _) fun _ => .trans (.ite (fun _ => quiet_silClose o k) fun _ => .refl o) (.ite (fun _ => quiet_silLoss _ _ _ _) fun _ => ?_)
  exact .ite (fun _ => (quiet_setSil _ _ _).trans (quiet_silClose _ _)) fun _ => quiet_setSil _ _ _

theorem quiet_silAsk (o : Otu) (k reason : Nat) : Quiet o (o.silAsk k reason) :=
  .ite (fun _ => quiet_setSil o k _) fun _ => .ite (fun _ => quiet_setSil o k _) fun _ => quiet_setSil o k _

theorem quiet_silOvf (o : Otu) (k : Nat) : Quiet o (o.silOvf k) := (quiet_setSil o k _).trans (quiet_silPut _ _ _ _ _)

theorem quiet_ovfNow (o : Otu) (k : Nat) : Quiet o (o.ovfNow k) :=
  .ite (fun _ => (quiet_silOvf o k).trans (quiet_silAsk _ _ _)) fun _ => .refl o

theorem quiet_silOut (o : Otu) (k : Nat) (p : List Byte) : Quiet o (o.silOut k p) := (quiet_silPut o k p _ _).trans (quiet_ovfNow _ k)

theorem quiet_silFlush (o : Otu) (k : Nat) : Quiet o (o.silFlush k) := by
  unfold Otu.silFlush
  dsimp only
  split
  · exact (quiet_setSil o k _).trans (quiet_silOut _ _ _)
  · exact .ite (fun _ => .refl o) fun _ => (quiet_setSil o k _).trans (quiet_silOut _ _ _)

theorem quiet_silEmit (o : Otu) (k : Nat) (p : List Byte) : Quiet o (o.silEmit k p) :=
  ((quiet_silFlush o k).trans (quiet_ovfNow _ k)).trans (quiet_silPut _ _ _ _ _)

theorem quiet_silSync (o : Otu) (k reason : Nat) : Quiet o (o.silSync k reason) := by
  unfold Otu.silSync
  refine .trans ?_ (quiet_silPut _ _ _ _ _)
  refine .trans ?_ (quiet_setSil _ _ _)
  exact (quiet_silFlush o k).trans (.ite (fun _ => quiet_silOvf _ _) fun _ => .refl _)

/-! #### What falls due at the end of a cycle -/

/-- What runs as of an earlier cycle leaves the clocks as they are now. -/
theorem quiet_asOf (o : Otu) (d : EndDue) (f : Otu → Otu) (h : ∀ p, Quiet p (f p)) : Quiet o (o.asOf d f) := by
  have hq := h { o with lt := d.lt, clk := { o.clk with st := d.st, ft := d.ft, grade := d.grade } }
  refine ⟨?_, hq.jobs, hq.regs⟩
  have hf := hq.frame
  unfold Otu.asOf
  rw [hf]

theorem quiet_silForce (o : Otu) (k : Nat) : Quiet o (o.silForce k) := by
  unfold Otu.silForce
  split
  · exact quiet_asOf o _ _ fun p => quiet_silSync p _ _
  · exact .refl o

theorem quiet_endForce (o : Otu) (k : Nat) : Quiet o (o.endForce k) := by
  unfold Otu.endForce
  split
  · exact ((quiet_silForce o k).trans (quiet_setSil _ _ _)).trans (quiet_asOf _ _ _ fun p => (quiet_silEmit p _ _).trans (quiet_silClose _ _))
  · exact .refl o

theorem quiet_silSettle (o : Otu) (k : Nat) : Quiet o (o.silSettle k) := by
  unfold Otu.silSettle
  exact .trans (.ite (fun _ => quiet_silForce o k) fun _ => .refl o) (.ite (fun _ => quiet_endForce _ _) fun _ => .refl _)

theorem quiet_silSettleSeq (o : Otu) (s : Nat) : Quiet o (o.silSettleSeq s) := (quiet_silSettle o s).trans (quiet_silSettle _ _)

theorem quiet_silSettleAll (o : Otu) : Quiet o o.silSettleAll := .foldl quiet_silSettle _ o

theorem quiet_silPgap (o : Otu) (s : Nat) (resume : Option Nat) (cycles : Nat) : Quiet o (o.silPgap s resume cycles) :=
  (quiet_silEmit o s _).trans (quiet_setSil _ _ _)

theorem quiet_silSplit (o : Otu) (s : Nat) : Quiet o (o.silSplit s) :=
  .ite (fun _ => .refl o) fun _ => .ite (fun _ => quiet_setSeq o s _) fun _ => (quiet_silPgap o s _ _).trans (quiet_setSeq _ _ _)

theorem quiet_privOpen (o : Otu) (s reason : Nat) : Quiet o (o.privOpen s reason) :=
  ((quiet_endForce o _).trans (quiet_setSil _ _ _)).trans (quiet_silSync _ _ _)

theorem quiet_privEnd (o : Otu) (s reason : Nat) : Quiet o (o.privEnd s reason) := .ite (fun _ => quiet_setSil o _ _) fun _ => .refl o

/-- A job's end ends the streams of its sequencers (R154, R158). -/
theorem quiet_silEndStream (o : Otu) (s reason : Nat) : Quiet o (o.silEndStream s reason) := by
  unfold Otu.silEndStream
  refine .trans ?_ (quiet_privEnd _ _ _)
  refine .trans ?_ (quiet_setSil _ _ _)
  refine .trans ?_ (quiet_silClose _ _)
  refine .trans ?_ (quiet_silEmit _ _ _)
  exact ((quiet_silSettleSeq o s).trans (quiet_silSplit _ s)).trans ((quiet_silFlush _ s).trans (quiet_silForce _ s))

theorem quiet_silJobEnd (o : Otu) (tag : Nat) : Quiet o (o.silJobEnd tag) := .foldl (fun p s => quiet_silEndStream p s 0) _ o

/-- A change of owners opens and ends privileged streams (R147, R156). -/
theorem quiet_privChange (o : Otu) (mask : Nat) (sync : Bool) (live : Nat → Bool) : Quiet o (o.privChange mask sync live) := by
  refine .foldl (fun p s => .ite (fun _ => .refl p) fun _ => (quiet_silSettleSeq p s).trans (.ite (fun _ => ?_) fun _ => ?_)) _ o
  · exact .ite (fun _ => quiet_privOpen _ _ _) fun _ => .ite (fun _ => quiet_silAsk _ _ _) fun _ => .refl _
  · exact .ite (fun _ => quiet_privEnd _ _ _) fun _ => .refl _

theorem quiet_ownersChanged (o : Otu) : Quiet o o.ownersChanged := quiet_privChange o _ _ _

end Sys2Proof.Machine.FleetTime
end

section
namespace Sys2Proof.Machine.FleetTime
open Sys2Proof

/-! ### What a job's end closes (R129, R250) -/

theorem mem_tblDel {α : Type} (t : List (Nat × α)) (k : Nat) (x : Nat × α) (h : x ∈ Tbl.del t k) : x ∈ t ∧ x.1 ≠ k := by
  induction t with
  | nil => exact absurd h List.not_mem_nil
  | cons y r ih =>
    unfold Tbl.del at h
    by_cases hy : y.1 = k
    · rw [if_pos hy] at h
      exact ⟨List.mem_cons_of_mem y (ih h).1, (ih h).2⟩
    · rw [if_neg hy] at h
      rcases List.mem_cons.mp h with h | h
      · rw [h]
        exact ⟨List.mem_cons_self, hy⟩
      · exact ⟨List.mem_cons_of_mem y (ih h).1, (ih h).2⟩

/-- A quiet step does not see which waits are open. -/
theorem Quiet.withWaits {o p : Otu} {w : List (Nat × OpenWait)} (h : Quiet { o with waits := w } p) (v : List (Nat × OpenWait)) :
    Quiet { o with waits := v } { p with waits := v } := by
  refine ⟨?_, h.jobs, h.regs⟩
  have hf := h.frame
  rw [hf]

/-- `p` is `o` with some waits closed, none of an engine that `gone` names: their records go out. -/
structure Closed (gone : List Nat) (o p : Otu) : Prop where
  quiet : Quiet { o with waits := p.waits } p
  waits : ∀ x, x ∈ p.waits → x ∈ o.waits ∧ x.1 ∉ gone

theorem Closed.trans {l m : List Nat} {o p q : Otu} (h : Closed l o p) (k : Closed m p q) : Closed (l ++ m) o q := by
  refine ⟨(h.quiet.withWaits q.waits).trans k.quiet, fun x hx => ?_⟩
  obtain ⟨hp, hm⟩ := k.waits x hx
  obtain ⟨ho, hl⟩ := h.waits x hp
  exact ⟨ho, fun hlm => (List.mem_append.mp hlm).elim hl hm⟩

theorem quiet_sendSync (o : Otu) (tag : Nat) (r : SyncRec) : Quiet o (o.sendSync tag r) :=
  .ite (fun _ => ((quiet_cnt o _ _ _ _ (by decide)).trans (quiet_ev _ _ _ (by decide))).trans (quiet_jobLoss _ _)) fun _ => quiet_send o _ _ _ _ _

theorem quiet_sendWait (o : Otu) (tag : Nat) (r : SyncRec × Option SyncRec) : Quiet o (o.sendWait tag r) := by
  unfold Otu.sendWait
  dsimp only
  split
  · exact (quiet_sendSync o _ _).trans (quiet_sendSync _ _ _)
  · exact quiet_sendSync o _ _

/-- Closing the wait of an engine sends its record, or counts it as short (R129). -/
theorem quiet_closeWait (o : Otu) (e : Nat) (c : Bool) (w : OpenWait) (h : o.waits.lookup e = some w) :
    Quiet { o with waits := Tbl.del o.waits e } (o.closeWait e c) := by
  unfold Otu.closeWait
  rw [h]
  refine .ite (fun _ => quiet_cnt _ _ _ _ _ (by decide)) fun _ => .trans (.ite (fun _ => ?_) fun _ => .refl _) (quiet_sendWait _ _ _)
  exact quiet_updJob _ _ _ fun _ => rfl

theorem closeWait_none (o : Otu) (e : Nat) (c : Bool) (h : o.waits.lookup e = none) : o.closeWait e c = o := by
  unfold Otu.closeWait
  rw [h]

theorem closed_closeWait (o : Otu) (e : Nat) (c : Bool) : Closed [e] o (o.closeWait e c) := by
  cases h : o.waits.lookup e with
  | none =>
    rw [closeWait_none o e c h]
    refine ⟨.refl o, fun x hx => ⟨hx, fun he => ?_⟩⟩
    have hne : (e != x.1) = true := List.lookup_eq_none_iff.mp h x hx
    exact bne_iff_ne.mp hne (List.mem_singleton.mp he).symm
  | some w =>
    have hq := quiet_closeWait o e c w h
    have hw : (o.closeWait e c).waits = Tbl.del o.waits e := congrArg Otu.waits hq.frame
    refine ⟨by rw [hw]; exact hq, fun x hx => ?_⟩
    rw [hw] at hx
    obtain ⟨hmem, hne⟩ := mem_tblDel _ _ x hx
    exact ⟨hmem, fun he => hne (List.mem_singleton.mp he)⟩

theorem closed_foldl (l : List Nat) (o : Otu) : Closed l o (l.foldl (fun o e => o.closeWait e true) o) := by
  induction l generalizing o with
  | nil => exact ⟨.refl o, fun x hx => ⟨hx, List.not_mem_nil⟩⟩
  | cons e r ih => exact (closed_closeWait o e true).trans (ih _)

theorem closed_closeWaitsOf (o : Otu) (tag : Nat) :
    Closed ((o.waits.filter fun (x : Nat × OpenWait) => x.2.tag == tag).map (·.1)) o (o.closeWaitsOf tag) := closed_foldl _ o

/-- No wait of the job stays open. -/
theorem closeWaitsOf_waits (o : Otu) (tag : Nat) (x : Nat × OpenWait) (h : x ∈ (o.closeWaitsOf tag).waits) : x.2.tag ≠ tag := by
  obtain ⟨hmem, hgone⟩ := (closed_closeWaitsOf o tag).waits x h
  exact fun ht => hgone (List.mem_map_of_mem (List.mem_filter.mpr ⟨hmem, beq_iff_eq.mpr ht⟩))

theorem quiet_closeWaitsOf (o : Otu) (tag : Nat) : Quiet { o with waits := (o.closeWaitsOf tag).waits } (o.closeWaitsOf tag) :=
  (closed_closeWaitsOf o tag).quiet

/-- What jobs note of losses does not hide a job. -/
theorem Quiet.job {o p : Otu} (h : Quiet o p) (tag : Nat) (j : JobSt) (hj : o.job? tag = some j) :
    ∃ j', p.job? tag = some j' ∧ plain j' = plain j := by
  have hfind (l : List JobSt) : (l.find? (·.tag == tag)).map plain = (l.map plain).find? (·.tag == tag) := by
    rw [List.find?_map]
    rfl
  have hsame : (p.job? tag).map plain = some (plain j) := by
    rw [Otu.job?, hfind, h.jobs, ← hfind]
    exact congrArg (Option.map plain) hj
  exact Option.map_eq_some_iff.mp hsame

/-- Discarding a job's mirror candidates touches the mirrors, their counter and their event alone. -/
theorem staleMirrors_all (o : Otu) (tag : Nat) : ∃ m d r c, o.staleMirrors tag = { o with mirror := m, dctr := d, regs := r, cyc := c } := by
  unfold Otu.staleMirrors
  dsimp only
  generalize (o.mirror.filter _) = l
  induction l generalizing o with
  | nil => exact ⟨_, _, _, _, rfl⟩
  | cons x r ih =>
    obtain ⟨d, hd⟩ := otu_dctrAdd_all (o.setMir x.1 { x.2 with cand := none }) 0x4A 1
    obtain ⟨m', d', r', c', h⟩ := ih (OtuR.ev ((o.setMir x.1 { x.2 with cand := none }).dctrAdd 0x4A 1) OTU_CAN_EVENTS 5)
    refine ⟨m', d', r', c', ?_⟩
    rw [List.foldl_cons, h, hd]
    rfl

/-! #### DIE_JOB_END -/

/-- The OTU as a job that ends leaves it, but for the job itself. -/
def ending (o : Otu) (tag : Nat) : Otu := (((o.silJobEnd tag).closeWaitsOf tag).staleMirrors tag).stepEnd

theorem exec_dieJobEnd (s : State) (tag cause : Nat) (e : Edge) (hv : s.otu.invalid = false) :
    exec (.dieJobEnd tag cause e) s = .next (s.withOtu ((s.otu.go e).endJob tag (if cause = 0 then 0 else 2))) :=
  congrArg _ (State.onOtu_with s _ hv)

theorem endJob_idle (o : Otu) (tag cause : Nat) (h : o.job? tag = none ∨ ∃ j, o.job? tag = some j ∧ j.open_ = false) : o.endJob tag cause = o := by
  unfold Otu.endJob
  rcases h with h | ⟨j, h, hopen⟩
  · rw [h]
  · rw [h]
    dsimp only
    rw [hopen]
    rfl

theorem endJob_open (o : Otu) (tag cause : Nat) (j : JobSt) (h : o.job? tag = some j) (hopen : j.open_ = true) :
    o.endJob tag cause = (ending o tag).updJob tag fun j => { j with open_ := false, ended := true, cause := cause } := by
  unfold Otu.endJob
  rw [h]
  dsimp only
  rw [hopen]
  rfl

/-- A job's end leaves what is armed, the clock and the queues; the job keeps its place, and its waits are closed. -/
theorem ending_facts (o : Otu) (tag : Nat) (j : JobSt) (h : o.job? tag = some j) :
    (ending o tag).armed = o.armed ∧ (ending o tag).clk = o.clk ∧ (ending o tag).queues = o.queues ∧
    (∃ j', (ending o tag).job? tag = some j') ∧ ∀ x, x ∈ (ending o tag).waits → x.2.tag ≠ tag := by
  have hp := quiet_silJobEnd o tag
  have hq := quiet_closeWaitsOf (o.silJobEnd tag) tag
  have hwaits := closeWaitsOf_waits (o.silJobEnd tag) tag
  unfold ending
  generalize o.silJobEnd tag = p at hp hq hwaits ⊢
  generalize p.closeWaitsOf tag = q at hq hwaits ⊢
  obtain ⟨m, d, r, c, hm⟩ := staleMirrors_all q tag
  obtain ⟨j1, hj1, -⟩ := hp.job tag j h
  obtain ⟨j2, hj2, -⟩ := hq.job tag j1 hj1
  rw [hm]
  exact ⟨hq.armed.trans hp.armed, hq.clk.trans hp.clk, hq.queues.trans hp.queues, ⟨j2, hj2⟩, hwaits⟩

/-- DIE_JOB_END of an open job. -/
theorem endJob_facts (o : Otu) (tag cause : Nat) (j : JobSt) (h : o.job? tag = some j) (hopen : j.open_ = true) : ∃ p j', o.endJob tag cause = p ∧
    p.job? tag = some j' ∧ j'.open_ = false ∧ j'.ended = true ∧ j'.cause = cause ∧ (∀ x, x ∈ p.waits → x.2.tag ≠ tag) ∧
    p.armed = o.armed ∧ p.clk = o.clk ∧ p.queues = o.queues := by
  obtain ⟨harmed, hclk, hqueues, ⟨j2, hj2⟩, hwaits⟩ := ending_facts o tag j h
  exact ⟨_, { j2 with open_ := false, ended := true, cause := cause }, endJob_open o tag cause j h hopen,
    find?_updFirst _ _ _ j2 hj2 rfl, rfl, rfl, rfl, hwaits, harmed, hclk, hqueues⟩

end Sys2Proof.Machine.FleetTime
end

section
namespace Sys2Proof.Machine.FleetTime
open Sys2Proof

/-! ### What a job's release can change (R117, R250, R420) -/

/-- `p` is `o` but for the jobs, what they owned, windows, the trace, events, registers and egress queues. -/
def Released (o p : Otu) : Prop :=
  p = { o with jobs := p.jobs, engs := p.engs, queues := p.queues, pageOld := p.pageOld, winGone := p.winGone, sil := p.sil, silSeq := p.silSeq
               cyc := p.cyc, regs := p.regs, eq := p.eq, eqs := p.eqs, evr := p.evr }

theorem Released.refl (o : Otu) : Released o o := rfl

theorem Released.trans {o p q : Otu} (h : Released o p) (k : Released p q) : Released o q := by
  unfold Released at *
  rw [h] at k
  exact k

theorem Quiet.released {o p : Otu} (h : Quiet o p) : Released o p := by
  unfold Released
  have hf := h.frame
  rw [hf]

theorem Released.foldl {α : Type} {f : Otu → α → Otu} (h : ∀ o x, Released o (f o x)) (l : List α) (o : Otu) : Released o (l.foldl f o) := by
  induction l generalizing o with
  | nil => exact .refl o
  | cons x r ih => exact (h o x).trans (ih _)

theorem released_setQueue (o : Otu) (q : Nat) (x : QSt) : Released o (o.setQueue q x) := rfl

theorem released_setOwner (o : Otu) (e tag : Nat) : Released o (o.setOwner e tag) := rfl

theorem setOwner_eng (o : Otu) (e tag : Nat) : (o.setOwner e tag).eng e = { o.eng e with tag := tag } := Otu.eng_setEng o e _

theorem setOwner_eng_ne (o : Otu) {e f : Nat} (tag : Nat) (h : e ≠ f) : (o.setOwner e tag).eng f = o.eng f := Otu.eng_setEng_ne o _ h

/-- `p` is `o` but for registers. -/
def RegsOnly (o p : Otu) : Prop := p = { o with regs := p.regs, cyc := p.cyc }

theorem RegsOnly.trans {o p q : Otu} (h : RegsOnly o p) (k : RegsOnly p q) : RegsOnly o q := by
  unfold RegsOnly at *
  rw [h] at k
  exact k

theorem RegsOnly.foldl {α : Type} {f : Otu → α → Otu} (h : ∀ o x, RegsOnly o (f o x)) (l : List α) (o : Otu) : RegsOnly o (l.foldl f o) := by
  induction l generalizing o with
  | nil => rfl
  | cons x r ih => exact (h o x).trans (ih _)

theorem RegsOnly.released {o p : Otu} (h : RegsOnly o p) : Released o p := by
  unfold RegsOnly at h
  unfold Released
  rw [h]

theorem RegsOnly.eng {o p : Otu} (h : RegsOnly o p) (f : Nat) : p.eng f = o.eng f := by
  unfold RegsOnly at h
  rw [h]
  rfl

theorem keepEv_all (o : Otu) (e : Nat) (ks : List Nat) : ∃ y, o.keepEv e ks = o.setEng e y ∧ y.tag = (o.eng e).tag := ⟨_, rfl, rfl⟩

/-- The engine's state as it keeps the counters that an access of this cycle still sees (R97). -/
def keptCounters (o : Otu) (e : Nat) : EngSt :=
  let x := o.eng e
  let old := (if x.startAt = o.lt then x.startOld else [])
  let add := ([5, 6, 7, 8].filter fun c => (old.lookup c).isNone).map fun c => (c, OtuR.get o (OTU_ENG_CTR e c))
  { x with startAt := o.lt, startOld := old ++ add }

/-- The reset of one selection and its counter. -/
def resetSelection (e : Nat) (o : Otu) (k : Nat) : Otu := (OtuR.set o (OTU_ENG_EVSEL e k) 0x1000000000).ctrSet e (k + 1) 0

/-- The job's half of an engine's registers goes (R117). -/
def resetHalf (o : Otu) (e : Nat) : Otu := OtuR.ev (([4, 5, 6, 7].foldl (resetSelection e) o).bumpEpoch e) (OTU_ENG_EVENTS e) 3

theorem releaseEngine_eq (o : Otu) (e : Nat) : o.releaseEngine e =
    resetHalf ((o.keepEv e [4, 5, 6, 7, 8]).setEng e (keptCounters (o.keepEv e [4, 5, 6, 7, 8]) e)) e := rfl

theorem set_regs (o : Otu) (a v : Nat) : RegsOnly o (OtuR.set o a v) := rfl

theorem touch_regs (o : Otu) (a : Nat) (f : Nat → Nat) : RegsOnly o (OtuR.touch o a f) := rfl

theorem resetSelection_regs (e : Nat) (o : Otu) (k : Nat) : RegsOnly o (resetSelection e o k) := by
  unfold resetSelection Otu.ctrSet
  exact (set_regs o _ _).trans (touch_regs _ _ _)

theorem bumpEpoch_regs (o : Otu) (e : Nat) : RegsOnly o (o.bumpEpoch e) := set_regs o _ _

theorem resetHalf_regs (o : Otu) (e : Nat) : RegsOnly o (resetHalf o e) := by
  unfold resetHalf OtuR.ev
  exact (RegsOnly.foldl (resetSelection_regs e) [4, 5, 6, 7] o).trans ((bumpEpoch_regs _ e).trans (touch_regs _ _ _))

/-- Releasing an engine keeps its owner, and touches beside its state its registers alone. -/
theorem releaseEngine_all (o : Otu) (e : Nat) : ∃ y x, RegsOnly ((o.setEng e y).setEng e x) (o.releaseEngine e) ∧ x.tag = (o.eng e).tag := by
  obtain ⟨y, hy, htag⟩ := keepEv_all o e [4, 5, 6, 7, 8]
  refine ⟨y, keptCounters (o.setEng e y) e, ?_, (congrArg EngSt.tag (Otu.eng_setEng o e y)).trans htag⟩
  rw [releaseEngine_eq, hy]
  exact resetHalf_regs _ e

theorem released_releaseEngine (o : Otu) (e : Nat) : Released o (o.releaseEngine e) := by
  obtain ⟨y, x, h, -⟩ := releaseEngine_all o e
  exact Released.trans (p := (o.setEng e y).setEng e x) rfl h.released

theorem releaseEngine_tag (o : Otu) (e f : Nat) : ((o.releaseEngine e).eng f).tag = (o.eng f).tag := by
  obtain ⟨y, x, h, htag⟩ := releaseEngine_all o e
  rw [h.eng]
  by_cases hf : e = f
  · rw [← hf, Otu.eng_setEng, htag]
  · rw [Otu.eng_setEng_ne _ _ hf, Otu.eng_setEng_ne _ _ hf]

/-- One engine of a job that is gone belongs to none. -/
def freeEngine (o : Otu) (e : Nat) : Otu := (o.setOwner e 0).releaseEngine e

theorem released_freeEngine (o : Otu) (e : Nat) : Released o (freeEngine o e) := (released_setOwner o e 0).trans (released_releaseEngine _ e)

theorem freeEngine_tag (o : Otu) (e f : Nat) : ((freeEngine o e).eng f).tag = if e = f then 0 else (o.eng f).tag := by
  rw [freeEngine, releaseEngine_tag]
  split
  case isTrue h => rw [← h, setOwner_eng]
  case isFalse h => rw [setOwner_eng_ne _ _ h]

/-- The engines listed belong to no job, nor does one that belonged to none. -/
theorem freeEngines_tag (l : List Nat) (o : Otu) (f : Nat) (h : f ∈ l ∨ (o.eng f).tag = 0) : ((l.foldl freeEngine o).eng f).tag = 0 := by
  induction l generalizing o with
  | nil => exact h.resolve_left List.not_mem_nil
  | cons e r ih =>
    refine ih _ ?_
    rw [freeEngine_tag]
    by_cases hf : e = f
    · exact .inr (if_pos hf)
    · rw [if_neg hf]
      exact h.imp_left fun hm => (List.mem_cons.mp hm).resolve_left fun hn => hf hn.symm

theorem tblGet_mem {α : Type} (d : Nat → α) (t : List (Nat × α)) (k : Nat) : (k, Tbl.get d t k) ∈ t ∨ Tbl.get d t k = d k := by
  induction t with
  | nil => exact .inr rfl
  | cons y r ih =>
    unfold Tbl.get
    by_cases h : y.1 = k
    · rw [if_pos h]
      exact .inl (by rw [← h]; exact List.mem_cons_self)
    · rw [if_neg h]
      exact ih.imp_left (List.mem_cons_of_mem y)

/-- An engine of a job is among those that its release frees. -/
theorem mem_engines (o : Otu) (tag f : Nat) (h : (o.eng f).tag = tag) :
    f ∈ (o.engs.filter fun (x : Nat × EngSt) => x.2.tag == tag).map (·.1) ∨ (o.eng f).tag = 0 := by
  rcases tblGet_mem (fun _ => ({} : EngSt)) o.engs f with hm | hd
  · exact .inl (List.mem_map.mpr ⟨_, List.mem_filter.mpr ⟨hm, beq_iff_eq.mpr h⟩, rfl⟩)
  · exact .inr (by rw [Otu.eng, hd])

/-! #### Windows -/

theorem setWinReg_get (o : Otu) (key a v b : Nat) (h : a ≠ b) : OtuR.get (o.setWinReg key a v) b = OtuR.get o b := OtuR.get_set_ne _ v h

/-- Clearing a window leaves every register but its pages'. -/
theorem clearWindow_get (o : Otu) (w a : Nat) (h : OTU_TW_ENG_PAGE w ≠ a) (h' : OTU_TW_Q_PAGE w ≠ a) :
    OtuR.get (o.clearWindow w) a = OtuR.get o a :=
  (setWinReg_get _ _ _ _ _ h').trans (setWinReg_get _ _ _ _ _ h)

theorem released_clearWindow (o : Otu) (w : Nat) : Released o (o.clearWindow w) := rfl

theorem released_setWinReg (o : Otu) (key a v : Nat) : Released o (o.setWinReg key a v) := rfl

end Sys2Proof.Machine.FleetTime
end

section
namespace Sys2Proof.Machine.FleetTime
open Sys2Proof

/-! ### JOB_END_RECORD (R250, R420) -/

theorem quiet_sendJobRec (o : Otu) (rtype tag : Nat) (body : List Byte) : Quiet o (o.sendJobRec rtype tag body) :=
  (quiet_send o _ _ _ _ _).trans (quiet_send _ _ _ _ _ _)

/-- The engines of a job belong to none. -/
def freeEngines (o : Otu) (tag : Nat) : Otu := ((o.engs.filter fun (x : Nat × EngSt) => x.2.tag == tag).map (·.1)).foldl freeEngine o

/-- The queues of a job belong to none. -/
def freeQueues (o : Otu) (tag : Nat) : Otu :=
  ((o.queues.filter fun (x : Nat × QSt) => x.1 ≥ 512 && x.2.owner == tag).map (·.1)).foldl
    (fun o q => o.setQueue q { o.queue q with owner := 0, ownerChanged := true }) o

/-- A job's window is unbound. -/
def unbind (o : Otu) (w : Nat) : Otu := (o.setWinReg (128 + w) (OTU_TW_BIND w) 0).clearWindow w

/-- A job is gone, and its start instant and its collective window with it. -/
def dropJob (o : Otu) (tag : Nat) : Otu :=
  OtuR.setFld (OtuR.set { o with jobs := o.jobs.filter fun x => x.tag != tag } OTU_TIME_JOB_START absent) OTU_GCL_CTRL 0 1 0

/-- All that follows the job-end record. -/
def release (o : Otu) (tag w : Nat) : Otu := dropJob (unbind (freeQueues (freeEngines o tag).ownersChanged tag) w) tag

theorem jobEndRecord_none (o : Otu) (tag : Nat) (h : o.job? tag = none) : o.jobEndRecord tag = o := by
  unfold Otu.jobEndRecord
  rw [h]

theorem jobEndRecord_running (o : Otu) (tag : Nat) (j : JobSt) (h : o.job? tag = some j) (hj : j.ended = false) : o.jobEndRecord tag = o := by
  unfold Otu.jobEndRecord
  rw [h]
  dsimp only
  rw [hj, if_neg Bool.false_ne_true, h]
  exact if_pos (by rw [Option.getD_some, hj]; rfl)

/-- While something of the job is held no record goes out. -/
theorem jobEndRecord_held (o k : Otu) (tag : Nat) (j j' : JobSt) (h : o.job? tag = some j) (hj : j.ended = true)
    (hk : k = (o.closeWaitsOf tag).silSettleAll) (hj' : k.job? tag = some j') (hhold : k.jobHolds tag = true) : o.jobEndRecord tag = k := by
  unfold Otu.jobEndRecord
  rw [h]
  dsimp only
  rw [hj, if_pos rfl, ← hk, hj']
  exact if_pos (by rw [hhold, Bool.or_true])

/-- Else the record goes out, and the job is released. -/
theorem jobEndRecord_released (o k : Otu) (tag w : Nat) (j j' : JobSt) (h : o.job? tag = some j) (hj : j.ended = true)
    (hk : k = (o.closeWaitsOf tag).silSettleAll) (hj' : k.job? tag = some j') (hend : j'.ended = true) (hw : j'.window = some w)
    (hhold : k.jobHolds tag = false) : ∃ p, Quiet k p ∧ o.jobEndRecord tag = release p tag w := by
  unfold Otu.jobEndRecord
  rw [h]
  dsimp only
  rw [hj, if_pos rfl, ← hk, hj']
  have hgo : ¬(!((some j').getD j).ended || k.jobHolds tag) = true := by
    rw [Option.getD_some, hend, hhold]
    exact Bool.false_ne_true
  rw [if_neg hgo, show ((some j').getD j).window = some w from hw]
  apply Exists.intro
  apply And.intro
  case right => exact rfl
  case left => exact (quiet_sendJobRec k 0x0F tag _).trans (quiet_event _ _)

theorem released_dropJob (o : Otu) (tag : Nat) : Released o (dropJob o tag) := rfl

theorem dropJob_job (o : Otu) (tag : Nat) : (dropJob o tag).job? tag = none := by
  refine List.find?_eq_none.mpr fun x hx ht => ?_
  exact absurd (beq_iff_eq.mp ht) (bne_iff_ne.mp (List.mem_filter.mp hx).2)

theorem dropJob_eng (o : Otu) (tag f : Nat) : (dropJob o tag).eng f = o.eng f := rfl

theorem dropJob_start (o : Otu) (tag : Nat) : OtuR.get (dropJob o tag) OTU_TIME_JOB_START = 2 ^ 64 - 1 :=
  (OtuR.get_setFld_ne _ _ _ _ (by decide)).trans (OtuR.get_set_same _ _ _)

theorem dropJob_get (o : Otu) (tag a : Nat) (h : a < OTU_TIME_JOB_START) : OtuR.get (dropJob o tag) a = OtuR.get o a :=
  (OtuR.get_setFld_ne _ _ _ _ (by unfold OTU_TIME_JOB_START at h; unfold OTU_GCL_CTRL; omega)).trans (OtuR.get_set_ne _ _ (by omega))

theorem unbind_eng (o : Otu) (w f : Nat) : (unbind o w).eng f = o.eng f := rfl

theorem released_unbind (o : Otu) (w : Nat) : Released o (unbind o w) := (released_setWinReg o _ _ _).trans (released_clearWindow _ w)

theorem unbind_get (o : Otu) (w : Nat) (hw : w < 64) : OtuR.get (unbind o w) (OTU_TW_BIND w) = 0 :=
  (clearWindow_get _ _ _ (by unfold OTU_TW_ENG_PAGE OTU_TW_BIND; omega) (by unfold OTU_TW_Q_PAGE OTU_TW_BIND; omega)).trans
    (OtuR.get_set_same _ _ _)

theorem released_freeQueues (o : Otu) (tag : Nat) : Released o (freeQueues o tag) := .foldl (fun p q => released_setQueue p q _) _ o

theorem freeQueues_eng (o : Otu) (tag f : Nat) : (freeQueues o tag).eng f = o.eng f :=
  congrArg (fun l => Tbl.get _ l f) (foldl_keeps Otu.engs (fun (o : Otu) q => o.setQueue q { o.queue q with owner := 0, ownerChanged := true })
    (fun _ _ => rfl) _ o)

theorem released_release (o : Otu) (tag w : Nat) : Released o (release o tag w) := by
  have h1 : Released o (freeEngines o tag) := .foldl released_freeEngine _ o
  have h2 := (h1.trans (quiet_ownersChanged _).released).trans (released_freeQueues _ tag)
  exact (h2.trans (released_unbind _ w)).trans (released_dropJob _ tag)

theorem release_eng (o : Otu) (tag w f : Nat) (h : (o.eng f).tag = tag) : ((release o tag w).eng f).tag = 0 := by
  have hfree : ((freeEngines o tag).eng f).tag = 0 := freeEngines_tag _ o f (mem_engines o tag f h)
  have howner : (freeEngines o tag).ownersChanged.eng f = (freeEngines o tag).eng f :=
    congrArg (fun l => Tbl.get _ l f) (quiet_ownersChanged _).engs
  rw [release, dropJob_eng, unbind_eng, freeQueues_eng, howner, hfree]

/-- The window of a job that is gone is unbound. -/
theorem release_bind (o : Otu) (tag w : Nat) (hw : w < 64) : OtuR.get (release o tag w) (OTU_TW_BIND w) = 0 :=
  (dropJob_get _ _ _ (by unfold OTU_TIME_JOB_START OTU_TW_BIND; omega)).trans (unbind_get _ w hw)

end Sys2Proof.Machine.FleetTime
end

section
namespace Sys2Proof.Machine.FleetTime
open Sys2Proof

/-! ### The digests at a job's start (R200, R203, R209) -/

theorem setFp_get (o : Otu) (f v n a : Nat) (h : OTU_DIG_FP f ≠ a) (h8 : OTU_DIG_FP f + 8 ≠ a) (ht : OTU_DIG_FP_TILES f ≠ a) :
    OtuR.get (o.setFp f v n) a = OtuR.get o a := by
  rw [Otu.setFp, OtuR.get_set_ne _ _ ht, OtuR.get_set_ne _ _ h8, OtuR.get_set_ne _ _ h]

theorem setFp_zero (o : Otu) (f : Nat) :
    OtuR.get (o.setFp f 0 0) (OTU_DIG_FP f) = 0 ∧ OtuR.get (o.setFp f 0 0) (OTU_DIG_FP_TILES f) = 0 := by
  refine ⟨?_, OtuR.get_set_same _ _ _⟩
  rw [Otu.setFp, OtuR.get_set_ne _ _ (by unfold OTU_DIG_FP OTU_DIG_FP_TILES; omega), OtuR.get_set_ne _ _ (by omega)]
  exact OtuR.get_set_same _ _ _

/-- The fingerprint of slot `f` and its count of tiles are zero. -/
def FpZero (o : Otu) (f : Nat) : Prop := OtuR.get o (OTU_DIG_FP f) = 0 ∧ OtuR.get o (OTU_DIG_FP_TILES f) = 0

theorem fpZero_setFp (o : Otu) (f g : Nat) (h : FpZero o f) : FpZero (o.setFp g 0 0) f := by
  by_cases hf : g = f
  · rw [hf]
    exact setFp_zero o f
  · obtain ⟨hv, ht⟩ := h
    constructor
    · rwa [setFp_get o g 0 0 _ (by unfold OTU_DIG_FP; omega) (by unfold OTU_DIG_FP; omega) (by unfold OTU_DIG_FP OTU_DIG_FP_TILES; omega)]
    · rwa [setFp_get o g 0 0 _ (by unfold OTU_DIG_FP OTU_DIG_FP_TILES; omega) (by unfold OTU_DIG_FP OTU_DIG_FP_TILES; omega)
        (by unfold OTU_DIG_FP_TILES; omega)]

theorem fpZero_foldl (l : List Nat) (o : Otu) (f : Nat) (h : f ∈ l ∨ FpZero o f) : FpZero (l.foldl (fun o f => o.setFp f 0 0) o) f := by
  induction l generalizing o with
  | nil => exact h.resolve_left List.not_mem_nil
  | cons g r ih =>
    refine ih _ ?_
    rcases h with h | h
    · rcases List.mem_cons.mp h with h | h
      · rw [← h]
        exact .inr (setFp_zero o f)
      · exact .inl h
    · exact .inr (fpZero_setFp o f g h)

theorem foldl_setFp_get (l : List Nat) (o : Otu) (a : Nat) (h : a < 0xE0020) :
    OtuR.get (l.foldl (fun o f => o.setFp f 0 0) o) a = OtuR.get o a :=
  foldl_keeps (fun o => OtuR.get o a) _ (fun o f => setFp_get o f 0 0 a (by unfold OTU_DIG_FP; omega) (by unfold OTU_DIG_FP; omega)
    (by unfold OTU_DIG_FP_TILES; omega)) l o

theorem writeWords_get (n a : Nat) (l : List Byte) (o : Otu) (b : Nat) (h : b < a ∨ a + 8 * n ≤ b) : OtuR.get (o.writeWords a l n) b = OtuR.get o b := by
  induction n generalizing a l o with
  | zero => rfl
  | succ n ih =>
    unfold Otu.writeWords
    rw [ih _ _ _ (by omega), OtuR.get_set_ne _ _ (by omega)]

/-- The OTU with the lists of its digests empty. -/
def listsEmpty (o : Otu) : Otu := { o with weights := [], hashing := [], inputs := [], inputOvf := false }

/-- Beside the fingerprints a job's start writes the two digests. -/
theorem digestStart_get (o : Otu) (imgs : List ProgImage) (ucs : List Microcode) (a : Nat) (h : a < 0xE0020 ∨ 0xE0060 ≤ a) :
    OtuR.get (o.digestStart imgs ucs) a = OtuR.get ((List.range 64).foldl (fun o f => o.setFp f 0 0) (listsEmpty o)) a := by
  unfold Otu.digestStart Otu.showWeights
  exact (writeWords_get _ _ _ _ _ (by unfold OTU_DIG_WEIGHTS; omega)).trans (writeWords_get _ _ _ _ _ (by unfold OTU_DIG_PROGRAM; omega))

theorem digestStart_low (o : Otu) (imgs : List ProgImage) (ucs : List Microcode) (a : Nat) (h : a < 0xA0000) :
    OtuR.get (o.digestStart imgs ucs) a = OtuR.get o a := by
  rw [digestStart_get o imgs ucs a (by omega), foldl_setFp_get _ _ _ (by omega)]
  rfl

theorem digestStart_fp (o : Otu) (imgs : List ProgImage) (ucs : List Microcode) (f : Nat) (hf : f < 64) : FpZero (o.digestStart imgs ucs) f := by
  obtain ⟨h, ht⟩ := fpZero_foldl (List.range 64) (listsEmpty o) f (.inl (List.mem_range.mpr hf))
  exact ⟨(digestStart_get o imgs ucs _ (by unfold OTU_DIG_FP; omega)).trans h, (digestStart_get o imgs ucs _ (by unfold OTU_DIG_FP_TILES; omega)).trans ht⟩

/-! ### START_BARRIER (R57, R250) -/

/-- The job that starts. -/
def startedJob (k : Otu) (a : Armed) (w : Nat) : JobSt :=
  { tag := a.tag, rank := a.rank, s := a.s, open_ := true, window := some w, lastProgress := k.ft, bseq := a.bseq
    nRanks := a.nRanks, subst := a.subst, noCanary := a.noCanary, noMirror := a.noMirror }

/-- The OTU with the job open and its window bound. -/
def jobOpened (k : Otu) (a : Armed) (w : Nat) : Otu :=
  Otu.setWinReg { k with armed := none, jobs := k.jobs ++ [startedJob k a w], txSeq := k.txSeq.filter fun x => x.1.2 != a.tag
                         acc := { k.acc with refs := k.acc.refs.filter fun r => r.tag != a.tag } } (128 + w) (OTU_TW_BIND w) (a.tag + 2 ^ 16)

/-- The engines named carry the job's tag. -/
def giveEngines (o : Otu) (engs : List Nat) (tag : Nat) : Otu := (engs.filter (· < 512)).foldl (fun o x => o.setOwner x tag) o

/-- The start instant shows, and no step is in progress. -/
def showStart (o : Otu) (t : Nat) : Otu := (OtuR.set o OTU_TIME_JOB_START t).stepEnd

/-- The OTU once the job has its engines and its start instant shows. -/
def jobStarted (k : Otu) (a : Armed) (w : Nat) (engs : List Nat) : Otu :=
  showStart (giveEngines (jobOpened k a w) engs a.tag).ownersChanged a.s

theorem exec_startBarrier_idle (s : State) (engs : List Nat) (imgs : List ProgImage) (ucs : List Microcode) (e : Edge) (hv : s.otu.invalid = false)
    (h : s.otu.armed = none ∨ ∃ a, s.otu.armed = some a ∧ (s.otu.go e).due a.s = false) :
    exec (.startBarrier engs imgs ucs e) s = .next (s.withOtu (s.otu.go e)) := by
  refine congrArg _ ((State.onOtu_with s _ hv).trans (congrArg _ ?_))
  dsimp only
  rw [Otu.go_armed]
  rcases h with h | ⟨a, h, hdue⟩
  · rw [h]
  · rw [h]
    exact if_pos (by rw [hdue]; rfl)

/-- The job-start record and its event go out (R250). -/
def announce (o : Otu) (a : Armed) (w : Nat) : Otu :=
  let p := o.sendJobRec 0x0E a.tag (le 1 1 ++ le 1 (o.actGrade + 8 * b2n o.trayLock + 16 * b2n a.audit + 32 * b2n a.subst) ++ le 2 0 ++
    le 2 a.tag ++ le 1 w ++ le 1 0 ++ le 8 a.bseq ++ le 8 a.s ++ le 8 o.ft ++ le 8 o.lt ++ le 4 a.rank ++ le 4 a.nRanks ++
    le 2 (o.engs.filter fun x => x.2.tag == a.tag).length ++ le 2 (o.queuesOf a.tag) ++ zeros 12)
  p.event { code := 0xA0, sev := 1, tag := a.tag, rank := some a.rank, payload := le 8 a.s ++ le 1 p.actGrade }

theorem quiet_announce (o : Otu) (a : Armed) (w : Nat) : Quiet o (announce o a w) := (quiet_sendJobRec o _ _ _).trans (quiet_event _ _)

/-- At S the job starts, and its record goes out. -/
theorem exec_startBarrier_opens (s : State) (engs : List Nat) (imgs : List ProgImage) (ucs : List Microcode) (e : Edge) (hv : s.otu.invalid = false)
    (a : Armed) (w : Nat) (k : Otu) (ha : s.otu.armed = some a) (hdue : (s.otu.go e).due a.s = true) (hf : a.fault = false)
    (hk : k = (s.otu.go e).fastCutIfDue.cutIfDue.silSettleAll) (hw : k.freeWindow = some w) :
    exec (.startBarrier engs imgs ucs e) s = .next (s.withOtu (announce ((jobStarted k a w engs).digestStart imgs ucs) a w)) := by
  refine (congrArg Host.Outcome.next (State.onOtu_with s _ hv)).trans (congrArg (fun o => Host.Outcome.next (s.withOtu o)) ?_)
  dsimp only
  rw [Otu.go_armed, ha]
  dsimp only
  have hgo : ¬(!(s.otu.go e).due a.s) = true := by
    rw [hdue]
    exact Bool.false_ne_true
  rw [if_neg hgo, ← hk, hw, hf, if_neg Bool.false_ne_true]
  rfl

/-! #### What the start leaves -/

theorem jobOpened_frame (k : Otu) (a : Armed) (w : Nat) : ∃ l x p r, jobOpened k a w = { k with
    armed := none, jobs := l, txSeq := x, acc := { k.acc with refs := k.acc.refs.filter fun r => r.tag != a.tag }, pageOld := p, regs := r } :=
  ⟨_, _, _, _, rfl⟩

theorem jobOpened_jobs (k : Otu) (a : Armed) (w : Nat) : (jobOpened k a w).jobs = k.jobs ++ [startedJob k a w] := rfl

theorem jobOpened_bind (k : Otu) (a : Armed) (w : Nat) : OtuR.get (jobOpened k a w) (OTU_TW_BIND w) = (a.tag + 2 ^ 16) % 2 ^ 64 :=
  OtuR.get_set_same _ _ _

theorem showStart_frame (o : Otu) (t : Nat) : ∃ r s, showStart o t = { o with regs := r, step := s, acc := { o.acc with stepNo := absent } } :=
  ⟨_, _, rfl⟩

theorem showStart_jobs (o : Otu) (t : Nat) : (showStart o t).jobs = o.jobs := rfl

theorem showStart_engs (o : Otu) (t : Nat) : (showStart o t).engs = o.engs := rfl

theorem showStart_get (o : Otu) (t b : Nat) : OtuR.get (showStart o t) b = OtuR.get (OtuR.set o OTU_TIME_JOB_START t) b := rfl

theorem digestStart_jobs (o : Otu) (imgs : List ProgImage) (ucs : List Microcode) : (o.digestStart imgs ucs).jobs = o.jobs := by
  obtain ⟨r, hr⟩ := Otu.digestStart_all o imgs ucs
  rw [hr]

theorem digestStart_engs (o : Otu) (imgs : List ProgImage) (ucs : List Microcode) : (o.digestStart imgs ucs).engs = o.engs := by
  obtain ⟨r, hr⟩ := Otu.digestStart_all o imgs ucs
  rw [hr]

theorem sendJobRec_get (o : Otu) (rtype tag : Nat) (body : List Byte) (b : Nat) : OtuR.get (o.sendJobRec rtype tag body) b = OtuR.get o b := by
  unfold OtuR.get Otu.sendJobRec
  rw [send_all, send_all]

theorem announce_get (o : Otu) (a : Armed) (w b : Nat) (h : b < 0xF0000) : OtuR.get (announce o a w) b = OtuR.get o b := by
  unfold announce
  rw [Otu.event_get _ _ b (by unfold OTU_EVR_EVENTS; omega) (by unfold OTU_EVR_DROPPED; omega), sendJobRec_get]

/-- Of jobs whose notes of losses alone may differ, the last is still there. -/
theorem mem_of_plain {l m : List JobSt} {j : JobSt} (h : l.map plain = m.map plain ++ [plain j]) : ∃ x ∈ l, plain x = plain j := by
  refine List.mem_map.mp ?_
  rw [h]
  exact List.mem_append_right _ List.mem_cons_self

theorem tags_of_plain {l m : List JobSt} {j : JobSt} (h : l.map plain = m.map plain ++ [plain j]) : l.map (·.tag) = m.map (·.tag) ++ [j.tag] := by
  have ht := congrArg (List.map JobSt.tag) h
  rw [List.map_append, List.map_map, List.map_map] at ht
  exact ht

theorem giveEngines_frame (o : Otu) (engs : List Nat) (tag : Nat) :
    giveEngines o engs tag = { o with engs := (giveEngines o engs tag).engs, queues := (giveEngines o engs tag).queues } := by
  unfold giveEngines
  generalize engs.filter (· < 512) = l
  induction l generalizing o with
  | nil => rfl
  | cons x r ih => rw [List.foldl_cons, ih]; rfl

theorem giveEngines_jobs (o : Otu) (engs : List Nat) (tag : Nat) : (giveEngines o engs tag).jobs = o.jobs := by
  rw [giveEngines_frame]

theorem giveEngines_get (o : Otu) (engs : List Nat) (tag b : Nat) : OtuR.get (giveEngines o engs tag) b = OtuR.get o b := by
  unfold OtuR.get
  rw [giveEngines_frame]

theorem giveEngines_ne (o : Otu) (engs : List Nat) (tag f : Nat) (h : f ∉ engs) : (giveEngines o engs tag).eng f = o.eng f := by
  unfold giveEngines
  have hl : f ∉ engs.filter (· < 512) := fun hm => h (List.mem_filter.mp hm).1
  generalize engs.filter (· < 512) = l at hl ⊢
  induction l generalizing o with
  | nil => rfl
  | cons x r ih =>
    rw [List.foldl_cons, ih _ (fun hm => hl (List.mem_cons_of_mem x hm)), setOwner_eng_ne]
    exact fun hx => hl (hx ▸ List.mem_cons_self)

theorem giveEngines_tag (o : Otu) (engs : List Nat) (tag f : Nat) (h : f ∈ engs) (hf : f < 512) : ((giveEngines o engs tag).eng f).tag = tag := by
  unfold giveEngines
  have hl : f ∈ engs.filter (· < 512) ∨ (o.eng f).tag = tag := .inl (List.mem_filter.mpr ⟨h, decide_eq_true hf⟩)
  generalize engs.filter (· < 512) = l at hl ⊢
  induction l generalizing o with
  | nil => exact hl.resolve_left List.not_mem_nil
  | cons x r ih =>
    refine ih _ ?_
    by_cases hx : x = f
    · rw [hx, setOwner_eng]
      exact .inr rfl
    · rw [setOwner_eng_ne _ _ hx]
      exact hl.imp_left fun hm => (List.mem_cons.mp hm).resolve_left fun he => hx he.symm

/-- The start, as a chain of what each of its parts can change. -/
theorem start_frame {k o1 o2 o3 o5 o6 o8 : Otu} {refs : List RefCopy}
    (h1 : ∃ l x p r, o1 = { k with armed := none, jobs := l, txSeq := x, acc := { k.acc with refs := refs }, pageOld := p, regs := r })
    (h2 : o2 = { o1 with engs := o2.engs, queues := o2.queues }) (h3 : Quiet o2 o3)
    (h5 : ∃ r s, o5 = { o3 with regs := r, step := s, acc := { o3.acc with stepNo := absent } })
    (h6 : ∃ r, o6 = { o5 with weights := [], hashing := [], inputs := [], inputOvf := false, regs := r }) (h8 : Quiet o6 o8) :
    o8 = { k with armed := none, jobs := o8.jobs, txSeq := o8.txSeq, acc := { k.acc with refs := o8.acc.refs, stepNo := absent }
                  pageOld := o8.pageOld, regs := o8.regs, engs := o8.engs, queues := o8.queues, sil := o8.sil, silSeq := o8.silSeq, step := o8.step
                  weights := [], hashing := [], inputs := [], inputOvf := false, eq := o8.eq, eqs := o8.eqs, evr := o8.evr, cyc := o8.cyc } := by
  obtain ⟨l, x, p, r, h1⟩ := h1
  obtain ⟨r5, s5, h5⟩ := h5
  obtain ⟨r6, h6⟩ := h6
  have h := h8.frame
  rw [h6, h5, h3.frame, h2, h1] at h
  rw [h]

end Sys2Proof.Machine.FleetTime
end

section
namespace Sys2Proof.Machine.FleetTime
open Sys2Proof

/-- The OTU as a start leaves it. -/
def started (k : Otu) (a : Armed) (w : Nat) (engs : List Nat) (imgs : List ProgImage) (ucs : List Microcode) : Otu :=
  announce ((jobStarted k a w engs).digestStart imgs ucs) a w

theorem started_frame (k : Otu) (a : Armed) (w : Nat) (engs : List Nat) (imgs : List ProgImage) (ucs : List Microcode) (o : Otu)
    (ho : o = started k a w engs imgs ucs) :
    o = { k with armed := none, jobs := o.jobs, txSeq := o.txSeq, acc := { k.acc with refs := o.acc.refs, stepNo := absent }
                 pageOld := o.pageOld, regs := o.regs, engs := o.engs, queues := o.queues, sil := o.sil, silSeq := o.silSeq, step := o.step
                 weights := [], hashing := [], inputs := [], inputOvf := false, eq := o.eq, eqs := o.eqs, evr := o.evr, cyc := o.cyc } := by
  rw [ho]
  exact start_frame (jobOpened_frame k a w) (giveEngines_frame _ engs a.tag) (quiet_ownersChanged _) (showStart_frame _ a.s)
    (Otu.digestStart_all _ imgs ucs) (quiet_announce _ a w)

/-- Beside what they note of losses the jobs are as before, with the one that starts at the end. -/
theorem started_jobs (k : Otu) (a : Armed) (w : Nat) (engs : List Nat) (imgs : List ProgImage) (ucs : List Microcode) :
    (started k a w engs imgs ucs).jobs.map plain = k.jobs.map plain ++ [plain (startedJob k a w)] := by
  rw [started, (quiet_announce _ a w).jobs, digestStart_jobs, jobStarted, showStart_jobs, (quiet_ownersChanged _).jobs, giveEngines_jobs,
    jobOpened_jobs, List.map_append, List.map_singleton]

theorem started_eng (k : Otu) (a : Armed) (w : Nat) (engs : List Nat) (imgs : List ProgImage) (ucs : List Microcode) (x : Nat) :
    (started k a w engs imgs ucs).eng x = (giveEngines (jobOpened k a w) engs a.tag).eng x := by
  unfold Otu.eng
  rw [started, (quiet_announce _ a w).engs, digestStart_engs, jobStarted, showStart_engs, (quiet_ownersChanged _).engs]

theorem jobOpened_eng (k : Otu) (a : Armed) (w x : Nat) : (jobOpened k a w).eng x = k.eng x := by
  obtain ⟨l, y, p, r, h⟩ := jobOpened_frame k a w
  rw [h]
  rfl

/-- The start instant shows, and the window is bound. -/
theorem started_get (k : Otu) (a : Armed) (w : Nat) (engs : List Nat) (imgs : List ProgImage) (ucs : List Microcode) (hw : w < 64) :
    OtuR.get (started k a w engs imgs ucs) (OTU_TW_BIND w) = (a.tag + 2 ^ 16) % 2 ^ 64 ∧
    OtuR.get (started k a w engs imgs ucs) OTU_TIME_JOB_START = a.s % 2 ^ 64 := by
  have hlow (b : Nat) (h : b < 0xA0000) : OtuR.get (started k a w engs imgs ucs) b =
      OtuR.get (OtuR.set (giveEngines (jobOpened k a w) engs a.tag).ownersChanged OTU_TIME_JOB_START a.s) b := by
    rw [started, announce_get _ a w b (by omega), digestStart_low _ imgs ucs b h, jobStarted, showStart_get]
  refine ⟨?_, (hlow _ (by decide)).trans (OtuR.get_set_same _ _ _)⟩
  rw [hlow _ (by unfold OTU_TW_BIND; omega), OtuR.get_set_ne _ _ (by unfold OTU_TIME_JOB_START OTU_TW_BIND; omega),
    (quiet_ownersChanged _).regs _ (by unfold OTU_TW_BIND; omega), giveEngines_get, jobOpened_bind]

/-- A fingerprint stays zero through the record and the event of the start. -/
theorem started_fp (k : Otu) (a : Armed) (w : Nat) (engs : List Nat) (imgs : List ProgImage) (ucs : List Microcode) (f : Nat) (hf : f < 64) :
    FpZero (started k a w engs imgs ucs) f := by
  obtain ⟨h, ht⟩ := digestStart_fp (jobStarted k a w engs) imgs ucs f hf
  exact ⟨(announce_get _ a w _ (by unfold OTU_DIG_FP; omega)).trans h, (announce_get _ a w _ (by unfold OTU_DIG_FP_TILES; omega)).trans ht⟩

theorem exec_startBarrier_started (s : State) (engs : List Nat) (imgs : List ProgImage) (ucs : List Microcode) (e : Edge)
    (hv : s.otu.invalid = false) (a : Armed) (w : Nat) (k : Otu) (ha : s.otu.armed = some a) (hdue : (s.otu.go e).due a.s = true)
    (hf : a.fault = false) (hk : k = (s.otu.go e).fastCutIfDue.cutIfDue.silSettleAll) (hw : k.freeWindow = some w) :
    exec (.startBarrier engs imgs ucs e) s = .next (s.withOtu (started k a w engs imgs ucs)) := by
  rw [started]
  exact exec_startBarrier_opens s engs imgs ucs e hv a w k ha hdue hf hk hw

/-- What losses cannot change of the job that started. -/
theorem startedJob_of_plain {k : Otu} {a : Armed} {w : Nat} {j : JobSt} (h : plain j = plain (startedJob k a w)) :
    j.tag = a.tag ∧ j.rank = a.rank ∧ j.s = a.s ∧ j.open_ = true ∧ j.ended = false ∧ j.window = some w ∧ j.bseq = a.bseq :=
  ⟨congrArg JobSt.tag h, congrArg JobSt.rank h, congrArg JobSt.s h, congrArg JobSt.open_ h, congrArg JobSt.ended h, congrArg JobSt.window h,
    congrArg JobSt.bseq h⟩

theorem freeWindow_lt (o : Otu) (w : Nat) (h : o.freeWindow = some w) : w < 64 := List.mem_range.mp (List.mem_of_find?_eq_some h)

theorem exec_jobEndRecord (s : State) (tag : Nat) (e : Edge) (hv : s.otu.invalid = false) :
    exec (.jobEndRecord tag e) s = .next (s.withOtu ((s.otu.go e).jobEndRecord tag)) := congrArg _ (State.onOtu_with s _ hv)

/-- With its waits closed and past packets out, a job that has ended is still there, and the engines are as they were. -/
theorem settled_job (o : Otu) (tag : Nat) (j : JobSt) (h : o.job? tag = some j) :
    ∃ j', (o.closeWaitsOf tag).silSettleAll.job? tag = some j' ∧ plain j' = plain j := by
  obtain ⟨j1, hj1, hp1⟩ := (quiet_closeWaitsOf o tag).job tag j h
  obtain ⟨j2, hj2, hp2⟩ := (quiet_silSettleAll _).job tag j1 hj1
  exact ⟨j2, hj2, hp2.trans hp1⟩

theorem settled_engs (o : Otu) (tag : Nat) : (o.closeWaitsOf tag).silSettleAll.engs = o.engs :=
  (quiet_silSettleAll _).engs.trans (quiet_closeWaitsOf o tag).engs

/-- Settles O33: the start is a chain of named parts, the end and the release likewise, and the trace and the closing of waits are quiet. -/
theorem aJobStartsEndsAndIsReleasedAtTheDie : Obligations.AJobStartsEndsAndIsReleasedAtTheDie := by
  unfold Obligations.AJobStartsEndsAndIsReleasedAtTheDie
  intro s tag e g k hv hg
  subst hg
  refine ⟨fun engs imgs ucs => ⟨fun ha => exec_startBarrier_idle s engs imgs ucs e hv (.inl ha),
      fun a ha hdue => exec_startBarrier_idle s engs imgs ucs e hv (.inr ⟨a, ha, hdue⟩), fun a w ha hdue hf hk hw => ?_⟩,
    fun cause hidle => ?_, fun cause j hj hopen => ?_, fun hnone => ?_, fun j hj => ⟨fun hend => ?_, fun hend hk => ⟨fun hhold => ?_, fun w hhold hw hw64 => ?_⟩⟩⟩
  · have hjobs := started_jobs k a w engs imgs ucs
    obtain ⟨hbind, hstart⟩ := started_get k a w engs imgs ucs (freeWindow_lt k w hw)
    obtain ⟨j, hj, hplain⟩ := mem_of_plain hjobs
    obtain ⟨htag, hrank, hs, hopen, hended, hwindow, hbseq⟩ := startedJob_of_plain hplain
    exact ⟨started k a w engs imgs ucs, j, exec_startBarrier_started s engs imgs ucs e hv a w k ha hdue hf hk hw, started_frame k a w engs imgs ucs _ rfl,
      hj, tags_of_plain hjobs, htag, hrank, hs, hopen, hended, hwindow, hbseq, hbind, hstart,
      fun x hx hx512 => (congrArg EngSt.tag (started_eng k a w engs imgs ucs x)).trans (giveEngines_tag _ engs a.tag x hx hx512),
      fun x hx => (started_eng k a w engs imgs ucs x).trans ((giveEngines_ne _ engs a.tag x hx).trans (jobOpened_eng k a w x)),
      fun f hf64 => started_fp k a w engs imgs ucs f hf64⟩
  · exact (exec_dieJobEnd s tag cause e hv).trans (by rw [endJob_idle (s.otu.go e) tag _ hidle])
  · obtain ⟨p, j', hp, hj', hopen', hend, hcause, hwaits, harmed, hclk, hqueues⟩ :=
      endJob_facts (s.otu.go e) tag (if cause = 0 then 0 else 2) j hj hopen
    exact ⟨p, j', (exec_dieJobEnd s tag cause e hv).trans (by rw [hp]), hj', hopen', hend, hcause, hwaits, harmed, hclk, hqueues⟩
  · exact (exec_jobEndRecord s tag e hv).trans (by rw [jobEndRecord_none (s.otu.go e) tag hnone])
  · exact (exec_jobEndRecord s tag e hv).trans (by rw [jobEndRecord_running (s.otu.go e) tag j hj hend])
  · obtain ⟨j', hj', -⟩ := settled_job (s.otu.go e) tag j hj
    rw [← hk] at hj'
    exact (exec_jobEndRecord s tag e hv).trans (by rw [jobEndRecord_held (s.otu.go e) k tag j j' hj hend hk hj' hhold])
  · obtain ⟨j', hj', hp⟩ := settled_job (s.otu.go e) tag j hj
    rw [← hk] at hj'
    obtain ⟨p, hq, hrel⟩ := jobEndRecord_released (s.otu.go e) k tag w j j' hj hend hk hj' ((congrArg JobSt.ended hp).trans hend)
      ((congrArg JobSt.window hp).trans hw) hhold
    refine ⟨release p tag w, (exec_jobEndRecord s tag e hv).trans (by rw [hrel]), hq.released.trans (released_release p tag w), ?_, fun x hx => ?_,
      release_bind p tag w hw64, dropJob_start _ tag⟩
    · exact dropJob_job _ tag
    · refine release_eng p tag w x ?_
      rw [Otu.eng, hq.engs, hk, settled_engs]
      exact hx

end Sys2Proof.Machine.FleetTime
end

section
namespace Sys2Proof.Machine.Accords
open Sys2Proof Sys2Proof.Machine.FleetTime

/-! ### What step marks of earlier cycles still owe (06 R180, R191)

Every command at the OTU that latches or marks first settles the marks of earlier cycles, which reaches the mirrors alone. -/

/-- `p` is `o` with mirror candidates discarded, counted and signalled. -/
structure MarksSettled (o p : Otu) : Prop where
  frame : p = { o with mirror := p.mirror, dctr := p.dctr, regs := p.regs, cyc := p.cyc, staleDue := p.staleDue }
  regs : ∀ a, a ≠ OTU_CAN_EVENTS → OtuR.get p a = OtuR.get o a
  dctr : ∀ i, i ≠ 0x4A → p.dctrGet i = o.dctrGet i

theorem MarksSettled.trans {o p q : Otu} (h : MarksSettled o p) (k : MarksSettled p q) : MarksSettled o q := by
  refine ⟨?_, fun a ha => (k.regs a ha).trans (h.regs a ha), fun i hi => (k.dctr i hi).trans (h.dctr i hi)⟩
  have hq := k.frame
  rw [h.frame] at hq
  exact hq

theorem MarksSettled.foldl {α : Type} {f : Otu → α → Otu} (h : ∀ o x, MarksSettled o (f o x)) (l : List α) (o : Otu) :
    MarksSettled o (l.foldl f o) := by
  induction l generalizing o with
  | nil => exact ⟨rfl, fun _ _ => rfl, fun _ _ => rfl⟩
  | cons x r ih => exact (h o x).trans (ih _)

/-- A read of the die counter that was added to. -/
theorem dctrGet_dctrAdd (o : Otu) (i n : Nat) : (o.dctrAdd i n).dctrGet i = (addWord 48 (o.dctrGet i) n).1 := Tbl.get_put_same _ _ _ _

/-- A read of any other die counter. -/
theorem dctrGet_dctrAdd_ne (o : Otu) {i j : Nat} (n : Nat) (h : i ≠ j) : (o.dctrAdd i n).dctrGet j = o.dctrGet j := Tbl.get_put_ne _ _ _ h

theorem discardCandidate_settled (o : Otu) (c : Nat) (m : MirrorSt) :
    MarksSettled o (OtuR.ev ((o.setMir c m).dctrAdd 0x4A 1) OTU_CAN_EVENTS 5) :=
  ⟨rfl, fun _ ha => OtuR.get_ev_ne ((o.setMir c m).dctrAdd 0x4A 1) 5 ha.symm, fun _ hi => dctrGet_dctrAdd_ne (o.setMir c m) 1 hi.symm⟩

theorem staleMirrors_settled (o : Otu) (tag : Nat) : MarksSettled o (o.staleMirrors tag) :=
  .foldl (fun p _ => discardCandidate_settled p _ _) _ o

theorem settleMarks_settled (o : Otu) : MarksSettled o o.settleMarks := by
  have h : MarksSettled o { o with staleDue := o.staleDue.filter (·.1 ≥ o.lt) } := ⟨rfl, fun _ _ => rfl, fun _ _ => rfl⟩
  exact h.trans (.foldl (fun p _ => staleMirrors_settled p _) _ _)

@[simp] theorem settleMarks_acc (o : Otu) : o.settleMarks.acc = o.acc := by rw [(settleMarks_settled o).frame]
@[simp] theorem settleMarks_clk (o : Otu) : o.settleMarks.clk = o.clk := by rw [(settleMarks_settled o).frame]
@[simp] theorem settleMarks_jobs (o : Otu) : o.settleMarks.jobs = o.jobs := by rw [(settleMarks_settled o).frame]
@[simp] theorem settleMarks_engs (o : Otu) : o.settleMarks.engs = o.engs := by rw [(settleMarks_settled o).frame]
@[simp] theorem settleMarks_eq (o : Otu) : o.settleMarks.eq = o.eq := by rw [(settleMarks_settled o).frame]
@[simp] theorem settleMarks_due (o : Otu) (t : Nat) : o.settleMarks.due t = o.due t := by rw [Otu.due, Otu.due, settleMarks_clk]
theorem settleMarks_get (o : Otu) (a : Nat) (h : a ≠ OTU_CAN_EVENTS) : OtuR.get o.settleMarks a = OtuR.get o a :=
  (settleMarks_settled o).regs a h

/-! ### Event bits and registers -/

/-- A bit reads the same where the whole register does. -/
theorem flag_of_get {o p : Otu} {a : Nat} (h : OtuR.get p a = OtuR.get o a) (k : Nat) : OtuR.flag p a k = OtuR.flag o a k :=
  congrArg (bit · k) h

theorem fld_of_get {o p : Otu} {a : Nat} (h : OtuR.get p a = OtuR.get o a) (lo w : Nat) : OtuR.fld p a lo w = OtuR.fld o a lo w :=
  congrArg (getF · lo w) h

/-! ### The digest window that a regular cut closes (08 R209, R210) -/

/-- `p` is `o` with its result mark's window closed, its record sent, and the digest registers set. -/
structure WindowClosed (o p : Otu) : Prop where
  frame : p = { o with resMark := p.resMark, inputs := p.inputs, inputOvf := p.inputOvf, regs := p.regs, cyc := p.cyc, eq := p.eq, eqs := p.eqs }
  regs : ∀ a, a < OTU_DIG_EVENTS → OtuR.get p a = OtuR.get o a

theorem WindowClosed.refl (o : Otu) : WindowClosed o o := ⟨rfl, fun _ _ => rfl⟩

theorem WindowClosed.trans {o p q : Otu} (h : WindowClosed o p) (k : WindowClosed p q) : WindowClosed o q := by
  refine ⟨?_, fun a ha => (k.regs a ha).trans (h.regs a ha)⟩
  have hq := k.frame
  rw [h.frame] at hq
  exact hq

theorem send_windowClosed (o : Otu) (kind inst rtype tag : Nat) (body : List Byte) : WindowClosed o (o.send kind inst rtype tag body) :=
  ⟨rfl, fun _ _ => rfl⟩

theorem ev_windowClosed (o : Otu) (k : Nat) : WindowClosed o (OtuR.ev o OTU_DIG_EVENTS k) :=
  ⟨rfl, fun _ ha => OtuR.get_ev_ne o k (Nat.ne_of_gt ha)⟩

theorem markSend_windowClosed (o : Otu) : WindowClosed o o.markSend := by
  have sent (p : Otu) (id : Nat) : WindowClosed p (OtuR.ev (OtuR.set { p with resMark := none } OTU_DIG_LAST_RESULT id) OTU_DIG_EVENTS 0) := by
    refine WindowClosed.trans (p := OtuR.set { p with resMark := none } OTU_DIG_LAST_RESULT id) ⟨rfl, fun a ha => ?_⟩ (ev_windowClosed _ 0)
    exact OtuR.get_set_ne { p with resMark := none } id (Nat.ne_of_gt (Nat.lt_trans ha (by decide)))
  unfold Otu.markSend
  split
  · exact .refl o
  · split
    · exact .refl o
    · split
      · exact .refl o
      · dsimp only
        split
        · exact (send_windowClosed o _ _ _ _ _).trans (sent _ _)
        · exact ((send_windowClosed o _ _ _ _ _).trans (send_windowClosed _ _ _ _ _ _)).trans (sent _ _)

theorem foldl_setFp_windowClosed (l : List Nat) (o : Otu) : WindowClosed o (l.foldl (fun o f => o.setFp f 0 0) o) := by
  refine ⟨?_, fun a ha => foldl_setFp_get l o a (by unfold OTU_DIG_EVENTS at ha; omega)⟩
  rw [Otu.foldl_regs _ (fun _ _ => rfl)]

/-- A mark that a cut has reached waits for its record, and a new window is open. -/
theorem markReached_windowClosed (o : Otu) (m : ResMark) :
    WindowClosed o ({ o with resMark := some m, inputs := [], inputOvf := false } : Otu).markSend :=
  WindowClosed.trans (p := { o with resMark := some m, inputs := [], inputOvf := false }) ⟨rfl, fun _ _ => rfl⟩ (markSend_windowClosed _)

theorem markCut_windowClosed (o : Otu) (no : Nat) : WindowClosed o (o.markCut no) := by
  unfold Otu.markCut
  split
  · exact .refl o
  · split
    · exact .refl o
    · dsimp only
      have hzero := foldl_setFp_windowClosed (setBits 64 (ResMark.mask ‹_›)) o
      generalize (setBits 64 _).foldl (fun o f => o.setFp f 0 0) o = p at hzero ⊢
      split
      · exact (hzero.trans (ev_windowClosed p 3)).trans (markReached_windowClosed _ _)
      · exact hzero.trans (markReached_windowClosed p _)

end Sys2Proof.Machine.Accords
end

section
namespace Sys2Proof.Machine.Accords
open Sys2Proof Sys2Proof.Machine.FleetTime

/-! ### The regular cut (03 R62 to R70) -/

/-- R62, R83: the instant after a cut at `t`. -/
def cutNext (o : Otu) (t : Nat) : Nat :=
  if o.acc.stepped = true ∨ t + o.acc.interval * 400000 ≤ o.clk.ft then nextMultiple o.clk.ft (o.acc.interval * 400000)
  else t + o.acc.interval * 400000

theorem cutNext_unstepped (o : Otu) (t : Nat) (h : o.acc.stepped = false) : cutNext o t =
    if t + o.acc.interval * 400000 ≤ o.clk.ft then nextMultiple o.clk.ft (o.acc.interval * 400000) else t + o.acc.interval * 400000 := by
  simp only [cutNext, h, Bool.false_eq_true, false_or]

/-- R64, R70: what a cut at `t` latches. -/
def cutShadow (o : Otu) (t : Nat) (change : Bool) : Shadow :=
  { kind := 0, image := o.latch, marks := o.acc.marks, lt := o.lt, ctxs := o.contexts, key := o.acc.keyReg || change
    stream := OtuR.flag o OTU_ACC_CTRL 2
    hdr := { o.cutHdr 0 (t / 400000) t o.acc.interval o.acc.stepped change o.latch with
      flags := (o.cutHdr 0 (t / 400000) t o.acc.interval o.acc.stepped change o.latch).flags + 128 * b2n o.acc.stepOvf } }

/-- What a cut at `t` into set `b` leaves of the accord state. -/
def cutAcc (o : Otu) (b : Bool) (t : Nat) (change : Bool) : AccSt :=
  { (o.acc.setShadow b (some (cutShadow o t change))) with
    nextT := cutNext o t, lastB := b, marks := [], stepOvf := false, stepped := false, keyReg := false }

/-- The registers in which the cut `no` shows. -/
def cutShown (o : Otu) (no : Nat) (stepped : Bool) : Otu :=
  if stepped then OtuR.ev (OtuR.set (OtuR.ev o OTU_ACC_EVENTS 0) OTU_ACC_LAST_NO no) OTU_ACC_EVENTS 6
  else OtuR.set (OtuR.ev o OTU_ACC_EVENTS 0) OTU_ACC_LAST_NO no

theorem regularCut_eq (o : Otu) (t : Nat) (change b : Bool) (h : o.acc.freeSet = some b) :
    o.regularCut t change =
      ((cutShown { o with acc := cutAcc o b t change } (t / 400000) o.acc.stepped).markCut (t / 400000)).pulse 0x100 t := by
  have hnext : (if o.acc.stepped || decide (t + o.acc.interval * 400000 ≤ o.clk.ft) then nextMultiple o.clk.ft (o.acc.interval * 400000)
      else t + o.acc.interval * 400000) = cutNext o t := by simp only [cutNext, Bool.or_eq_true, decide_eq_true_eq]
  simp only [Otu.regularCut, h, hnext]
  rfl

theorem cutShown_regs (o : Otu) (no : Nat) (stepped : Bool) : RegsOnly o (cutShown o no stepped) := by
  cases stepped <;> rfl

theorem cutShown_get (o : Otu) (no : Nat) (stepped : Bool) {a : Nat} (he : a ≠ OTU_ACC_EVENTS) (hl : a ≠ OTU_ACC_LAST_NO) :
    OtuR.get (cutShown o no stepped) a = OtuR.get o a := by
  have h : OtuR.get (OtuR.set (OtuR.ev o OTU_ACC_EVENTS 0) OTU_ACC_LAST_NO no) a = OtuR.get o a :=
    (OtuR.get_set_ne _ _ hl.symm).trans (OtuR.get_ev_ne o 0 he.symm)
  cases stepped
  · exact h
  · exact (OtuR.get_ev_ne _ 6 he.symm).trans h

theorem cutShown_lastNo (o : Otu) (no : Nat) (stepped : Bool) : OtuR.get (cutShown o no stepped) OTU_ACC_LAST_NO = no % 2 ^ 64 := by
  cases stepped
  · exact OtuR.get_set_same _ _ _
  · exact (OtuR.get_ev_ne _ 6 (by decide)).trans (OtuR.get_set_same _ _ _)

theorem cutShown_cut (o : Otu) (no : Nat) (stepped : Bool) : OtuR.flag (cutShown o no stepped) OTU_ACC_EVENTS 0 = true := by
  have h : OtuR.flag (OtuR.set (OtuR.ev o OTU_ACC_EVENTS 0) OTU_ACC_LAST_NO no) OTU_ACC_EVENTS 0 = true :=
    (flag_of_get (OtuR.get_set_ne _ _ (by decide)) 0).trans (OtuR.flag_ev o _ 0 (by decide))
  cases stepped
  · exact h
  · exact flag_ev_of_flag _ _ 6 0 (by decide) h

/-- A cut with a set free: its frame, and where it shows. -/
theorem regularCut_taken (o : Otu) (t : Nat) (change b : Bool) (h : o.acc.freeSet = some b) : ∃ p, o.regularCut t change = p ∧
    p = { o with acc := cutAcc o b t change, resMark := p.resMark, inputs := p.inputs, inputOvf := p.inputOvf, regs := p.regs, cyc := p.cyc
                 eq := p.eq, eqs := p.eqs, strobes := Tbl.ins o.strobes 0x100 t } ∧
    OtuR.flag p OTU_ACC_EVENTS 0 = true ∧ OtuR.get p OTU_ACC_LAST_NO = t / 400000 % 2 ^ 64 ∧
    ∀ a, a < OTU_DIG_EVENTS → a ≠ OTU_ACC_EVENTS → a ≠ OTU_ACC_LAST_NO → OtuR.get p a = OtuR.get o a := by
  have hshown : RegsOnly _ _ := cutShown_regs { o with acc := cutAcc o b t change } (t / 400000) o.acc.stepped
  have hget := fun a => cutShown_get { o with acc := cutAcc o b t change } (t / 400000) o.acc.stepped (a := a)
  have hno := cutShown_lastNo { o with acc := cutAcc o b t change } (t / 400000) o.acc.stepped
  have hcut := cutShown_cut { o with acc := cutAcc o b t change } (t / 400000) o.acc.stepped
  rw [regularCut_eq o t change b h]
  generalize cutShown { o with acc := cutAcc o b t change } (t / 400000) o.acc.stepped = q at hshown hget hno hcut ⊢
  obtain ⟨hframe, hregs⟩ := markCut_windowClosed q (t / 400000)
  refine ⟨_, rfl, ?_, ?_, ?_, fun a ha he hl => ?_⟩
  · rw [Otu.pulse, hframe, hshown]
  · exact (flag_of_get (hregs _ (by decide)) 0).trans hcut
  · exact (hregs _ (by decide)).trans hno
  · exact (hregs a ha).trans (hget a he hl)

/-! #### No set free (R68, R89) -/

/-- What a skipped cut leaves of the accord state. -/
def skipAcc (o : Otu) (t : Nat) (change : Bool) : AccSt :=
  { o.acc with nextT := cutNext o t, stepped := false, keyReg := o.acc.keyReg || change }

theorem sendGap_all (o : Otu) (reason tag rank no : Nat) : ∃ q x, o.sendGap reason tag rank no = { o with eq := q, eqs := x } := ⟨_, _, rfl⟩

/-- Sending leaves the records that wait where they are. -/
theorem mem_eqGet_send (o : Otu) (kind inst rtype tag : Nat) (body : List Byte) (q : Nat) (r : QRec) (h : r ∈ o.eqGet q) :
    r ∈ (o.send kind inst rtype tag body).eqGet q := by
  by_cases hq : o.eqOf kind inst tag = q
  · subst hq
    rw [eqGet_send]
    exact List.mem_append_left _ h
  · have hne : (o.send kind inst rtype tag body).eqGet q = o.eqGet q := Tbl.get_put_ne _ _ _ hq
    rw [hne]
    exact h

/-- The gap records of one cut, one for each context of a list: only the egress queues change, and each waits in its queue. -/
theorem foldl_sendGap (reason no : Nat) (l : List (Nat × Nat)) (o : Otu) :
    ∃ q x, l.foldl (fun o c => o.sendGap reason c.1 c.2 no) o = { o with eq := q, eqs := x } ∧
    (∀ k r, r ∈ o.eqGet k → r ∈ (l.foldl (fun o c => o.sendGap reason c.1 c.2 no) o).eqGet k) ∧
    ∀ c, c ∈ l → ∃ r, r ∈ (l.foldl (fun o c => o.sendGap reason c.1 c.2 no) o).eqGet (o.eqOf 1 0 c.1) ∧ r.rtype = 2 ∧ r.tag = c.1 ∧
      r.body = gapBytes { reason, origin := 0, kind := 0, tag := c.1, no, rank := c.2, count := 1, ftDecl := o.ft } := by
  induction l generalizing o with
  | nil => exact ⟨_, _, rfl, fun _ _ h => h, fun _ h => absurd h List.not_mem_nil⟩
  | cons c l ih =>
    obtain ⟨q, x, hframe, hkeep, hsent⟩ := ih (o.sendGap reason c.1 c.2 no)
    obtain ⟨q', x', hone⟩ := sendGap_all o reason c.1 c.2 no
    rw [hone] at hframe
    refine ⟨q, x, ?_, fun k r hr => hkeep k r (mem_eqGet_send o _ _ _ _ _ k r hr), fun d hd => ?_⟩
    · rw [List.foldl_cons, hone, hframe]
    · rcases List.mem_cons.mp hd with rfl | hd
      · refine ⟨_, hkeep _ _ ((eqGet_send o 1 0 2 d.1 _).symm ▸ List.mem_append_right _ (List.mem_singleton.mpr rfl)), rfl, rfl, rfl⟩
      · exact hsent d hd

/-- A skipped cut is signalled and counted. -/
def skipShown (o : Otu) : Otu := (OtuR.ev o OTU_ACC_EVENTS 1).dctrAdd 0x80 1

theorem skipShown_facts (o : Otu) : skipShown o = { o with regs := (skipShown o).regs, cyc := (skipShown o).cyc, dctr := (skipShown o).dctr } ∧
    OtuR.flag (skipShown o) OTU_ACC_EVENTS 1 = true ∧ (∀ a, a ≠ OTU_ACC_EVENTS → OtuR.get (skipShown o) a = OtuR.get o a) ∧
    (skipShown o).dctrGet 0x80 = (addWord 48 (o.dctrGet 0x80) 1).1 ∧ ∀ i, i ≠ 0x80 → (skipShown o).dctrGet i = o.dctrGet i :=
  ⟨rfl, OtuR.flag_ev o _ 1 (by decide), fun _ ha => OtuR.get_ev_ne o 1 ha.symm, dctrGet_dctrAdd _ _ _,
    fun _ hi => dctrGet_dctrAdd_ne (OtuR.ev o OTU_ACC_EVENTS 1) 1 hi.symm⟩

theorem regularCut_skip_eq (o : Otu) (t : Nat) (change : Bool) (h : o.acc.freeSet = none) : o.regularCut t change =
    o.contexts.foldl (fun o c => o.sendGap 6 c.1 c.2 (t / 400000)) (skipShown { o with acc := skipAcc o t change }) := by
  have hnext : (if o.acc.stepped || decide (t + o.acc.interval * 400000 ≤ o.clk.ft) then nextMultiple o.clk.ft (o.acc.interval * 400000)
      else t + o.acc.interval * 400000) = cutNext o t := by simp only [cutNext, Bool.or_eq_true, decide_eq_true_eq]
  simp only [Otu.regularCut, h, hnext]
  rfl

/-- A cut with no set free: its frame, what it signals and counts, and its gap records. -/
theorem regularCut_skipped (o : Otu) (t : Nat) (change : Bool) (h : o.acc.freeSet = none) : ∃ p, o.regularCut t change = p ∧
    p = { o with acc := skipAcc o t change, regs := p.regs, cyc := p.cyc, dctr := p.dctr, eq := p.eq, eqs := p.eqs } ∧
    OtuR.flag p OTU_ACC_EVENTS 1 = true ∧ (∀ a, a ≠ OTU_ACC_EVENTS → OtuR.get p a = OtuR.get o a) ∧
    p.dctrGet 0x80 = (addWord 48 (o.dctrGet 0x80) 1).1 ∧ (∀ i, i ≠ 0x80 → p.dctrGet i = o.dctrGet i) ∧
    ∀ c, c ∈ o.contexts → ∃ r, r ∈ p.eqGet (o.eqOf 1 0 c.1) ∧ r.rtype = 2 ∧ r.tag = c.1 ∧
      r.body = gapBytes { reason := 6, origin := 0, kind := 0, tag := c.1, no := t / 400000, rank := c.2, count := 1, ftDecl := o.ft } := by
  have hfacts := skipShown_facts { o with acc := skipAcc o t change }
  rw [regularCut_skip_eq o t change h]
  generalize skipShown { o with acc := skipAcc o t change } = k at hfacts ⊢
  obtain ⟨hk, hflag, hget, hctr, hctrs⟩ := hfacts
  obtain ⟨q, x, hframe, -, hsent⟩ := foldl_sendGap 6 (t / 400000) o.contexts k
  have hft : k.ft = o.ft := by rw [hk]; rfl
  have hq (tag : Nat) : k.eqOf 1 0 tag = o.eqOf 1 0 tag := by rw [hk]; rfl
  simp only [hft, hq] at hsent
  generalize o.contexts.foldl (fun o c => o.sendGap 6 c.1 c.2 (t / 400000)) k = p at hframe hsent ⊢
  subst hframe
  exact ⟨_, rfl, by rw [hk], hflag, hget, hctr, hctrs, hsent⟩

end Sys2Proof.Machine.Accords
end

section
namespace Sys2Proof.Machine.Accords
open Sys2Proof Sys2Proof.Machine.FleetTime

/-! ### A latch sees counters and engines alone (03 R64) -/

theorem filterMap_del {α β : Type} (f : Nat × α → Option β) (k : Nat) (hk : ∀ v, f (k, v) = none) (t : List (Nat × α)) :
    (Tbl.del t k).filterMap f = t.filterMap f := by
  induction t with
  | nil => rfl
  | cons x r ih =>
    simp only [Tbl.del]
    split
    · next hx => rw [ih, List.filterMap_cons_none (by obtain ⟨j, w⟩ := x; cases hx; exact hk w)]
    · rw [List.filterMap_cons, List.filterMap_cons, ih]

theorem filterMap_ins {α β : Type} (f : Nat × α → Option β) (k : Nat) (v : α) (hk : ∀ v, f (k, v) = none) (t : List (Nat × α)) :
    (Tbl.ins t k v).filterMap f = t.filterMap f := by
  induction t with
  | nil => exact List.filterMap_cons_none (hk v)
  | cons x r ih =>
    simp only [Tbl.ins]
    split
    · next hx => rw [List.filterMap_cons_none (hk v), List.filterMap_cons_none (by obtain ⟨j, w⟩ := x; cases hx; exact hk w)]
    · split
      · rw [List.filterMap_cons_none (hk v)]
      · rw [List.filterMap_cons, List.filterMap_cons, ih]

/-- Storing under a key that a selection passes over does not change what it selects. -/
theorem filterMap_put {α β : Type} [DecidableEq α] (d : Nat → α) (f : Nat × α → Option β) (k : Nat) (v : α) (hk : ∀ v, f (k, v) = none)
    (t : List (Nat × α)) : (Tbl.put d t k v).filterMap f = t.filterMap f := by
  unfold Tbl.put
  split
  · exact filterMap_del f k hk t
  · exact filterMap_ins f k v hk t

/-- A register below the engines' counters does not enter a latch. -/
theorem latch_set (o : Otu) (a v : Nat) (h : a < 0x40000) : (OtuR.set o a v).latch = o.latch := by
  have hget (b : Nat) (hb : 0x40000 ≤ b) : OtuR.get (OtuR.set o a v) b = OtuR.get o b := OtuR.get_set_ne o v (by omega)
  have hev (e k : Nat) : (OtuR.set o a v).evLatched e k = o.evLatched e k := by
    have hb : OtuR.get (OtuR.set o a v) (if k < 8 then OTU_ENG_EVSEL e k else OTU_ENG_CFG_EPOCH e) =
        OtuR.get o (if k < 8 then OTU_ENG_EVSEL e k else OTU_ENG_CFG_EPOCH e) := hget _ (by split <;> simp only [OTU_ENG_EVSEL, OTU_ENG_CFG_EPOCH] <;> omega)
    simp only [Otu.evLatched, hb]
    rfl
  have hhdr (e : Nat) : (OtuR.set o a v).latchHdr e = o.latchHdr e := by
    simp only [Otu.latchHdr, hev]
    rfl
  have hctr : (OtuR.set o a v).latchCtrs = o.latchCtrs := by
    simp only [Otu.latchCtrs, OtuR.set]
    rw [filterMap_put _ _ _ _ (fun w => by simp; omega)]
    rfl
  have hseq : (OtuR.set o a v).latchSeqs = o.latchSeqs := by
    simp only [Otu.latchSeqs, OtuR.set]
    rw [filterMap_put _ _ _ _ (fun w => by simp; omega)]
    rfl
  simp only [Otu.latch, hctr, hseq, hhdr]

/-! ### The instant of a cut and of a switch (R53, R63, R83) -/

theorem exec_accordCut_wait (s : State) (e : Edge) (hv : s.otu.invalid = false) (h : (s.otu.go e).due s.otu.acc.nextT = false) :
    exec (.accordCut e) s = .next (s.withOtu (s.otu.go e)) := by
  refine congrArg _ ((State.onOtu_with s _ hv).trans (congrArg _ ?_))
  simp only [Otu.cutIfDue, Otu.go_acc, h, Bool.false_eq_true, if_false]

theorem exec_accordCut_due (s : State) (e : Edge) (hv : s.otu.invalid = false) (h : (s.otu.go e).due s.otu.acc.nextT = true) :
    exec (.accordCut e) s = .next (s.withOtu ((s.otu.go e).cutInstant s.otu.acc.nextT)) := by
  refine congrArg _ ((State.onOtu_with s _ hv).trans (congrArg _ ?_))
  simp only [Otu.cutIfDue, Otu.go_acc, h, if_true]

theorem exec_accordSwitch_wait (s : State) (e : Edge) (hv : s.otu.invalid = false)
    (h : (s.otu.go e).due (OtuR.get s.otu OTU_ACC_SWITCH_T) = false) : exec (.accordSwitch e) s = .next (s.withOtu (s.otu.go e)) := by
  refine congrArg _ ((State.onOtu_with s _ hv).trans (congrArg _ ?_))
  simp only [Otu.get_go, h, Bool.not_false, if_true]

theorem exec_accordSwitch_due (s : State) (e : Edge) (hv : s.otu.invalid = false) (hst : s.otu.acc.stepped = false)
    (h : (s.otu.go e).due (OtuR.get s.otu OTU_ACC_SWITCH_T) = true) :
    exec (.accordSwitch e) s = .next (s.withOtu ((s.otu.go e).cutInstant (OtuR.get s.otu OTU_ACC_SWITCH_T))) := by
  refine congrArg _ ((State.onOtu_with s _ hv).trans (congrArg _ ?_))
  simp only [Otu.get_go, h, Bool.not_true, Bool.false_eq_true, if_false, Otu.go_acc, hst]

/-- A switch instant that has not come changes nothing. -/
theorem switchPassed_none (o : Otu) (h : o.due (OtuR.get o OTU_ACC_SWITCH_T) = false) : o.switchPassed = o := by
  simp only [Otu.switchPassed, h, Bool.false_eq_true, if_false]

/-- An instant that is no switch's, with accords enabled: the cut, and after a forward step a switch that it passed over. -/
theorem cutInstant_cut (o : Otu) (t : Nat) (hon : OtuR.flag o.settleMarks OTU_ACC_CTRL 0 = true)
    (hne : OtuR.get o.settleMarks OTU_ACC_SWITCH_T ≠ t) :
    o.cutInstant t = if o.settleMarks.acc.stepped then (o.settleMarks.regularCut t false).switchPassed else o.settleMarks.regularCut t false := by
  simp only [Otu.cutInstant, hne, decide_false, Bool.false_eq_true, if_false, hon, if_true]

/-- The instant of a switch with no forward step pending: the new interval, and the cut if accords are enabled. -/
theorem cutInstant_switch (o : Otu) (t : Nat) (hst : o.settleMarks.acc.stepped = false) (heq : OtuR.get o.settleMarks OTU_ACC_SWITCH_T = t) :
    o.cutInstant t = if OtuR.flag o.settleMarks.switchNow OTU_ACC_CTRL 0 then o.settleMarks.switchNow.regularCut t true
      else { o.settleMarks.switchNow with acc := { o.settleMarks.switchNow.acc with
        nextT := nextMultiple o.settleMarks.switchNow.clk.ft (o.settleMarks.switchNow.acc.interval * 400000), stepped := false
        keyReg := o.settleMarks.switchNow.acc.keyReg || true } } := by
  simp only [Otu.cutInstant, heq, decide_true, if_true, hst, Bool.false_eq_true, if_false]

theorem switchNow_get (o : Otu) {a : Nat} (h : a ≠ OTU_ACC_SWITCH_T) : OtuR.get o.switchNow a = OtuR.get o a := OtuR.get_set_ne _ _ h.symm

theorem switchNow_all (o : Otu) : o.switchNow = { o with acc := o.switchNow.acc, regs := o.switchNow.regs } := rfl

theorem switchNow_unarmed (o : Otu) : OtuR.get o.switchNow OTU_ACC_SWITCH_T = 2 ^ 64 - 1 := OtuR.get_set_same _ _ _

theorem switchNow_latch (o : Otu) : o.switchNow.latch = o.latch := latch_set _ _ _ (by decide)

/-- A cut moves neither the clock nor an armed switch. -/
theorem regularCut_due (o : Otu) (t : Nat) (change : Bool) :
    (o.regularCut t change).due (OtuR.get (o.regularCut t change) OTU_ACC_SWITCH_T) = o.due (OtuR.get o OTU_ACC_SWITCH_T) := by
  cases h : o.acc.freeSet with
  | some b =>
    obtain ⟨p, hp, hframe, -, -, hget⟩ := regularCut_taken o t change b h
    rw [hp, hget _ (by decide) (by decide) (by decide)]
    exact by rw [Otu.due, Otu.due, hframe]
  | none =>
    obtain ⟨p, hp, hframe, -, hget, -⟩ := regularCut_skipped o t change h
    rw [hp, hget _ (by decide)]
    exact by rw [Otu.due, Otu.due, hframe]

/-- What settling at an edge leaves of the accord state, of registers and of what is due. -/
theorem settled_go (s : State) (e : Edge) (g : Otu) (hg : g = (s.otu.go e).settleMarks) : g.acc = s.otu.acc ∧
    (∀ a, a ≠ OTU_CAN_EVENTS → OtuR.get g a = OtuR.get s.otu a) ∧ ∀ t, g.due t = (s.otu.go e).due t := by
  subst hg
  exact ⟨settleMarks_acc _, fun a ha => settleMarks_get _ a ha, settleMarks_due _⟩

/-- ACCORD_CUT at an instant that is no switch's, with no passed switch due: the regular cut. -/
theorem exec_accordCut_cut (s : State) (e : Edge) (g : Otu) (T : Nat) (hv : s.otu.invalid = false) (hg : g = (s.otu.go e).settleMarks)
    (hon : OtuR.flag s.otu OTU_ACC_CTRL 0 = true) (hdue : g.due T = true) (hT : s.otu.acc.nextT = T) (hne : OtuR.get s.otu OTU_ACC_SWITCH_T ≠ T)
    (hpass : s.otu.acc.stepped = true → g.due (OtuR.get s.otu OTU_ACC_SWITCH_T) = false) :
    exec (.accordCut e) s = .next (s.withOtu (g.regularCut T false)) := by
  obtain ⟨hacc, hget, hdueGo⟩ := settled_go s e g hg
  have hsw := hget OTU_ACC_SWITCH_T (by decide)
  rw [exec_accordCut_due s e hv (by rw [← hdueGo, hT]; exact hdue), hT,
    cutInstant_cut _ _ (by rw [← hg]; exact (flag_of_get (hget _ (by decide)) 0).trans hon) (by rw [← hg, hsw]; exact hne), ← hg, hacc]
  split
  · next hst => rw [switchPassed_none _ ((regularCut_due g T false).trans (by rw [hsw]; exact hpass hst))]
  · rfl

/-- ACCORD_SWITCH at its instant, with no forward step pending and accords enabled: the same cut at the new interval. -/
theorem exec_accordSwitch_cut (s : State) (e : Edge) (g : Otu) (T : Nat) (hv : s.otu.invalid = false) (hg : g = (s.otu.go e).settleMarks)
    (hon : OtuR.flag s.otu OTU_ACC_CTRL 0 = true) (hdue : g.due T = true) (hT : OtuR.get s.otu OTU_ACC_SWITCH_T = T) (hst : s.otu.acc.stepped = false) :
    exec (.accordSwitch e) s = .next (s.withOtu (g.switchNow.regularCut T true)) := by
  obtain ⟨hacc, hget, hdueGo⟩ := settled_go s e g hg
  have hflag : OtuR.flag g.switchNow OTU_ACC_CTRL 0 = true :=
    (flag_of_get ((switchNow_get g (by decide)).trans (hget _ (by decide))) 0).trans hon
  rw [exec_accordSwitch_due s e hv hst (by rw [← hdueGo, hT]; exact hdue), hT,
    cutInstant_switch _ _ (by rw [← hg, hacc]; exact hst) (by rw [← hg, hget _ (by decide)]; exact hT), ← hg, hflag, if_pos rfl]

/-- With accords disabled the switch changes the interval and cuts nothing. -/
theorem exec_accordSwitch_off (s : State) (e : Edge) (g : Otu) (T : Nat) (hv : s.otu.invalid = false) (hg : g = (s.otu.go e).settleMarks)
    (hoff : OtuR.flag s.otu OTU_ACC_CTRL 0 = false) (hdue : g.due T = true) (hT : OtuR.get s.otu OTU_ACC_SWITCH_T = T) (hst : s.otu.acc.stepped = false) :
    exec (.accordSwitch e) s = .next (s.withOtu { g.switchNow with acc := { g.switchNow.acc with
      nextT := nextMultiple g.clk.ft (g.switchNow.acc.interval * 400000), stepped := false, keyReg := true } }) := by
  obtain ⟨hacc, hget, hdueGo⟩ := settled_go s e g hg
  have hflag : OtuR.flag g.switchNow OTU_ACC_CTRL 0 = false :=
    (flag_of_get ((switchNow_get g (by decide)).trans (hget _ (by decide))) 0).trans hoff
  rw [exec_accordSwitch_due s e hv hst (by rw [← hdueGo, hT]; exact hdue), hT,
    cutInstant_switch _ _ (by rw [← hg, hacc]; exact hst) (by rw [← hg, hget _ (by decide)]; exact hT), ← hg, hflag, if_neg Bool.false_ne_true,
    Bool.or_true]
  rfl

/-- The new interval in force, and the switch no longer armed. -/
theorem switchNow_acc (s : State) (e : Edge) (g : Otu) (hg : g = (s.otu.go e).settleMarks) :
    g.switchNow.acc = { g.acc with interval := OtuR.fld s.otu OTU_ACC_SWITCH_INTERVAL 0 14 } := by
  obtain ⟨-, hget, -⟩ := settled_go s e g hg
  rw [← fld_of_get (hget OTU_ACC_SWITCH_INTERVAL (by decide)) 0 14]
  rfl

/-! ### O13 -/

/-- Settles O13: the cut is `regularCut_taken` or `regularCut_skipped`, at the instant of a switch after `switchNow`. -/
theorem regularCutTakesOneShadowSet : Obligations.RegularCutTakesOneShadowSet := by
  intro s e g T n hv hg hn
  obtain ⟨hacc, hget, -⟩ := settled_go s e g hg
  have hint := switchNow_acc s e g hg
  rw [← hn] at hint
  refine ⟨fun hT hdue => exec_accordCut_wait s e hv (hT ▸ hdue), fun hT hdue => exec_accordSwitch_wait s e hv (hT ▸ hdue),
    fun hon hdue => ⟨fun hT hne hpass => ⟨fun b hb => ?_, fun hb => ?_⟩, fun b hT hst hb => ?_⟩, fun hoff hT hdue hst => ?_⟩
  · obtain ⟨p, hp, hframe, hcut, hno, -⟩ := regularCut_taken g T false b (by rw [hacc]; exact hb)
    have hpacc : p.acc = cutAcc g b T false := by rw [hframe]
    refine ⟨p, cutShadow g T false, (exec_accordCut_cut s e g T hv hg hon hdue hT hne hpass).trans (by rw [hp]), hframe.trans (by rw [hpacc]), ?_,
      rfl, rfl, congrArg AccSt.marks hacc, rfl, rfl, ?_, rfl, rfl, rfl, rfl, rfl, congrArg AccSt.interval hacc, rfl, ?_, hcut, hno⟩
    · rw [hpacc, cutAcc, cutNext, hacc]
    · exact (Bool.or_false _).trans (congrArg AccSt.keyReg hacc)
    · rw [← hacc]; rfl
  · obtain ⟨p, hp, hframe, hskip, hregs, hctr, hctrs, hgaps⟩ := regularCut_skipped g T false (by rw [hacc]; exact hb)
    have hpacc : p.acc = skipAcc g T false := by rw [hframe]
    refine ⟨p, (exec_accordCut_cut s e g T hv hg hon hdue hT hne hpass).trans (by rw [hp]), hframe.trans (by rw [hpacc]), ?_, ?_, ?_, ?_,
      hskip, hregs, hctr, hctrs, hgaps⟩
    all_goals rw [hpacc, ← hacc]; rfl
  · obtain ⟨p, hp, hframe, -, -, hregs⟩ := regularCut_taken g.switchNow T true b (by rw [hint, hacc]; exact hb)
    have hpacc : p.acc = cutAcc g.switchNow b T true := by rw [hframe]
    have hunstepped : g.switchNow.acc.stepped = false := by rw [hint, hacc]; exact hst
    refine ⟨p, cutShadow g.switchNow T true, (exec_accordSwitch_cut s e g T hv hg hon hdue hT hst).trans (by rw [hp]),
      hframe.trans (by rw [hpacc]; rfl), ?_, rfl, switchNow_latch g,
      (congrArg AccSt.marks hint).trans (congrArg (·.marks) hacc :), Bool.or_true _, rfl, rfl, congrArg AccSt.interval hint,
      ?_, ?_⟩
    · rw [hpacc, cutAcc, cutNext_unstepped _ _ hunstepped, hint]
      cases b <;> rfl
    · have hflags : (cutShadow g.switchNow T true).hdr.flags = 2 * g.actGrade + 16 * b2n g.trayLock + 32 * b2n g.openJob.isSome +
          64 * b2n g.switchNow.acc.stepped + 512 + 128 * b2n g.acc.stepOvf := rfl
      rw [hflags, hunstepped, hacc]
      rfl
    · exact (hregs _ (by decide) (by decide) (by decide)).trans (switchNow_unarmed g)
  · have hframe := switchNow_all g
    have harmed := switchNow_unarmed g
    have hexec := exec_accordSwitch_off s e g T hv hg hoff hdue hT hst
    generalize g.switchNow = p at hframe harmed hexec hint
    rw [hint] at hexec
    refine ⟨_, hexec, ?_, rfl, harmed⟩
    rw [hframe]

end Sys2Proof.Machine.Accords
end

section
namespace Sys2Proof.Machine.Accords
open Sys2Proof Sys2Proof.Machine.FleetTime

/-! ### A splice of several chunks -/

/-- A cell of a list of chunks is a byte of one of them. -/
theorem mem_cells (a : Nat) (chunks : List (Nat × List Byte)) (x : Nat × Byte) (h : x ∈ Mem.cells a chunks) :
    ∃ c ∈ chunks, a + c.1 ≤ x.1 ∧ x.1 < a + c.1 + c.2.length := by
  obtain ⟨c, hc, hx⟩ := List.mem_flatMap.mp h
  obtain ⟨y, hy, rfl⟩ := List.mem_map.mp (List.mem_filter.mp hx).1
  have hi := (List.mem_zipIdx (x := y.1) (i := y.2) hy).2.1
  exact ⟨c, hc, by omega, by omega⟩

theorem any_key_false {α : Type} (t : List (Nat × α)) (k : Nat) (h : ∀ x ∈ t, x.1 ≠ k) : t.any (·.1 == k) = false := by
  simpa only [List.any_eq_false, beq_iff_eq] using h

/-- Writes of chunks leave a byte outside all of them alone. -/
theorem foldl_write_outside (a k : Nat) (chunks : List (Nat × List Byte)) (m : Mem)
    (h : ∀ c ∈ chunks, k < a + c.1 ∨ a + c.1 + c.2.length ≤ k) :
    (chunks.foldl (fun (m : Mem) x => m.write (a + x.1) x.2) m).byte k = m.byte k := by
  induction chunks generalizing m with
  | nil => rfl
  | cons c r ih =>
    rw [List.foldl_cons, ih _ (fun d hd => h d (List.mem_cons_of_mem _ hd))]
    exact Mem.byte_write_outside m _ _ k (h c List.mem_cons_self)

theorem byte_below_above (m : Mem) (a n k : Nat) (c : Mem) (hc : ∀ x ∈ c, x.1 ≠ k) (hk : k < a ∨ a + n ≤ k) :
    Mem.byte (m.filter (fun x => decide (x.1 < a)) ++ c ++ m.filter (fun x => decide (a + n ≤ x.1))) k = m.byte k := by
  have below := Tbl.get_filter Mem.unlisted (fun j => decide (j < a)) m k
  have above := Tbl.get_filter Mem.unlisted (fun j => decide (a + n ≤ j)) m k
  rw [Mem.byte, List.append_assoc, Tbl.get_append, Tbl.get_append, any_key_false c k hc, above, below]
  by_cases hka : k < a
  · have hn : ¬ a + n ≤ k := by omega
    simp only [hka, hn, decide_true, decide_false, if_true, Bool.false_eq_true, if_false]
    split
    · rfl
    · next habs =>
      have := Tbl.get_absent Mem.unlisted (m.filter (fun x => decide (x.1 < a))) k (Bool.eq_false_iff.mpr habs)
      rw [below] at this
      simp only [hka, decide_true, if_true] at this
      exact this.symm
  · have hn : a + n ≤ k := by omega
    rw [any_key_false _ k fun x hx => by have := of_decide_eq_true (List.mem_filter.mp hx).2; omega]
    simp only [hn, decide_true, if_true, Bool.false_eq_true, if_false]
    rfl

/-- A splice whose chunks lie within its region leaves every byte outside it alone. -/
theorem byte_splice_chunks_outside (m : Mem) (a n k : Nat) (chunks : List (Nat × List Byte))
    (hin : ∀ c ∈ chunks, c.1 + c.2.length ≤ n) (hk : k < a ∨ a + n ≤ k) : (m.splice a n chunks).byte k = m.byte k := by
  unfold Mem.splice
  dsimp only
  split
  · refine byte_below_above m a n k _ (fun x hx => ?_) hk
    obtain ⟨c, hc, h1, h2⟩ := mem_cells a chunks x hx
    have := hin c hc
    omega
  · rw [foldl_write_outside a k chunks _ fun c hc => by have := hin c hc; omega]
    have := byte_below_above m a n k [] (fun _ h => absurd h List.not_mem_nil) hk
    rwa [List.append_nil] at this

/-- Its first byte is that of the chunk that stands first, where the others stand later. -/
theorem byte_splice_chunks_first (m : Mem) (a n : Nat) (b : Byte) (l : List Byte) (rest : List (Nat × List Byte)) (hn : 0 < n)
    (hrest : ∀ c ∈ rest, 0 < c.1) : (m.splice a n ((0, b :: l) :: rest)).byte a = b := by
  have later : ∀ x ∈ Mem.run (a + 1) l ++ Mem.cells a rest, x.1 ≠ a := by
    intro x hx
    rcases List.mem_append.mp hx with hx | hx
    · have := (Mem.run_mem (a + 1) l x hx).1; omega
    · obtain ⟨c, hc, h1, -⟩ := mem_cells a rest x hx
      have := hrest c hc
      omega
  have hcells : Mem.cells a ((0, b :: l) :: rest) = (if b = 0 then [] else [(a, b)]) ++ (Mem.run (a + 1) l ++ Mem.cells a rest) := by
    rw [← List.append_assoc, ← Mem.run_cons]
    simp only [Mem.run, Mem.cells, List.flatMap_cons, List.flatMap_nil, List.append_nil]
  have below : ∀ x ∈ m.filter (fun x => decide (x.1 < a)), x.1 ≠ a := fun x hx => by
    have := of_decide_eq_true (List.mem_filter.mp hx).2; omega
  have above : ∀ x ∈ m.filter (fun x => decide (a + n ≤ x.1)), x.1 ≠ a := fun x hx => by
    have := of_decide_eq_true (List.mem_filter.mp hx).2; omega
  unfold Mem.splice
  dsimp only
  split
  · rw [hcells, Mem.byte, List.append_assoc, Tbl.get_append, any_key_false _ a below, if_neg Bool.false_ne_true]
    by_cases hb : b = 0
    · rw [if_pos hb, List.nil_append, Tbl.get_append, any_key_false _ a later, if_neg Bool.false_ne_true,
        Tbl.get_absent _ _ _ (any_key_false _ a above), hb]
      rfl
    · rw [if_neg hb]
      simp only [List.cons_append, List.nil_append, Tbl.get, if_true]
  · rw [List.foldl_cons, foldl_write_outside a a rest _ fun c hc => by have := hrest c hc; omega]
    exact Mem.byte_write_inside _ a (b :: l) 0 (Nat.succ_pos _)

/-! ### The slot and the directory (03 R70, R72, R73) -/

theorem accHdr_bytes_length (h : AccHdr) : (AccHdr_bytes h).length = 128 := by
  unfold AccHdr_bytes
  simp only [List.length_append, le_length, zeros_length]

theorem stepMkBytes_length (m : StepMk) : (stepMkBytes m).length = 32 := by
  simp only [stepMkBytes, List.length_append, le_length]

theorem flatMap_length_const {α β : Type} (f : α → List β) (n : Nat) (h : ∀ x, (f x).length = n) (l : List α) :
    (l.flatMap f).length = n * l.length := by
  induction l with
  | nil => rfl
  | cons x r ih => rw [List.flatMap_cons, List.length_append, ih, h, List.length_cons, Nat.mul_succ, Nat.add_comm]

theorem engHdrBytes_length (e seq : Nat) (h : EngHdr) : (engHdrBytes e seq h).length = 64 := by
  simp only [engHdrBytes, List.length_append, le_length, zeros_length, flatMap_length_const _ 2 (fun _ => le_length 2 _), List.length_range]

theorem dirBytes_length (o : Otu) : o.dirBytes.length = 48 := by
  simp only [Otu.dirBytes, List.length_append, le_length, flatMap_length_const _ 4 (fun _ => le_length 4 _), List.length_range]

/-- Every chunk of a slot lies within its 196,608 bytes, where the cut carries at most 16 step marks. -/
theorem slotChunks_within (h : AccHdr) (marks : List StepMk) (m : Image) (hm : marks.length ≤ 16) :
    ∀ c ∈ slotChunks h marks m, c.1 + c.2.length ≤ 196608 := by
  intro c hc
  simp only [slotChunks, List.cons_append, List.mem_cons, List.mem_append, List.mem_flatMap, List.mem_map, List.mem_filter, List.mem_range] at hc
  rcases hc with rfl | rfl | ⟨x, ⟨-, hx⟩, rfl⟩ | ⟨e, he, rfl | ⟨x, ⟨-, hx⟩, rfl⟩⟩
  · rw [accHdr_bytes_length]; omega
  · rw [flatMap_length_const _ 32 stepMkBytes_length]; omega
  · have := of_decide_eq_true hx
    rw [le_length]; omega
  · rw [engHdrBytes_length]; omega
  · simp only [Bool.and_eq_true, decide_eq_true_eq] at hx
    rw [le_length]; omega

/-- A slot begins with the version of its header. -/
theorem slotChunks_version (h : AccHdr) (marks : List StepMk) (m : Image) : ∃ l rest,
    slotChunks h marks m = (0, BitVec.ofNat 8 h.ver :: l) :: rest ∧ ∀ c ∈ rest, 0 < c.1 := by
  obtain ⟨l, hl⟩ : ∃ l, AccHdr_bytes { h with stepCount := marks.length } = BitVec.ofNat 8 h.ver :: l := by
    unfold AccHdr_bytes
    simp only [le, List.cons_append, List.nil_append]
    exact ⟨_, rfl⟩
  refine ⟨l, (slotChunks h marks m).tail, by simp only [slotChunks, hl, List.cons_append, List.tail_cons], fun c hc => ?_⟩
  simp only [slotChunks, List.cons_append, List.tail_cons, List.mem_cons, List.mem_append, List.mem_flatMap, List.mem_map] at hc
  rcases hc with rfl | ⟨x, -, rfl⟩ | ⟨e, -, rfl | ⟨x, -, rfl⟩⟩ <;> omega

end Sys2Proof.Machine.Accords
end

section
namespace Sys2Proof.Machine.Accords
open Sys2Proof Sys2Proof.Machine.FleetTime

/-! ### ACCORD_SEAL (03 R65, R74) -/

theorem exec_accordSeal_early (s : State) (e : Edge) (b : Bool) (sh : Shadow) (hv : s.otu.invalid = false)
    (h : s.otu.acc.oldest (fun x => !x.sealed) = some (b, sh)) (hlt : (s.otu.go e).lt < sh.lt + 200) :
    exec (.accordSeal e) s = .next (s.withOtu (s.otu.go e)) := by
  refine congrArg _ ((State.onOtu_with s _ hv).trans (congrArg _ ?_))
  simp only [Otu.go_acc, h, hlt, if_true]

theorem exec_accordSeal_undumped (s : State) (e : Edge) (b : Bool) (sh : Shadow) (hv : s.otu.invalid = false)
    (h : s.otu.acc.oldest (fun x => !x.sealed) = some (b, sh)) (hlt : sh.lt + 200 ≤ (s.otu.go e).lt) (hoff : OtuR.flag s.otu OTU_ACC_CTRL 1 = false) :
    exec (.accordSeal e) s = .next (s.withOtu { s.otu.go e with
      acc := (s.otu.go e).acc.setShadow b (some { sh with sealed := true, slot := none }) }) := by
  refine congrArg _ ((State.onOtu_with s _ hv).trans (congrArg _ ?_))
  simp only [Otu.go_acc, h, Nat.not_lt.mpr hlt, if_false, Otu.flag_go, hoff, Bool.false_eq_true]

theorem exec_accordSeal_dumped (s : State) (e : Edge) (b : Bool) (sh : Shadow) (k : Nat) (hv : s.otu.invalid = false)
    (h : s.otu.acc.oldest (fun x => !x.sealed) = some (b, sh)) (hlt : sh.lt + 200 ≤ (s.otu.go e).lt) (hon : OtuR.flag s.otu OTU_ACC_CTRL 1 = true)
    (hk : nextSlot s.otu.acc.pins (OtuR.get s.otu OTU_ACC_DUMP_SLOTS) (min (OtuR.get s.otu OTU_ACC_DUMP_SLOTS) 8) s.otu.acc.slotNext = some k) :
    exec (.accordSeal e) s = .next (s.withOtu { s.otu.go e with
      acc := { ((s.otu.go e).acc.setShadow b (some { sh with sealed := true, slot := some k })) with
        slotNext := (k + 1) % OtuR.get s.otu OTU_ACC_DUMP_SLOTS }
      hbm := s.otu.hbm.setByte (s.otu.slotBase k) 0 }) := by
  refine congrArg _ ((State.onOtu_with s _ hv).trans (congrArg _ ?_))
  simp only [Otu.go_acc, h, Nat.not_lt.mpr hlt, if_false, Otu.flag_go, hon, if_true, Otu.get_go, hk]
  rfl

/-! ### ACCORD_DUMP_DONE (03 R65, R72 to R75, R80) -/

theorem setShadow_hangPending (a : AccSt) (b : Bool) (x : Option Shadow) : (a.setShadow b x).hangPending = a.hangPending := by
  cases b <;> rfl

/-- Without a hang cut that waits, a freed set stays free. -/
theorem hangCutWaiting_none (o : Otu) (h : o.acc.hangPending = []) : o.hangCutWaiting = o := by
  unfold Otu.hangCutWaiting
  rw [h]

/-- The header that goes with a dump's end. -/
def dumpHdr (sh : Shadow) (dumped : Bool) : AccHdr :=
  { sh.hdr with dumpSlot := if dumped then sh.slot.getD ones32 else ones32, flags := sh.hdr.flags + 256 * b2n dumped }

/-- The chunks of a regular cut's slot. -/
def cutChunks (sh : Shadow) (h : AccHdr) : List (Nat × List Byte) :=
  slotChunks { h with flags := h.flags + 1, prevNo := absent, tag := 0, rank := 0 } sh.marks sh.image

/-- R72, R73: slot `k` holds a regular cut. -/
def slotFilled (o : Otu) (sh : Shadow) (k : Nat) (h : AccHdr) : Otu :=
  { o with hbm := o.hbm.splice (o.slotBase k) 196608 (cutChunks sh h), acc := { o.acc with lastSlot := k, lastNo := h.no } }

/-- R74: a dump that failed. -/
def dumpFailed (o : Otu) : Otu := (OtuR.ev o OTU_ACC_EVENTS 2).dctrAdd 0x83 1

/-- What a dump's end leaves before the record is queued. -/
def dumpEnd (o : Otu) (ok : Bool) (sh : Shadow) : Otu :=
  match sh.slot with
  | none => o
  | some k => if ok then (slotFilled o sh k (dumpHdr sh (ok && sh.slot.isSome))).writeDir else dumpFailed o

/-- R80: a regular cut's records, where it streams. -/
def streamed (o : Otu) (sh : Shadow) (h : AccHdr) : Otu :=
  if sh.stream then sh.ctxs.foldl (fun o c => o.streamAccord sh h c.1 c.2) o else o

/-- The set `b` is free. -/
def setFreed (o : Otu) (b : Bool) : Otu := { o with acc := o.acc.setShadow b none }

theorem exec_accordDumpDone_regular (s : State) (e : Edge) (ok b : Bool) (sh : Shadow) (hv : s.otu.invalid = false)
    (h : s.otu.acc.oldest (·.sealed) = some (b, sh)) (hkind : sh.kind = 0) : exec (.accordDumpDone ok e) s =
      .next (s.withOtu (setFreed (streamed (dumpEnd (s.otu.go e) ok sh) sh (dumpHdr sh (ok && sh.slot.isSome))) b).hangCutWaiting) := by
  refine congrArg _ ((State.onOtu_with s _ hv).trans (congrArg _ ?_))
  have h02 : ¬ (0 : Nat) = 2 := by decide
  simp only [Otu.go_acc, h, hkind, h02, if_false, if_true]
  rfl

/-- A set is freed without a hang cut that waits. -/
theorem setFreed_idle (o : Otu) (b : Bool) (h : o.acc.hangPending = []) : (setFreed o b).hangCutWaiting = setFreed o b :=
  hangCutWaiting_none _ ((setShadow_hangPending o.acc b none).trans h)

/-! #### A slot written -/

/-- The directory alone is written when it is brought up to date. -/
theorem writeDir_outside (o : Otu) (a : Nat) (h : ¬ (o.dirBase ≤ a ∧ a < o.dirBase + 48)) : o.writeDir.hbm.byte a = o.hbm.byte a := by
  have hdir := Mem.byte_splice_outside o.hbm o.dirBase o.dirBytes a (by rw [dirBytes_length]; omega)
  rw [dirBytes_length] at hdir
  exact hdir

theorem slotFilled_frame (o : Otu) (sh : Shadow) (k : Nat) (h : AccHdr) (b : Bool) : setFreed (slotFilled o sh k h).writeDir b = { o with
    hbm := (setFreed (slotFilled o sh k h).writeDir b).hbm, acc := { (o.acc.setShadow b none) with lastSlot := k, lastNo := h.no } } := by
  cases b <;> rfl

theorem slotFilled_hbm (o : Otu) (sh : Shadow) (k : Nat) (h : AccHdr) :
    (slotFilled o sh k h).hbm = o.hbm.splice (o.slotBase k) 196608 (cutChunks sh h) := by
  rw [slotFilled]

/-- The slot begins with the header's version. -/
theorem slotFilled_version (o : Otu) (sh : Shadow) (k : Nat) (h : AccHdr) :
    (slotFilled o sh k h).writeDir.hbm.byte (o.slotBase k) = BitVec.ofNat 8 h.ver := by
  obtain ⟨l, rest, hchunks, hrest⟩ : ∃ l rest, cutChunks sh h = (0, BitVec.ofNat 8 h.ver :: l) :: rest ∧ ∀ c ∈ rest, 0 < c.1 := slotChunks_version _ _ _
  have hbase : ¬ (o.dirBase ≤ o.slotBase k ∧ o.slotBase k < o.dirBase + 48) := by rw [Otu.slotBase]; omega
  rw [writeDir_outside (slotFilled o sh k h) (o.slotBase k) hbase, slotFilled_hbm, hchunks,
    byte_splice_chunks_first _ _ _ _ _ _ (by decide) hrest]

/-- Outside the slot and the directory nothing changes. -/
theorem slotFilled_outside (o : Otu) (sh : Shadow) (k : Nat) (h : AccHdr) (hm : sh.marks.length ≤ 16) (a : Nat)
    (hs : ¬ (o.slotBase k ≤ a ∧ a < o.slotBase k + 196608)) (hd : ¬ (o.dirBase ≤ a ∧ a < o.dirBase + 48)) :
    (slotFilled o sh k h).writeDir.hbm.byte a = o.hbm.byte a := by
  rw [writeDir_outside (slotFilled o sh k h) a hd, slotFilled_hbm]
  exact byte_splice_chunks_outside o.hbm (o.slotBase k) 196608 a (cutChunks sh h) (slotChunks_within _ _ _ hm) (by omega)

/-! #### A dump that failed -/

theorem dumpFailed_facts (o : Otu) : dumpFailed o = { o with regs := (dumpFailed o).regs, cyc := (dumpFailed o).cyc, dctr := (dumpFailed o).dctr } ∧
    OtuR.flag (dumpFailed o) OTU_ACC_EVENTS 2 = true ∧ (∀ a, a ≠ OTU_ACC_EVENTS → OtuR.get (dumpFailed o) a = OtuR.get o a) ∧
    (dumpFailed o).dctrGet 0x83 = (addWord 48 (o.dctrGet 0x83) 1).1 ∧ ∀ i, i ≠ 0x83 → (dumpFailed o).dctrGet i = o.dctrGet i :=
  ⟨rfl, OtuR.flag_ev o _ 2 (by decide), fun _ ha => OtuR.get_ev_ne o 2 ha.symm, dctrGet_dctrAdd _ _ _,
    fun _ hi => dctrGet_dctrAdd_ne (OtuR.ev o OTU_ACC_EVENTS 2) 1 hi.symm⟩

/-! #### The records of a cut (R76, R80, R81) -/

theorem ref_setRef (a : AccSt) (r : RefCopy) : (a.setRef r).ref r.tag r.kind = r := by
  simp only [AccSt.ref, AccSt.setRef, List.find?_cons, beq_self_eq_true, Bool.and_self, Option.getD_some]

/-- `p` is `o` with records queued and reference copies moved on. -/
def RecordsSent (o p : Otu) : Prop :=
  p = { o with acc := { o.acc with refs := p.acc.refs }, dctr := p.dctr, jobs := p.jobs, eq := p.eq, eqs := p.eqs }

theorem RecordsSent.trans {o p q : Otu} (h : RecordsSent o p) (k : RecordsSent p q) : RecordsSent o q := by
  rw [RecordsSent] at *
  rw [h] at k
  exact k

/-- A step that may count one KEY record. -/
theorem keyCounted (o : Otu) (key : Bool) : ∃ d, (if key then o.dctrAdd 0x82 1 else o) = { o with dctr := d } := by
  cases key <;> exact ⟨_, rfl⟩

/-- A context's record: its reference copy is kept, and the record waits in the stream's queue. -/
theorem record_sent (o p : Otu) (r : RefCopy) (kind inst tag : Nat) (body : List Byte)
    (hp : p = { o with acc := o.acc.setRef r, dctr := p.dctr, jobs := p.jobs }) :
    RecordsSent o (p.send kind inst 0x01 tag body) ∧ (p.send kind inst 0x01 tag body).acc.ref r.tag r.kind = r := by
  refine ⟨?_, ?_⟩
  · rw [RecordsSent]
    rw [hp]
    rfl
  · have hacc : (p.send kind inst 0x01 tag body).acc = o.acc.setRef r := by rw [hp]; rfl
    rw [hacc, ref_setRef]

/-- The record of a regular cut in the fleet context: its reference is the image that it carries, and it waits in the accord queue. -/
theorem streamAccord_fleet (o : Otu) (sh : Shadow) (h : AccHdr) (rank : Nat) (hk : sh.kind = 0) : ∃ p r, o.streamAccord sh h 0 rank = p ∧
    RecordsSent o p ∧ (p.acc.ref 0 0).no = h.no ∧ (p.acc.ref 0 0).image = sh.image ∧ (p.acc.ref 0 0).key = false ∧
    p.eqGet (o.eqOf 1 0 0) = o.eqGet (o.eqOf 1 0 0) ++ [r] ∧ r.rtype = 1 ∧ r.tag = 0 := by
  have h02 : ¬ (0 : Nat) = 2 := by decide
  simp only [Otu.streamAccord, hk, h02, if_false, if_true]
  generalize hr : ({ tag := 0, kind := 0, image := sh.image, no := h.no, since := _, key := false } : RefCopy) = r
  obtain ⟨d, hd⟩ := keyCounted { o with acc := o.acc.setRef r }
    ((o.acc.ref 0 0).key || sh.key || decide ((o.acc.ref 0 0).since + 1 ≥ OtuR.fld o OTU_ACC_CTRL 4 12))
  rw [hd]
  generalize accordRecord _ _ _ _ _ = body
  obtain ⟨hsent, href⟩ := record_sent o (({ o with acc := o.acc.setRef r, dctr := d } : Otu).updJob 0 fun j => { j with lastAcc := h.no }) r 1 0 0 body rfl
  subst hr
  refine ⟨_, _, rfl, hsent, congrArg RefCopy.no href, congrArg RefCopy.image href, congrArg RefCopy.key href, eqGet_send _ 1 0 0x01 0 body, rfl, rfl⟩

end Sys2Proof.Machine.Accords
end

section
namespace Sys2Proof.Machine.Accords
open Sys2Proof Sys2Proof.Machine.FleetTime

/-! #### The three ends of a dump -/

theorem dumpDone_written (s : State) (e : Edge) (b : Bool) (sh : Shadow) (k : Nat) (hv : s.otu.invalid = false)
    (h : s.otu.acc.oldest (·.sealed) = some (b, sh)) (hkind : sh.kind = 0) (hhang : s.otu.acc.hangPending = [])
    (hstream : sh.stream = false) (hslot : sh.slot = some k) : exec (.accordDumpDone true e) s =
      .next (s.withOtu (setFreed (slotFilled (s.otu.go e) sh k (dumpHdr sh true)).writeDir b)) := by
  simp only [exec_accordDumpDone_regular s e true b sh hv h hkind, dumpEnd, streamed, hslot, hstream, if_true, Bool.false_eq_true, if_false, Option.isSome_some,
    Bool.and_self, setFreed_idle (slotFilled (s.otu.go e) sh k (dumpHdr sh true)).writeDir b hhang]

theorem dumpDone_failed (s : State) (e : Edge) (b : Bool) (sh : Shadow) (k : Nat) (hv : s.otu.invalid = false)
    (h : s.otu.acc.oldest (·.sealed) = some (b, sh)) (hkind : sh.kind = 0) (hhang : s.otu.acc.hangPending = [])
    (hstream : sh.stream = false) (hslot : sh.slot = some k) : exec (.accordDumpDone false e) s =
      .next (s.withOtu (setFreed (dumpFailed (s.otu.go e)) b)) := by
  simp only [exec_accordDumpDone_regular s e false b sh hv h hkind, dumpEnd, streamed, hslot, hstream, Bool.false_eq_true, if_false,
    setFreed_idle (dumpFailed (s.otu.go e)) b hhang]

theorem dumpDone_streamed (s : State) (e : Edge) (ok b : Bool) (sh : Shadow) (rank : Nat) (hv : s.otu.invalid = false)
    (h : s.otu.acc.oldest (·.sealed) = some (b, sh)) (hkind : sh.kind = 0)
    (hstream : sh.stream = true) (hslot : sh.slot = none) (hctx : sh.ctxs = [(0, rank)]) : exec (.accordDumpDone ok e) s =
      .next (s.withOtu (setFreed ((s.otu.go e).streamAccord sh (dumpHdr sh false) 0 rank) b).hangCutWaiting) := by
  simp only [exec_accordDumpDone_regular s e ok b sh hv h hkind, dumpEnd, streamed, hslot, hstream, hctx, if_true, Option.isSome_none, Bool.and_false,
    List.foldl_cons, List.foldl_nil]

/-- What a freed set leaves after records were sent. -/
theorem setFreed_sent {o p : Otu} (b : Bool) (h : RecordsSent o p) : setFreed p b =
    { o with acc := { (o.acc.setShadow b none) with refs := (setFreed p b).acc.refs }, dctr := (setFreed p b).dctr
             jobs := (setFreed p b).jobs, eq := (setFreed p b).eq, eqs := (setFreed p b).eqs } := by
  rw [RecordsSent] at h
  rw [h]
  cases b <;> rfl

theorem setFreed_refs (o : Otu) (b : Bool) : (setFreed o b).acc.refs = o.acc.refs := by
  cases b <;> rfl

/-- Freeing a set leaves the reference copies. -/
theorem setFreed_ref (o : Otu) (b : Bool) (tag kind : Nat) : (setFreed o b).acc.ref tag kind = o.acc.ref tag kind := by
  simp only [AccSt.ref, setFreed_refs]

/-! ### The fast cut (03 R53, R81) -/

/-- R81: the instant after a fast cut at `t`. -/
def fastNext (o : Otu) (t : Nat) : Nat :=
  if o.acc.fastStepped || decide (t + OtuR.fld o OTU_ACC_FAST_CTRL 1 17 * 40000 ≤ o.clk.ft)
  then nextMultiple o.clk.ft (OtuR.fld o OTU_ACC_FAST_CTRL 1 17 * 40000)
  else t + OtuR.fld o OTU_ACC_FAST_CTRL 1 17 * 40000

theorem fastNext_ahead (o : Otu) (t : Nat) (hs : o.acc.fastStepped = false) (h : o.clk.ft < t + OtuR.fld o OTU_ACC_FAST_CTRL 1 17 * 40000) :
    fastNext o t = t + OtuR.fld o OTU_ACC_FAST_CTRL 1 17 * 40000 := by
  simp only [fastNext, hs, Nat.not_le.mpr h, decide_false, Bool.or_self, Bool.false_eq_true, if_false]

/-- A fast cut asks for KEY records. -/
def fastKeyAsked (o : Otu) : Bool := o.acc.fastKey || decide (o.fastSel ≠ o.acc.fastSel)

/-- The header of the fast cut at `t`. -/
def fastHdr (o : Otu) (t : Nat) : AccHdr :=
  o.cutHdr 1 (t / 40000) t (OtuR.fld o OTU_ACC_FAST_CTRL 1 17) o.acc.fastStepped false o.latch

/-- The fast cut at `t` moves its instant on, and shows a step. -/
def fastMoved (o : Otu) (t : Nat) : Otu :=
  let p := ({ o with acc := { o.acc with fastNextT := fastNext o t, fastStepped := false } } : Otu).pulse 0x101 t
  if o.acc.fastStepped then OtuR.ev p OTU_ACC_EVENTS 6 else p

/-- The selection that is in force, and whether the next cut is asked for KEY records. -/
def fastChosen (o : Otu) (sel : List (Nat × Nat)) (key : Bool) : Otu := { o with acc := { o.acc with fastSel := sel, fastKey := key } }

/-- The fast records of the contexts. -/
def fastSent (o : Otu) (h : AccHdr) (m : Image) (sel : List (Nat × Nat)) (key : Bool) : Otu :=
  o.contexts.foldl (fun o c => o.streamFast h m sel key c.1 c.2) o

/-- The fast cut at `t`. -/
def fastCutAt (o : Otu) (t : Nat) : Otu :=
  if OtuR.flag (fastMoved o t) OTU_ACC_CTRL 2 then
    fastSent (fastChosen (fastMoved o t) o.fastSel false) (fastHdr o t) o.latch o.fastSel (fastKeyAsked o)
  else fastChosen (fastMoved o t) o.fastSel (fastKeyAsked o)

theorem fastCutIfDue_waits (o : Otu) (h : OtuR.flag o OTU_ACC_FAST_CTRL 0 = false ∨ o.due o.acc.fastNextT = false) : o.fastCutIfDue = o := by
  have hoff : (!(OtuR.flag o OTU_ACC_FAST_CTRL 0 && o.due o.acc.fastNextT)) = true := by
    rcases h with h | h <;> simp only [h, Bool.false_and, Bool.and_false, Bool.not_false]
  rw [Otu.fastCutIfDue]
  exact if_pos hoff

theorem fastCutIfDue_cut (o : Otu) (hon : OtuR.flag o OTU_ACC_FAST_CTRL 0 = true) (hdue : o.due o.acc.fastNextT = true) :
    o.fastCutIfDue = fastCutAt o.settleMarks o.acc.fastNextT := by
  have hdo : ¬ (!(OtuR.flag o OTU_ACC_FAST_CTRL 0 && o.due o.acc.fastNextT)) = true := by simp only [hon, hdue]; decide
  rw [Otu.fastCutIfDue]
  exact if_neg hdo

/-- Moving the instant on changes registers, the accord state's instant and the strobe alone. -/
theorem fastMoved_frame (o : Otu) (t : Nat) : fastMoved o t = { o with
    acc := { o.acc with fastNextT := fastNext o t, fastStepped := false }, regs := (fastMoved o t).regs, cyc := (fastMoved o t).cyc
    strobes := Tbl.ins o.strobes 0x101 t } := by
  rw [fastMoved]
  cases o.acc.fastStepped <;> rfl

theorem fastMoved_get (o : Otu) (t : Nat) {a : Nat} (h : a ≠ OTU_ACC_EVENTS) : OtuR.get (fastMoved o t) a = OtuR.get o a := by
  rw [fastMoved]
  cases o.acc.fastStepped
  · rfl
  · exact OtuR.get_ev_ne _ 6 h.symm

/-- The record of a fast cut in the fleet context: its reference holds the values that it carries. -/
theorem streamFast_sent (o : Otu) (h : AccHdr) (m : Image) (sel : List (Nat × Nat)) (key : Bool) (tag rank : Nat) :
    RecordsSent o (o.streamFast h m sel key tag rank) ∧ (o.streamFast h m sel key tag rank).jobs = o.jobs ∧
    ((o.streamFast h m sel key tag rank).acc.ref tag 1).no = h.no ∧
    ((o.streamFast h m sel key tag rank).acc.ref tag 1).image.ctr = fastValues (if tag = 0 then m else Image_forJob tag m) sel := by
  simp only [Otu.streamFast]
  generalize fastValues (if tag = 0 then m else Image_forJob tag m) sel = vals
  generalize ((o.acc.ref tag 1).key || key || decide ((o.acc.ref tag 1).since + 1 ≥ OtuR.fld o OTU_ACC_FAST_CTRL 18 12)) = k
  generalize AccHdr_bytes _ ++ _ = body
  generalize hr : ({ tag := tag, kind := 1, image := { ctr := vals }, no := h.no, since := _, key := false } : RefCopy) = r
  obtain ⟨d, hd⟩ := keyCounted { o with acc := o.acc.setRef r } k
  rw [hd]
  obtain ⟨hsent, href⟩ := record_sent o { o with acc := o.acc.setRef r, dctr := d } r 1 1 tag body rfl
  subst hr
  exact ⟨hsent, rfl, congrArg RefCopy.no href, congrArg (fun x => x.image.ctr) href⟩

/-- The records of a fast cut change nothing but reference copies, the KEY count and the queues. -/
theorem fastSent_sent (o : Otu) (h : AccHdr) (m : Image) (sel : List (Nat × Nat)) (key : Bool) :
    RecordsSent o (fastSent o h m sel key) ∧ (fastSent o h m sel key).jobs = o.jobs := by
  rw [fastSent]
  generalize o.contexts = l
  induction l generalizing o with
  | nil => exact ⟨rfl, rfl⟩
  | cons c l ih =>
    obtain ⟨hsent, hjobs, -⟩ := streamFast_sent o h m sel key c.1 c.2
    obtain ⟨hrest, hkept⟩ := ih (o.streamFast h m sel key c.1 c.2)
    exact ⟨hsent.trans hrest, hkept.trans hjobs⟩

theorem fastSent_fleet (o : Otu) (h : AccHdr) (m : Image) (sel : List (Nat × Nat)) (key : Bool) (hj : o.jobs = []) :
    ((fastSent o h m sel key).acc.ref 0 1).no = h.no ∧ ((fastSent o h m sel key).acc.ref 0 1).image.ctr = fastValues m sel := by
  have hone : fastSent o h m sel key = o.streamFast h m sel key 0 0 := by rw [fastSent, Otu.contexts, hj]; rfl
  rw [hone]
  exact (streamFast_sent o h m sel key 0 0).2.2

theorem fastChosen_frame (o : Otu) (t : Nat) (sel : List (Nat × Nat)) (key : Bool) : fastChosen (fastMoved o t) sel key = { o with
    acc := { o.acc with fastNextT := fastNext o t, fastStepped := false, fastSel := sel, fastKey := key }
    regs := (fastMoved o t).regs, cyc := (fastMoved o t).cyc, strobes := Tbl.ins o.strobes 0x101 t } := by
  rw [fastChosen, fastMoved_frame]

/-- A fast cut that streams. -/
theorem fastCutAt_streamed (o : Otu) (t : Nat) (hon : OtuR.flag o OTU_ACC_CTRL 2 = true) : fastCutAt o t =
    fastSent (fastChosen (fastMoved o t) o.fastSel false) (fastHdr o t) o.latch o.fastSel (fastKeyAsked o) := by
  rw [fastCutAt, flag_of_get (fastMoved_get o t (by decide)) 2, hon, if_pos rfl]

/-- A fast cut that does not stream. -/
theorem fastCutAt_silent (o : Otu) (t : Nat) (hoff : OtuR.flag o OTU_ACC_CTRL 2 = false) : fastCutAt o t =
    fastChosen (fastMoved o t) o.fastSel (fastKeyAsked o) := by
  rw [fastCutAt, flag_of_get (fastMoved_get o t (by decide)) 2, hoff]
  exact if_neg Bool.false_ne_true

/-- The shadow sets, the next instant and the rest of the state at a fast cut. -/
theorem fastCutAt_frame (o : Otu) (t : Nat) : ∃ p, fastCutAt o t = p ∧
    p = { o with acc := p.acc, regs := p.regs, cyc := p.cyc, dctr := p.dctr, eq := p.eq, eqs := p.eqs
                 strobes := Tbl.ins o.strobes 0x101 t } ∧
    p.acc.a = o.acc.a ∧ p.acc.b = o.acc.b ∧ p.acc.fastNextT = fastNext o t := by
  cases hc : OtuR.flag o OTU_ACC_CTRL 2
  · refine ⟨_, fastCutAt_silent o t hc, ?_⟩
    rw [fastChosen_frame]
    exact ⟨rfl, rfl, rfl, rfl⟩
  · refine ⟨_, fastCutAt_streamed o t hc, ?_⟩
    obtain ⟨hsent, hjobs⟩ := fastSent_sent (fastChosen (fastMoved o t) o.fastSel false) (fastHdr o t) o.latch o.fastSel (fastKeyAsked o)
    generalize fastSent _ _ _ _ _ = p at hsent hjobs ⊢
    rw [fastChosen_frame] at hjobs
    rw [RecordsSent, fastChosen_frame, hjobs] at hsent
    refine ⟨?_, ?_, ?_, ?_⟩ <;> rw [hsent]

theorem exec_fastCut_due (s : State) (e : Edge) (hv : s.otu.invalid = false) :
    exec (.fastCut e) s = .next (s.withOtu (s.otu.go e).fastCutIfDue) :=
  congrArg _ (State.onOtu_with s (fun o => (o.go e).fastCutIfDue) hv)

/-! ### UNPIN (03 R75) -/

/-- Slot `k` is pinned no longer. -/
def unpinned (o : Otu) (k : Nat) : Otu := { o with acc := { o.acc with pins := o.acc.pins.filter fun x => decide (x.2 ≠ k) } }

theorem exec_unpin_pinned (s : State) (e : Edge) (value : Nat) (hv : s.otu.invalid = false)
    (h : s.otu.acc.pins.any (·.2 == getF value 0 16) = true) :
    exec (.unpin value e) s = .next (s.withOtu (unpinned (s.otu.go e) (getF value 0 16)).writeDir) := by
  refine congrArg _ ((State.onOtu_with s _ hv).trans (congrArg _ ?_))
  simp only [Otu.go_acc, h, if_true]
  rfl

theorem exec_unpin_free (s : State) (e : Edge) (value : Nat) (hv : s.otu.invalid = false)
    (h : s.otu.acc.pins.any (·.2 == getF value 0 16) = false) : exec (.unpin value e) s = .next (s.withOtu (s.otu.go e)) := by
  refine congrArg _ ((State.onOtu_with s _ hv).trans (congrArg _ ?_))
  simp only [Otu.go_acc, h, Bool.false_eq_true, if_false]

/-! ### The statement -/

/-- Settles O14: the header is sealed 200 cycles after the cut; the dump writes its slot and the directory alone and frees the
set; a fast cut takes no set; an unpinned slot leaves the directory (03 R65, R72 to R75, R80, R81). -/
theorem aSlotIsSealedThenDumpedAndFreed : Obligations.ASlotIsSealedThenDumpedAndFreed := by
  intro s e g b sh hv hg
  subst hg
  refine ⟨fun ho => ⟨exec_accordSeal_early s e b sh hv ho, exec_accordSeal_undumped s e b sh hv ho,
      fun k => exec_accordSeal_dumped s e b sh k hv ho⟩,
    fun ho hkind hhang => ⟨fun k hstream hslot hm => ?_, fun k hstream hslot => ?_, fun ok rank hstream hslot hctx => ?_⟩,
    fun h => ?_, fun h hon hdue hh => ?_, fun value hp => ?_, fun value hp => ?_⟩
  · have hversion := slotFilled_version (s.otu.go e) sh k (dumpHdr sh true)
    have houtside := slotFilled_outside (s.otu.go e) sh k (dumpHdr sh true) hm
    refine ⟨_, dumpDone_written s e b sh k hv ho hkind hhang hstream hslot, ?_, ?_, ?_⟩
    · exact slotFilled_frame _ sh k (dumpHdr sh true) b
    · exact hversion
    · exact houtside
  · refine ⟨_, dumpDone_failed s e b sh k hv ho hkind hhang hstream hslot, ?_⟩
    obtain ⟨hframe, hflag, hget, hctr, hctrs⟩ := dumpFailed_facts (s.otu.go e)
    generalize dumpFailed (s.otu.go e) = p at hframe hflag hget hctr hctrs ⊢
    refine ⟨?_, hflag, fun a ha => (hget a ha).trans (Otu.get_go _ _ _), hctr, hctrs⟩
    rw [hframe]
    rfl
  · obtain ⟨p, r, hp, hsent, hno, himage, hkey, hq, hrec, htag⟩ := streamAccord_fleet (s.otu.go e) sh (dumpHdr sh false) rank hkind
    have hidle : (setFreed p b).hangCutWaiting = setFreed p b := setFreed_idle p b (by rw [hsent]; exact hhang)
    refine ⟨setFreed p b, r, ?_, setFreed_sent b hsent, ?_, ?_, ?_, hq, hrec, htag⟩
    · rw [dumpDone_streamed s e ok b sh rank hv ho hkind hstream hslot hctx, hp, hidle]
    · rw [setFreed_ref, hno]; rfl
    · rw [setFreed_ref, himage]
    · rw [setFreed_ref, hkey]
  · rw [exec_fastCut_due s e hv, fastCutIfDue_waits (s.otu.go e) (by rw [Otu.flag_go, Otu.go_acc]; exact h)]
  · have hcut : exec (.fastCut e) s = .next (s.withOtu (fastCutAt h s.otu.acc.fastNextT)) := by
      rw [exec_fastCut_due s e hv, hh, fastCutIfDue_cut (s.otu.go e) (by rw [Otu.flag_go, hon]) (by rw [Otu.go_acc, hdue])]
      rfl
    have hacc : h.acc = s.otu.acc := by rw [hh, settleMarks_acc, Otu.go_acc]
    have hclk : h.clk = (s.otu.go e).clk := by rw [hh, settleMarks_clk]
    have hget (a : Nat) (ha : a ≠ OTU_CAN_EVENTS) : OtuR.get h a = OtuR.get s.otu a := by
      rw [hh, settleMarks_get _ _ ha, Otu.get_go]
    obtain ⟨p, hp, hframe, ha, hb, hnext⟩ := fastCutAt_frame h s.otu.acc.fastNextT
    refine ⟨p, by rw [hcut, hp], hframe, by rw [ha, hacc], by rw [hb, hacc], fun hstep hahead => ?_, fun hstream hjobs => ?_, fun hsilent => ?_⟩
    · have hfld : OtuR.fld h OTU_ACC_FAST_CTRL 1 17 = OtuR.fld s.otu OTU_ACC_FAST_CTRL 1 17 := fld_of_get (hget _ (by decide)) 1 17
      rw [hnext, fastNext_ahead h _ (by rw [hacc, hstep]) (by rw [hfld, hclk]; exact hahead), hfld]
    · have hon2 : OtuR.flag h OTU_ACC_CTRL 2 = true := (flag_of_get (hget _ (by decide)) 2).trans hstream
      have hnone : (fastChosen (fastMoved h s.otu.acc.fastNextT) h.fastSel false).jobs = [] := by
        rw [fastChosen_frame, hh, settleMarks_jobs]
        exact hjobs
      rw [← hp, fastCutAt_streamed h _ hon2]
      exact fastSent_fleet _ _ _ _ _ hnone
    · have hoff : OtuR.flag h OTU_ACC_CTRL 2 = false := (flag_of_get (hget _ (by decide)) 2).trans hsilent
      have hq : h.eq = s.otu.eq := by rw [hh, settleMarks_eq]; rfl
      rw [← hp, fastCutAt_silent h _ hoff, fastChosen_frame, hacc]
      exact ⟨rfl, hq⟩
  · exact exec_unpin_free s e value hv hp
  · refine ⟨_, exec_unpin_pinned s e value hv hp, ?_, fun a ha => ?_⟩
    · rfl
    · exact writeDir_outside (unpinned (s.otu.go e) (getF value 0 16)) a ha

end Sys2Proof.Machine.Accords
end

section
namespace Sys2Proof.Machine.Accords
open Sys2Proof Sys2Proof.Machine.FleetTime

/-! ### Writes of software to plain registers (00 R12, R14) -/

/-- A replaced field, bit by bit. -/
theorem testBit_setF (v lo w x i : Nat) : (setF v lo w x).testBit i = if lo ≤ i ∧ i < lo + w then x.testBit (i - lo) else v.testBit i := by
  have hp := Nat.two_pow_pos lo
  have hv : v = 2 ^ lo * (2 ^ w * (v / 2 ^ lo / 2 ^ w) + v / 2 ^ lo % 2 ^ w) + v % 2 ^ lo := by
    rw [Nat.div_add_mod, Nat.div_add_mod]
  have hset : setF v lo w x = 2 ^ lo * (2 ^ w * (v / 2 ^ lo / 2 ^ w) + x % 2 ^ w) + v % 2 ^ lo := by
    simp only [setF, getF, Nat.shiftRight_eq_div_pow]
    generalize v / 2 ^ lo / 2 ^ w = c at hv ⊢
    generalize v / 2 ^ lo % 2 ^ w = d at hv ⊢
    generalize v % 2 ^ lo = r at hv ⊢
    rw [hv]
    simp only [Nat.mul_add, Nat.mul_comm _ (2 ^ lo)]
    omega
  rw [hset, Nat.testBit_two_pow_mul_add _ (Nat.mod_lt _ hp)]
  by_cases hlo : i < lo
  · rw [if_pos hlo, if_neg (by omega), Nat.testBit_mod_two_pow, decide_eq_true hlo, Bool.true_and]
  · rw [if_neg hlo, Nat.testBit_two_pow_mul_add _ (Nat.mod_lt _ (Nat.two_pow_pos w))]
    by_cases hw : i - lo < w
    · rw [if_pos hw, if_pos (by omega), Nat.testBit_mod_two_pow, decide_eq_true hw, Bool.true_and]
    · rw [if_neg hw, if_neg (by omega), Nat.testBit_div_two_pow, Nat.testBit_div_two_pow, Nat.sub_add_cancel (by omega), Nat.sub_add_cancel (by omega)]

/-- Fields are equal where their bits are. -/
theorem getF_congr {u v lo w : Nat} (h : ∀ i, lo ≤ i → i < lo + w → u.testBit i = v.testBit i) : getF u lo w = getF v lo w := by
  refine Nat.eq_of_testBit_eq fun i => ?_
  simp only [getF, Nat.testBit_mod_two_pow, Nat.testBit_shiftRight]
  by_cases hi : i < w
  · rw [h (lo + i) (by omega) (by omega)]
  · simp only [hi, decide_false, Bool.false_and]

/-- The bits of a field. -/
theorem testBit_getF (v lo w i : Nat) : (getF v lo w).testBit i = (decide (i < w) && v.testBit (lo + i)) := by
  simp only [getF, Nat.testBit_mod_two_pow, Nat.testBit_shiftRight]

/-- The row of the 32-bit register `a` has the fields `f`, and no W1C bit. -/
def isPlain (a : Nat) (f : List Fld) : Bool :=
  (accessOf otuRows a 4).map (fun y => (y.1.b, y.1.f, y.1.w1c, y.2.1, y.2.2)) == some (32, f, 0, a, none)

/-- R14: the word that a write of `v` leaves in a register of fields `f`. -/
def fieldsWritten (f : List Fld) (old v : Nat) : Nat :=
  if f.all fun g => g.keep || g.ok (getF v g.lo g.w) then
    f.foldl (fun acc g => if g.ok (getF v g.lo g.w) then setF acc g.lo g.w (getF v g.lo g.w) else acc) old % 2 ^ 32
  else old

theorem write_plain (o : Otu) (a v : Nat) (f : List Fld) (h : isPlain a f = true) :
    OtuR.write o a 4 v = OtuR.set o a (fieldsWritten f (OtuR.get o a) (v % 2 ^ 32)) := by
  obtain ⟨⟨x, b, half⟩, hacc, hrow⟩ := Option.map_eq_some_iff.mp (eq_of_beq h)
  obtain ⟨hb, hf, hwc, rfl, rfl⟩ : x.b = 32 ∧ x.f = f ∧ x.w1c = 0 ∧ b = a ∧ half = none := by simpa using hrow
  have hwritten (k old : Nat) : x.written k old (v % 2 ^ 32) = fieldsWritten f old (v % 2 ^ 32) := by
    simp only [RegRow.written, RegRow.accepts, fieldsWritten, hb, hf, hwc, Nat.and_zero, Nat.zero_and, Nat.sub_zero, Nat.and_two_pow_sub_one_eq_mod]
  simp only [OtuR.write, regWrite, hacc, wordAsked, hb, hwritten]
  rfl

/-! ### FAST_CTRL (03 R81) -/

/-- The fields of FAST_CTRL. -/
def fastCtrlFields : List Fld := [fr 0 1, fk 1 17 1 100000, fk 18 12 1 4095]

theorem isPlain_fastCtrl : isPlain OTU_ACC_FAST_CTRL fastCtrlFields = true := by decide +kernel

/-- A value in the range of a field is valid. -/
theorem ok_of_range {g : Fld} {n : Nat} (hx : g.xhi < g.xlo) (h1 : g.min ≤ n) (h2 : n ≤ g.max) : g.ok n = true := by
  have hout : ¬ (g.xlo ≤ n ∧ n ≤ g.xhi) := by omega
  simp only [Fld.ok, decide_eq_true h1, decide_eq_true h2, Bool.true_and, ← Bool.decide_and, hout, decide_false, Bool.not_false]

/-- Every value of a one-bit field is valid. -/
theorem fr_ok (lo v : Nat) : (fr lo 1).ok (getF v lo 1) = true :=
  ok_of_range (by decide : 0 < 1) (Nat.zero_le _) (Nat.le_of_lt_succ (getF_lt v lo 1))

/-- What a write of `v` leaves in FAST_CTRL. -/
def fastCtrlWord (old v : Nat) : Nat :=
  let a := setF old 0 1 (getF v 0 1)
  let b := if (fk 1 17 1 100000).ok (getF v 1 17) then setF a 1 17 (getF v 1 17) else a
  if (fk 18 12 1 4095).ok (getF v 18 12) then setF b 18 12 (getF v 18 12) else b

theorem write_fastCtrl (o : Otu) (v : Nat) : OtuR.write o OTU_ACC_FAST_CTRL 4 v =
    OtuR.set o OTU_ACC_FAST_CTRL (fastCtrlWord (OtuR.get o OTU_ACC_FAST_CTRL) (v % 2 ^ 32) % 2 ^ 32) := by
  have hall : (fastCtrlFields.all fun g => g.keep || g.ok (getF (v % 2 ^ 32) g.lo g.w)) = true := by
    have h0 := fr_ok 0 (v % 2 ^ 32)
    simp only [fastCtrlFields, List.all_cons, List.all_nil, Bool.and_true, fk, Bool.true_or]
    exact Bool.or_eq_true_iff.mpr (.inr h0)
  rw [write_plain o _ v fastCtrlFields isPlain_fastCtrl, fieldsWritten, if_pos hall]
  simp only [fastCtrlFields, List.foldl_cons, List.foldl_nil]
  rw [show (fr 0 1).ok (getF (v % 2 ^ 32) (fr 0 1).lo (fr 0 1).w) = true from fr_ok 0 _, if_pos rfl]
  rfl

/-- A field below bit 32 of a register that was set. -/
theorem getF_stored (v lo w : Nat) (h : lo + w ≤ 32) : getF (v % 2 ^ 32 % 2 ^ 64) lo w = getF v lo w :=
  getF_congr fun i _ hi => by simp only [Nat.testBit_mod_two_pow, decide_eq_true (show i < 32 by omega), decide_eq_true (show i < 64 by omega), Bool.true_and]

theorem getF_asked (v lo w : Nat) (h : lo + w ≤ 32) : getF (v % 2 ^ 32) lo w = getF v lo w :=
  getF_congr fun i _ hi => by simp only [Nat.testBit_mod_two_pow, decide_eq_true (show i < 32 by omega), Bool.true_and]

/-- A replaced field leaves a field that lies apart from it. -/
theorem getF_setF_ne (v lo w x lo' w' : Nat) (h : lo' + w' ≤ lo ∨ lo + w ≤ lo') : getF (setF v lo w x) lo' w' = getF v lo' w' :=
  getF_congr fun i h1 h2 => by rw [testBit_setF, if_neg (by omega)]

/-- FAST_CTRL's enable bit is the one written. -/
theorem fastCtrlWord_enable (old v : Nat) : getF (fastCtrlWord old v) 0 1 = getF v 0 1 := by
  have h : getF (setF old 0 1 (getF v 0 1)) 0 1 = getF v 0 1 := by rw [getF_setF_same, Nat.mod_eq_of_lt (getF_lt v 0 1)]
  rw [fastCtrlWord]
  split <;> split <;> simp only [getF_setF_ne _ _ _ _ _ _ (.inl (by decide : 0 + 1 ≤ 18)), getF_setF_ne _ _ _ _ _ _ (.inl (by decide : 0 + 1 ≤ 1)), h]

/-- FAST_CTRL's interval is the one written, if it is valid. -/
theorem fastCtrlWord_interval (old v : Nat) (h1 : 1 ≤ getF v 1 17) (h2 : getF v 1 17 ≤ 100000) : getF (fastCtrlWord old v) 1 17 = getF v 1 17 := by
  have hok : (fk 1 17 1 100000).ok (getF v 1 17) = true := ok_of_range (by decide : 0 < 1) h1 h2
  have h : ∀ a, getF (setF a 1 17 (getF v 1 17)) 1 17 = getF v 1 17 := fun a => by rw [getF_setF_same, Nat.mod_eq_of_lt (getF_lt v 1 17)]
  simp only [fastCtrlWord, hok, if_true]
  split <;> simp only [getF_setF_ne _ _ _ _ _ _ (.inl (by decide : 1 + 17 ≤ 18)), h]

theorem bit_eq_getF (v k : Nat) : bit v k = (getF v k 1 == 1) := rfl

theorem write_fastCtrl_enable (o : Otu) (v : Nat) : OtuR.flag (OtuR.write o OTU_ACC_FAST_CTRL 4 v) OTU_ACC_FAST_CTRL 0 = bit v 0 := by
  rw [write_fastCtrl, OtuR.flag, OtuR.get_set_same, bit_eq_getF, getF_stored _ 0 1 (by decide), fastCtrlWord_enable, getF_asked _ 0 1 (by decide), bit_eq_getF]

theorem write_fastCtrl_interval (o : Otu) (v : Nat) (h1 : 1 ≤ getF v 1 17) (h2 : getF v 1 17 ≤ 100000) :
    OtuR.fld (OtuR.write o OTU_ACC_FAST_CTRL 4 v) OTU_ACC_FAST_CTRL 1 17 = getF v 1 17 := by
  have hv : getF (v % 2 ^ 32) 1 17 = getF v 1 17 := getF_asked v 1 17 (by decide)
  rw [write_fastCtrl, OtuR.fld, OtuR.get_set_same, getF_stored _ 1 17 (by decide), fastCtrlWord_interval _ _ (by rw [hv]; exact h1) (by rw [hv]; exact h2), hv]

/-- R81: an interval that does not divide the regular one is refused. -/
theorem fastCtrlWrite_refused (o : Otu) (v : Nat) (hen : bit v 0 = true) (h1 : 1 ≤ getF v 1 17) (h2 : getF v 1 17 ≤ 100000)
    (hdiv : fastDivides (getF v 1 17) o.acc.interval = false) : o.fastCtrlWrite v = OtuR.ev o OTU_ACC_EVENTS 7 := by
  simp only [Otu.fastCtrlWrite, write_fastCtrl_enable, write_fastCtrl_interval o v h1 h2, hen, hdiv, Bool.false_and, Bool.not_false, Bool.and_self, if_true]

/-- R81: fast cuts are off. -/
def fastDisabled (o : Otu) (v : Nat) : Otu := { OtuR.write o OTU_ACC_FAST_CTRL 4 v with acc := { o.acc with fastNextT := absent } }

/-- Fast cuts that are disabled have no instant. -/
theorem fastCtrlWrite_disabled (o : Otu) (v : Nat) (hen : bit v 0 = false) :
    o.fastCtrlWrite v = fastDisabled o v := by
  simp only [Otu.fastCtrlWrite, write_fastCtrl_enable, hen, Bool.false_and, Bool.false_eq_true, if_false, Bool.not_false, Bool.true_or, if_true]
  rfl

theorem fastDisabled_frame (o : Otu) (v : Nat) : fastDisabled o v =
    { o with regs := (fastDisabled o v).regs, acc := { o.acc with fastNextT := 2 ^ 64 - 1 } } := rfl

theorem fastDisabled_off (o : Otu) (v : Nat) (hen : bit v 0 = false) : OtuR.flag (fastDisabled o v) OTU_ACC_FAST_CTRL 0 = false :=
  (write_fastCtrl_enable o v).trans hen

theorem fastDisabled_get (o : Otu) (v a : Nat) (h : a ≠ OTU_ACC_FAST_CTRL) : OtuR.get (fastDisabled o v) a = OtuR.get o a := by
  have hwrite : OtuR.get (OtuR.write o OTU_ACC_FAST_CTRL 4 v) a = OtuR.get o a := by rw [write_fastCtrl, OtuR.get_set_ne _ _ h.symm]
  exact hwrite

/-! ### FAST_SEL (03 R81) -/

/-- The fields of a selection register. -/
def fastSelFields : List Fld := [fd 0 15 0 16639, fr 15 1]

theorem isPlain_fastSel : ∀ k < 64, isPlain (OTU_ACC_FAST_SEL k) fastSelFields = true := by decide +kernel

theorem write_fastSel (o : Otu) (k v : Nat) (hk : k < 64) (hv : getF v 0 15 ≤ 16639) : OtuR.write o (OTU_ACC_FAST_SEL k) 4 v =
    OtuR.set o (OTU_ACC_FAST_SEL k) (setF (setF (OtuR.get o (OTU_ACC_FAST_SEL k)) 0 15 (getF v 0 15)) 15 1 (getF v 15 1) % 2 ^ 32) := by
  have h0 : getF (v % 2 ^ 32) 0 15 = getF v 0 15 := getF_asked v 0 15 (by decide)
  have h15 : getF (v % 2 ^ 32) 15 1 = getF v 15 1 := getF_asked v 15 1 (by decide)
  have hsel : (fd 0 15 0 16639).ok (getF v 0 15) = true := ok_of_range (by decide : 0 < 1) (Nat.zero_le _) hv
  have hval : (fr 15 1).ok (getF v 15 1) = true := fr_ok 15 v
  have hlo (lo w mn mx : Nat) : (fd lo w mn mx).lo = lo ∧ (fd lo w mn mx).w = w := ⟨rfl, rfl⟩
  have hfr (lo w : Nat) : (fr lo w).lo = lo ∧ (fr lo w).w = w := ⟨rfl, rfl⟩
  rw [write_plain o _ v fastSelFields (isPlain_fastSel k hk)]
  simp only [fieldsWritten, fastSelFields, List.all_cons, List.all_nil, List.foldl_cons, List.foldl_nil, hlo, hfr, h0, h15, hsel, hval, Bool.or_true,
    Bool.and_self, if_true]

/-- A selection register holds what was written. -/
theorem fastSel_written (old v : Nat) : getF (setF (setF old 0 15 (getF v 0 15)) 15 1 (getF v 15 1) % 2 ^ 32 % 2 ^ 64) 0 16 = getF v 0 16 := by
  rw [getF_stored _ 0 16 (by decide)]
  refine getF_congr fun i _ hi => ?_
  rw [testBit_setF]
  by_cases h : i = 15
  · subst h
    rw [if_pos (by decide), testBit_getF]
    rfl
  · rw [if_neg (by omega), testBit_setF, if_pos (by omega), testBit_getF, decide_eq_true (by omega), Bool.true_and]
    rw [Nat.zero_add, Nat.sub_zero]

end Sys2Proof.Machine.Accords
end

section
namespace Sys2Proof.Machine.Accords
open Sys2Proof Sys2Proof.Machine.FleetTime

/-! ### The interval switch (03 R63, 02 R54) -/

theorem go_clk_st (o : Otu) (e : Edge) : (o.go e).clk.st = o.clk.st := by
  simp only [Otu.go]
  split <;> rfl

/-- R63: a switch to `t` is refused. -/
def switchUnfit (o : Otu) (t : Nat) : Bool :=
  o.clk.st = 0 || decide (t ≤ o.clk.ft) || t % (o.acc.interval * 400000) != 0 || t % (OtuR.fld o OTU_ACC_SWITCH_INTERVAL 0 14 * 400000) != 0 ||
    (OtuR.flag o OTU_ACC_FAST_CTRL 0 && !fastDivides (OtuR.fld o OTU_ACC_FAST_CTRL 1 17) (OtuR.fld o OTU_ACC_SWITCH_INTERVAL 0 14))

theorem switchUnfit_iff (o : Otu) (t : Nat) : switchUnfit o t = true ↔ o.clk.st = 0 ∨ t ≤ o.clk.ft ∨ t % (o.acc.interval * 400000) ≠ 0 ∨
    t % (OtuR.fld o OTU_ACC_SWITCH_INTERVAL 0 14 * 400000) ≠ 0 ∨ (OtuR.flag o OTU_ACC_FAST_CTRL 0 = true ∧
      fastDivides (OtuR.fld o OTU_ACC_FAST_CTRL 1 17) (OtuR.fld o OTU_ACC_SWITCH_INTERVAL 0 14) = false) := by
  simp only [switchUnfit, Bool.or_eq_true, decide_eq_true_eq, bne_iff_ne, Bool.and_eq_true, Bool.not_eq_true', or_assoc]

/-- The registers after a refused switch. -/
def switchRefused (o : Otu) : Otu := OtuR.ev (OtuR.set o OTU_ACC_SWITCH_T absent) OTU_ACC_EVENTS 4

theorem switchWrite_cancel (o : Otu) : o.switchWrite absent = OtuR.set o OTU_ACC_SWITCH_T absent := by
  unfold Otu.switchWrite
  exact if_pos rfl

theorem switchWrite_armed (o : Otu) (t : Nat) (ht : t ≠ absent) (h : switchUnfit o t = false) : o.switchWrite t = OtuR.set o OTU_ACC_SWITCH_T t :=
  (if_neg ht).trans (if_neg (Bool.eq_false_iff.mp h))

theorem switchWrite_refused (o : Otu) (t : Nat) (ht : t ≠ absent) (h : switchUnfit o t = true) : o.switchWrite t =
    if o.clk.st != 0 && decide (t ≤ o.clk.ft) then (switchRefused o).actionLate 6 t 0 else switchRefused o :=
  (if_neg ht).trans (if_pos h)

/-- An event request leaves every register but the recorder's counts and bits. -/
theorem event_get (o : Otu) (r : EvReq) (a : Nat) (hd : a ≠ OTU_EVR_DROPPED) (he : a ≠ OTU_EVR_EVENTS) : OtuR.get (o.event r) a = OtuR.get o a := by
  simp only [Otu.event]
  generalize o.evr.request _ _ _ = x
  generalize o.evr.added _ _ = q
  obtain ⟨refused, drops, dropped⟩ := q
  have hdrop : OtuR.get (OtuR.touch { o with evr := x } OTU_EVR_DROPPED drops) a = OtuR.get o a := OtuR.get_touch_ne _ _ hd.symm
  have hev (p : Otu) (c : Bool) (k : Nat) : OtuR.get (if c then OtuR.ev p OTU_EVR_EVENTS k else p) a = OtuR.get p a := by
    cases c
    · rfl
    · exact OtuR.get_ev_ne p k he.symm
  rw [hev, hev, hdrop]

/-- A late action shows, and is an event (R54). -/
theorem actionLate_facts (o : Otu) (k t tag : Nat) : ∃ p, o.actionLate k t tag = p ∧ p = { o with regs := p.regs, cyc := p.cyc, evr := p.evr } ∧
    OtuR.flag p OTU_TIME_EVENTS 4 = true ∧
    ∀ a, a ≠ OTU_TIME_EVENTS → a ≠ OTU_EVR_EVENTS → a ≠ OTU_EVR_DROPPED → OtuR.get p a = OtuR.get o a := by
  refine ⟨_, rfl, Otu.event_all _ _, ?_, fun a ht he hd => (event_get _ _ a hd he).trans (OtuR.get_ev_ne o 4 ht.symm)⟩
  exact (flag_of_get (event_get _ _ OTU_TIME_EVENTS (by decide) (by decide)) 4).trans (OtuR.flag_ev o _ 4 (by decide))

theorem switchRefused_get (o : Otu) (a : Nat) (ht : a ≠ OTU_ACC_SWITCH_T) (he : a ≠ OTU_ACC_EVENTS) : OtuR.get (switchRefused o) a = OtuR.get o a :=
  (OtuR.get_ev_ne _ 4 he.symm).trans (OtuR.get_set_ne _ _ ht.symm)

theorem switchRefused_T (o : Otu) : OtuR.get (switchRefused o) OTU_ACC_SWITCH_T = 2 ^ 64 - 1 :=
  (OtuR.get_ev_ne _ 4 (by decide)).trans (OtuR.get_set_same o _ _)

theorem switchRefused_shown (o : Otu) : OtuR.flag (switchRefused o) OTU_ACC_EVENTS 4 = true := OtuR.flag_ev _ _ 4 (by decide)

/-- A switch that is refused: what it shows, and where the instant was reached. -/
theorem switchWrite_refused_facts (o : Otu) (t : Nat) (ht : t ≠ absent) (h : switchUnfit o t = true) : ∃ p, o.switchWrite t = p ∧
    p = { o with regs := p.regs, cyc := p.cyc, evr := p.evr } ∧ OtuR.get p OTU_ACC_SWITCH_T = 2 ^ 64 - 1 ∧ OtuR.flag p OTU_ACC_EVENTS 4 = true ∧
    (o.clk.st ≠ 0 → t ≤ o.clk.ft → OtuR.flag p OTU_TIME_EVENTS 4 = true) ∧
    ∀ a, a ≠ OTU_ACC_SWITCH_T → a ≠ OTU_ACC_EVENTS →
      ((o.clk.st ≠ 0 ∧ t ≤ o.clk.ft) → a ≠ OTU_TIME_EVENTS ∧ a ≠ OTU_EVR_EVENTS ∧ a ≠ OTU_EVR_DROPPED) → OtuR.get p a = OtuR.get o a := by
  have hshown := switchRefused_shown o
  have hT := switchRefused_T o
  have hget := switchRefused_get o
  have hregs : RegsOnly o (switchRefused o) := rfl
  rw [switchWrite_refused o t ht h]
  by_cases hlate : o.clk.st ≠ 0 ∧ t ≤ o.clk.ft
  · rw [if_pos (by simpa using hlate)]
    obtain ⟨p, hp, hframe, htime, hrest⟩ := actionLate_facts (switchRefused o) 6 t 0
    refine ⟨p, hp, ?_, ?_, ?_, fun _ _ => htime, fun a h1 h2 h3 => ?_⟩
    · rw [RegsOnly] at hregs
      rw [hregs] at hframe
      exact hframe
    · rw [hrest _ (by decide) (by decide) (by decide), hT]
    · rw [flag_of_get (hrest _ (by decide) (by decide) (by decide)) 4, hshown]
    · obtain ⟨h3, h4, h5⟩ := h3 hlate
      rw [hrest a h3 h4 h5, hget a h1 h2]
  · rw [if_neg (by simpa using hlate)]
    exact ⟨_, rfl, hregs, hT, hshown, fun h1 h2 => absurd ⟨h1, h2⟩ hlate, fun a h1 h2 _ => hget a h1 h2⟩

theorem exec_switchArm_write (s : State) (e : Edge) (t : Nat) (hv : s.otu.invalid = false) (ht : t < 2 ^ 64 - 1) :
    exec (.switchArm t e) s = .next (s.withOtu ((s.otu.go e).switchWrite t)) := by
  refine congrArg _ ((State.onOtu_with s (fun o => (o.go e).switchWrite (t % 2 ^ 64)) hv).trans ?_)
  rw [Nat.mod_eq_of_lt (by omega)]

theorem exec_switchCancel_write (s : State) (e : Edge) (hv : s.otu.invalid = false) :
    exec (.switchCancel e) s = .next (s.withOtu (OtuR.set (s.otu.go e) OTU_ACC_SWITCH_T absent)) := by
  rw [← switchWrite_cancel]
  exact congrArg _ (State.onOtu_with s (fun o => (o.go e).switchWrite absent) hv)

/-! ### The fast controls (03 R81) -/

theorem exec_fastCtrlWrite_otu (s : State) (e : Edge) (v : Nat) (hv : s.otu.invalid = false) :
    exec (.fastCtrlWrite v e) s = .next (s.withOtu ((s.otu.go e).fastCtrlWrite v)) := by
  rw [exec_fastCtrlWrite, execFastCtrlWrite, State.onOtu_with s _ hv]

theorem exec_fastSelWrite_otu (s : State) (e : Edge) (k v : Nat) (hv : s.otu.invalid = false) (hk : k < 64) :
    exec (.fastSelWrite k v e) s = .next (s.withOtu (OtuR.write (s.otu.go e) (OTU_ACC_FAST_SEL k) 4 v)) := by
  rw [exec_fastSelWrite, execFastSelWrite, State.onOtu_with s _ hv]
  exact congrArg (fun o => Host.Outcome.next (s.withOtu o)) (if_pos hk)

/-! ### Step marks (03 R69, 06 R131) -/

/-- `p` is `o` with engines and registers changed. -/
def Tapped (o p : Otu) : Prop := p = { o with engs := p.engs, regs := p.regs, cyc := p.cyc }

theorem Tapped.trans {o p q : Otu} (h : Tapped o p) (k : Tapped p q) : Tapped o q := by
  rw [Tapped] at *
  rw [h] at k
  exact k

theorem tapped_of_regs {o p : Otu} (h : RegsOnly o p) : Tapped o p := by
  rw [RegsOnly] at h
  rw [Tapped, h]

theorem setEng_tapped (o : Otu) (e : Nat) (x : EngSt) : Tapped o (o.setEng e x) := rfl

theorem wrapped_regs (o : Otu) (e c : Nat) : RegsOnly o (o.wrapped e c) := rfl

theorem ctrAdd_regs (o : Otu) (e c n : Nat) : RegsOnly o (o.ctrAdd e c n) := by
  have hset : RegsOnly o (o.ctrSet e c (addWord (ctrWidth c) (OtuR.get o (OTU_ENG_CTR e c)) n).1) := rfl
  simp only [Otu.ctrAdd]
  split
  · rfl
  · split
    · exact hset.trans (wrapped_regs _ e c)
    · exact hset

theorem pmcAdd_tapped (o : Otu) (e c n : Nat) : Tapped o (o.pmcAdd e c n) := by
  simp only [Otu.pmcAdd]
  split
  · rfl
  · split
    · split
      · split <;> rfl
      · exact tapped_of_regs (ctrAdd_regs o e c n)
    · exact tapped_of_regs (ctrAdd_regs o e c n)

theorem pmcTap_tapped (o : Otu) (e k n : Nat) : Tapped o (o.pmcTap e k n) := (setEng_tapped o e _).trans (pmcAdd_tapped _ e (k + 1) _)

/-- Events at the taps change engines and registers alone. -/
theorem tap_tapped (o : Otu) (e cls level n : Nat) : Tapped o (o.tap e cls level n) := by
  rw [Otu.tap]
  split
  · rfl
  · rename_i hactive
    clear hactive
    generalize (List.range 8).filter _ = l
    induction l generalizing o with
    | nil => rfl
    | cons k l ih => exact (pmcTap_tapped o e k n).trans (ih _)

/-- R69: the step number that a mark leaves. -/
def stepAfter (kind stepNo : Nat) : Nat := if kind = 0 then stepNo % 2 ^ 64 else absent

/-- R69: the mark as the OTU keeps it. -/
def markOf (o : Otu) (seq kind stepNo tokens tag : Nat) : StepMk :=
  { stepNo := stepNo % 2 ^ 64, ft := o.ft, tokens := tokens % 2 ^ 32, seq, kind, jt := o.jt, lt := o.lt, tag }

/-- R131, R180: the step in progress becomes `n`, and job `tag` makes progress. -/
def stepMoved (o : Otu) (n tag : Nat) : Otu :=
  let o := ({ o with acc := { o.acc with stepNo := n } }).progress tag
  if o.step.cur.2 = n then o
  else { o with step := o.step.write o.lt (o.step.cur.1 + 1, n), staleDue := o.staleDue ++ [(o.lt, tag)] }

/-- A step mark before the step moves on. -/
def markTaken (o : Otu) (seq kind stepNo tokens : Nat) : Otu :=
  let tag := (o.eng (seqEngine seq)).tag
  let o := o.tap (seqEngine seq) 0xC6 (o.seqLevel (seqEngine seq)) 1
  o.addMark (markOf o seq kind stepNo tokens tag)

theorem exec_stepMark_moved (s : State) (e : Edge) (seq kind stepNo tokens : Nat) (hv : s.otu.invalid = false) (hs : seq < 64) (hk : kind < 2) :
    exec (.stepMark seq kind stepNo tokens e) s = .next (s.withOtu (stepMoved (markTaken (s.otu.go e).settleMarks seq kind stepNo tokens)
      (stepAfter kind stepNo) (s.otu.eng (seqEngine seq)).tag)) := by
  have htag : (s.otu.go e).settleMarks.eng (seqEngine seq) = s.otu.eng (seqEngine seq) := by rw [Otu.eng, settleMarks_engs]; rfl
  have hvalid : (decide (seq < 64) && decide (kind < 2)) = true := by rw [decide_eq_true hs, decide_eq_true hk, Bool.and_self]
  rw [← htag]
  refine congrArg _ ((State.onOtu_with s _ hv).trans (congrArg _ ?_))
  generalize (s.otu.go e).settleMarks = h
  rw [hvalid]
  exact if_pos rfl

theorem stepMoved_facts (o : Otu) (n tag : Nat) : ∃ p, stepMoved o n tag = p ∧
    p = { o with acc := { o.acc with stepNo := n }, jobs := (o.progress tag).jobs, step := p.step, staleDue := p.staleDue } ∧ p.step.cur.2 = n := by
  have hprog : ({ o with acc := { o.acc with stepNo := n } } : Otu).progress tag =
      { o with acc := { o.acc with stepNo := n }, jobs := (o.progress tag).jobs } := by
    simp only [Otu.progress]
    split <;> rfl
  refine ⟨_, rfl, ?_⟩
  rw [stepMoved, hprog]
  by_cases hn : o.step.cur.2 = n
  · rw [if_pos hn]
    exact ⟨rfl, hn⟩
  · rw [if_neg hn]
    exact ⟨rfl, rfl⟩

/-- A mark joins those that wait. -/
theorem addMark_kept (o : Otu) (m : StepMk) (hno : o.acc.oldest (fun x => x.kind == 0 && !x.sealed && decide (m.lt ≤ x.lt)) = none)
    (h : o.acc.marks.length < 16) : o.addMark m = { o with acc := { o.acc with marks := o.acc.marks ++ [m] } } := by
  simp only [Otu.addMark, hno, h, if_true]

/-- What a dropped mark leaves. -/
def markDropped (o : Otu) : Otu := (OtuR.ev { o with acc := { o.acc with stepOvf := true } } OTU_ACC_EVENTS 3).dctrAdd 0x81 1

theorem addMark_dropped (o : Otu) (m : StepMk) (hno : o.acc.oldest (fun x => x.kind == 0 && !x.sealed && decide (m.lt ≤ x.lt)) = none)
    (h : 16 ≤ o.acc.marks.length) : o.addMark m = markDropped o := by
  simp only [Otu.addMark, hno, Nat.not_lt.mpr h, if_false]
  rfl

theorem markDropped_facts (o : Otu) : markDropped o = { o with acc := { o.acc with stepOvf := true }, regs := (markDropped o).regs
                                                               cyc := (markDropped o).cyc, dctr := (markDropped o).dctr } ∧
    OtuR.flag (markDropped o) OTU_ACC_EVENTS 3 = true ∧ (markDropped o).dctrGet 0x81 = (addWord 48 (o.dctrGet 0x81) 1).1 :=
  ⟨rfl, OtuR.flag_ev { o with acc := { o.acc with stepOvf := true } } _ 3 (by decide),
    dctrGet_dctrAdd (OtuR.ev { o with acc := { o.acc with stepOvf := true } } OTU_ACC_EVENTS 3) _ _⟩

/-- Making progress looks at fleet time and the jobs alone. -/
theorem progress_jobs_congr (o p : Otu) (tag : Nat) (hft : p.ft = o.ft) (hjobs : p.jobs = o.jobs) : (p.progress tag).jobs = (o.progress tag).jobs := by
  simp only [Otu.progress, Otu.updJob, hft]
  split
  · exact hjobs
  · rw [hjobs]

/-- A taken mark with no unsealed regular shadow of this cycle: kept, or dropped and counted. -/
theorem markTaken_facts (o : Otu) (seq kind stepNo tokens : Nat)
    (hno : o.acc.oldest (fun x => x.kind == 0 && !x.sealed && decide (o.lt ≤ x.lt)) = none) : ∃ p, markTaken o seq kind stepNo tokens = p ∧
    p = { o with acc := p.acc, engs := p.engs, dctr := p.dctr, regs := p.regs, cyc := p.cyc } ∧
    (o.acc.marks.length < 16 →
      p.acc = { o.acc with marks := o.acc.marks ++ [markOf o seq kind stepNo tokens (o.eng (seqEngine seq)).tag] }) ∧
    (16 ≤ o.acc.marks.length → p.acc = { o.acc with stepOvf := true } ∧ OtuR.flag p OTU_ACC_EVENTS 3 = true ∧
      p.dctrGet 0x81 = (addWord 48 (o.dctrGet 0x81) 1).1) := by
  have htap := tap_tapped o (seqEngine seq) 0xC6 (o.seqLevel (seqEngine seq)) 1
  rw [markTaken]
  generalize (o.eng (seqEngine seq)).tag = tag
  generalize o.tap (seqEngine seq) 0xC6 (o.seqLevel (seqEngine seq)) 1 = q at htap ⊢
  rw [Tapped] at htap
  have hacc : q.acc = o.acc := by rw [htap]
  have hmark : markOf q seq kind stepNo tokens tag = markOf o seq kind stepNo tokens tag := by rw [htap]; rfl
  have hctr : q.dctrGet 0x81 = o.dctrGet 0x81 := by rw [htap]; rfl
  rw [hmark]
  rcases Nat.lt_or_ge o.acc.marks.length 16 with h | h
  · refine ⟨_, addMark_kept q _ (by rw [hacc]; exact hno) (by rw [hacc]; exact h), ?_, fun _ => by rw [hacc], fun h16 => absurd h (Nat.not_lt.mpr h16)⟩
    rw [htap]
  · obtain ⟨hframe, hflag, hcount⟩ := markDropped_facts q
    refine ⟨_, addMark_dropped q _ (by rw [hacc]; exact hno) (by rw [hacc]; exact h), ?_, fun h16 => absurd h16 (Nat.not_lt.mpr h), fun _ => ⟨?_, hflag, ?_⟩⟩
    · generalize markDropped q = p at hframe ⊢
      rw [htap] at hframe
      rw [hframe]
    · rw [hframe, hacc]
    · rw [hcount, hctr]

/-! ### The statement -/

/-- Settles O15: a switch is armed or refused whole, a fast interval that does not divide the regular one is refused, a KEY is
asked for, and a step mark waits for the next cut or is dropped and counted (03 R63, R69, R81, R93). -/
theorem accordControlsAndStepMarks : Obligations.AccordControlsAndStepMarks := by
  intro s e g hv hg
  subst hg
  have hst := go_clk_st s.otu e
  refine ⟨fun T hT hrun hlater hold hnew hfast => ?_, fun T hT hbad => ?_, ?_, ?_, ?_, fun value hen h1 h2 hdiv => ?_, fun value hen => ?_,
    fun k value hk hsel => ?_, fun seq kind stepNo tokens n x hseq hkind hno hn hx => ?_⟩
  · have hfit : switchUnfit (s.otu.go e) T = false := by
      refine Bool.eq_false_iff.mpr fun h => ?_
      rcases (switchUnfit_iff _ T).mp h with h | h | h | h | ⟨h, hd⟩
      · exact hrun (hst ▸ h)
      · exact Nat.not_le.mpr hlater h
      · exact h hold
      · exact h hnew
      · exact Bool.false_ne_true (hd.symm.trans (hfast h))
    refine ⟨OtuR.set (s.otu.go e) OTU_ACC_SWITCH_T T, by rw [exec_switchArm_write s e T hv hT, switchWrite_armed _ T (Nat.ne_of_lt hT) hfit], rfl, ?_,
      fun a ha => OtuR.get_set_ne (s.otu.go e) T ha.symm⟩
    rw [OtuR.get_set_same, Nat.mod_eq_of_lt (by omega)]
  · obtain ⟨p, hp, hframe, hall, href, hlate, hrest⟩ := switchWrite_refused_facts (s.otu.go e) T (Nat.ne_of_lt hT) ((switchUnfit_iff _ T).mpr (hst ▸ hbad))
    rw [hst] at hlate hrest
    exact ⟨p, by rw [exec_switchArm_write s e T hv hT, hp], hframe, hall, href, hlate, hrest⟩
  · exact ⟨_, exec_switchCancel_write s e hv, rfl, OtuR.get_set_same _ _ _, fun a ha => OtuR.get_set_ne (s.otu.go e) absent ha.symm⟩
  · exact congrArg _ (State.onOtu_with s _ hv)
  · exact congrArg _ (State.onOtu_with s _ hv)
  · exact ⟨OtuR.ev (s.otu.go e) OTU_ACC_EVENTS 7, by rw [exec_fastCtrlWrite_otu s e value hv, fastCtrlWrite_refused (s.otu.go e) value hen h1 h2 hdiv], rfl,
      OtuR.flag_ev _ _ 7 (by decide), fun a ha => OtuR.get_ev_ne (s.otu.go e) 7 ha.symm⟩
  · exact ⟨fastDisabled (s.otu.go e) value, by rw [exec_fastCtrlWrite_otu s e value hv, fastCtrlWrite_disabled (s.otu.go e) value hen],
      fastDisabled_frame _ value, fastDisabled_off _ value hen, fastDisabled_get (s.otu.go e) value⟩
  · refine ⟨_, exec_fastSelWrite_otu s e k value hv hk, rfl, ?_, fun a ha => ?_⟩
    · rw [write_fastSel _ k value hk hsel, OtuR.fld, OtuR.get_set_same, fastSel_written]
    · rw [write_fastSel _ k value hk hsel]
      exact OtuR.get_set_ne (s.otu.go e) _ ha.symm
  · have hsettled := settleMarks_settled (s.otu.go e)
    rw [exec_stepMark_moved s e seq kind stepNo tokens hv hseq hkind]
    generalize (s.otu.go e).settleMarks = h at hsettled ⊢
    have hacc : h.acc = s.otu.acc := by rw [hsettled.frame]; rfl
    have hlt : h.lt = (s.otu.go e).lt := by rw [hsettled.frame]
    have hft : h.ft = (s.otu.go e).ft := by rw [hsettled.frame]; rfl
    have hjobs : h.jobs = (s.otu.go e).jobs := by rw [hsettled.frame]
    have heng : h.eng (seqEngine seq) = s.otu.eng (seqEngine seq) := by rw [hsettled.frame]; rfl
    have hmark : markOf h seq kind stepNo tokens (h.eng (seqEngine seq)).tag = x := by rw [hx, heng, hsettled.frame]; rfl
    obtain ⟨p, hp, hframe, hkept, hdropped⟩ := markTaken_facts h seq kind stepNo tokens (by rw [hacc, hlt]; exact hno)
    obtain ⟨q, hq, hmoved, hcur⟩ := stepMoved_facts p (stepAfter kind stepNo) (s.otu.eng (seqEngine seq)).tag
    have hprog : (p.progress (s.otu.eng (seqEngine seq)).tag).jobs = ((s.otu.go e).progress (s.otu.eng (seqEngine seq)).tag).jobs :=
      progress_jobs_congr _ _ _ (by rw [hframe]; exact hft) (by rw [hframe]; exact hjobs)
    rw [hacc, hmark] at hkept
    rw [hacc] at hdropped
    have hstep : stepAfter kind stepNo = n := hn.symm
    rw [hstep] at hq hmoved hcur
    have hqacc : q.acc = { p.acc with stepNo := n } := by rw [hmoved]
    have hflag (k : Nat) : OtuR.flag q OTU_ACC_EVENTS k = OtuR.flag p OTU_ACC_EVENTS k := by rw [hmoved]; rfl
    have hctr : q.dctrGet 0x81 = p.dctrGet 0x81 := by rw [hmoved]; rfl
    rw [hprog, hframe] at hmoved
    refine ⟨q, by rw [hp, hstep, hq], by rw [hmoved], hcur, fun hlen => by rw [hqacc, hkept hlen]; rfl, fun hlen => ?_⟩
    obtain ⟨hovf, hshown, hcount⟩ := hdropped hlen
    rw [hsettled.dctr 0x81 (by decide)] at hcount
    exact ⟨by rw [hqacc, hovf]; rfl, (hflag 3).trans hshown, hctr.trans hcount⟩

end Sys2Proof.Machine.Accords
end

section
namespace Sys2Proof.Machine.Accords
open Sys2Proof

/-! ### A closure that its own heart note drops (03 R87, 06 R163, 01 R28)

CLOSURE_DEADLINE writes the closed accord into heart notes. Where the open segment is full, the note makes room: the next slot
of the ring is reclaimed, and with it go the closed accords whose notes stand in that slot alone. -/

/-- A fast accord of the fleet context that still misses its one rank. -/
def overdue : AccNode := { kind := 1, no := 7, t := 280000, expected := [0] }

/-- Heart notes whose open segment is full, and whose next slot holds a note that names the accord `overdue`. -/
def fullNotes : Hnr :=
  { open_ := { used := 8388608 }, ring := [{ slot := 1, recs := [{ key := 7, closed := some (0, 1) }] }] }

/-- A RUNNING Priord with that accord and those notes. -/
def overdueState : State :=
  { State.reset with prd := { PrdR.set State.reset.prd PRD_BOOT_STATUS 4 with accs := [overdue], hnr := fullNotes } }

/-- A deadline that has come closes the accord, after the gaps of a forward step. -/
theorem exec_closureDeadline_late (s : State) (ctx kind no t : Nat) (a : AccNode)
    (ha : (s.prd.go t).acc? (if ctx = 0 then 0 else ((s.prd.go t).slot ctx).tag) kind no 0 = some a) (hst : a.st = 0)
    (hdue : a.t + (s.prd.go t).deadline 0 ≤ (s.prd.go t).ft) :
    exec (.closureDeadline 0 ctx kind no t) s = .next (s.withPrd (((s.prd.go t).stepGaps
      (if ctx = 0 then 0 else ((s.prd.go t).slot ctx).tag) kind no).settle (if ctx = 0 then 0 else ((s.prd.go t).slot ctx).tag) kind no 0 true)) := by
  refine congrArg _ ((State.onPrd_with s _).trans (congrArg _ ?_))
  simp only [ha, ge_iff_le, hdue, if_true, hst, decide_true, Bool.and_self]

/-- Past its deadline the accord closes, and goes with the slot that the note of its closure needs. -/
theorem overdue_reclaimed : (((overdueState.prd.go 400000).stepGaps 0 1 7).settle 0 1 7 0 true).accs = [] := by decide +kernel

/-- Refutes O16: the accord that its deadline closes need not stand at the node afterwards, for the note of its closure may
reclaim the heart notes that name it. -/
theorem not_trayClosureTakesRecordsAndGaps : ¬ Obligations.TrayClosureTakesRecordsAndGaps := by
  intro h
  obtain ⟨-, -, -, -, -, -, hclose⟩ := h overdueState 400000 _ rfl
  have hopen : (overdueState.prd.go 400000).acc? 0 1 7 0 = some overdue := by decide +kernel
  have hdue : overdue.t + (overdueState.prd.go 400000).deadline 0 ≤ (overdueState.prd.go 400000).ft := by decide +kernel
  obtain ⟨-, hlate⟩ := hclose 0 1 7 0 overdue rfl hopen rfl rfl
  obtain ⟨o, b, hexec, hfound, -⟩ := hlate hdue (by decide) (by decide +kernel) (.inl (by decide))
  rw [exec_closureDeadline_late overdueState 0 1 7 400000 overdue hopen rfl hdue] at hexec
  injection hexec with hstate
  have haccs : (((overdueState.prd.go 400000).stepGaps 0 1 7).settle 0 1 7 0 true).accs = o.accs := congrArg (fun s => s.prd.accs) hstate
  rw [Prd.acc?, ← haccs, overdue_reclaimed] at hfound
  exact absurd hfound (by simp)

end Sys2Proof.Machine.Accords
end

section
namespace Sys2Proof.Machine.EngineCounters
open Sys2Proof Sys2Proof.Machine.FleetTime Sys2Proof.Machine.Accords

/-! ### What counting at one engine can change (04 R97 to R107) -/

/-- An engine's state but for what counting notes in it: x(t), the words that a command start replaced, the last BUSY cycle. -/
def unnoted (x : EngSt) : EngSt := { x with xAt := 0, xs := [], xNew := [], xprev := [], startOld := [], busyAt := none }

/-- `p` is `o` after counting at engine `e`, which reached no register outside `R`. -/
structure Counts (e : Nat) (R : Nat → Prop) (o p : Otu) : Prop where
  frame : p = { o with engs := p.engs, dctr := p.dctr, regs := p.regs, cyc := p.cyc }
  step : p.cyc.step = o.cyc.step
  eng : unnoted (p.eng e) = unnoted (o.eng e)
  others : ∀ m, m ≠ e → p.eng m = o.eng m
  regs : ∀ a, ¬ R a → OtuR.get p a = OtuR.get o a
  shown : OtuR.flag o (OTU_ENG_EVENTS e) 1 = true → OtuR.flag p (OTU_ENG_EVENTS e) 1 = true

/-- The registers of counter `c` of engine `e` and of its events. -/
def wordRegs (e c a : Nat) : Prop := a = OTU_ENG_EVENTS e ∨ a = OTU_ENG_CTR e c

/-- The registers of the PMCs of engine `e` and of its events. -/
def pmcRegs (e a : Nat) : Prop := a = OTU_ENG_EVENTS e ∨ ∃ k, k < 8 ∧ a = OTU_ENG_CTR e (k + 1)

/-- The registers of all counters of engine `e` and of its events. -/
def ctrRegs (e a : Nat) : Prop := a = OTU_ENG_EVENTS e ∨ ∃ c, c < 32 ∧ a = OTU_ENG_CTR e c

theorem wordRegs_pmc (e : Nat) {k : Nat} (h : k < 8) (a : Nat) (ha : wordRegs e (k + 1) a) : pmcRegs e a :=
  ha.imp_right fun h' => ⟨k, h, h'⟩

theorem wordRegs_ctr (e : Nat) {c : Nat} (h : c < 32) (a : Nat) (ha : wordRegs e c a) : ctrRegs e a :=
  ha.imp_right fun h' => ⟨c, h, h'⟩

theorem pmcRegs_ctr (e a : Nat) (ha : pmcRegs e a) : ctrRegs e a :=
  ha.imp_right fun ⟨k, hk, h⟩ => ⟨k + 1, by omega, h⟩

/-- The counters lie below every other register of an engine. -/
theorem ctr_lt {e c : Nat} (he : e < 512) (hc : c < 32) : OTU_ENG_CTR e c < 0x60000 := by unfold OTU_ENG_CTR; omega

theorem ctr_ne_events {e c : Nat} (he : e < 512) (hc : c < 32) : OTU_ENG_CTR e c ≠ OTU_ENG_EVENTS e := by
  unfold OTU_ENG_CTR OTU_ENG_EVENTS; omega

theorem ctr_ne_ctr (e : Nat) {c d : Nat} (h : c ≠ d) : OTU_ENG_CTR e c ≠ OTU_ENG_CTR e d := by unfold OTU_ENG_CTR; omega

/-- The events lie between an engine's other control registers. -/
theorem events_ne (e : Nat) {a : Nat} (h : a % 0x80 ≠ 0x50) : OTU_ENG_EVENTS e ≠ a := by unfold OTU_ENG_EVENTS; omega

/-- Counting reaches no control register of the engine but its events. -/
theorem not_ctrRegs {e : Nat} (he : e < 512) {a : Nat} (h : 0x60000 ≤ a) (hm : a % 0x80 ≠ 0x50) : ¬ ctrRegs e a := by
  rintro (ha | ⟨c, hc, ha⟩)
  · exact events_ne e hm ha.symm
  · exact absurd (ctr_lt he hc) (by omega)

/-- A fixed counter is none of the PMCs, nor the events. -/
theorem fixed_not_pmcRegs {e c : Nat} (he : e < 512) (hc : c < 32) (hf : c = 0 ∨ 9 ≤ c) : ¬ pmcRegs e (OTU_ENG_CTR e c) := by
  rintro (ha | ⟨k, hk, ha⟩)
  · exact ctr_ne_events he hc ha
  · exact ctr_ne_ctr e (by omega) ha

theorem Counts.refl (e : Nat) (R : Nat → Prop) (o : Otu) : Counts e R o o := ⟨rfl, rfl, rfl, fun _ _ => rfl, fun _ _ => rfl, id⟩

theorem Counts.trans {e : Nat} {R : Nat → Prop} {o p q : Otu} (h : Counts e R o p) (k : Counts e R p q) : Counts e R o q := by
  refine ⟨?_, k.step.trans h.step, k.eng.trans h.eng, fun m hm => (k.others m hm).trans (h.others m hm),
    fun a ha => (k.regs a ha).trans (h.regs a ha), k.shown ∘ h.shown⟩
  have hq := k.frame
  rw [h.frame] at hq
  exact hq

theorem Counts.mono {e : Nat} {R S : Nat → Prop} {o p : Otu} (h : Counts e R o p) (hrs : ∀ a, R a → S a) : Counts e S o p :=
  ⟨h.frame, h.step, h.eng, h.others, fun a ha => h.regs a fun hr => ha (hrs a hr), h.shown⟩

theorem Counts.foldl {α : Type} {e : Nat} {R : Nat → Prop} {f : Otu → α → Otu} (l : List α) (h : ∀ o, ∀ x ∈ l, Counts e R o (f o x)) (o : Otu) :
    Counts e R o (l.foldl f o) := by
  induction l generalizing o with
  | nil => exact .refl e R o
  | cons x r ih => exact (h o x (.head r)).trans (ih (fun o y hy => h o y (.tail x hy)) _)

theorem Counts.lt {e : Nat} {R : Nat → Prop} {o p : Otu} (h : Counts e R o p) : p.lt = o.lt := by rw [h.frame]

/-- What counting does not note in the engine's state it keeps. -/
theorem Counts.keeps {α : Type} {e : Nat} {R : Nat → Prop} {o p : Otu} (h : Counts e R o p) (f : EngSt → α) (hf : ∀ x, f (unnoted x) = f x) :
    f (p.eng e) = f (o.eng e) := by rw [← hf, h.eng, hf]

theorem setEng_counts (e : Nat) (R : Nat → Prop) (o : Otu) (x : EngSt) (h : unnoted x = unnoted (o.eng e)) : Counts e R o (o.setEng e x) :=
  ⟨rfl, rfl, (congrArg unnoted (Otu.eng_setEng o e x)).trans h, fun _ hm => Otu.eng_setEng_ne o x hm.symm, fun _ _ => rfl, id⟩

theorem dctrAdd_counts (e : Nat) (R : Nat → Prop) (o : Otu) (i n : Nat) : Counts e R o (o.dctrAdd i n) :=
  ⟨rfl, rfl, rfl, fun _ _ => rfl, fun _ _ => rfl, id⟩

theorem ctrSet_same (o : Otu) (e c v : Nat) : OtuR.get (o.ctrSet e c v) (OTU_ENG_CTR e c) = v % 2 ^ 64 := OtuR.get_touch_same o _ _

theorem ctrSet_ne (o : Otu) {e c a : Nat} (v : Nat) (h : a ≠ OTU_ENG_CTR e c) : OtuR.get (o.ctrSet e c v) a = OtuR.get o a :=
  OtuR.get_touch_ne o _ h.symm

@[simp] theorem setEng_get (o : Otu) (e : Nat) (x : EngSt) (a : Nat) : OtuR.get (o.setEng e x) a = OtuR.get o a := rfl

theorem ctrSet_counts {e c : Nat} (he : e < 512) (hc : c < 32) (o : Otu) (v : Nat) : Counts e (wordRegs e c) o (o.ctrSet e c v) :=
  ⟨rfl, rfl, rfl, fun _ _ => rfl, fun _ ha => ctrSet_ne o v fun h => ha (.inr h),
    (flag_of_get (ctrSet_ne o v (ctr_ne_events he hc).symm) 1).trans⟩

theorem wrapped_counts (e c : Nat) (o : Otu) : Counts e (wordRegs e c) o (o.wrapped e c) :=
  ⟨rfl, rfl, rfl, fun _ _ => rfl, fun _ ha => OtuR.get_ev_ne { o with cyc := { o.cyc with wraps := (e, c) :: o.cyc.wraps } } 1 fun h => ha (.inl h.symm),
    fun _ => OtuR.flag_ev _ _ 1 (by decide)⟩

theorem ctrAdd_counts {e c : Nat} (he : e < 512) (hc : c < 32) (o : Otu) (n : Nat) : Counts e (wordRegs e c) o (o.ctrAdd e c n) := by
  simp only [Otu.ctrAdd]
  split
  · exact .refl _ _ o
  · split
    · exact (ctrSet_counts he hc o _).trans (wrapped_counts e c _)
    · exact ctrSet_counts he hc o _

theorem pmcAdd_counts {e c : Nat} (he : e < 512) (hc : c < 32) (o : Otu) (n : Nat) : Counts e (wordRegs e c) o (o.pmcAdd e c n) := by
  have hstart (m : List (Nat × Nat)) : Counts e (wordRegs e c) o (o.setEng e { o.eng e with startOld := m }) := setEng_counts e _ o _ rfl
  simp only [Otu.pmcAdd]
  split
  · exact .refl _ _ o
  · split
    · split
      · split
        · exact (hstart _).trans ((ctrSet_counts he hc _ _).trans (wrapped_counts e c _))
        · exact hstart _
      · exact ctrAdd_counts he hc o n
    · exact ctrAdd_counts he hc o n

theorem unnoted_roll (x : EngSt) (lt : Nat) : unnoted (x.roll lt) = unnoted x := by
  unfold EngSt.roll
  split <;> rfl

theorem pmcTap_counts {e k : Nat} (he : e < 512) (hk : k < 8) (o : Otu) (n : Nat) : Counts e (wordRegs e (k + 1)) o (o.pmcTap e k n) := by
  refine .trans ?_ (pmcAdd_counts he (show k + 1 < 32 by omega) _ _)
  exact setEng_counts e _ o _ (unnoted_roll (o.eng e) o.lt)

theorem pmcRepeat_counts {e k : Nat} (he : e < 512) (hk : k < 8) (o : Otu) (n : Nat) : Counts e (wordRegs e (k + 1)) o (o.pmcRepeat e k n) := by
  rw [Otu.pmcRepeat]
  split
  · exact .refl _ _ o
  · refine .trans ?_ (pmcAdd_counts he (show k + 1 < 32 by omega) _ _)
    exact setEng_counts e _ o _ rfl

/-- Events at the taps count in the PMCs alone. -/
theorem tap_counts {e : Nat} (he : e < 512) (o : Otu) (cls level n : Nat) : Counts e (pmcRegs e) o (o.tap e cls level n) := by
  rw [Otu.tap]
  split
  · exact .refl _ _ o
  · refine .foldl _ (fun p k hk => ?_) o
    have hk8 : k < 8 := List.mem_range.1 (List.mem_of_mem_filter hk)
    exact (pmcTap_counts he hk8 p n).mono (wordRegs_pmc e hk8)

/-- Events that no PMC counts leave no trace. -/
theorem tap_uncounted (o : Otu) (e cls level n : Nat) (h : ∀ k, k < 8 → o.pmcCounts e k cls level = false) : o.tap e cls level n = o := by
  rw [Otu.tap]
  split
  · rfl
  · rw [List.filter_eq_nil_iff.2 fun k hk => by rw [h k (List.mem_range.1 hk)]; exact Bool.false_ne_true, List.foldl_nil]

/-! ### What the event selection depends on (04 R102 to R106) -/

/-- `p` selects events at engine `e` as `o` does. -/
structure SameSelection (e : Nat) (o p : Otu) : Prop where
  lt : p.lt = o.lt
  clk : p.clk = o.clk
  period : p.period = o.period
  grants : p.grants = o.grants
  step : p.cyc.step = o.cyc.step
  evAt : (p.eng e).evAt = (o.eng e).evAt
  evOld : (p.eng e).evOld = (o.eng e).evOld
  admits : (p.eng e).admits = (o.eng e).admits
  evsel : ∀ k, k < 8 → OtuR.get p (OTU_ENG_EVSEL e k) = OtuR.get o (OTU_ENG_EVSEL e k)

theorem Counts.selection {e : Nat} (he : e < 512) {o p : Otu} (h : Counts e (ctrRegs e) o p) : SameSelection e o p where
  lt := by rw [h.frame]
  clk := by rw [h.frame]
  period := by rw [h.frame]
  grants := by rw [h.frame]
  step := h.step
  evAt := h.keeps EngSt.evAt fun _ => rfl
  evOld := h.keeps EngSt.evOld fun _ => rfl
  admits := h.keeps EngSt.admits fun _ => rfl
  evsel := fun k hk => h.regs _ (not_ctrRegs he (by unfold OTU_ENG_EVSEL; omega) (by unfold OTU_ENG_EVSEL; omega))

theorem SameSelection.evLatched {e k : Nat} {o p : Otu} (h : SameSelection e o p) (hk : k < 8) : p.evLatched e k = o.evLatched e k := by
  simp only [Otu.evLatched, hk, if_true, h.lt, h.evAt, h.evOld, h.evsel k hk]

theorem SameSelection.admitted {e : Nat} {o p : Otu} (h : SameSelection e o p) (key : Nat) : p.admitted e key = o.admitted e key := by
  simp only [Otu.admitted, Otu.ftBefore, Otu.grant, h.lt, h.clk, h.period, h.grants, h.step, h.admits]

theorem SameSelection.plNow {e k : Nat} {o p : Otu} (h : SameSelection e o p) (hk : k < 8) : p.plNow e k = o.plNow e k := by
  simp only [Otu.plNow, h.evLatched hk, h.admitted]

theorem SameSelection.plFor {e k : Nat} {o p : Otu} (h : SameSelection e o p) (hk : k < 8) : p.plFor e k = o.plFor e k := by
  simp only [Otu.plFor, h.evLatched hk, h.admitted, h.plNow hk]

theorem SameSelection.pmcCounts {e k : Nat} {o p : Otu} (h : SameSelection e o p) (hk : k < 8) (cls level : Nat) :
    p.pmcCounts e k cls level = o.pmcCounts e k cls level := by
  simp only [Otu.pmcCounts, h.evLatched hk, h.plNow hk]

end Sys2Proof.Machine.EngineCounters
end

section
namespace Sys2Proof.Machine.EngineCounters
open Sys2Proof Sys2Proof.Machine.FleetTime Sys2Proof.Machine.Accords

/-! ### Counter words (04 R107) -/

/-- R107: what the addition of `n` leaves of a word of width `w`; nothing is added where nothing counts. -/
def counted (w word n : Nat) : Nat := if n = 0 then word else (addWord w word n).1

theorem ctrWidth_cases (c : Nat) : ctrWidth c = 64 ∨ ctrWidth c ≤ 48 := by
  unfold ctrWidth
  split
  · exact .inl rfl
  · split
    · exact .inr (by decide)
    · exact .inr (by decide)

/-- The value and the sticky bit of a counter word. -/
theorem word_parts {w v : Nat} (hw : w ≤ 48) (hv : v < 2 ^ w) (b : Bool) :
    getF (v + if b then 2 ^ 63 else 0) 0 w = v ∧ bit (v + if b then 2 ^ 63 else 0) 63 = b := by
  have hlt : v < 2 ^ 63 := Nat.lt_of_lt_of_le hv (Nat.pow_le_pow_right (by decide) (by omega))
  have hpow : (2 : Nat) ^ 63 = 2 ^ w * 2 ^ (63 - w) := by rw [← Nat.pow_add]; congr 1; omega
  cases b with
  | false => exact ⟨Nat.mod_eq_of_lt hv, by rw [bit_testBit]; exact Nat.testBit_lt_two_pow hlt⟩
  | true =>
    refine ⟨?_, ?_⟩
    · rw [if_pos rfl, hpow]
      exact (Nat.add_mul_mod_self_left _ _ _).trans (Nat.mod_eq_of_lt hv)
    · rw [if_pos rfl, bit_testBit, Nat.add_comm, Nat.testBit_two_pow_add_eq, Nat.testBit_lt_two_pow hlt]
      rfl

/-- Two additions to a word come to one: its value, its sticky bit, and whether it wrapped. -/
theorem addWord_addWord (c word a b : Nat) :
    (addWord (ctrWidth c) (addWord (ctrWidth c) word a).1 b).1 = (addWord (ctrWidth c) word (a + b)).1 ∧
    (addWord (ctrWidth c) word (a + b)).2 = ((addWord (ctrWidth c) word a).2 || (addWord (ctrWidth c) (addWord (ctrWidth c) word a).1 b).2) := by
  rcases ctrWidth_cases c with hw | hw
  · simp only [hw, addWord, if_true, ← Bool.decide_or, decide_eq_decide]
    omega
  · generalize ctrWidth c = w at hw
    have hpow := Nat.two_pow_pos w
    have h64 : w ≠ 64 := by omega
    simp only [addWord, h64, if_false]
    generalize getF word 0 w = v
    obtain ⟨hval, hbit⟩ := word_parts hw (Nat.mod_lt (v + a) hpow) (decide (2 ^ w ≤ v + a) || bit word 63)
    simp only [ge_iff_le, hval, hbit]
    have hwrap : decide (2 ^ w ≤ v + (a + b)) = (decide (2 ^ w ≤ v + a) || decide (2 ^ w ≤ (v + a) % 2 ^ w + b)) := by
      rw [← Bool.decide_or, decide_eq_decide]
      by_cases h : 2 ^ w ≤ v + a
      · exact iff_of_true (by omega) (.inl h)
      · rw [Nat.mod_eq_of_lt (by omega), Nat.add_assoc]
        exact ⟨.inr, fun h' => h'.resolve_left h⟩
    refine ⟨?_, hwrap⟩
    rw [hwrap, Nat.mod_add_mod, Nat.add_assoc, ← Bool.or_assoc, Bool.or_comm (decide (2 ^ w ≤ (v + a) % 2 ^ w + b))]

/-- A register's word wraps only where something is added. -/
theorem addWord_zero (c word : Nat) (h : word < 2 ^ 64) : (addWord (ctrWidth c) word 0).2 = false := by
  rcases ctrWidth_cases c with hw | hw
  · simp only [hw, addWord, if_true, decide_eq_false_iff_not]
    omega
  · have h64 : ctrWidth c ≠ 64 := by omega
    have := getF_lt word 0 (ctrWidth c)
    simp only [addWord, h64, if_false, decide_eq_false_iff_not]
    omega

theorem addWord_lt (c word n : Nat) : (addWord (ctrWidth c) word n).1 < 2 ^ 64 := by
  rcases ctrWidth_cases c with hw | hw
  · simp only [hw, addWord, if_true]
    omega
  · have h64 : ctrWidth c ≠ 64 := by omega
    have hpow : 2 ^ ctrWidth c ≤ 2 ^ 48 := Nat.pow_le_pow_right (by decide) hw
    have := Nat.mod_lt (getF word 0 (ctrWidth c) + n) (Nat.two_pow_pos (ctrWidth c))
    simp only [addWord, h64, if_false]
    split <;> omega

theorem counted_counted (c word a b : Nat) : counted (ctrWidth c) (counted (ctrWidth c) word a) b = counted (ctrWidth c) word (a + b) := by
  unfold counted
  by_cases ha : a = 0
  · rw [if_pos ha, ha, Nat.zero_add]
  · by_cases hb : b = 0
    · rw [if_neg ha, if_pos hb, hb, Nat.add_zero, if_neg ha]
    · rw [if_neg ha, if_neg hb, if_neg (by omega), (addWord_addWord c word a b).1]

theorem counted_wrap (c word a b : Nat) (h : word < 2 ^ 64) : (addWord (ctrWidth c) word (a + b)).2 =
    ((addWord (ctrWidth c) word a).2 || (addWord (ctrWidth c) (counted (ctrWidth c) word a) b).2) := by
  unfold counted
  by_cases ha : a = 0
  · rw [if_pos ha, ha, addWord_zero c word h, Nat.zero_add, Bool.false_or]
  · rw [if_neg ha, (addWord_addWord c word a b).2]

/-! ### Additions to one counter -/

/-- `p` is `o` with `n` added to counter `c` of engine `e`, its wrap shown in the engine's events. -/
structure Added (e c n : Nat) (o p : Otu) : Prop where
  word : OtuR.get p (OTU_ENG_CTR e c) = counted (ctrWidth c) (OtuR.get o (OTU_ENG_CTR e c)) n
  wrap : (addWord (ctrWidth c) (OtuR.get o (OTU_ENG_CTR e c)) n).2 = true → OtuR.flag p (OTU_ENG_EVENTS e) 1 = true
  shown : OtuR.flag o (OTU_ENG_EVENTS e) 1 = true → OtuR.flag p (OTU_ENG_EVENTS e) 1 = true

theorem Added.trans {e c a b : Nat} {o p q : Otu} (h : Added e c a o p) (k : Added e c b p q) : Added e c (a + b) o q := by
  refine ⟨?_, fun hw => ?_, k.shown ∘ h.shown⟩
  · rw [k.word, h.word, counted_counted]
  · rw [counted_wrap c _ a b (otu_get_lt o _), ← h.word] at hw
    rcases Bool.or_eq_true_iff.1 hw with hw | hw
    · exact k.shown (h.wrap hw)
    · exact k.wrap hw

/-- Counting that does not reach a counter adds nothing to it. -/
theorem Counts.added {e c : Nat} {R : Nat → Prop} {o p : Otu} (h : Counts e R o p) (hr : ¬ R (OTU_ENG_CTR e c)) : Added e c 0 o p :=
  ⟨h.regs _ hr, fun hw => by rw [addWord_zero c _ (otu_get_lt o _)] at hw; exact absurd hw Bool.false_ne_true, h.shown⟩

theorem ctrAdd_added {e c : Nat} (he : e < 512) (hc : c < 32) (o : Otu) (n : Nat) : Added e c n o (o.ctrAdd e c n) := by
  by_cases hn : n = 0
  · rw [Otu.ctrAdd, if_pos hn, hn]
    exact (Counts.refl e (fun _ => False) o).added id
  · refine ⟨?_, fun hw => ?_, (ctrAdd_counts he hc o n).shown⟩
    · rw [counted, if_neg hn, Otu.ctrAdd, if_neg hn, ← Nat.mod_eq_of_lt (addWord_lt c _ n), ← ctrSet_same o]
      simp only
      split
      · exact OtuR.get_ev_ne _ 1 (ctr_ne_events he hc).symm
      · rfl
    · rw [Otu.ctrAdd, if_neg hn]
      simp only [hw, if_true]
      exact OtuR.flag_ev _ _ 1 (by decide)

theorem ctrAdd_added_ne {e c d : Nat} (he : e < 512) (hc : c < 32) (hd : d < 32) (hcd : d ≠ c) (o : Otu) (n : Nat) : Added e d 0 o (o.ctrAdd e c n) := by
  refine (ctrAdd_counts he hc o n).added ?_
  rintro (h | h)
  · exact ctr_ne_events he hd h
  · exact ctr_ne_ctr e hcd h

/-- What a list of counters and amounts gives counter `c`. -/
def amountOf (c : Nat) : List (Nat × Nat) → Nat
  | [] => 0
  | x :: r => (if x.1 = c then x.2 else 0) + amountOf c r

theorem foldl_ctrAdd_added {e c : Nat} (he : e < 512) (hc : c < 32) (l : List (Nat × Nat)) (hl : ∀ x ∈ l, x.1 < 32) (o : Otu) :
    Added e c (amountOf c l) o (l.foldl (fun o x => o.ctrAdd e x.1 x.2) o) := by
  induction l generalizing o with
  | nil => exact (Counts.refl e (fun _ => False) o).added id
  | cons x r ih =>
    have hx : Added e c (if x.1 = c then x.2 else 0) o (o.ctrAdd e x.1 x.2) := by
      split
      · next h => exact h ▸ ctrAdd_added he (hl x (.head r)) o x.2
      · next h => exact ctrAdd_added_ne he (hl x (.head r)) hc (Ne.symm h) o x.2
    exact hx.trans (ih (fun y hy => hl y (.tail x hy)) _)

/-! ### The cycles of an ACTIVE engine (04 R97, R98, R108 to R111) -/

/-- R97, R98: what `n` cycles with slots `l` add to the fixed counters of an engine of kind `kind`. -/
def slotAdds (l : Slots) (kind n : Nat) : List (Nat × Nat) :=
  [(0, n), (9, n * l.count 0), (10, n * l.count 1), (11, n * l.count 2), (12, n * l.count 3), (13 + l.activity, n)] ++
    if l.activity = 1 then [(16 + l.reason kind, n)] else []

theorem activity_le (l : Slots) : l.activity ≤ 2 := by
  unfold Slots.activity
  split
  · decide
  · split <;> decide

theorem reason_le (l : Slots) (kind : Nat) : l.reason kind ≤ 15 := by
  unfold Slots.reason
  generalize l.foldl _ 0 = m
  simp only
  cases h : (setBits 15 (m &&& reasonMask kind)).head? with
  | none => exact Nat.le_refl 15
  | some r =>
    have hr := List.mem_range.1 (List.mem_of_mem_filter (List.mem_of_mem_head? h))
    exact Nat.le_of_lt hr

theorem slotAdds_lt (l : Slots) (kind n : Nat) : ∀ x ∈ slotAdds l kind n, x.1 < 32 := by
  have ha := activity_le l
  have hr := reason_le l kind
  intro x hx
  rcases List.mem_append.1 hx with hx | hx
  · simp only [List.mem_cons, List.not_mem_nil, or_false] at hx
    rcases hx with rfl | rfl | rfl | rfl | rfl | rfl <;> simp only <;> omega
  · split at hx
    · rw [List.mem_singleton.1 hx]
      simp only
      omega
    · exact absurd hx List.not_mem_nil

theorem amountOf_slotAdds (l : Slots) (kind n c : Nat) : amountOf c (slotAdds l kind n) =
    (if 0 = c then n else 0) + ((if 9 = c then n * l.count 0 else 0) + ((if 10 = c then n * l.count 1 else 0) +
      ((if 11 = c then n * l.count 2 else 0) + ((if 12 = c then n * l.count 3 else 0) + ((if 13 + l.activity = c then n else 0) +
        if l.activity = 1 ∧ 16 + l.reason kind = c then n else 0))))) := by
  unfold slotAdds
  by_cases h : l.activity = 1
  · simp only [h, if_true, List.cons_append, List.nil_append, amountOf, Nat.add_zero, true_and]
  · simp only [h, if_false, List.append_nil, amountOf, Nat.add_zero, false_and]

/-- CYCLES counts each cycle. -/
theorem slotAdds_cycles (l : Slots) (kind n : Nat) : amountOf 0 (slotAdds l kind n) = n := by
  rw [amountOf_slotAdds, if_pos rfl, if_neg (show ¬ 13 + l.activity = 0 by omega), if_neg (show ¬ (l.activity = 1 ∧ 16 + l.reason kind = 0) by omega)]
  rfl

/-- The slot counters count the slots of their class. -/
theorem slotAdds_slots (l : Slots) (kind n : Nat) {j : Nat} (hj : j < 4) : amountOf (9 + j) (slotAdds l kind n) = n * l.count j := by
  rw [amountOf_slotAdds, if_neg (show ¬ 13 + l.activity = 9 + j by omega), if_neg (show ¬ (l.activity = 1 ∧ 16 + l.reason kind = 9 + j) by omega)]
  obtain rfl | rfl | rfl | rfl : j = 0 ∨ j = 1 ∨ j = 2 ∨ j = 3 := by omega
  all_goals simp

/-- Of BUSY, STALL and IDLE the one that the slots give counts. -/
theorem slotAdds_activity (l : Slots) (kind n : Nat) {j : Nat} (hj : j < 3) :
    amountOf (13 + j) (slotAdds l kind n) = if l.activity = j then n else 0 := by
  rw [amountOf_slotAdds, if_neg (show ¬ (l.activity = 1 ∧ 16 + l.reason kind = 13 + j) by omega)]
  simp only [Nat.add_left_cancel_iff, show ¬ 0 = 13 + j by omega, show ¬ 9 = 13 + j by omega, show ¬ 10 = 13 + j by omega,
    show ¬ 11 = 13 + j by omega, show ¬ 12 = 13 + j by omega, if_false, Nat.zero_add, Nat.add_zero]

/-- In a stall its one reason counts. -/
theorem slotAdds_reason (l : Slots) (kind n j : Nat) :
    amountOf (16 + j) (slotAdds l kind n) = if l.activity = 1 ∧ l.reason kind = j then n else 0 := by
  have ha := activity_le l
  rw [amountOf_slotAdds, if_neg (show ¬ 13 + l.activity = 16 + j by omega)]
  simp only [Nat.add_left_cancel_iff, show ¬ 0 = 16 + j by omega, show ¬ 9 = 16 + j by omega, show ¬ 10 = 16 + j by omega,
    show ¬ 11 = 16 + j by omega, show ¬ 12 = 16 + j by omega, if_false, Nat.zero_add]

/-- No slot adds to a PMC. -/
theorem slotAdds_pmc (l : Slots) (kind n : Nat) {k : Nat} (hk : k < 8) : amountOf (k + 1) (slotAdds l kind n) = 0 := by
  rw [amountOf_slotAdds, if_neg (show ¬ 13 + l.activity = k + 1 by omega), if_neg (show ¬ (l.activity = 1 ∧ 16 + l.reason kind = k + 1) by omega)]
  simp only [show ¬ 0 = k + 1 by omega, show ¬ 9 = k + 1 by omega, show ¬ 10 = k + 1 by omega, show ¬ 11 = k + 1 by omega,
    show ¬ 12 = k + 1 by omega, if_false]

/-- R71: a stall for CANARY_ABORT counts at the die too. -/
def abortNoted (o : Otu) (e : Nat) (l : Slots) (n : Nat) : Otu :=
  if l.activity = 1 && l.reason (engKind e) = 0 then o.dctrAdd 0x44 n else o

/-- R113: the engine notes its last BUSY cycle. -/
def busyNoted (o : Otu) (e : Nat) (l : Slots) : Otu :=
  if l.activity = 0 then o.setEng e { o.eng e with busyAt := some o.lt } else o

/-- The fixed counters of `n` cycles, and what else their slots leave. -/
def slotsCounted (o : Otu) (e : Nat) (l : Slots) (n : Nat) : Otu :=
  busyNoted (abortNoted ((slotAdds l (engKind e) n).foldl (fun o x => o.ctrAdd e x.1 x.2) o) e l n) e l

/-- R104: PMC_k in `n` cycles with slots `l`. -/
def pmcCycles (e : Nat) (c : EngCycle) (l : Slots) (n : Nat) (o : Otu) (k : Nat) : Otu :=
  (o.pmcTap e k (o.xNow e c l (getF (o.evLatched e k) 0 16) (o.plFor e k))).pmcRepeat e k (n - 1)

theorem slotCycles_eq (o : Otu) (e : Nat) (c : EngCycle) (l : Slots) {n : Nat} (hn : n ≠ 0) (hst : (o.eng e).st.inForce o.lt = 0) :
    o.slotCycles e c l n = (List.range 8).foldl (pmcCycles e c l n) (slotsCounted o e l n) := by
  have hactive : (decide (n = 0) || decide ((o.eng e).st.inForce o.lt ≠ 0)) = false := by simp [hn, hst]
  have hreason (p : Otu) : (if l.activity = 1 then [(16 + l.reason (engKind e), n)] else []).foldl (fun o x => o.ctrAdd e x.1 x.2) p =
      if l.activity = 1 then p.ctrAdd e (16 + l.reason (engKind e)) n else p := by split <;> rfl
  rw [Otu.slotCycles, hactive, if_neg Bool.false_ne_true, slotsCounted, slotAdds, List.foldl_append, hreason]
  rfl

/-- With no cycle nothing counts. -/
theorem slotCycles_zero (o : Otu) (e : Nat) (c : EngCycle) (l : Slots) : o.slotCycles e c l 0 = o := rfl

theorem abortNoted_counts (o : Otu) (e : Nat) (R : Nat → Prop) (l : Slots) (n : Nat) : Counts e R o (abortNoted o e l n) := by
  rw [abortNoted]
  split
  · exact dctrAdd_counts e R o _ n
  · exact .refl e R o

theorem busyNoted_counts (o : Otu) (e : Nat) (R : Nat → Prop) (l : Slots) : Counts e R o (busyNoted o e l) := by
  rw [busyNoted]
  split
  · exact setEng_counts e R o _ rfl
  · exact .refl e R o

theorem slotNotes_counts (o : Otu) (e : Nat) (R : Nat → Prop) (l : Slots) (n : Nat) : Counts e R o (busyNoted (abortNoted o e l n) e l) :=
  (abortNoted_counts o e R l n).trans (busyNoted_counts _ e R l)

theorem slotsCounted_counts {e : Nat} (he : e < 512) (o : Otu) (l : Slots) (n : Nat) : Counts e (ctrRegs e) o (slotsCounted o e l n) := by
  refine (Counts.foldl _ (fun p x hx => ?_) o).trans (slotNotes_counts _ e _ l n)
  have hx32 := slotAdds_lt l _ n x hx
  exact (ctrAdd_counts he hx32 p x.2).mono (wordRegs_ctr e hx32)

theorem slotsCounted_added {e c : Nat} (he : e < 512) (hc : c < 32) (o : Otu) (l : Slots) (n : Nat) :
    Added e c (amountOf c (slotAdds l (engKind e) n)) o (slotsCounted o e l n) :=
  (foldl_ctrAdd_added he hc _ (slotAdds_lt l _ n) o).trans ((slotNotes_counts _ e (fun _ => False) l n).added id)

theorem pmcCycles_counts {e k : Nat} (he : e < 512) (hk : k < 8) (c : EngCycle) (l : Slots) (n : Nat) (o : Otu) :
    Counts e (wordRegs e (k + 1)) o (pmcCycles e c l n o k) := (pmcTap_counts he hk o _).trans (pmcRepeat_counts he hk _ _)

theorem foldl_pmcCycles_counts {e : Nat} (he : e < 512) (c : EngCycle) (l : Slots) (n : Nat) (o : Otu) :
    Counts e (pmcRegs e) o ((List.range 8).foldl (pmcCycles e c l n) o) :=
  .foldl _ (fun p _ hk => (pmcCycles_counts he (List.mem_range.1 hk) c l n p).mono (wordRegs_pmc e (List.mem_range.1 hk))) o

theorem slotCycles_counts {e : Nat} (he : e < 512) (o : Otu) (c : EngCycle) (l : Slots) (n : Nat) (hst : (o.eng e).st.inForce o.lt = 0) :
    Counts e (ctrRegs e) o (o.slotCycles e c l n) := by
  by_cases hn : n = 0
  · rw [hn, slotCycles_zero]
    exact .refl _ _ o
  · rw [slotCycles_eq o e c l hn hst]
    exact (slotsCounted_counts he o l n).trans ((foldl_pmcCycles_counts he c l n _).mono (pmcRegs_ctr e))

theorem slotAdds_none (l : Slots) (kind c : Nat) : amountOf c (slotAdds l kind 0) = 0 := by simp only [amountOf_slotAdds, Nat.zero_mul, ite_self, Nat.add_zero]

/-- `n` cycles add to each fixed counter what their slots give. -/
theorem slotCycles_added {e d : Nat} (he : e < 512) (hd : d < 32) (hf : d = 0 ∨ 9 ≤ d) (o : Otu) (c : EngCycle) (l : Slots) (n : Nat)
    (hst : (o.eng e).st.inForce o.lt = 0) : Added e d (amountOf d (slotAdds l (engKind e) n)) o (o.slotCycles e c l n) := by
  by_cases hn : n = 0
  · rw [hn, slotCycles_zero, slotAdds_none]
    exact (Counts.refl e (fun _ => False) o).added id
  · rw [slotCycles_eq o e c l hn hst]
    exact (slotsCounted_added he hd o l n).trans ((foldl_pmcCycles_counts he c l n _).added (fixed_not_pmcRegs he hd hf))

end Sys2Proof.Machine.EngineCounters
end

section
namespace Sys2Proof.Machine.EngineCounters
open Sys2Proof Sys2Proof.Machine.FleetTime Sys2Proof.Machine.Accords

/-! ### One cycle in a PMC (04 R100, R104) -/

/-- R100: without a command start or a PMC write in the cycle an addition to a PMC is a plain one. -/
theorem pmcAdd_plain (o : Otu) (e c n : Nat) (hs : (o.eng e).startAt ≠ o.lt) (hp : (o.eng e).pmcAt ≠ o.lt) : o.pmcAdd e c n = o.ctrAdd e c n := by
  simp only [Otu.pmcAdd, hs, hp, decide_false, Bool.false_and, Bool.or_false, decide_eq_true_eq, if_false]
  split
  · next hn => rw [Otu.ctrAdd, if_pos hn]
  · rfl

theorem ctrAdd_eng (o : Otu) (e c n m : Nat) : (o.ctrAdd e c n).eng m = o.eng m := (ctrAdd_regs o e c n).eng m

/-- No mode of event selection adds anything for an x of 0. -/
theorem evAmount_zero (v p : Nat) : evAmount v p 0 = 0 := by
  unfold evAmount
  simp only
  split <;> simp [b2n]

/-- What the accumulation of x(t) holds once PMC_k has taken `n`. -/
def tapped (x : EngSt) (lt k n : Nat) : EngSt :=
  { x.roll lt with xs := Tbl.put (fun _ => 0) (x.roll lt).xs k (Tbl.get (fun _ => 0) (x.roll lt).xs k + n) }

theorem roll_roll (x : EngSt) (lt k n : Nat) : (tapped x lt k n).roll lt = tapped x lt k n := by
  have h : (tapped x lt k n).xAt = lt := by
    simp only [tapped, EngSt.roll]
    split
    · assumption
    · rfl
  rw [EngSt.roll, if_pos h]

theorem pmcTap_eq (o : Otu) (e k n : Nat) : o.pmcTap e k n = (o.setEng e (tapped (o.eng e) o.lt k n)).pmcAdd e (k + 1)
    (evAmount (o.evLatched e k) (Tbl.get (fun _ => 0) ((o.eng e).roll o.lt).xprev k) (Tbl.get (fun _ => 0) ((o.eng e).roll o.lt).xs k + n) -
      evAmount (o.evLatched e k) (Tbl.get (fun _ => 0) ((o.eng e).roll o.lt).xprev k) (Tbl.get (fun _ => 0) ((o.eng e).roll o.lt).xs k)) := rfl

/-- Engine `e` in a cycle in which no command started and no PMC write was made. -/
structure PlainCycle (e : Nat) (o : Otu) : Prop where
  start : (o.eng e).startAt ≠ o.lt
  pmc : (o.eng e).pmcAt ≠ o.lt

theorem Counts.plainCycle {e : Nat} {R : Nat → Prop} {o p : Otu} (h : Counts e R o p) (k : PlainCycle e o) : PlainCycle e p :=
  ⟨by rw [h.keeps EngSt.startAt fun _ => rfl, h.lt]; exact k.start, by rw [h.keeps EngSt.pmcAt fun _ => rfl, h.lt]; exact k.pmc⟩

theorem tapped_plain {e : Nat} {o : Otu} (h : PlainCycle e o) (k n : Nat) : PlainCycle e (o.setEng e (tapped (o.eng e) o.lt k n)) :=
  (setEng_counts e (fun _ => False) o (tapped (o.eng e) o.lt k n) (unnoted_roll (o.eng e) o.lt)).plainCycle h

theorem pmcTap_eng {e : Nat} {o : Otu} (h : PlainCycle e o) (k n : Nat) : (o.pmcTap e k n).eng e = tapped (o.eng e) o.lt k n := by
  have ht := tapped_plain h k n
  rw [pmcTap_eq, pmcAdd_plain _ e _ _ ht.start ht.pmc, ctrAdd_eng, Otu.eng_setEng]

/-- The first x of a cycle at PMC_k adds what its event selection gives. -/
theorem pmcTap_word {e k : Nat} (he : e < 512) (hk : k < 8) {o : Otu} (h : PlainCycle e o) (n : Nat)
    (hx : Tbl.get (fun _ => 0) ((o.eng e).roll o.lt).xs k = 0) : OtuR.get (o.pmcTap e k n) (OTU_ENG_CTR e (k + 1)) =
      counted (ctrWidth (k + 1)) (OtuR.get o (OTU_ENG_CTR e (k + 1)))
        (evAmount (o.evLatched e k) (Tbl.get (fun _ => 0) ((o.eng e).roll o.lt).xprev k) n) := by
  have ht := tapped_plain h k n
  rw [pmcTap_eq, pmcAdd_plain _ e _ _ ht.start ht.pmc, (ctrAdd_added he (show k + 1 < 32 by omega) _ _).word, hx, Nat.zero_add, evAmount_zero, Nat.sub_zero]
  rfl

/-- What one cycle gives the x of class `cls` depends on the engine's queue, its commands and its slots alone. -/
theorem xNow_congr {e : Nat} {o p : Otu} (hq : p.queues = o.queues) (hl : (p.eng e).level = (o.eng e).level) (hr : (p.eng e).running = (o.eng e).running)
    (c : EngCycle) (l : Slots) (cls pl : Nat) : p.xNow e c l cls pl = o.xNow e c l cls pl := by
  simp only [Otu.xNow, Otu.queue, hq, hl, hr]

/-- What one cycle with slots `l` gives PMC_k. -/
def pmcX (o : Otu) (e : Nat) (c : EngCycle) (l : Slots) (k : Nat) : Nat := o.xNow e c l (getF (o.evLatched e k) 0 16) (o.plFor e k)

theorem pmcCycles_one (e : Nat) (c : EngCycle) (l : Slots) (o : Otu) (k : Nat) : pmcCycles e c l 1 o k = o.pmcTap e k (pmcX o e c l k) := rfl

theorem Counts.pmcX {e k : Nat} (he : e < 512) (hk : k < 8) {o p : Otu} (h : Counts e (ctrRegs e) o p) (c : EngCycle) (l : Slots) :
    pmcX p e c l k = pmcX o e c l k := by
  have hsel := h.selection he
  rw [EngineCounters.pmcX, EngineCounters.pmcX, hsel.evLatched hk, hsel.plFor hk]
  exact xNow_congr (by rw [h.frame]) (h.keeps EngSt.level fun _ => rfl) (h.keeps EngSt.running fun _ => rfl) c l _ _

/-- What an earlier PMC's tap leaves to PMC_k of the accumulation. -/
theorem tapped_other (x : EngSt) (lt n : Nat) {j k : Nat} (h : j ≠ k) :
    Tbl.get (fun _ => 0) ((tapped x lt j n).roll lt).xs k = Tbl.get (fun _ => 0) (x.roll lt).xs k ∧ ((tapped x lt j n).roll lt).xprev = (x.roll lt).xprev := by
  rw [roll_roll]
  exact ⟨Tbl.get_put_ne _ _ _ h, rfl⟩

theorem foldl_pmcCycles_kept {e k : Nat} (he : e < 512) (hk : k < 8) (c : EngCycle) (l : Slots) (ks : List Nat) (h8 : ∀ j ∈ ks, j < 8) (hn : k ∉ ks) (o : Otu) :
    OtuR.get (ks.foldl (pmcCycles e c l 1) o) (OTU_ENG_CTR e (k + 1)) = OtuR.get o (OTU_ENG_CTR e (k + 1)) := by
  refine (Counts.foldl (e := e) (R := fun a => a ≠ OTU_ENG_CTR e (k + 1)) ks (fun p j hj => ?_) o).regs _ fun h => h rfl
  refine (pmcCycles_counts he (h8 j hj) c l 1 p).mono fun a ha => ?_
  rcases ha with rfl | rfl
  · exact (ctr_ne_events he (show k + 1 < 32 by omega)).symm
  · exact ctr_ne_ctr e fun hjk => hn (Nat.add_right_cancel hjk ▸ hj)

/-- One cycle in each of some PMCs: PMC_k adds what its event selection gives for its x. -/
theorem foldl_pmcCycles_word {e k : Nat} (he : e < 512) (hk : k < 8) (c : EngCycle) (l : Slots) (ks : List Nat) (h8 : ∀ j ∈ ks, j < 8)
    (hmem : k ∈ ks) (hnd : ks.Nodup) {o : Otu} (h : PlainCycle e o) (hx : Tbl.get (fun _ => 0) ((o.eng e).roll o.lt).xs k = 0) :
    OtuR.get (ks.foldl (pmcCycles e c l 1) o) (OTU_ENG_CTR e (k + 1)) = counted (ctrWidth (k + 1)) (OtuR.get o (OTU_ENG_CTR e (k + 1)))
      (evAmount (o.evLatched e k) (Tbl.get (fun _ => 0) ((o.eng e).roll o.lt).xprev k) (pmcX o e c l k)) := by
  induction ks generalizing o with
  | nil => exact absurd hmem List.not_mem_nil
  | cons j r ih =>
    have hr8 : ∀ i ∈ r, i < 8 := fun i hi => h8 i (.tail j hi)
    obtain ⟨hjr, hndr⟩ := List.nodup_cons.1 hnd
    rw [List.foldl_cons, pmcCycles_one]
    by_cases hjk : j = k
    · subst hjk
      rw [foldl_pmcCycles_kept he hk c l r hr8 hjr, pmcTap_word he hk h _ hx]
    · have hj8 := h8 j (.head r)
      have hword := pmcTap_counts he hj8 o (pmcX o e c l j)
      have hcounts := hword.mono (wordRegs_ctr e (show j + 1 < 32 by omega))
      obtain ⟨hxs, hxprev⟩ := tapped_other (o.eng e) o.lt (pmcX o e c l j) hjk
      have hkept : OtuR.get (o.pmcTap e j (pmcX o e c l j)) (OTU_ENG_CTR e (k + 1)) = OtuR.get o (OTU_ENG_CTR e (k + 1)) := by
        refine hword.regs _ ?_
        rintro (h' | h')
        · exact ctr_ne_events he (show k + 1 < 32 by omega) h'
        · exact ctr_ne_ctr e (show k + 1 ≠ j + 1 by omega) h'
      have heng := pmcTap_eng h j (pmcX o e c l j)
      rw [ih hr8 ((List.mem_cons.1 hmem).resolve_left (Ne.symm hjk)) hndr (hcounts.plainCycle h) (by rw [heng, hcounts.lt, hxs]; exact hx),
        hkept, (hcounts.selection he).evLatched hk, hcounts.pmcX he hk, heng, hcounts.lt, hxprev]

/-- The slots leave the accumulation of x(t) as it was. -/
theorem slotsCounted_eng (o : Otu) (e : Nat) (l : Slots) (n : Nat) :
    (slotsCounted o e l n).eng e = { o.eng e with busyAt := ((slotsCounted o e l n).eng e).busyAt } := by
  have hadd : ((slotAdds l (engKind e) n).foldl (fun o x => o.ctrAdd e x.1 x.2) o).eng e = o.eng e :=
    (RegsOnly.foldl (fun p (x : Nat × Nat) => ctrAdd_regs p e x.1 x.2) _ o).eng e
  have habort (p : Otu) : (abortNoted p e l n).eng e = p.eng e := by
    rw [abortNoted]
    split <;> rfl
  have hbusy (p : Otu) : (busyNoted p e l).eng e = { p.eng e with busyAt := ((busyNoted p e l).eng e).busyAt } := by
    rw [busyNoted]
    split
    · rw [Otu.eng_setEng]
    · rfl
  rw [slotsCounted]
  refine (hbusy _).trans ?_
  rw [habort, hadd]

theorem roll_busy (x : EngSt) (b : Option Nat) (lt : Nat) : ({ x with busyAt := b } : EngSt).roll lt = { x.roll lt with busyAt := b } := by
  unfold EngSt.roll
  split <;> rfl

/-- One cycle of an ACTIVE engine, the first event of its cycle, adds to PMC_k what its event selection gives. -/
theorem slotCycles_pmc {e k : Nat} (he : e < 512) (hk : k < 8) (o : Otu) (c : EngCycle) (l : Slots) (hst : (o.eng e).st.inForce o.lt = 0)
    (h : PlainCycle e o) (hx : (o.eng e).xAt ≠ o.lt) : OtuR.get (o.slotCycles e c l 1) (OTU_ENG_CTR e (k + 1)) =
      counted 48 (OtuR.get o (OTU_ENG_CTR e (k + 1)))
        (evAmount (o.evLatched e k) (Tbl.get (fun _ => 0) ((o.eng e).roll o.lt).xprev k) (pmcX o e c l k)) := by
  have hcounts := slotsCounted_counts he o l 1
  have hword := (slotsCounted_added he (show k + 1 < 32 by omega) o l 1).word
  have hroll : ((slotsCounted o e l 1).eng e).roll (slotsCounted o e l 1).lt =
      { (o.eng e).roll o.lt with busyAt := ((slotsCounted o e l 1).eng e).busyAt } := by rw [slotsCounted_eng, roll_busy, hcounts.lt]
  have hxs : ((o.eng e).roll o.lt).xs = [] := by rw [EngSt.roll, if_neg hx]
  have hwidth : ctrWidth (k + 1) = 48 := by simp only [ctrWidth, Nat.succ_ne_zero, if_false, show k + 1 < 16 by omega, if_true]
  rw [slotAdds_pmc l _ 1 hk] at hword
  rw [slotCycles_eq o e c l Nat.one_ne_zero hst, foldl_pmcCycles_word he hk c l (List.range 8) (fun j hj => List.mem_range.1 hj)
    (List.mem_range.2 hk) List.nodup_range (hcounts.plainCycle h) (by rw [hroll, hxs]; rfl), hword, (hcounts.selection he).evLatched hk, hcounts.pmcX he hk,
    hroll, hwidth]
  rfl

end Sys2Proof.Machine.EngineCounters
end

section
namespace Sys2Proof.Machine.EngineCounters
open Sys2Proof Sys2Proof.Machine.FleetTime Sys2Proof.Machine.Accords

/-! ### PMC_WRITE (04 R100) -/

/-- R100: the word that a PMC write of `value` leaves of `word`: its 48 bits, and the sticky bit as it was. -/
def pmcWord (word value : Nat) : Nat := value % 2 ^ 48 + if bit word 63 then 2 ^ 63 else 0

theorem pmcWord_lt (word value : Nat) : pmcWord word value < 2 ^ 64 := by
  unfold pmcWord
  split <;> omega

/-- Without a command start in the cycle a PMC write sets the counter, notes itself and counts CFG_EPOCH. -/
theorem pmcWrite_eq (o : Otu) (e k value : Nat) (hs : (o.eng e).startAt ≠ o.lt) : ∃ y, o.pmcWrite e k value =
    ((o.ctrSet e (k + 1) (pmcWord (OtuR.get o (OTU_ENG_CTR e (k + 1))) value)).setEng e y).bumpEpoch e := by
  simp only [Otu.pmcWrite, hs, if_false]
  exact ⟨_, rfl⟩

theorem epoch_ne_ctr {e c : Nat} (he : e < 512) (hc : c < 32) : OTU_ENG_CFG_EPOCH e ≠ OTU_ENG_CTR e c := by
  unfold OTU_ENG_CFG_EPOCH OTU_ENG_CTR; omega

/-- CFG_EPOCH counts one, modulo 2^32. -/
theorem bumpEpoch_epoch (o : Otu) (e : Nat) : OtuR.get (o.bumpEpoch e) (OTU_ENG_CFG_EPOCH e) = (OtuR.get o (OTU_ENG_CFG_EPOCH e) + 1) % 2 ^ 32 := by
  rw [Otu.bumpEpoch, OtuR.get_set_same]
  omega

theorem bumpEpoch_get (o : Otu) {e a : Nat} (h : a ≠ OTU_ENG_CFG_EPOCH e) : OtuR.get (o.bumpEpoch e) a = OtuR.get o a := OtuR.get_set_ne o _ h.symm

theorem pmcWrite_facts {e k : Nat} (he : e < 512) (hk : k < 8) (o : Otu) (value : Nat) (hs : (o.eng e).startAt ≠ o.lt) : ∃ p, o.pmcWrite e k value = p ∧
    p = { o with regs := p.regs, engs := p.engs, cyc := p.cyc } ∧
    OtuR.get p (OTU_ENG_CTR e (k + 1)) = pmcWord (OtuR.get o (OTU_ENG_CTR e (k + 1))) value ∧
    OtuR.get p (OTU_ENG_CFG_EPOCH e) = (OtuR.get o (OTU_ENG_CFG_EPOCH e) + 1) % 2 ^ 32 ∧
    (∀ a, a ≠ OTU_ENG_CTR e (k + 1) → a ≠ OTU_ENG_CFG_EPOCH e → OtuR.get p a = OtuR.get o a) ∧ ∀ m, m ≠ e → p.eng m = o.eng m := by
  obtain ⟨y, hy⟩ := pmcWrite_eq o e k value hs
  have hne : OTU_ENG_CFG_EPOCH e ≠ OTU_ENG_CTR e (k + 1) := epoch_ne_ctr he (by omega)
  refine ⟨_, hy, rfl, ?_, ?_, fun a ha hb => ?_, fun m hm => ?_⟩
  · rw [bumpEpoch_get _ hne.symm, setEng_get, ctrSet_same, Nat.mod_eq_of_lt (pmcWord_lt _ _)]
  · rw [bumpEpoch_epoch, setEng_get, ctrSet_ne o _ hne]
  · rw [bumpEpoch_get _ hb, setEng_get, ctrSet_ne o _ ha]
  · exact Otu.eng_setEng_ne _ y hm.symm

theorem exec_pmcWrite_otu (s : State) (e : Edge) (n k value : Nat) (hv : s.otu.invalid = false) (hn : n < 512) (hk : k < 8) :
    exec (.pmcWrite .otu n k value e) s = .next (s.withOtu ((s.otu.go e).pmcWrite n k value)) := by
  rw [exec_pmcWrite, execPmcWrite, State.onOtu_with s _ hv]
  refine congrArg (fun o => Host.Outcome.next (s.withOtu o)) (if_pos ?_)
  simp [Otu.sees, Path.privileged, hn, hk]

theorem exec_pmcWrite_low (s : State) (e : Edge) (n k value w : Nat) (hv : s.otu.invalid = false) (hk : k < 4) :
    exec (.pmcWrite (.tenant w) n k value e) s = .next (s.withOtu (s.otu.go e)) := by
  rw [exec_pmcWrite, execPmcWrite, State.onOtu_with s _ hv]
  refine congrArg (fun o => Host.Outcome.next (s.withOtu o)) (if_neg ?_)
  simp [Path.privileged, hk]

theorem exec_pmcWrite_owner (s : State) (e : Edge) (n k value w : Nat) (hv : s.otu.invalid = false) (hn : n < 512) (h4 : 4 ≤ k) (h8 : k < 8)
    (hw : (s.otu.go e).winTag w = some (s.otu.eng n).tag) :
    exec (.pmcWrite (.tenant w) n k value e) s = exec (.pmcWrite .otu n k value e) s := by
  rw [exec_pmcWrite_otu s e n k value hv hn h8, exec_pmcWrite, execPmcWrite, State.onOtu_with s _ hv]
  refine congrArg (fun o => Host.Outcome.next (s.withOtu o)) (if_pos ?_)
  have hown : ((s.otu.go e).eng n).tag = (s.otu.eng n).tag := rfl
  simp [Otu.sees, hw, hn, h4, h8, hown]

/-! ### The event selection's row (04 R103, 00 R12, R14) -/

/-- The last address that a row can hold. -/
def rowLast (x : RegRow) : Nat := x.a + (x.n1 - 1) * x.s1 + (x.n2 - 1) * x.s2

/-- A row's registers lie between its first and its last. -/
theorem has_range (x : RegRow) (a : Nat) (h : x.has a = true) : x.a ≤ a ∧ a ≤ rowLast x := by
  simp only [RegRow.has, Bool.and_eq_true, decide_eq_true_eq] at h
  obtain ⟨hlow, ⟨h1, h2⟩, hd⟩ := h
  refine ⟨hlow, ?_⟩
  have hi := Nat.mul_le_mul_right x.s1 (Nat.le_sub_one_of_lt h1)
  have hj := Nat.mul_le_mul_right x.s2 (Nat.le_sub_one_of_lt h2)
  unfold rowLast
  omega

/-- A row of two dimensions holds the registers at its strides. -/
theorem has_at (x : RegRow) {i j : Nat} (hs : 0 < x.s1) (hn : ¬ x.n2 ≤ 1) (hfit : x.n1 * x.s1 ≤ x.s2) (hi : i < x.n1) (hj : j < x.n2) :
    x.has (x.a + i * x.s1 + j * x.s2) = true := by
  have hlt : i * x.s1 < x.s2 := Nat.lt_of_lt_of_le (Nat.mul_lt_mul_of_pos_right hi hs) hfit
  have hmod : (i * x.s1 + j * x.s2) % x.s2 / x.s1 = i := by rw [Nat.add_mul_mod_self_right, Nat.mod_eq_of_lt hlt, Nat.mul_div_cancel _ hs]
  have hdiv : (i * x.s1 + j * x.s2) / x.s2 = j := by rw [Nat.add_mul_div_right _ _ (Nat.zero_lt_of_lt hlt), Nat.div_eq_of_lt hlt, Nat.zero_add]
  simp only [RegRow.has, Nat.add_assoc, Nat.add_sub_cancel_left, Nat.ne_of_gt hs, hn, if_false, hmod, hdiv, hi, hj, decide_true, Bool.and_true,
    decide_eq_true_eq]
  exact Nat.le_add_right _ _

/-- The row of the event selections. -/
def evselRow : RegRow := { a := OTU_ENG_EVSEL 0 0, n1 := 8, s1 := 8, n2 := 512, s2 := 0x80, b := 64, r := 0x1000000000, f := [fr 0 39], whole := true }

/-- The rows before it. -/
def rowsBeforeEvsel : List RegRow := otuRowsA ++ otuRowsB ++ otuRowsC ++ otuRowsD.take 4

theorem otuRows_evsel : otuRows = rowsBeforeEvsel ++ evselRow :: otuRowsD.drop 5 := by
  rw [otuRows, rowsBeforeEvsel, List.append_assoc _ (otuRowsD.take 4)]
  rfl

/-- They keep clear of the engines' control registers. -/
theorem rowsBeforeEvsel_apart : (rowsBeforeEvsel.all fun x => decide (rowLast x < 0x60000) || decide (0x70000 ≤ x.a)) = true := by decide +kernel

theorem rowOf_evsel {e k : Nat} (he : e < 512) (hk : k < 8) : rowOf otuRows (OTU_ENG_EVSEL e k) = some evselRow := by
  rw [rowOf, otuRows_evsel, List.find?_append, List.find?_eq_none.2, Option.none_or, List.find?_cons_of_pos]
  · have haddr : OTU_ENG_EVSEL e k = evselRow.a + k * evselRow.s1 + e * evselRow.s2 := by
      change 0x60000 + 0x80 * e + 8 * k = (0x60000 + 0x80 * 0 + 8 * 0) + k * 8 + e * 0x80
      omega
    rw [haddr]
    exact has_at evselRow (by decide) (by decide) (by decide) hk he
  · intro x hx hhas
    have hrow := List.all_eq_true.1 rowsBeforeEvsel_apart x hx
    obtain ⟨hlow, hhigh⟩ := has_range x _ hhas
    simp only [Bool.or_eq_true, decide_eq_true_eq, OTU_ENG_EVSEL] at hrow hlow hhigh
    omega

/-- What a write of `value` leaves in an event selection. -/
theorem write_evsel {e k : Nat} (he : e < 512) (hk : k < 8) (o : Otu) (value : Nat) : OtuR.write o (OTU_ENG_EVSEL e k) 8 value =
    OtuR.set o (OTU_ENG_EVSEL e k) (setF (OtuR.get o (OTU_ENG_EVSEL e k)) 0 39 (getF (value % 2 ^ 64) 0 39) % 2 ^ 64) := by
  have hacc : accessOf otuRows (OTU_ENG_EVSEL e k) 8 = some (evselRow, OTU_ENG_EVSEL e k, none) := by
    have h8 : OTU_ENG_EVSEL e k % 8 = 0 := by unfold OTU_ENG_EVSEL; omega
    simp only [accessOf, rowOf_evsel he hk, h8, show ¬ (8 = 4) by decide, if_false, if_true]
    rfl
  have hok (v : Nat) : (fr 0 39).ok (getF v 0 39) = true := ok_of_range (by decide) (Nat.zero_le _) (Nat.le_of_lt_succ (getF_lt v 0 39))
  have hwritten (hw old v : Nat) : evselRow.written hw old v = setF old 0 39 (getF v 0 39) % 2 ^ 64 := by
    have hfield := hok v
    simp only [fr] at hfield
    simp only [RegRow.written, RegRow.accepts, evselRow, fr, List.all_cons, List.all_nil, hfield, Bool.or_true, Bool.and_true, if_true,
      List.foldl_cons, List.foldl_nil, Nat.and_zero, Nat.zero_and, Nat.sub_zero, Nat.and_two_pow_sub_one_eq_mod]
  simp only [OtuR.write, regWrite, hacc, wordAsked, hwritten]
  rfl

theorem write_evsel_class {e k : Nat} (he : e < 512) (hk : k < 8) (o : Otu) (value : Nat) :
    OtuR.fld (OtuR.write o (OTU_ENG_EVSEL e k) 8 value) (OTU_ENG_EVSEL e k) 0 16 = getF value 0 16 := by
  rw [write_evsel he hk, OtuR.fld, OtuR.get_set_same]
  refine getF_congr fun i _ hi => ?_
  rw [Nat.mod_mod, Nat.testBit_mod_two_pow, testBit_setF, if_pos (by omega), testBit_getF, Nat.testBit_mod_two_pow]
  simp [show i < 64 by omega, show i < 39 by omega]

/-! ### EVSEL_WRITE (04 R102, R103, R105) -/

/-- `p` is `o` with the state of engine `e` changed. -/
structure OwnState (e : Nat) (o p : Otu) : Prop where
  frame : p = { o with engs := p.engs }
  others : ∀ m, m ≠ e → p.eng m = o.eng m

theorem OwnState.trans {e : Nat} {o p q : Otu} (h : OwnState e o p) (k : OwnState e p q) : OwnState e o q := by
  refine ⟨?_, fun m hm => (k.others m hm).trans (h.others m hm)⟩
  have hq := k.frame
  rw [h.frame] at hq
  exact hq

theorem setEng_own (e : Nat) (o : Otu) (x : EngSt) : OwnState e o (o.setEng e x) := ⟨rfl, fun _ hm => Otu.eng_setEng_ne o x hm.symm⟩

theorem noteAdmit_own (e : Nat) (o : Otu) (key b : Nat) : OwnState e o (o.noteAdmit e key b) := by
  simp only [Otu.noteAdmit]
  split
  · exact ⟨rfl, fun _ _ => rfl⟩
  · exact setEng_own e o _

theorem ite_own {e : Nat} {o p : Otu} (c : Prop) [Decidable c] (h : OwnState e o p) : OwnState e o (if c then p else o) := by
  split
  · exact h
  · exact ⟨rfl, fun _ _ => rfl⟩

/-- An admitted selection is written once the engine has noted what it replaces and what admits it. -/
theorem evselWrite_admitted (o : Otu) (privileged : Bool) (e k value : Nat) (h : o.evselOk privileged e k (o.eng e).tag value = true) :
    ∃ p, OwnState e o p ∧ o.evselWrite privileged e k value = (OtuR.write p (OTU_ENG_EVSEL e k) 8 value).bumpEpoch e := by
  rw [Otu.evselWrite, if_pos h]
  refine ⟨_, ?_, rfl⟩
  refine .trans ?_ (setEng_own e _ _)
  refine .trans ?_ (setEng_own e _ _)
  exact (ite_own _ (noteAdmit_own e o _ _)).trans (ite_own _ (noteAdmit_own e _ _ _))

theorem evselWrite_refused (o : Otu) (privileged : Bool) (e k value : Nat) (h : o.evselOk privileged e k (o.eng e).tag value = false) :
    o.evselWrite privileged e k value = OtuR.ev o (OTU_ENG_EVENTS e) 0 := by rw [Otu.evselWrite, h, if_neg Bool.false_ne_true]

theorem evselWrite_facts {e k : Nat} (he : e < 512) (hk : k < 8) (o : Otu) (value : Nat) (h : o.evselOk true e k (o.eng e).tag value = true) :
    ∃ p, o.evselWrite true e k value = p ∧ p = { o with regs := p.regs, engs := p.engs } ∧ OtuR.fld p (OTU_ENG_EVSEL e k) 0 16 = getF value 0 16 ∧
      OtuR.get p (OTU_ENG_CFG_EPOCH e) = (OtuR.get o (OTU_ENG_CFG_EPOCH e) + 1) % 2 ^ 32 ∧
      (∀ a, a ≠ OTU_ENG_EVSEL e k → a ≠ OTU_ENG_CFG_EPOCH e → OtuR.get p a = OtuR.get o a) ∧ ∀ m, m ≠ e → p.eng m = o.eng m := by
  obtain ⟨q, hq, heq⟩ := evselWrite_admitted o true e k value h
  have hne : OTU_ENG_EVSEL e k ≠ OTU_ENG_CFG_EPOCH e := by unfold OTU_ENG_EVSEL OTU_ENG_CFG_EPOCH; omega
  have hget (a : Nat) : OtuR.get q a = OtuR.get o a := by rw [hq.frame]; rfl
  have hwrite (a : Nat) (ha : a ≠ OTU_ENG_EVSEL e k) : OtuR.get (OtuR.write q (OTU_ENG_EVSEL e k) 8 value) a = OtuR.get o a := by
    rw [write_evsel he hk, OtuR.get_set_ne _ _ ha.symm, hget]
  refine ⟨_, heq, ?_, ?_, ?_, fun a ha hb => ?_, hq.others⟩
  · exact congrArg (fun x : Otu => { x with regs := ((OtuR.write q (OTU_ENG_EVSEL e k) 8 value).bumpEpoch e).regs, engs := q.engs }) hq.frame
  · exact (fld_of_get (bumpEpoch_get _ hne) 0 16).trans (write_evsel_class he hk q value)
  · rw [bumpEpoch_epoch, hwrite _ hne.symm]
  · rw [bumpEpoch_get _ hb, hwrite a ha]

theorem exec_evselWrite_otu (s : State) (e : Edge) (n k value : Nat) (hv : s.otu.invalid = false) (hn : n < 512) (hk : k < 8) :
    exec (.evselWrite .otu n k value e) s = .next (s.withOtu ((s.otu.go e).evselWrite true n k value)) := by
  rw [exec_evselWrite, execEvselWrite, State.onOtu_with s _ hv]
  refine congrArg (fun o => Host.Outcome.next (s.withOtu o)) (if_pos ?_)
  simp [Otu.sees, hn, hk]

end Sys2Proof.Machine.EngineCounters
end

section
namespace Sys2Proof.Machine.EngineCounters
open Sys2Proof Sys2Proof.Machine.FleetTime Sys2Proof.Machine.Accords

/-! ### CMD_START (03 R66, 04 R101, 07 R193) -/

/-- R101: what a reset on a command start leaves of a counter word. -/
def stickyOnly (word : Nat) : Nat := if bit word 63 then 2 ^ 63 else 0

theorem stickyOnly_lt (word : Nat) : stickyOnly word < 2 ^ 64 := by
  unfold stickyOnly
  split <;> decide

theorem stickyOnly_twice (word : Nat) : stickyOnly (stickyOnly word) = stickyOnly word := by
  unfold stickyOnly
  cases bit word 63 <;> decide

/-- R101: a counter resets. -/
def resetCounter (e : Nat) (o : Otu) (c : Nat) : Otu := o.ctrSet e c (stickyOnly (OtuR.get o (OTU_ENG_CTR e c)))

theorem foldl_resetCounter_get (e : Nat) (cs : List Nat) (o : Otu) {a : Nat} (h : ∀ c ∈ cs, a ≠ OTU_ENG_CTR e c) :
    OtuR.get (cs.foldl (resetCounter e) o) a = OtuR.get o a := by
  induction cs generalizing o with
  | nil => rfl
  | cons c r ih => exact (ih _ fun d hd => h d (.tail c hd)).trans (ctrSet_ne o _ (h c (.head r)))

theorem foldl_resetCounter_word (e : Nat) (cs : List Nat) (o : Otu) {c : Nat} (h : c ∈ cs) :
    OtuR.get (cs.foldl (resetCounter e) o) (OTU_ENG_CTR e c) = stickyOnly (OtuR.get o (OTU_ENG_CTR e c)) := by
  induction cs generalizing o with
  | nil => exact absurd h List.not_mem_nil
  | cons d r ih =>
    have hd (hcd : c = d) : OtuR.get (resetCounter e o d) (OTU_ENG_CTR e c) = stickyOnly (OtuR.get o (OTU_ENG_CTR e c)) := by
      rw [hcd, resetCounter, ctrSet_same, Nat.mod_eq_of_lt (stickyOnly_lt _)]
    by_cases hr : c ∈ r
    · rw [List.foldl_cons, ih _ hr]
      by_cases hcd : c = d
      · rw [hd hcd, stickyOnly_twice]
      · rw [resetCounter, ctrSet_ne o _ (ctr_ne_ctr e hcd)]
    · rw [List.foldl_cons, foldl_resetCounter_get e r _ fun j hj => ctr_ne_ctr e (ne_of_mem_of_not_mem hj hr).symm, hd ((List.mem_cons.1 h).resolve_right hr)]

/-- The counters in reset-on-command-start mode. -/
def startResets (o : Otu) (e : Nat) : List Nat := ((List.range 8).filter fun k => bit (o.evLatched e k) 35).map (· + 1)

theorem mem_startResets (o : Otu) (e c : Nat) : c ∈ startResets o e ↔ ∃ k, k < 8 ∧ bit (o.evLatched e k) 35 = true ∧ c = k + 1 := by
  simp only [startResets, List.mem_map, List.mem_filter, List.mem_range]
  exact ⟨fun ⟨k, ⟨hk, hb⟩, h⟩ => ⟨k, hk, hb, h.symm⟩, fun ⟨k, hk, hb, h⟩ => ⟨k, ⟨hk, hb⟩, h.symm⟩⟩

/-- The engine as a command start leaves it, with the words that the start replaces. -/
def startedEng (o : Otu) (e : Nat) : EngSt :=
  { o.eng e with running := (o.eng e).running + 1, startAt := o.lt, abort := (o.eng e).abort.filter fun a => decide (a.1 ≥ o.lt)
                 startOld := (32, OtuR.get o (OTU_ENG_CMD_SEQ e)) :: (startResets o e).map fun c => (c, OtuR.get o (OTU_ENG_CTR e c)) }

theorem cmdStart_eq (o : Otu) (e : Nat) : o.cmdStart e = OtuR.set ((startResets o e).foldl (resetCounter e) (o.setEng e (startedEng o e))) (OTU_ENG_CMD_SEQ e)
    ((OtuR.get o (OTU_ENG_CMD_SEQ e) + 1) % 2 ^ 32) := rfl

theorem seq_ne_ctr (e c : Nat) : OTU_ENG_CMD_SEQ e ≠ OTU_ENG_CTR e c := by
  unfold OTU_ENG_CMD_SEQ OTU_ENG_CTR; omega

/-- `p` is `o` after a command start at engine `e`, before the start's own event. -/
structure CommandStarted (e : Nat) (o p : Otu) : Prop where
  frame : p = { o with regs := p.regs, engs := p.engs, cyc := p.cyc }
  step : p.cyc.step = o.cyc.step
  eng : p.eng e = startedEng o e
  others : ∀ m, m ≠ e → p.eng m = o.eng m
  seq : OtuR.get p (OTU_ENG_CMD_SEQ e) = (OtuR.get o (OTU_ENG_CMD_SEQ e) + 1) % 2 ^ 32
  word : ∀ k, k < 8 → OtuR.get p (OTU_ENG_CTR e (k + 1)) =
    if bit (o.evLatched e k) 35 then stickyOnly (OtuR.get o (OTU_ENG_CTR e (k + 1))) else OtuR.get o (OTU_ENG_CTR e (k + 1))
  regs : ∀ a, a ≠ OTU_ENG_CMD_SEQ e → (∀ k, k < 8 → a ≠ OTU_ENG_CTR e (k + 1)) → OtuR.get p a = OtuR.get o a

theorem cmdStart_started (e : Nat) (o : Otu) : CommandStarted e o (o.cmdStart e) := by
  have hregs : RegsOnly (o.setEng e (startedEng o e)) ((startResets o e).foldl (resetCounter e) (o.setEng e (startedEng o e))) :=
    .foldl (f := resetCounter e) (fun _ _ => rfl) _ _
  have hset := hregs.trans (set_regs _ (OTU_ENG_CMD_SEQ e) ((OtuR.get o (OTU_ENG_CMD_SEQ e) + 1) % 2 ^ 32))
  rw [cmdStart_eq]
  refine ⟨?_, ?_, ?_, fun m hm => ?_, ?_, fun k hk => ?_, fun a ha hk => ?_⟩
  · rw [RegsOnly] at hset
    rw [hset]
    rfl
  · exact foldl_keeps (fun p : Otu => p.cyc.step) (resetCounter e) (fun _ _ => rfl) (startResets o e) _
  · rw [hset.eng, Otu.eng_setEng]
  · rw [hset.eng, Otu.eng_setEng_ne _ _ hm.symm]
  · rw [OtuR.get_set_same]
    omega
  · rw [OtuR.get_set_ne _ _ (seq_ne_ctr e (k + 1))]
    split
    · next hb => exact foldl_resetCounter_word e _ _ ((mem_startResets o e _).2 ⟨k, hk, hb, rfl⟩)
    · next hb =>
      refine foldl_resetCounter_get e _ _ fun c hc => ctr_ne_ctr e fun hkc => hb ?_
      obtain ⟨j, -, hj, hcj⟩ := (mem_startResets o e c).1 hc
      exact Nat.add_right_cancel (hkc.trans hcj) ▸ hj
  · rw [OtuR.get_set_ne _ _ ha.symm]
    refine foldl_resetCounter_get e _ _ fun c hc => ?_
    obtain ⟨j, hj, -, rfl⟩ := (mem_startResets o e c).1 hc
    exact hk j hj

theorem CommandStarted.selection {e : Nat} {o p : Otu} (he : e < 512) (h : CommandStarted e o p) : SameSelection e o p where
  lt := by rw [h.frame]
  clk := by rw [h.frame]
  period := by rw [h.frame]
  grants := by rw [h.frame]
  step := h.step
  evAt := by rw [h.eng]; rfl
  evOld := by rw [h.eng]; rfl
  admits := by rw [h.eng]; rfl
  evsel := fun k hk => by
    refine h.regs _ ?_ fun j hj => ?_
    · unfold OTU_ENG_EVSEL OTU_ENG_CMD_SEQ; omega
    · have := ctr_lt he (show j + 1 < 32 by omega)
      unfold OTU_ENG_EVSEL at *
      omega

/-- R105, R193: the level of the command that started, and its signature among the last 16. -/
def startSigned (o : Otu) (e sig level : Nat) : Otu :=
  o.setEng e { o.eng e with level, sigs := ((o.eng e).sigs ++ [sig % 2 ^ 32]).drop (((o.eng e).sigs ++ [sig % 2 ^ 32]).length - 16) }

theorem exec_cmdStart_at (s : State) (e : Edge) (n sig level : Nat) (hv : s.otu.invalid = false) (hn : n < 512) :
    exec (.cmdStart n ⟨sig, level⟩ e) s = .next (s.withOtu (startSigned (((s.otu.go e).cmdStart n).tap n 0x06 level 1) n sig level)) := by
  rw [exec_cmdStart, execCmdStart, State.onOtu_with s _ hv]
  exact congrArg (fun o => Host.Outcome.next (s.withOtu o)) (if_pos hn)

/-- A start that no PMC counts leaves the counters as the resets left them. -/
theorem startSigned_facts {e : Nat} (he : e < 512) (o : Otu) (sig level : Nat) : ∃ p, startSigned ((o.cmdStart e).tap e 0x06 level 1) e sig level = p ∧
    p = { o with regs := p.regs, engs := p.engs, cyc := p.cyc } ∧
    OtuR.get p (OTU_ENG_CMD_SEQ e) = (OtuR.get o (OTU_ENG_CMD_SEQ e) + 1) % 2 ^ 32 ∧
    ((∀ j, j < 8 → o.pmcCounts e j 0x06 level = false) → ∀ j, j < 8 → OtuR.get p (OTU_ENG_CTR e (j + 1)) =
      if bit (o.evLatched e j) 35 then stickyOnly (OtuR.get o (OTU_ENG_CTR e (j + 1))) else OtuR.get o (OTU_ENG_CTR e (j + 1))) ∧
    (∀ a, a ≠ OTU_ENG_CMD_SEQ e → ¬ pmcRegs e a → OtuR.get p a = OtuR.get o a) ∧
    (p.eng e).running = (o.eng e).running + 1 ∧ (p.eng e).startAt = o.lt ∧ (p.eng e).level = level ∧
    (p.eng e).sigs = ((o.eng e).sigs ++ [sig % 2 ^ 32]).drop ((o.eng e).sigs.length + 1 - 16) ∧ ∀ m, m ≠ e → p.eng m = o.eng m := by
  have hstart := cmdStart_started e o
  generalize o.cmdStart e = q at hstart
  have htap := tap_counts he q 0x06 level 1
  have htapped := tap_tapped q e 0x06 level 1
  have hnone (h : ∀ j, j < 8 → o.pmcCounts e j 0x06 level = false) : q.tap e 0x06 level 1 = q :=
    tap_uncounted q e 0x06 level 1 fun k hk => ((hstart.selection he).pmcCounts hk 0x06 level).trans (h k hk)
  generalize q.tap e 0x06 level 1 = t at htap htapped hnone
  have hseq : ¬ pmcRegs e (OTU_ENG_CMD_SEQ e) := fun h => not_ctrRegs he (by unfold OTU_ENG_CMD_SEQ; omega) (by unfold OTU_ENG_CMD_SEQ; omega)
    (pmcRegs_ctr e _ h)
  have hsigs : (t.eng e).sigs = (o.eng e).sigs := (htap.keeps EngSt.sigs fun _ => rfl).trans (by rw [hstart.eng]; rfl)
  have hsigned : (startSigned t e sig level).eng e = { t.eng e with level, sigs := ((o.eng e).sigs ++ [sig % 2 ^ 32]).drop ((o.eng e).sigs.length + 1 - 16) } := by
    rw [startSigned, Otu.eng_setEng, hsigs, List.length_append, List.length_singleton]
  refine ⟨_, rfl, ?_, (htap.regs _ hseq).trans hstart.seq, fun h k hk => ?_, fun a ha hr => ?_, ?_, ?_, ?_, ?_, fun m hm => ?_⟩
  · have hframe := htapped
    rw [Tapped, hstart.frame] at hframe
    exact congrArg (fun x => startSigned x e sig level) hframe
  · rw [startSigned, setEng_get, hnone h, hstart.word k hk]
  · exact (htap.regs a hr).trans (hstart.regs a ha fun k hk h => hr (.inr ⟨k, hk, h⟩))
  · rw [hsigned]
    exact (htap.keeps EngSt.running fun _ => rfl).trans (by rw [hstart.eng]; rfl)
  · rw [hsigned]
    exact (htap.keeps EngSt.startAt fun _ => rfl).trans (by rw [hstart.eng]; rfl)
  · rw [hsigned]
  · rw [hsigned]
  · exact (Otu.eng_setEng_ne t _ hm.symm).trans ((htap.others m hm).trans (hstart.others m hm))

end Sys2Proof.Machine.EngineCounters
end

section
namespace Sys2Proof.Machine.EngineCounters
open Sys2Proof Sys2Proof.Machine.FleetTime Sys2Proof.Machine.Accords

/-! ### CMD_COMPLETE (03 R66, 06 R131, 08 R214) -/

/-- R131: progress changes the jobs alone. -/
theorem progress_frame (o : Otu) (tag : Nat) : o.progress tag = { o with jobs := (o.progress tag).jobs } := by
  rw [Otu.progress]
  split <;> rfl

/-- R214: what a collective's run shows of its order. -/
def runShown (o : Otu) (e : Nat) : Option BucketRun → Otu
  | some x => o.bucketOrder e x
  | none => o

theorem exec_cmdComplete_at (s : State) (e : Edge) (n : Nat) (run : Option BucketRun) (hv : s.otu.invalid = false) (hn : n < 512) :
    exec (.cmdComplete ⟨n, run⟩ e) s = .next (s.withOtu (((runShown (s.otu.go e) n run).cmdComplete n).tap n 0x07 ((runShown (s.otu.go e) n run).eng n).level 1)) := by
  rw [exec_cmdComplete, execCmdComplete, State.onOtu_with s _ hv]
  refine congrArg (fun o => Host.Outcome.next (s.withOtu o)) ((if_pos hn).trans ?_)
  cases run <;> rfl

theorem cmdComplete_facts {e : Nat} (he : e < 512) (o : Otu) (level : Nat) : ∃ p, (o.cmdComplete e).tap e 0x07 level 1 = p ∧
    p = { o with engs := p.engs, jobs := (o.progress (o.eng e).tag).jobs, regs := p.regs, cyc := p.cyc } ∧
    (p.eng e).running = (o.eng e).running - 1 ∧ (p.eng e).doneAt = some o.lt ∧ (∀ m, m ≠ e → p.eng m = o.eng m) ∧
    ∀ a, ¬ pmcRegs e a → OtuR.get p a = OtuR.get o a := by
  have hdone : o.cmdComplete e = { o.setEng e { o.eng e with running := (o.eng e).running - 1, doneAt := some o.lt } with
      jobs := (o.progress (o.eng e).tag).jobs } := by
    rw [Otu.cmdComplete, progress_frame, progress_jobs_congr o]
    · rfl
    · rfl
  have hself : (o.cmdComplete e).eng e = { o.eng e with running := (o.eng e).running - 1, doneAt := some o.lt } := by
    rw [hdone]
    exact Otu.eng_setEng o e _
  have htap := tap_counts he (o.cmdComplete e) 0x07 level 1
  have htapped := tap_tapped (o.cmdComplete e) e 0x07 level 1
  generalize (o.cmdComplete e).tap e 0x07 level 1 = p at htap htapped
  refine ⟨p, rfl, ?_, ?_, ?_, fun m hm => (htap.others m hm).trans ?_, fun a ha => (htap.regs a ha).trans ?_⟩
  · rw [Tapped, hdone] at htapped
    exact htapped
  · rw [htap.keeps EngSt.running fun _ => rfl, hself]
  · rw [htap.keeps EngSt.doneAt fun _ => rfl, hself]
  · rw [hdone]
    exact Otu.eng_setEng_ne o _ hm.symm
  · rw [hdone]
    rfl

/-- R214: outside any job a collective's order goes to the fleet context alone. -/
theorem bucketOrder_fleet (o : Otu) (e : Nat) (x : BucketRun) (hk : engKind e = 3) (ht : (o.eng e).tag = 0) (h0 : 0 < x.order.length)
    (h1 : x.order.length < 65536) (hst : o.clk.st ≠ 0) : o.bucketOrder e x = o.send 9 0 0x0C 0 (x.record 0 (o.rankOf 0)).bytes := by
  have hshown : (decide (engKind e ≠ 3) || decide (x.order.length = 0) || decide (x.order.length > 65535)) = false := by
    simp only [hk, ne_eq, not_true_eq_false, decide_false, Bool.false_or, Bool.or_eq_false_iff, decide_eq_false_iff_not]
    omega
  rw [Otu.bucketOrder]
  refine (if_neg (by rw [hshown]; exact Bool.false_ne_true)).trans ?_
  rw [if_neg hst, ht, if_pos rfl]

/-! ### ENGINE_STATE_CHANGE (03 R67, 06 R157, 07 R187, 15 R413) -/

/-- R97: an entry into REST is an event of the last ACTIVE cycle. -/
def restTapped (o : Otu) (e st : Nat) : Otu := if st = 1 && (o.eng e).st.cur = 0 then o.tap e 0x0B (o.eng e).level 1 else o

/-- R187: a state other than ACTIVE stops the engine's canary. -/
def canaryStopped (o : Otu) (e st : Nat) : Otu :=
  if st ≠ 0 && (o.eng e).canary.isSome then (o.setEng e { o.eng e with canary := none, canLast := some o.lt }).dctrAdd 0x42 1 else o

/-- R157: a sequencer's trace shows its state. -/
def powerShown (o : Otu) (e old st : Nat) : Otu := if engKind e = 6 then o.silPower (2 * (e / 16) + (e % 16 - 14)) old st else o

theorem exec_engineStateChange_at (s : State) (e : Edge) (n st : Nat) (hv : s.otu.invalid = false) (hn : n < 512) (hst : st < 4) :
    exec (.engineStateChange n st e) s = .next (s.withOtu (powerShown
      (canaryStopped (((restTapped (s.otu.go e) n st).engineState n st).clusterFenced (n / 16)) n st) n ((s.otu.go e).eng n).st.cur st)) := by
  have hvalid : ¬ (decide (n ≥ 512) || decide (st ≥ 4)) = true := by
    simp only [Bool.or_eq_true, decide_eq_true_eq]
    omega
  rw [exec_engineStateChange, execEngineStateChange, State.onOtu_with s _ hv]
  exact congrArg (fun o => Host.Outcome.next (s.withOtu o)) (if_neg hvalid)

theorem restTapped_counts {e : Nat} (he : e < 512) (o : Otu) (st : Nat) : Counts e (pmcRegs e) o (restTapped o e st) := by
  rw [restTapped]
  split
  · exact tap_counts he o _ _ _
  · exact .refl e _ o

theorem clusterFenced_mirror (o : Otu) (cl : Nat) : ∃ m, o.clusterFenced cl = { o with mirror := m } := by
  rw [Otu.clusterFenced]
  split
  · exact ⟨_, rfl⟩
  · exact ⟨_, rfl⟩

theorem quiet_silDue (o : Otu) (k reason : Nat) : Quiet o (o.silDue k reason) := by
  unfold Otu.silDue
  exact .trans (.ite (fun _ => quiet_silSplit o k) fun _ => .refl o) (quiet_silAsk _ _ _)

theorem quiet_pwrExit (o : Otu) (k old : Nat) : Quiet o (o.pwrExit k old) := (quiet_silEmit o k _).trans (quiet_silDue _ _ _)

theorem quiet_pwrEnter (o : Otu) (k new ft : Nat) : Quiet o (o.pwrEnter k new ft) := by
  unfold Otu.pwrEnter
  refine .trans ?_ (((quiet_silFlush _ k).trans (quiet_silForce _ k)).trans ((quiet_silEmit _ k _).trans (quiet_silClose _ k)))
  exact .ite (fun _ => quiet_silSplit o k) fun _ => .refl o

/-- A sequencer's change of state changes no engine. -/
theorem quiet_silPower (o : Otu) (s old new : Nat) : Quiet o (o.silPower s old new) := by
  unfold Otu.silPower
  refine .ite (fun _ => .refl o) fun _ => (quiet_silSettleSeq o s).trans ?_
  generalize o.silSettleSeq s = p
  have hoff : Quiet p (if old = 0 then p.setSeq s { p.seqSt s with offFt := p.ft } else p) := .ite (fun _ => quiet_setSeq p s _) fun _ => .refl p
  refine hoff.trans ?_
  refine .ite (fun _ => .refl _) fun _ => .foldl (fun q k => ?_) _ _
  have hexit : Quiet q (if old = 0 then q else q.pwrExit k old) := .ite (fun _ => .refl q) fun _ => quiet_pwrExit q k old
  exact hexit.trans (.ite (fun _ => .refl _) fun _ => quiet_pwrEnter _ k new _)

theorem powerShown_eng (o : Otu) (e old st m : Nat) : (powerShown o e old st).eng m = o.eng m := by
  have h : (powerShown o e old st).engs = o.engs := (Quiet.ite (fun _ => quiet_silPower o _ old st) fun _ => .refl o).engs
  rw [Otu.eng, Otu.eng, h]

/-- A new state is in force from the next cycle on. -/
theorem write_inForce {α : Type} (d : Delayed α) (lt : Nat) (v : α) : (d.write lt v).inForce lt = d.inForce lt ∧ ∀ l, lt < l → (d.write lt v).inForce l = v :=
  ⟨if_pos (Nat.le_refl lt), fun _ hl => if_neg (Nat.not_le.2 hl)⟩

/-- `p` is `o` with engine `e` going to state `st`. -/
structure StateWritten (e st : Nat) (o p : Otu) : Prop where
  frame : p = { o with engs := p.engs, dctr := p.dctr, regs := p.regs, cyc := p.cyc, mirror := p.mirror }
  state : (p.eng e).st = (o.eng e).st.write o.lt (st % 4)
  canary : (p.eng e).canary = if st = 0 then (o.eng e).canary else none
  others : ∀ m, m ≠ e → p.eng m = o.eng m

theorem canaryStopped_frame (o : Otu) (e st : Nat) : canaryStopped o e st = { o with engs := (canaryStopped o e st).engs, dctr := (canaryStopped o e st).dctr } := by
  rw [canaryStopped]
  split <;> rfl

theorem canaryStopped_others (o : Otu) (e st : Nat) {m : Nat} (h : m ≠ e) : (canaryStopped o e st).eng m = o.eng m := by
  rw [canaryStopped]
  split
  · exact Otu.eng_setEng_ne o _ h.symm
  · rfl

theorem canaryStopped_eng (o : Otu) (e st : Nat) :
    ((canaryStopped o e st).eng e).st = (o.eng e).st ∧ ((canaryStopped o e st).eng e).canary = if st = 0 then (o.eng e).canary else none := by
  rw [canaryStopped]
  split
  · next h =>
    have hst : st ≠ 0 := of_decide_eq_true (Bool.and_eq_true_iff.1 h).1
    have heng : ((o.setEng e { o.eng e with canary := none, canLast := some o.lt }).dctrAdd 0x42 1).eng e =
      { o.eng e with canary := none, canLast := some o.lt } := Otu.eng_setEng o e _
    rw [heng, if_neg hst]
    exact ⟨rfl, rfl⟩
  · next h =>
    refine ⟨rfl, ?_⟩
    split
    · rfl
    · next hst => simpa [hst] using h

theorem engineStateChange_written {e : Nat} (he : e < 512) (o : Otu) (st : Nat) :
    StateWritten e st o (canaryStopped (((restTapped o e st).engineState e st).clusterFenced (e / 16)) e st) := by
  have hrest := restTapped_counts he o st
  generalize restTapped o e st = q at hrest
  obtain ⟨m, hm⟩ := clusterFenced_mirror (q.engineState e st) (e / 16)
  rw [hm]
  have hself : ({ q.engineState e st with mirror := m } : Otu).eng e = (q.engineState e st).eng e := rfl
  obtain ⟨hst, hcanary⟩ := canaryStopped_eng { q.engineState e st with mirror := m } e st
  refine ⟨?_, ?_, ?_, fun i hi => ?_⟩
  · rw [canaryStopped_frame, hrest.frame]
    rfl
  · rw [hst, hself, Otu.engineState, Otu.eng_setEng, hrest.lt, hrest.keeps EngSt.st fun _ => rfl]
  · rw [hcanary, hself, Otu.engineState, Otu.eng_setEng, hrest.keeps EngSt.canary fun _ => rfl]
  · rw [canaryStopped_others _ e st hi]
    exact (Otu.eng_setEng_ne q _ hi.symm).trans (hrest.others i hi)

end Sys2Proof.Machine.EngineCounters
end

section
namespace Sys2Proof.Machine.EngineCounters
open Sys2Proof Sys2Proof.Machine.FleetTime Sys2Proof.Machine.Accords

/-! ### WRAP (04 R98, R107, log entry 41) -/

theorem engKind_lt (e : Nat) : engKind e < 7 := by
  simp only [engKind]
  repeat' split
  all_goals decide

/-- The slots of a cycle of which `m` are of class `k`. -/
def wrapMix (kind k m waits : Nat) : Slots :=
  (List.replicate m (k, ({ waits } : SlotFact)) ++
    List.replicate (slotWidth kind - m) (if k = 2 then (3, ({ waits := 2 ^ 15 } : SlotFact)) else (2, {}))).take (slotWidth kind)

/-- What the slots of class `j` wait for in a wrap. -/
def wrapWaits (j : Nat) : Nat := if j = 3 then 2 ^ 15 else 0

/-- The class of the slots that make counter `c`, of 13 and above, count. -/
def wrapClass (c : Nat) : Nat := if c = 13 then 0 else if c = 14 || c ≥ 16 then 3 else 2

/-- A wrap of a slot counter: whole cycles, and one with what is left. -/
theorem wrapSlots_slots (kind v : Nat) {j : Nat} (hj : j < 4) : wrapSlots kind (9 + j) v =
    (wrapMix kind j (slotWidth kind) (wrapWaits j), v / slotWidth kind,
      if v % slotWidth kind = 0 then [] else wrapMix kind j (v % slotWidth kind) (wrapWaits j)) := by
  obtain rfl | rfl | rfl | rfl : j = 0 ∨ j = 1 ∨ j = 2 ∨ j = 3 := by omega
  all_goals rfl

/-- A wrap of any other fixed counter: as many cycles as are added. -/
theorem wrapSlots_cycles (kind v : Nat) {c : Nat} (hc : c = 0 ∨ 13 ≤ c) : wrapSlots kind c v =
    (wrapMix kind (wrapClass c) (slotWidth kind) (if c ≥ 16 then 2 ^ (c - 16) else 2 ^ 15), v, []) := by
  simp only [wrapSlots, show c ≠ 9 by omega, show c ≠ 10 by omega, show c ≠ 11 by omega, show c ≠ 12 by omega, if_false]
  rfl

theorem wrapMix_count : ∀ kind < 7, ∀ j < 4, ∀ m < 3, m ≤ slotWidth kind → (wrapMix kind j m (wrapWaits j)).count j = m := by decide +kernel

theorem wrapMix_activity : ∀ kind < 7, ∀ i < 19,
    (wrapMix kind (wrapClass (13 + i)) (slotWidth kind) (if 13 + i ≥ 16 then 2 ^ (13 + i - 16) else 2 ^ 15)).activity = if i < 3 then i else 1 := by decide +kernel

theorem wrapMix_reason : ∀ kind < 7, ∀ j < 16, bit (reasonMask kind) j = true →
    (wrapMix kind (wrapClass (16 + j)) (slotWidth kind) (2 ^ j)).reason kind = j := by decide +kernel

theorem slotWidth_cases (kind : Nat) : slotWidth kind = 1 ∨ slotWidth kind = 2 := by
  unfold slotWidth
  split
  · exact .inr rfl
  · exact .inl rfl

/-- What the cycles of a wrap give its counter. -/
def wrapAmount (kind c : Nat) (w : Slots × Nat × Slots) : Nat :=
  amountOf c (slotAdds w.1 kind w.2.1) + amountOf c (slotAdds w.2.2 kind (b2n !w.2.2.isEmpty))

theorem wrapAmount_slots {kind j : Nat} (hkind : kind < 7) (hj : j < 4) (v : Nat) : wrapAmount kind (9 + j) (wrapSlots kind (9 + j) v) = v := by
  have hw := slotWidth_cases kind
  have hcount (m : Nat) (hm : m ≤ slotWidth kind) := wrapMix_count kind hkind j hj m (by omega) hm
  have hmod : v % slotWidth kind ≤ slotWidth kind := Nat.le_of_lt (Nat.mod_lt v (by omega))
  rw [wrapSlots_slots kind v hj, wrapAmount, slotAdds_slots _ kind _ hj, slotAdds_slots _ kind _ hj, hcount _ (Nat.le_refl _)]
  conv_rhs => rw [← Nat.div_add_mod' v (slotWidth kind)]
  refine congrArg (v / slotWidth kind * slotWidth kind + ·) ?_
  by_cases h : v % slotWidth kind = 0
  · rw [if_pos h, h]
    rfl
  · have hne : (wrapMix kind j (v % slotWidth kind) (wrapWaits j)).isEmpty = false := by
      by_contra hempty
      have hnil := List.isEmpty_iff.1 (Bool.eq_true_of_not_eq_false hempty)
      exact h ((hcount _ hmod).symm.trans (by rw [hnil]; rfl))
    rw [if_neg h, hne, hcount _ hmod]
    exact Nat.one_mul _

/-- Where each cycle of the wrap counts once, as many cycles as are added. -/
theorem wrapAmount_cycles {kind c : Nat} (hkind : kind < 7) (hc : c < 32) (hf : c = 0 ∨ 13 ≤ c) (hr : 16 ≤ c → bit (reasonMask kind) (c - 16) = true) (v : Nat) :
    wrapAmount kind c (wrapSlots kind c v) = v := by
  rw [wrapSlots_cycles kind v hf, wrapAmount]
  simp only [List.isEmpty_nil, Bool.not_true, show b2n false = 0 from rfl, slotAdds_none, Nat.add_zero]
  rcases hf with rfl | h13
  · exact slotAdds_cycles _ kind v
  · obtain ⟨i, rfl⟩ := Nat.exists_eq_add_of_le h13
    have hact := wrapMix_activity kind hkind i (by omega)
    by_cases hi : i < 3
    · rw [slotAdds_activity _ kind v hi, hact, if_pos hi, if_pos rfl]
    · obtain ⟨j, rfl⟩ := Nat.exists_eq_add_of_le (show 3 ≤ i by omega)
      have hsum : 13 + (3 + j) = 16 + j := by omega
      rw [hsum] at hr hact ⊢
      rw [Nat.add_sub_cancel_left] at hr
      rw [if_neg hi] at hact
      rw [if_pos (Nat.le_add_right 16 j), Nat.add_sub_cancel_left] at hact ⊢
      rw [slotAdds_reason, if_pos ⟨hact, wrapMix_reason kind hkind j (by omega) (hr (Nat.le_add_right 16 j))⟩]

/-- The cycles of a wrap give its counter what the wrap adds. -/
theorem wrapAmount_wrapSlots {kind c : Nat} (hkind : kind < 7) (hc : c < 32) (hf : c = 0 ∨ 9 ≤ c) (hr : 16 ≤ c → bit (reasonMask kind) (c - 16) = true)
    (v : Nat) : wrapAmount kind c (wrapSlots kind c v) = v := by
  by_cases hslot : 9 ≤ c ∧ c < 13
  · obtain ⟨j, rfl⟩ := Nat.exists_eq_add_of_le hslot.1
    exact wrapAmount_slots hkind (by omega) v
  · exact wrapAmount_cycles hkind hc (by omega) hr v

/-- The cycles of a wrap. -/
def wrapCycles (o : Otu) (e : Nat) (w : Slots × Nat × Slots) : Otu :=
  (o.slotCycles e { slots := [] } w.1 w.2.1).slotCycles e { slots := [] } w.2.2 (b2n !w.2.2.isEmpty)

theorem exec_wrap_fixed (s : State) (e : Edge) {n c : Nat} (v : Nat) (hv : s.otu.invalid = false) (hn : n < 512) (hc : c < 32) (hf : c = 0 ∨ 9 ≤ c)
    (hr : 16 ≤ c → bit (reasonMask (engKind n)) (c - 16) = true) (hst : ((s.otu.go e).eng n).st.inForce (s.otu.go e).lt = 0) :
    exec (.wrap (some n) c v e) s = .next (s.withOtu (wrapCycles (s.otu.go e) n (wrapSlots (engKind n) c v))) := by
  have hvalid : ¬ (!(decide (n < 512) && decide (c < 32) && decide (((s.otu.go e).eng n).st.inForce (s.otu.go e).lt = 0))) = true := by
    rw [decide_eq_true hn, decide_eq_true hc, decide_eq_true hst]
    decide
  have hpmc : ¬ (decide (1 ≤ c) && decide (c ≤ 8)) = true := by
    simp only [Bool.and_eq_true, decide_eq_true_eq]
    omega
  have hreason : ¬ (decide (c ≥ 16) && !bit (reasonMask (engKind n)) (c - 16)) = true := by
    simp only [Bool.and_eq_true, decide_eq_true_eq, Bool.not_eq_true', not_and]
    exact fun h16 => by rw [hr h16]; decide
  rw [exec_wrap, execWrap, State.onOtu_with s _ hv]
  exact congrArg (fun o => Host.Outcome.next (s.withOtu o)) ((if_neg hvalid).trans ((if_neg hpmc).trans (if_neg hreason)))

/-- The cycles of a wrap count in the engine's counters alone, and add `v` to its own. -/
theorem wrapCycles_counts {e : Nat} (he : e < 512) (o : Otu) (w : Slots × Nat × Slots) (hst : (o.eng e).st.inForce o.lt = 0) :
    Counts e (ctrRegs e) o (wrapCycles o e w) ∧ ∀ c, c < 32 → c = 0 ∨ 9 ≤ c →
      Added e c (wrapAmount (engKind e) c w) o (wrapCycles o e w) := by
  have hfirst := slotCycles_counts he o { slots := [] } w.1 w.2.1 hst
  have hst' : ((o.slotCycles e { slots := [] } w.1 w.2.1).eng e).st.inForce (o.slotCycles e { slots := [] } w.1 w.2.1).lt = 0 := by
    rw [hfirst.keeps EngSt.st fun _ => rfl, hfirst.lt, hst]
  exact ⟨hfirst.trans (slotCycles_counts he _ _ _ _ hst'), fun c hc hf =>
    (slotCycles_added he hc hf o _ _ _ hst).trans (slotCycles_added he hc hf _ _ _ _ hst')⟩

theorem wrapFixed_facts {e c : Nat} (he : e < 512) (hc : c < 32) (hf : c = 0 ∨ 9 ≤ c) (hr : 16 ≤ c → bit (reasonMask (engKind e)) (c - 16) = true)
    (o : Otu) {v : Nat} (hv : v ≠ 0) (hst : (o.eng e).st.inForce o.lt = 0) : ∃ p, wrapCycles o e (wrapSlots (engKind e) c v) = p ∧
    p = { o with regs := p.regs, engs := p.engs, dctr := p.dctr, cyc := p.cyc } ∧
    OtuR.get p (OTU_ENG_CTR e c) = (addWord (ctrWidth c) (OtuR.get o (OTU_ENG_CTR e c)) v).1 ∧
    ((addWord (ctrWidth c) (OtuR.get o (OTU_ENG_CTR e c)) v).2 = true → OtuR.flag p (OTU_ENG_EVENTS e) 1 = true) ∧
    (∀ a, ¬ ctrRegs e a → OtuR.get p a = OtuR.get o a) ∧ ∀ m, m ≠ e → p.eng m = o.eng m := by
  obtain ⟨hcounts, hadded⟩ := wrapCycles_counts he o (wrapSlots (engKind e) c v) hst
  have hadd := hadded c hc hf
  rw [wrapAmount_wrapSlots (engKind_lt e) hc hf hr v] at hadd
  refine ⟨_, rfl, hcounts.frame, ?_, hadd.wrap, hcounts.regs, hcounts.others⟩
  rw [hadd.word, counted, if_neg hv]

theorem exec_wrap_pmc (s : State) (e : Edge) {n k : Nat} (v : Nat) (hv : s.otu.invalid = false) (hn : n < 512) (hk : k < 8)
    (hst : ((s.otu.go e).eng n).st.inForce (s.otu.go e).lt = 0) :
    exec (.wrap (some n) (k + 1) v e) s = .next (s.withOtu ((s.otu.go e).pmcAdd n (k + 1) v)) := by
  have hvalid : ¬ (!(decide (n < 512) && decide (k + 1 < 32) && decide (((s.otu.go e).eng n).st.inForce (s.otu.go e).lt = 0))) = true := by
    rw [decide_eq_true hn, decide_eq_true (show k + 1 < 32 by omega), decide_eq_true hst]
    decide
  have hpmc : (decide (1 ≤ k + 1) && decide (k + 1 ≤ 8)) = true := by
    simp only [Bool.and_eq_true, decide_eq_true_eq]
    omega
  rw [exec_wrap, execWrap, State.onOtu_with s _ hv]
  exact congrArg (fun o => Host.Outcome.next (s.withOtu o)) ((if_neg hvalid).trans (if_pos hpmc))

theorem exec_wrap_die (s : State) (e : Edge) {c : Nat} (v : Nat) (hv : s.otu.invalid = false) (hc : c < 256) :
    exec (.wrap none c v e) s = .next (s.withOtu ((s.otu.go e).dctrAdd c v)) := by
  rw [exec_wrap, execWrap, State.onOtu_with s _ hv]
  exact congrArg (fun o => Host.Outcome.next (s.withOtu o)) (if_pos hc)

/-- A wrap of a PMC adds to that counter alone. -/
theorem wrapPmc_facts {e k : Nat} (he : e < 512) (hk : k < 8) (o : Otu) {v : Nat} (hv : v ≠ 0) (h : PlainCycle e o) : ∃ p, o.pmcAdd e (k + 1) v = p ∧
    p = { o with regs := p.regs, cyc := p.cyc } ∧
    OtuR.get p (OTU_ENG_CTR e (k + 1)) = (addWord (ctrWidth (k + 1)) (OtuR.get o (OTU_ENG_CTR e (k + 1))) v).1 ∧
    ∀ a, a ≠ OTU_ENG_CTR e (k + 1) → a ≠ OTU_ENG_EVENTS e → OtuR.get p a = OtuR.get o a := by
  have hk32 : k + 1 < 32 := by omega
  have hadd := pmcAdd_plain o e (k + 1) v h.start h.pmc
  refine ⟨_, hadd, ctrAdd_regs o e (k + 1) v, ?_, fun a ha hb => ?_⟩
  · rw [(ctrAdd_added he hk32 o v).word, counted, if_neg hv]
  · exact (ctrAdd_counts he hk32 o v).regs a fun hr => hr.elim hb ha

end Sys2Proof.Machine.EngineCounters
end

section
namespace Sys2Proof.Machine.EngineCounters
open Sys2Proof Sys2Proof.Machine.FleetTime Sys2Proof.Machine.Accords

/-! ### What a command does to one engine's counters -/

theorem not_pmcRegs {e a : Nat} (hev : a ≠ OTU_ENG_EVENTS e) (hctr : ∀ j, j < 8 → a ≠ OTU_ENG_CTR e (j + 1)) : ¬ pmcRegs e a
  | .inl h => hev h
  | .inr ⟨j, hj, h⟩ => hctr j hj h

theorem not_ctrRegs_of_ne {e a : Nat} (hctr : ∀ j, j < 32 → a ≠ OTU_ENG_CTR e j) (hev : a ≠ OTU_ENG_EVENTS e) : ¬ ctrRegs e a
  | .inl h => hev h
  | .inr ⟨j, hj, h⟩ => hctr j hj h

/-- A refused event selection is noted in the engine's events alone. -/
theorem evselRefused_facts (o : Otu) {e k value : Nat} (h : o.evselOk true e k (o.eng e).tag value = false) : ∃ p, o.evselWrite true e k value = p ∧
    p = { o with regs := p.regs, cyc := p.cyc } ∧ OtuR.flag p (OTU_ENG_EVENTS e) 0 = true ∧ ∀ a, a ≠ OTU_ENG_EVENTS e → OtuR.get p a = OtuR.get o a :=
  ⟨_, evselWrite_refused o true e k value h, rfl, OtuR.flag_ev o _ 0 (by decide), fun _ ha => OtuR.get_ev_ne o 0 ha.symm⟩

/-- A command's end with a collective's run puts its order record into the fleet context's queue. -/
theorem bucketComplete_facts {e : Nat} (he : e < 512) (o : Otu) (x : BucketRun) (hk : engKind e = 3) (ht : (o.eng e).tag = 0) (h0 : 0 < x.order.length)
    (h1 : x.order.length < 65536) (hst : o.clk.st ≠ 0) :
    ∃ p r, ((runShown o e (some x)).cmdComplete e).tap e 0x07 ((runShown o e (some x)).eng e).level 1 = p ∧
      p = { o with engs := p.engs, regs := p.regs, cyc := p.cyc, eq := p.eq, eqs := p.eqs } ∧ (p.eng e).running = (o.eng e).running - 1 ∧
      p.eqGet (o.eqOf 9 0 0) = o.eqGet (o.eqOf 9 0 0) ++ [r] ∧ r.rtype = 0x0C ∧ r.body = (x.record 0 (o.rankOf 0)).bytes := by
  have hq : runShown o e (some x) = o.send 9 0 0x0C 0 (x.record 0 (o.rankOf 0)).bytes := bucketOrder_fleet o e x hk ht h0 h1 hst
  have hall := send_all o 9 0 0x0C 0 (x.record 0 (o.rankOf 0)).bytes
  have hget := eqGet_send o 9 0 0x0C 0 (x.record 0 (o.rankOf 0)).bytes
  rw [← hq] at hall hget
  generalize runShown o e (some x) = q at hall hget ⊢
  have heng : q.eng e = o.eng e := by rw [hall]; rfl
  obtain ⟨p, hp, hframe, hrun, -⟩ := cmdComplete_facts he q (q.eng e).level
  have hjobs : (q.progress (q.eng e).tag).jobs = o.jobs := by
    rw [heng, ht, Otu.progress, if_pos rfl, hall]
  have hpeq : p.eqGet (o.eqOf 9 0 0) = q.eqGet (o.eqOf 9 0 0) := by rw [Otu.eqGet, Otu.eqGet, hframe]
  refine ⟨p, _, hp, ?_, hrun.trans (by rw [heng]), hpeq.trans hget, rfl, rfl⟩
  rw [hjobs, hall] at hframe
  rw [hframe]

/-- The state of an engine that changes is in force from the next cycle on. -/
theorem stateChange_facts {e st : Nat} (he : e < 512) (hst : st < 4) (o : Otu) (old : Nat) :
    ∃ p, powerShown (canaryStopped (((restTapped o e st).engineState e st).clusterFenced (e / 16)) e st) e old st = p ∧
      (engKind e ≠ 6 → p = { o with engs := p.engs, dctr := p.dctr, regs := p.regs, cyc := p.cyc, mirror := p.mirror }) ∧
      (p.eng e).st.inForce o.lt = (o.eng e).st.inForce o.lt ∧ (∀ lt, o.lt < lt → (p.eng e).st.inForce lt = st) ∧
      (p.eng e).canary = (if st = 0 then (o.eng e).canary else none) ∧ ∀ m, m ≠ e → p.eng m = o.eng m := by
  have hw := engineStateChange_written he o st
  generalize canaryStopped (((restTapped o e st).engineState e st).clusterFenced (e / 16)) e st = q at hw
  obtain ⟨hnow, hthen⟩ := write_inForce (o.eng e).st o.lt (st % 4)
  refine ⟨_, rfl, fun hk => ?_, ?_, fun lt hlt => ?_, ?_, fun m hm => ?_⟩
  · rw [powerShown, if_neg hk]
    exact hw.frame
  · rw [powerShown_eng, hw.state, hnow]
  · rw [powerShown_eng, hw.state, hthen lt hlt, Nat.mod_eq_of_lt hst]
  · rw [powerShown_eng, hw.canary]
  · rw [powerShown_eng, hw.others m hm]

/-- Settles O17, by what counting at an engine can change and, for a wrap of a fixed counter, by the sum of what its cycles add. -/
theorem engineCommandsAndCounterWrites : Obligations.EngineCommandsAndCounterWrites := by
  unfold Obligations.EngineCommandsAndCounterWrites
  rintro s n k value e _ hv rfl hn
  refine ⟨fun hk hstart => ?_, fun w hk => exec_pmcWrite_low s e n k value w hv hk,
    fun w h4 h8 hw => exec_pmcWrite_owner s e n k value w hv hn h4 h8 hw, fun hk hok => ?_, fun hk hok => ?_, fun sig level => ?_, ?_,
    fun x hkind htag h0 h1 hclk => ?_, fun st hst => ?_, fun c v hc hf hr hv0 hst => ?_, fun v hk hv0 hst hstart hpmc => ?_,
    fun c v hc => exec_wrap_die s e v hv hc⟩
  · obtain ⟨p, rfl, hp⟩ := pmcWrite_facts hn hk (s.otu.go e) value hstart
    exact ⟨_, exec_pmcWrite_otu s e n k value hv hn hk, hp⟩
  · obtain ⟨p, rfl, hp⟩ := evselRefused_facts (s.otu.go e) hok
    exact ⟨_, exec_evselWrite_otu s e n k value hv hn hk, hp⟩
  · obtain ⟨p, rfl, hp⟩ := evselWrite_facts hn hk (s.otu.go e) value hok
    exact ⟨_, exec_evselWrite_otu s e n k value hv hn hk, hp⟩
  · obtain ⟨p, rfl, hframe, hseq, hreset, hregs, hp⟩ := startSigned_facts hn (s.otu.go e) sig level
    exact ⟨_, exec_cmdStart_at s e n sig level hv hn, hframe, hseq, hreset, fun a ha hev hctr => hregs a ha (not_pmcRegs hev hctr), hp⟩
  · obtain ⟨p, rfl, hframe, hrun, hdone, hothers, hregs⟩ := cmdComplete_facts hn (s.otu.go e) ((s.otu.go e).eng n).level
    exact ⟨_, exec_cmdComplete_at s e n none hv hn, hframe, hrun, hdone, hothers, fun a hev hctr => hregs a (not_pmcRegs hev hctr)⟩
  · have hst : (s.otu.go e).clk.st ≠ 0 := by rwa [go_st]
    obtain ⟨p, r, rfl, hp⟩ := bucketComplete_facts hn (s.otu.go e) x hkind htag h0 h1 hst
    exact ⟨_, r, exec_cmdComplete_at s e n (some x) hv hn, hp⟩
  · obtain ⟨p, rfl, hp⟩ := stateChange_facts hn hst (s.otu.go e) ((s.otu.go e).eng n).st.cur
    exact ⟨_, exec_engineStateChange_at s e n st hv hn hst, hp⟩
  · obtain ⟨p, rfl, hframe, hword, hshown, hregs, hothers⟩ := wrapFixed_facts hn hc hf hr (s.otu.go e) hv0 hst
    exact ⟨_, exec_wrap_fixed s e v hv hn hc hf hr hst, hframe, hword, hshown, fun a hctr hev => hregs a (not_ctrRegs_of_ne hctr hev), hothers⟩
  · obtain ⟨p, rfl, hp⟩ := wrapPmc_facts hn hk (s.otu.go e) hv0 ⟨hstart, hpmc⟩
    exact ⟨_, exec_wrap_pmc s e v hv hn hk hst, hp⟩

end Sys2Proof.Machine.EngineCounters
end

section
namespace Sys2Proof.Machine.EngineCounters
open Sys2Proof Sys2Proof.Machine.FleetTime Sys2Proof.Machine.Accords

/-! ### ENGINE_CYCLE (04 R97, R98, R104, R108 to R111) -/

/-- `p` is `o` before the slots of a cycle: with the marks of earlier cycles settled and the die's own cycles counted. -/
structure CycleBegun (o p : Otu) : Prop where
  frame : p = { o with regs := p.regs, dctr := p.dctr, cyc := p.cyc, gch := p.gch, mirror := p.mirror, staleDue := p.staleDue }
  step : p.cyc.step = o.cyc.step
  regs : ∀ a, a ≠ OTU_CAN_EVENTS → OtuR.get p a = OtuR.get o a

theorem staleMirrors_step (o : Otu) (tag : Nat) : (o.staleMirrors tag).cyc.step = o.cyc.step := by
  rw [Otu.staleMirrors]
  refine foldl_keeps (fun o : Otu => o.cyc.step) _ (fun _ _ => ?_) _ o
  rfl

theorem settleMarks_step (o : Otu) : o.settleMarks.cyc.step = o.cyc.step := by
  rw [Otu.settleMarks]
  refine foldl_keeps (fun o : Otu => o.cyc.step) _ (fun _ _ => ?_) _ _
  exact staleMirrors_step _ _

theorem CycleBegun.trans {o p q : Otu} (h : CycleBegun o p) (k : CycleBegun p q) : CycleBegun o q := by
  refine ⟨?_, k.step.trans h.step, fun a ha => (k.regs a ha).trans (h.regs a ha)⟩
  have hq := k.frame
  rw [h.frame] at hq
  exact hq

theorem settleMarks_begun (o : Otu) : CycleBegun o o.settleMarks := by
  refine ⟨?_, settleMarks_step o, settleMarks_get o⟩
  have hframe := (settleMarks_settled o).frame
  generalize o.settleMarks = q at hframe
  rw [hframe]

theorem dctrAdd_begun (o : Otu) (i n : Nat) : CycleBegun o (o.dctrAdd i n) := ⟨rfl, rfl, fun _ _ => rfl⟩

theorem gchAdd_begun (o : Otu) (i n : Nat) : CycleBegun o (o.gchAdd i n) := ⟨rfl, rfl, fun _ _ => rfl⟩

/-- R71, R113: the die's counts of a cycle. -/
theorem dieShown_begun (o : Otu) (m a b d : Nat) :
    CycleBegun o (((((({ o with cyc := { o.cyc with die := m } } : Otu).dctrAdd 1 a).dctrAdd 2 b).dctrAdd 4 d).gchAdd 32 b).gchAdd 33 d) := by
  have hshown : CycleBegun o { o with cyc := { o.cyc with die := m } } := ⟨rfl, rfl, fun _ _ => rfl⟩
  have hadded := ((dctrAdd_begun { o with cyc := { o.cyc with die := m } } 1 a).trans (dctrAdd_begun _ 2 b)).trans (dctrAdd_begun _ 4 d)
  exact (hshown.trans hadded).trans ((gchAdd_begun _ 32 b).trans (gchAdd_begun _ 33 d))

theorem dieCycle_begun (o : Otu) (c : EngCycle) : CycleBegun o (o.dieCycle c) := dieShown_begun o _ _ _ _

theorem cycleBegun (o : Otu) (c : EngCycle) : CycleBegun o (o.settleMarks.dieCycle c) := (settleMarks_begun o).trans (dieCycle_begun _ c)

theorem CycleBegun.eng {o p : Otu} (h : CycleBegun o p) (e : Nat) : p.eng e = o.eng e := by
  rw [Otu.eng, h.frame]
  rfl

theorem CycleBegun.lt {o p : Otu} (h : CycleBegun o p) : p.lt = o.lt := by rw [h.frame]

theorem CycleBegun.queues {o p : Otu} (h : CycleBegun o p) : p.queues = o.queues := by rw [h.frame]

theorem CycleBegun.ctr {o p : Otu} (h : CycleBegun o p) {e c : Nat} (he : e < 512) (hc : c < 32) :
    OtuR.get p (OTU_ENG_CTR e c) = OtuR.get o (OTU_ENG_CTR e c) := by
  refine h.regs _ fun hev => ?_
  have hlt := ctr_lt he hc
  rw [hev] at hlt
  exact absurd hlt (by decide)

theorem evsel_ne_canEvents (e k : Nat) : OTU_ENG_EVSEL e k ≠ OTU_CAN_EVENTS := by
  unfold OTU_ENG_EVSEL OTU_CAN_EVENTS
  omega

theorem CycleBegun.selection {o p : Otu} (h : CycleBegun o p) (e : Nat) : SameSelection e o p where
  lt := h.lt
  clk := by rw [h.frame]
  period := by rw [h.frame]
  grants := by rw [h.frame]
  step := h.step
  evAt := by rw [h.eng]
  evOld := by rw [h.eng]
  admits := by rw [h.eng]
  evsel := fun k _ => h.regs _ (evsel_ne_canEvents e k)

theorem CycleBegun.pmcX {o p : Otu} (h : CycleBegun o p) {e k : Nat} (hk : k < 8) (c : EngCycle) (l : Slots) :
    pmcX p e c l k = pmcX o e c l k := by
  have hsel := h.selection e
  rw [EngineCounters.pmcX, EngineCounters.pmcX, hsel.evLatched hk, hsel.plFor hk]
  exact xNow_congr h.queues (by rw [h.eng]) (by rw [h.eng]) c l _ _

/-- The slots of a cycle are classed by the engine's state and its queue. -/
theorem CycleBegun.cycleSlots {o p : Otu} (h : CycleBegun o p) (e : Nat) (c : EngCycle) : p.cycleSlots e c = o.cycleSlots e c := by
  have hready : p.ready e c.decoded = o.ready e c.decoded := by
    rw [Otu.ready, Otu.ready, Otu.queue, Otu.queue, h.eng, h.lt, h.queues]
  rw [Otu.cycleSlots, Otu.cycleSlots, hready, h.eng, h.lt]

/-- A cycle of an engine that is not ACTIVE counts at the die alone. -/
theorem exec_engineCycle_resting (s : State) (e : Edge) (n : Nat) (c : EngCycle) (hv : s.otu.invalid = false)
    (hst : (s.otu.eng n).st.inForce (s.otu.go e).lt ≠ 0) : exec (.engineCycle n c e) s = .next (s.withOtu ((s.otu.go e).settleMarks.dieCycle c)) := by
  have hb := cycleBegun (s.otu.go e) c
  rw [exec_engineCycle, execEngineCycle, State.onOtu_with s _ hv]
  refine congrArg (fun o => Host.Outcome.next (s.withOtu o)) (if_pos (Bool.or_eq_true_iff.2 (.inr (decide_eq_true ?_))))
  rw [hb.eng, hb.lt]
  exact hst

/-- R97 to R111, R188: the slots of an ACTIVE engine's cycle, then its canary bucket. -/
def engineCycled (o : Otu) (e : Nat) (c : EngCycle) : Otu := (o.slotCycles e c (o.cycleSlots e c) 1).canaryCycle e

theorem exec_engineCycle_active (s : State) (e : Edge) (n : Nat) (c : EngCycle) (hv : s.otu.invalid = false) (hn : n < 512)
    (hst : (s.otu.eng n).st.inForce (s.otu.go e).lt = 0) :
    exec (.engineCycle n c e) s = .next (s.withOtu (engineCycled ((s.otu.go e).settleMarks.dieCycle c) n c)) := by
  have hb := cycleBegun (s.otu.go e) c
  rw [exec_engineCycle, execEngineCycle, State.onOtu_with s _ hv]
  refine congrArg (fun o => Host.Outcome.next (s.withOtu o)) (if_neg fun h => ?_)
  rcases Bool.or_eq_true_iff.1 h with h512 | hactive
  · exact absurd (of_decide_eq_true h512) (Nat.not_le.2 hn)
  · rw [hb.eng, hb.lt] at hactive
    exact of_decide_eq_true hactive hst

/-- `p` is `o` with engines, their counters and the die's counted. -/
def EngineFrame (o p : Otu) : Prop := p = { o with engs := p.engs, dctr := p.dctr, regs := p.regs, cyc := p.cyc }

theorem EngineFrame.trans {o p q : Otu} (h : EngineFrame o p) (k : EngineFrame p q) : EngineFrame o q := by
  rw [EngineFrame] at *
  rw [h] at k
  exact k

/-- What a cycle changes beside its engine's registers. -/
theorem CycleBegun.cycled {o p q : Otu} (h : CycleBegun o p) (k : EngineFrame p q) :
    q = { o with regs := q.regs, engs := q.engs, dctr := q.dctr, cyc := q.cyc, gch := q.gch, mirror := q.mirror, staleDue := q.staleDue } := by
  rw [EngineFrame, h.frame] at k
  rw [k]

/-- `p` is `o` after the bucket of engine `e` filled and paid for its canary. -/
structure CanaryPaid (e : Nat) (o p : Otu) : Prop where
  frame : EngineFrame o p
  others : ∀ m, m ≠ e → p.eng m = o.eng m
  regs : ∀ a, ¬ pmcRegs e a → OtuR.get p a = OtuR.get o a
  free : (o.eng e).occupied o.lt = false → ∀ a, OtuR.get p a = OtuR.get o a

theorem canaryCycle_eq (o : Otu) (e : Nat) : ∃ y, o.canaryCycle e =
    if (o.eng e).occupied o.lt then ((o.setEng e y).dctrAdd 0x43 1).tap e 0xE4 0 1 else o.setEng e y := ⟨_, rfl⟩

theorem canaryCycle_paid {e : Nat} (he : e < 512) (o : Otu) : CanaryPaid e o (o.canaryCycle e) := by
  obtain ⟨y, hy⟩ := canaryCycle_eq o e
  have hset (m : Nat) (hm : m ≠ e) : (o.setEng e y).eng m = o.eng m := Otu.eng_setEng_ne o y hm.symm
  rw [hy]
  by_cases hocc : (o.eng e).occupied o.lt = true
  · have hframe : EngineFrame o ((o.setEng e y).dctrAdd 0x43 1) := rfl
    have htap := tap_counts he ((o.setEng e y).dctrAdd 0x43 1) 0xE4 0 1
    rw [if_pos hocc]
    exact ⟨hframe.trans htap.frame, fun m hm => (htap.others m hm).trans (hset m hm), htap.regs, fun hfree => absurd (hocc.symm.trans hfree) (by decide)⟩
  · rw [if_neg hocc]
    exact ⟨rfl, hset, fun _ _ => rfl, fun _ _ => rfl⟩

section Cycle

variable {e : Nat} (he : e < 512) (o : Otu) (c : EngCycle) (hst : (o.eng e).st.inForce o.lt = 0)
include he hst

theorem engineCycled_frame : EngineFrame o (engineCycled o e c) :=
  .trans (slotCycles_counts he o c (o.cycleSlots e c) 1 hst).frame (canaryCycle_paid he _).frame

theorem engineCycled_others {m : Nat} (hm : m ≠ e) : (engineCycled o e c).eng m = o.eng m :=
  ((canaryCycle_paid he _).others m hm).trans ((slotCycles_counts he o c _ 1 hst).others m hm)

theorem engineCycled_regs {a : Nat} (ha : ¬ ctrRegs e a) : OtuR.get (engineCycled o e c) a = OtuR.get o a :=
  ((canaryCycle_paid he _).regs a fun h => ha (pmcRegs_ctr e a h)).trans ((slotCycles_counts he o c _ 1 hst).regs a ha)

/-- A fixed counter counts what the slots of the cycle give it. -/
theorem engineCycled_fixed {d : Nat} (hd : d < 32) (hf : d = 0 ∨ 9 ≤ d) : OtuR.get (engineCycled o e c) (OTU_ENG_CTR e d) =
    counted (ctrWidth d) (OtuR.get o (OTU_ENG_CTR e d)) (amountOf d (slotAdds (o.cycleSlots e c) (engKind e) 1)) :=
  ((canaryCycle_paid he _).regs _ (fixed_not_pmcRegs he hd hf)).trans (slotCycles_added he hd hf o c _ 1 hst).word

/-- A PMC with no canary on its engine counts what its event selection gives. -/
theorem engineCycled_pmc {k : Nat} (hk : k < 8) (h : PlainCycle e o) (hx : (o.eng e).xAt ≠ o.lt) (hocc : (o.eng e).occupied o.lt = false) :
    OtuR.get (engineCycled o e c) (OTU_ENG_CTR e (k + 1)) = counted 48 (OtuR.get o (OTU_ENG_CTR e (k + 1)))
      (evAmount (o.evLatched e k) (Tbl.get (fun _ => 0) ((o.eng e).roll o.lt).xprev k) (pmcX o e c (o.cycleSlots e c) k)) := by
  have hcounts := slotCycles_counts he o c (o.cycleSlots e c) 1 hst
  refine ((canaryCycle_paid he _).free ?_ _).trans (slotCycles_pmc he hk o c _ hst h hx)
  rw [hcounts.lt, hcounts.keeps (fun x => x.occupied o.lt) fun _ => rfl, hocc]

end Cycle

theorem counted_ite (w word : Nat) (P : Prop) [Decidable P] : counted w word (if P then 1 else 0) = if P then (addWord w word 1).1 else word := by
  by_cases h : P
  · rw [if_pos h, if_pos h]
    rfl
  · rw [if_neg h, if_neg h]
    rfl

end Sys2Proof.Machine.EngineCounters
end

section
namespace Sys2Proof.Machine.EngineCounters
open Sys2Proof Sys2Proof.Machine.FleetTime Sys2Proof.Machine.Accords

/-! ### ENG_SNAP (04 R112) -/

/-- `p` is `o` but for the values of registers. -/
def WordsOnly (o p : Otu) : Prop := p = { o with regs := p.regs }

theorem WordsOnly.trans {o p q : Otu} (h : WordsOnly o p) (k : WordsOnly p q) : WordsOnly o q := by
  rw [WordsOnly] at *
  rw [h] at k
  exact k

theorem WordsOnly.eng {o p : Otu} (h : WordsOnly o p) (e : Nat) : p.eng e = o.eng e := by
  rw [h]
  rfl

theorem set_words (o : Otu) (a v : Nat) : WordsOnly o (OtuR.set o a v) := rfl

theorem foldl_set_words {α : Type} (a v : α → Nat) (l : List α) (o : Otu) : WordsOnly o (l.foldl (fun o x => OtuR.set o (a x) (v x)) o) := by
  induction l generalizing o with
  | nil => rfl
  | cons x r ih => exact (set_words o _ _).trans (ih _)

/-- The counters of a snapshot in buffer `b`, with the words `f`. -/
def snapWords (b : Nat) (f : Nat → Nat) (l : List Nat) (o : Otu) : Otu :=
  (l.map fun c => (c, f c)).foldl (fun o p => OtuR.set o (OTU_ENG_SNAP b p.1) p.2) o

theorem snap_ne_snap (b : Nat) {j c : Nat} (h : j ≠ c) : OTU_ENG_SNAP b j ≠ OTU_ENG_SNAP b c := by
  unfold OTU_ENG_SNAP
  omega

theorem snapWords_get (b : Nat) (f : Nat → Nat) (l : List Nat) (o : Otu) (j : Nat) :
    OtuR.get (snapWords b f l o) (OTU_ENG_SNAP b j) = if j ∈ l then f j % 2 ^ 64 else OtuR.get o (OTU_ENG_SNAP b j) := by
  induction l generalizing o with
  | nil => rfl
  | cons c r ih =>
    refine (ih (OtuR.set o (OTU_ENG_SNAP b c) (f c))).trans ?_
    by_cases hr : j ∈ r
    · rw [if_pos hr, if_pos (List.mem_cons_of_mem c hr)]
    · by_cases hc : j = c
      · rw [if_neg hr, if_pos (List.mem_cons.2 (.inl hc)), hc, OtuR.get_set_same]
      · rw [if_neg hr, if_neg fun h => (List.mem_cons.1 h).elim hc hr, OtuR.get_set_ne _ _ (snap_ne_snap b hc).symm]

theorem snapWords_other (b : Nat) (f : Nat → Nat) (l : List Nat) (o : Otu) {a : Nat} (h : ∀ c ∈ l, a ≠ OTU_ENG_SNAP b c) :
    OtuR.get (snapWords b f l o) a = OtuR.get o a := by
  induction l generalizing o with
  | nil => rfl
  | cons c r ih => exact (ih _ fun d hd => h d (.tail c hd)).trans (OtuR.get_set_ne o _ (h c (.head r)).symm)

/-- R112: a snapshot's status: the engine, VALID, and the count of snapshots. -/
def snapStatus (e n : Nat) : Nat := e + 2 ^ 9 + 2 ^ 16 * ((n + 1) % 65536)

/-- A snapshot's counters and CMD_SEQ. -/
def snapCounters (o : Otu) (b e : Nat) : Otu := OtuR.set (snapWords b (o.latchWord e) (List.range 32) o) (OTU_ENG_SNAP_CMD_SEQ b) (o.latchWord e 32)

/-- A snapshot's times. -/
def snapTimes (b : Nat) (o : Otu) : Otu := OtuR.set (OtuR.set o (OTU_ENG_SNAP_FT b) o.ft) (OTU_ENG_SNAP_LT b) o.lt

theorem snap_eq (o : Otu) (b e : Nat) : o.snap b e =
    OtuR.set (snapTimes b (snapCounters o b e)) (OTU_ENG_SNAP_STATUS b) (snapStatus e (OtuR.fld o (OTU_ENG_SNAP_STATUS b) 16 16)) := rfl

theorem snapCounters_words (o : Otu) (b e : Nat) : WordsOnly o (snapCounters o b e) := (foldl_set_words _ _ _ o).trans (set_words _ _ _)

theorem snapTimes_words (b : Nat) (o : Otu) : WordsOnly o (snapTimes b o) := rfl

theorem snapTimes_other (b : Nat) (o : Otu) {a : Nat} (hf : a ≠ OTU_ENG_SNAP_FT b) (hl : a ≠ OTU_ENG_SNAP_LT b) : OtuR.get (snapTimes b o) a = OtuR.get o a := by
  rw [snapTimes, OtuR.get_set_ne _ _ hl.symm, OtuR.get_set_ne _ _ hf.symm]

theorem snapStatus_fields {e : Nat} (he : e < 512) (n : Nat) : getF (snapStatus e n % 2 ^ 64) 0 9 = e ∧ bit (snapStatus e n % 2 ^ 64) 9 = true ∧
    getF (snapStatus e n % 2 ^ 64) 16 16 = (n + 1) % 65536 := by
  have hmod : snapStatus e n % 2 ^ 64 = snapStatus e n := by
    unfold snapStatus
    omega
  rw [hmod, bit_testBit, Nat.testBit_eq_decide_div_mod_eq, decide_eq_true_eq]
  simp only [getF, Nat.shiftRight_eq_div_pow, snapStatus]
  omega

/-- A snapshot takes all counters of its engine at once. -/
theorem snap_facts {e : Nat} (he : e < 512) (o : Otu) (b : Nat) : ∃ p, o.snap b e = p ∧ p = { o with regs := p.regs } ∧
    (∀ j, j < 32 → OtuR.get p (OTU_ENG_SNAP b j) = o.latchWord e j % 2 ^ 64) ∧
    OtuR.get p (OTU_ENG_SNAP_CMD_SEQ b) = o.latchWord e 32 % 2 ^ 64 ∧ OtuR.get p (OTU_ENG_SNAP_FT b) = o.ft % 2 ^ 64 ∧
    OtuR.get p (OTU_ENG_SNAP_LT b) = o.lt % 2 ^ 64 ∧ OtuR.fld p (OTU_ENG_SNAP_STATUS b) 0 9 = e ∧ OtuR.flag p (OTU_ENG_SNAP_STATUS b) 9 = true ∧
    OtuR.fld p (OTU_ENG_SNAP_STATUS b) 16 16 = (OtuR.fld o (OTU_ENG_SNAP_STATUS b) 16 16 + 1) % 65536 ∧
    ∀ a, (a < OTU_ENG_SNAP_CMD b ∨ OTU_ENG_SNAP_CMD b + 0x200 ≤ a) → OtuR.get p a = OtuR.get o a := by
  have hwords := snapCounters_words o b e
  have hft : (snapCounters o b e).ft = o.ft := by rw [hwords]; rfl
  have hlt : (snapCounters o b e).lt = o.lt := by rw [hwords]
  obtain ⟨heng, hvalid, hcount⟩ := snapStatus_fields he (OtuR.fld o (OTU_ENG_SNAP_STATUS b) 16 16)
  have hcmd : OTU_ENG_SNAP_CMD b = snapBase b := rfl
  have hstatus : OTU_ENG_SNAP_STATUS b = snapBase b + 0x4 := rfl
  have hseq : OTU_ENG_SNAP_CMD_SEQ b = snapBase b + 0x8 := rfl
  have hftAt : OTU_ENG_SNAP_FT b = snapBase b + 0x10 := rfl
  have hltAt : OTU_ENG_SNAP_LT b = snapBase b + 0x18 := rfl
  have hctr (j : Nat) : OTU_ENG_SNAP b j = snapBase b + 0x100 + 8 * j := rfl
  have hother (a : Nat) (h4 : a ≠ snapBase b + 0x4) (h10 : a ≠ snapBase b + 0x10) (h18 : a ≠ snapBase b + 0x18) :
      OtuR.get (OtuR.set (snapTimes b (snapCounters o b e)) (OTU_ENG_SNAP_STATUS b) (snapStatus e (OtuR.fld o (OTU_ENG_SNAP_STATUS b) 16 16))) a =
        OtuR.get (snapCounters o b e) a := by
    rw [OtuR.get_set_ne _ _ h4.symm, snapTimes_other b _ h10 h18]
  rw [snap_eq]
  refine ⟨_, rfl, (hwords.trans (snapTimes_words b _)).trans (set_words _ _ _), fun j hj => ?_, ?_, ?_, ?_, ?_, ?_, ?_, fun a ha => ?_⟩
  · have hat := hctr j
    rw [hother _ (by omega) (by omega) (by omega), snapCounters, OtuR.get_set_ne _ _ (by omega), snapWords_get, if_pos (List.mem_range.2 hj)]
  · rw [hother _ (by omega) (by omega) (by omega), snapCounters, OtuR.get_set_same]
  · rw [OtuR.get_set_ne _ _ (by omega), snapTimes, OtuR.get_set_ne _ _ (by omega), OtuR.get_set_same, hft]
  · rw [OtuR.get_set_ne _ _ (by omega), snapTimes, OtuR.get_set_same, hlt]
  · rw [OtuR.fld, OtuR.get_set_same, heng]
  · rw [OtuR.flag, OtuR.get_set_same, hvalid]
  · rw [OtuR.fld, OtuR.get_set_same, hcount]
  · rw [hother a (by omega) (by omega) (by omega), snapCounters, OtuR.get_set_ne _ _ (by omega), snapWords_other]
    intro c hc
    have hat := hctr c
    have hc32 := List.mem_range.1 hc
    omega

theorem exec_engSnap_otu (s : State) (e : Edge) (value : Nat) (hv : s.otu.invalid = false) :
    exec (.engSnap .otu value e) s = .next (s.withOtu ((s.otu.go e).snap 0 (getF value 0 9))) := by
  rw [exec_engSnap, execEngSnap, State.onOtu_with s _ hv]

/-- R452: clearing a window's buffer changes registers, and what is left to clear. -/
theorem settleWindow_words (o : Otu) (w : Nat) : ∃ g, WordsOnly { o with winGone := g } (o.settleWindow w) := by
  unfold Otu.settleWindow
  split
  · split
    · exact ⟨_, ((((foldl_set_words (fun c => OTU_ENG_SNAP (1 + w) c) (fun _ => 0) (List.range 32) _).trans (set_words _ _ _)).trans
        (set_words _ _ _)).trans (set_words _ _ _)).trans (set_words _ _ _)⟩
    · exact ⟨_, rfl⟩
  · exact ⟨_, rfl⟩

theorem settleWindow_eng (o : Otu) (w e : Nat) : (o.settleWindow w).eng e = o.eng e := by
  obtain ⟨g, hg⟩ := settleWindow_words o w
  exact hg.eng e

theorem exec_engSnap_window (s : State) (e : Edge) (value w tag : Nat) (hv : s.otu.invalid = false)
    (hw : ((s.otu.go e).settleWindow w).winTag w = some tag) : exec (.engSnap (.tenant w) value e) s =
      .next (s.withOtu (if (s.otu.eng (getF value 0 9)).tag == tag then ((s.otu.go e).settleWindow w).snap (1 + w) (getF value 0 9)
        else OtuR.setFld ((s.otu.go e).settleWindow w) (OTU_ENG_SNAP_STATUS (1 + w)) 10 1 1)) := by
  have heng : ((s.otu.go e).settleWindow w).eng (getF value 0 9) = s.otu.eng (getF value 0 9) := settleWindow_eng (s.otu.go e) w _
  rw [exec_engSnap, execEngSnap, State.onOtu_with s _ hv]
  simp only [hw, heng]

/-- A refused snapshot sets DENIED alone. -/
theorem denied_facts (o : Otu) (a : Nat) : ∃ p, OtuR.setFld o a 10 1 1 = p ∧ p = { o with regs := p.regs } ∧ OtuR.flag p a 10 = true ∧
    ∀ b, b ≠ a → OtuR.get p b = OtuR.get o b := by
  refine ⟨_, rfl, set_words _ _ _, ?_, fun b hb => OtuR.get_setFld_ne o 10 1 1 hb.symm⟩
  rw [OtuR.flag, OtuR.setFld, OtuR.get_set_same, bit_mod _ _ _ (by decide), bit_testBit, testBit_setF, if_pos (by decide)]
  rfl

/-! ### GCH_SAMPLE (04 R113, R114) -/

theorem foldl_gchAdd (f : Nat → Nat) (l : List Nat) (o : Otu) : ∃ m, l.foldl (fun o n => o.gchAdd n (f n)) o = { o with gch := m } := by
  induction l generalizing o with
  | nil => exact ⟨_, rfl⟩
  | cons n r ih =>
    obtain ⟨m, hm⟩ := ih (o.gchAdd n (f n))
    exact ⟨m, hm⟩

theorem gchStore_words (o : Otu) (t : Nat) (b : List Byte) :
    WordsOnly { o with gchSeq := (o.gchSeq + 1) % 2 ^ 32, gchNext := nextMultiple t (OtuR.fld o OTU_GCH_CTRL 1 10 * 4000) } (o.gchStore t b) := by
  have hwords (p : Otu) (a : Nat) : WordsOnly p (p.writeWords a b 72) := Otu.writeWords_regs 72 a b p
  exact ((hwords _ _).trans (set_words _ _ _)).trans (set_words _ _ _)

/-- Storing a sample keeps the control of the samples. -/
theorem gchStore_ctrl (o : Otu) (t : Nat) (b : List Byte) : OtuR.get (o.gchStore t b) OTU_GCH_CTRL = OtuR.get o OTU_GCH_CTRL := by
  unfold Otu.gchStore
  rw [OtuR.get_set_ne _ _ (by decide), OtuR.get_set_ne _ _ (by decide), writeWords_get]
  · rfl
  · exact .inl (Nat.lt_of_lt_of_le (by decide) (Nat.le_add_right 0x8000 _))

/-- R113: the bytes of a sample. -/
def sampleBytes (o : Otu) (values : List Nat) (mask : Nat) : List Byte :=
  gchBytes (o.actGrade + 8 * b2n o.trayLock) o.gchSeq o.gchNext o.lt ((mask ||| gchOwn) % 2 ^ 43)
    ((gchCounts.foldl (fun o n => o.gchAdd n (values.getD n 0)) o).gchValues values)

/-- A stored sample, sent where streaming is on. -/
def sampleSent (o : Otu) (b : List Byte) : Otu := if OtuR.flag o OTU_GCH_CTRL 11 then o.send 6 0 0x08 0 b else o

theorem exec_gchSample_taken (s : State) (e : Edge) (values : List Nat) (mask : Nat) (hv : s.otu.invalid = false)
    (h : (OtuR.flag (s.otu.go e) OTU_GCH_CTRL 0 && (s.otu.go e).due (s.otu.go e).gchNext) = true) : ∃ m, exec (.gchSample values mask e) s =
      .next (s.withOtu (sampleSent (Otu.gchStore { s.otu.go e with gch := m } (s.otu.go e).gchNext (sampleBytes (s.otu.go e) values mask))
        (sampleBytes (s.otu.go e) values mask))) := by
  obtain ⟨m, hm⟩ := foldl_gchAdd (fun n => values.getD n 0) gchCounts (s.otu.go e)
  refine ⟨m, ?_⟩
  rw [exec_gchSample, execGchSample, State.onOtu_with s _ hv, sampleBytes, ← hm]
  refine congrArg (fun o => Host.Outcome.next (s.withOtu o)) ((if_neg (by rw [h]; decide)).trans ?_)
  rw [hm]
  rfl

theorem exec_gchSample_idle (s : State) (e : Edge) (values : List Nat) (mask : Nat) (hv : s.otu.invalid = false)
    (h : (OtuR.flag (s.otu.go e) OTU_GCH_CTRL 0 && (s.otu.go e).due (s.otu.go e).gchNext) = false) :
    exec (.gchSample values mask e) s = .next (s.withOtu (s.otu.go e)) := by
  rw [exec_gchSample, execGchSample, State.onOtu_with s _ hv]
  exact congrArg (fun o => Host.Outcome.next (s.withOtu o)) (if_pos (by rw [h]; rfl))

/-- `p` is `o` after a sample: the next sequence number is `n`. -/
def Sampled (n : Nat) (o p : Otu) : Prop :=
  p = { o with gchSeq := n, gchNext := p.gchNext, regs := p.regs, eq := p.eq, eqs := p.eqs, gch := p.gch }

theorem Sampled.send {n : Nat} {o p : Otu} (h : Sampled n o p) (kind inst rtype tag : Nat) (body : List Byte) : Sampled n o (p.send kind inst rtype tag body) := by
  have hsend := send_all p kind inst rtype tag body
  generalize p.send kind inst rtype tag body = q at hsend
  rw [Sampled] at *
  rw [h] at hsend
  rw [hsend]

/-- Sending a record changes no register. -/
theorem send_get (o : Otu) (kind inst rtype tag : Nat) (body : List Byte) (a : Nat) : OtuR.get (o.send kind inst rtype tag body) a = OtuR.get o a := rfl

theorem gchStore_sampled (o : Otu) (m : List (Nat × Nat)) (t : Nat) (b : List Byte) :
    Sampled ((o.gchSeq + 1) % 2 ^ 32) o (Otu.gchStore { o with gch := m } t b) ∧ (Otu.gchStore { o with gch := m } t b).eq = o.eq := by
  have hwords := gchStore_words { o with gch := m } t b
  generalize Otu.gchStore { o with gch := m } t b = q at hwords
  rw [Sampled, hwords]
  exact ⟨rfl, rfl⟩

theorem sample_facts (o : Otu) (m : List (Nat × Nat)) (b : List Byte) : ∃ p, sampleSent (Otu.gchStore { o with gch := m } o.gchNext b) b = p ∧
    Sampled ((o.gchSeq + 1) % 2 ^ 32) o p ∧ OtuR.get p OTU_GCH_LAST_SEQ = o.gchSeq % 2 ^ 64 ∧
    (OtuR.flag o OTU_GCH_CTRL 11 = true → ∃ r, p.eqGet (o.eqOf 6 0 0) = o.eqGet (o.eqOf 6 0 0) ++ [r] ∧ r.rtype = 8 ∧ r.body = b) ∧
    (OtuR.flag o OTU_GCH_CTRL 11 = false → p.eq = o.eq) := by
  obtain ⟨hframe, heq⟩ := gchStore_sampled o m o.gchNext b
  have hseq := Otu.gchStore_lastSeq { o with gch := m } o.gchNext b
  have hctrl : OtuR.flag (Otu.gchStore { o with gch := m } o.gchNext b) OTU_GCH_CTRL 11 = OtuR.flag o OTU_GCH_CTRL 11 :=
    flag_of_get (gchStore_ctrl { o with gch := m } o.gchNext b) 11
  generalize Otu.gchStore { o with gch := m } o.gchNext b = q at hframe heq hseq hctrl
  rw [sampleSent, hctrl]
  by_cases hon : OtuR.flag o OTU_GCH_CTRL 11 = true
  · rw [if_pos hon]
    have hqueue : q.eqGet (o.eqOf 6 0 0) = o.eqGet (o.eqOf 6 0 0) := by rw [Otu.eqGet, heq]; rfl
    have hsent := eqGet_send q 6 0 8 0 b
    rw [show q.eqOf 6 0 0 = o.eqOf 6 0 0 from rfl, hqueue] at hsent
    exact ⟨_, rfl, hframe.send 6 0 8 0 b, (send_get q 6 0 8 0 b _).trans hseq, fun _ => ⟨_, hsent, rfl, rfl⟩, fun hoff => absurd (hon.symm.trans hoff) (by decide)⟩
  · rw [if_neg hon]
    exact ⟨_, rfl, hframe, hseq, fun h => absurd h hon, fun _ => heq⟩

end Sys2Proof.Machine.EngineCounters
end

section
namespace Sys2Proof.Machine.EngineCounters
open Sys2Proof Sys2Proof.Machine.FleetTime Sys2Proof.Machine.Accords

/-! ### What a cycle, a snapshot and a sample do -/

/-- A cycle of an ACTIVE engine, counter by counter. -/
theorem activeCycle_facts {n : Nat} (hn : n < 512) (g : Otu) (c : EngCycle) (l : Slots) (hst : (g.eng n).st.inForce g.lt = 0) (hl : l = g.cycleSlots n c) :
    ∃ o, engineCycled (g.settleMarks.dieCycle c) n c = o ∧
      o = { g with regs := o.regs, engs := o.engs, dctr := o.dctr, cyc := o.cyc, gch := o.gch, mirror := o.mirror, staleDue := o.staleDue } ∧
      (∀ d, d < 32 → d = 0 ∨ 9 ≤ d → OtuR.get o (OTU_ENG_CTR n d) =
        counted (ctrWidth d) (OtuR.get g (OTU_ENG_CTR n d)) (amountOf d (slotAdds l (engKind n) 1))) ∧
      (∀ k, k < 8 → PlainCycle n g → (g.eng n).xAt ≠ g.lt → (g.eng n).occupied g.lt = false → OtuR.get o (OTU_ENG_CTR n (k + 1)) =
        counted 48 (OtuR.get g (OTU_ENG_CTR n (k + 1)))
          (evAmount (g.evLatched n k) (Tbl.get (fun _ => 0) ((g.eng n).roll g.lt).xprev k) (pmcX g n c l k))) ∧
      (∀ a, ¬ ctrRegs n a → OtuR.get o a = OtuR.get g.settleMarks a) ∧ ∀ m, m ≠ n → o.eng m = g.eng m := by
  have hb := cycleBegun g c
  have hdie (a : Nat) : OtuR.get (g.settleMarks.dieCycle c) a = OtuR.get g.settleMarks a := rfl
  generalize g.settleMarks.dieCycle c = q at hb hdie
  have hq : (q.eng n).st.inForce q.lt = 0 := by rwa [hb.eng, hb.lt]
  rw [← hb.cycleSlots n c] at hl
  subst hl
  refine ⟨_, rfl, hb.cycled (engineCycled_frame hn q c hq), fun d hd hf => ?_, fun k hk hplain hx hocc => ?_, fun a ha => ?_, fun m hm => ?_⟩
  · rw [engineCycled_fixed hn q c hq hd hf, hb.ctr hn hd]
  · have hplainq : PlainCycle n q := ⟨by rw [hb.eng, hb.lt]; exact hplain.start, by rw [hb.eng, hb.lt]; exact hplain.pmc⟩
    rw [engineCycled_pmc hn q c hq hk hplainq (by rwa [hb.eng, hb.lt]) (by rwa [hb.eng, hb.lt]), hb.ctr hn (by omega), (hb.selection n).evLatched hk,
      hb.pmcX hk, hb.eng, hb.lt]
  · rw [engineCycled_regs hn q c hq ha, hdie]
  · rw [engineCycled_others hn q c hq hm, hb.eng]

/-- Settles O18, by what the slots of one cycle add to each counter and by the registers that a snapshot and a sample write. -/
theorem cyclesSnapshotsAndChannelSamples : Obligations.CyclesSnapshotsAndChannelSamples := by
  unfold Obligations.CyclesSnapshotsAndChannelSamples
  rintro s n c e _ hv rfl hn
  refine ⟨fun hst => exec_engineCycle_resting s e n c hv hst, fun l hst hl => ?_, ?_, ?_, ?_, fun values mask hon hdue => ?_, fun values mask hidle =>
    exec_gchSample_idle s e values mask hv hidle⟩
  · obtain ⟨o, ho, hframe, hfixed, hpmc, hregs, hothers⟩ := activeCycle_facts hn (s.otu.go e) c l hst hl
    refine ⟨o, (exec_engineCycle_active s e n c hv hn hst).trans (by rw [ho]), hframe, ?_, fun j hj => ?_, fun j hj => ?_, fun j hj => ?_,
      fun k x hk hstart hwrite hx hocc hamount => ?_, fun a hctr hev => hregs a (not_ctrRegs_of_ne hctr hev), hothers⟩
    · rw [hfixed 0 (by decide) (.inl rfl), slotAdds_cycles]
      rfl
    · rw [hfixed (13 + j) (by omega) (by omega), slotAdds_activity l _ 1 hj, counted_ite]
      rfl
    · rw [hfixed (9 + j) (by omega) (by omega), slotAdds_slots l _ 1 hj, Nat.one_mul]
      rfl
    · rw [hfixed (16 + j) (by omega) (by omega), slotAdds_reason, counted_ite]
      rfl
    · rw [hpmc k hk ⟨hstart, hwrite⟩ hx hocc, hamount]
      rfl
  · rintro value rfl
    obtain ⟨o, ho, hsnap⟩ := snap_facts hn (s.otu.go e) 0
    exact ⟨o, (exec_engSnap_otu s e value hv).trans (by rw [ho]), hsnap⟩
  · rintro value w tag _ rfl hw htag
    obtain ⟨o, ho, hdenied⟩ := denied_facts ((s.otu.go e).settleWindow w) (OTU_ENG_SNAP_STATUS (1 + w))
    exact ⟨o, (exec_engSnap_window s e value w tag hv hw).trans (by rw [beq_false_of_ne htag, ← ho]; rfl), hdenied⟩
  · rintro value w _ rfl hw
    rw [exec_engSnap_window s e value w _ hv hw, beq_self_eq_true]
    rfl
  · have hready : (OtuR.flag (s.otu.go e) OTU_GCH_CTRL 0 && (s.otu.go e).due (s.otu.go e).gchNext) = true := Bool.and_eq_true_iff.2 ⟨hon, hdue⟩
    obtain ⟨m, hm⟩ := exec_gchSample_taken s e values mask hv hready
    obtain ⟨o, ho, hframe, hseq, hsent, hkept⟩ := sample_facts (s.otu.go e) m (sampleBytes (s.otu.go e) values mask)
    exact ⟨o, hm.trans (by rw [ho]), hframe, hseq, hsent, hkept⟩

end Sys2Proof.Machine.EngineCounters
end

section
namespace Sys2Proof.Machine.QueuesWaitsHangs
open Sys2Proof Sys2Proof.Machine.FleetTime Sys2Proof.Machine.Accords Sys2Proof.Machine.EngineCounters

/-! ### Entries and owners of queues (05 R121, R122, R131) -/

/-- R122: queue `q` with one entry more. -/
def entered (x : QSt) (q ft : Nat) (c : EnqFact) : QSt :=
  { x with depth := x.depth + 1, headAt := if x.depth = 0 then ft else x.headAt
           levels := if q < 512 then x.levels ++ [c.level] else [], full := x.full || c.full }

/-- R122: a queue with its head gone. -/
def left (x : QSt) (ft : Nat) : QSt :=
  { x with depth := x.depth - 1, levels := x.levels.drop 1, headAt := ft, dequeued := satAdd 32 x.dequeued 1 }

theorem upto_depth (x : QSt) (lt : Nat) : (x.upto lt).depth = x.depth := by
  unfold QSt.upto
  split <;> rfl

theorem exec_queueEnqueue_other (s : State) (e : Edge) (q : Nat) (c : EnqFact) (hv : s.otu.invalid = false) (hq : q < 4096) (h : 512 ≤ q) :
    exec (.queueEnqueue q c e) s =
      .next (s.withOtu ((s.otu.go e).setQueue q (entered ((s.otu.queue q).upto (s.otu.go e).lt) q (s.otu.go e).ft c))) := by
  rw [exec_queueEnqueue, execQueueEnqueue, State.onOtu_with s _ hv]
  exact congrArg (fun o => Host.Outcome.next (s.withOtu o)) ((if_pos hq).trans (if_neg (by omega)))

theorem exec_queueEnqueue_command (s : State) (e : Edge) (q : Nat) (c : EnqFact) (hv : s.otu.invalid = false) (h : q < 512) :
    exec (.queueEnqueue q c e) s =
      .next (s.withOtu (((s.otu.go e).setQueue q (entered ((s.otu.queue q).upto (s.otu.go e).lt) q (s.otu.go e).ft c)).tap q 0x61 c.level 1)) := by
  rw [exec_queueEnqueue, execQueueEnqueue, State.onOtu_with s _ hv]
  exact congrArg (fun o => Host.Outcome.next (s.withOtu o)) ((if_pos (by omega)).trans (if_pos h))

/-- R106: what a push shows at the engine's counters. -/
theorem pushed_facts {q : Nat} (hq : q < 512) (o : Otu) (cls level n : Nat) : ∃ p, o.tap q cls level n = p ∧
    p = { o with engs := p.engs, regs := p.regs, cyc := p.cyc } ∧ (∀ m, m ≠ q → p.eng m = o.eng m) ∧
    ∀ a, a ≠ OTU_ENG_EVENTS q → (∀ k, k < 8 → a ≠ OTU_ENG_CTR q (k + 1)) → OtuR.get p a = OtuR.get o a := by
  have hcounts := tap_counts hq o cls level n
  exact ⟨_, rfl, tap_tapped o q cls level n, hcounts.others, fun a hev hctr => hcounts.regs a (not_pmcRegs hev hctr)⟩

theorem exec_queueDequeue_entry (s : State) (e : Edge) (q : Nat) (hv : s.otu.invalid = false) (hq : q < 4096) (h : 0 < (s.otu.queue q).depth) :
    exec (.queueDequeue q e) s =
      .next (s.withOtu (((s.otu.go e).setQueue q (left ((s.otu.queue q).upto (s.otu.go e).lt) (s.otu.go e).ft)).progress (s.otu.queueOwner q))) := by
  have hdepth : 0 < ((s.otu.queue q).upto (s.otu.go e).lt).depth := by rwa [upto_depth]
  rw [exec_queueDequeue, execQueueDequeue, State.onOtu_with s _ hv]
  exact congrArg (fun o => Host.Outcome.next (s.withOtu o)) (if_pos (by
    rw [Bool.and_eq_true, decide_eq_true_eq, decide_eq_true_eq]; exact ⟨hq, hdepth⟩))

theorem exec_queueDequeue_empty (s : State) (e : Edge) (q : Nat) (hv : s.otu.invalid = false) (h : (s.otu.queue q).depth = 0) :
    exec (.queueDequeue q e) s = .next (s.withOtu (s.otu.go e)) := by
  have hdepth : ((s.otu.queue q).upto (s.otu.go e).lt).depth = 0 := by rwa [upto_depth]
  rw [exec_queueDequeue, execQueueDequeue, State.onOtu_with s _ hv]
  exact congrArg (fun o => Host.Outcome.next (s.withOtu o)) (if_neg (by
    rw [Bool.and_eq_true, decide_eq_true_eq, decide_eq_true_eq]
    exact fun hpos => absurd hpos.2 (by rw [show ((s.otu.go e).queue q).upto (s.otu.go e).lt = (s.otu.queue q).upto (s.otu.go e).lt from rfl, hdepth]; decide)))

/-- R131: an entry that leaves a queue changes that queue, and notes its owner's progress. -/
theorem leftQueue_facts (o : Otu) (q : Nat) (x : QSt) (tag : Nat) : ∃ p, (o.setQueue q x).progress tag = p ∧
    p = { o with queues := p.queues, jobs := (o.progress tag).jobs } ∧ p.queue q = x ∧ ∀ k, k ≠ q → p.queue k = o.queue k := by
  have hjobs := progress_jobs_congr o (o.setQueue q x) tag rfl rfl
  refine ⟨{ (o.setQueue q x) with jobs := (o.progress tag).jobs }, ?_, rfl, Otu.queue_setQueue o q x, fun k hk => Otu.queue_setQueue_ne o x hk.symm⟩
  rw [progress_frame (o.setQueue q x), hjobs]

/-- R121: a DMA ring or a link queue takes an owner. -/
theorem queueOwn_other (o : Otu) {q : Nat} (tag : Nat) (h : 512 ≤ q) (hq : q < 4096) : o.queueOwn q tag =
    o.setQueue q { o.queue q with owner := tag, ownerChanged := (o.queue q).ownerChanged || (o.queue q).owner != tag } :=
  if_pos (by rw [Bool.and_eq_true, decide_eq_true_eq, decide_eq_true_eq]; exact ⟨h, hq⟩)

/-- R121: a command queue follows its engine. -/
theorem queueOwn_command (o : Otu) {q : Nat} (tag : Nat) (h : q < 512) : o.queueOwn q tag = o :=
  if_neg (by rw [Bool.and_eq_true, decide_eq_true_eq]; omega)

theorem exec_queueBind_own (s : State) (e : Edge) (q tag : Nat) (hv : s.otu.invalid = false) :
    exec (.queueBind q tag e) s = .next (s.withOtu ((s.otu.go e).queueOwn q (tag % 65536))) := by
  rw [exec_queueBind, execQueueBind, State.onOtu_with s _ hv]

theorem exec_queueUnbind_own (s : State) (e : Edge) (q : Nat) (hv : s.otu.invalid = false) :
    exec (.queueUnbind q e) s = .next (s.withOtu ((s.otu.go e).queueOwn q 0)) := by
  rw [exec_queueUnbind, execQueueUnbind, State.onOtu_with s _ hv]

/-! ### Samples of the die queues (05 R123 to R126) -/

theorem exec_queueSample_die (s : State) (e : Edge) (hv : s.otu.invalid = false) :
    exec (.queueSample .die e) s = .next (s.withOtu (s.otu.go e).sampleDie) := by
  rw [exec_queueSample, execQueueSample, State.onOtu_with s _ hv]

/-- `p` is `o` after a sample of its queues, whose records went out or were lost. -/
def SamplesTaken (o p : Otu) : Prop :=
  p = { o with queues := p.queues, qsLast := p.qsLast, qOld := p.qOld, qsLossy := p.qsLossy, regs := p.regs, jobs := p.jobs, eq := p.eq
               eqs := p.eqs, cyc := p.cyc }

theorem SamplesTaken.trans {o p q : Otu} (h : SamplesTaken o p) (k : SamplesTaken p q) : SamplesTaken o q := by
  rw [SamplesTaken] at *
  rw [h] at k
  exact k

theorem SamplesTaken.foldl {α : Type} {f : Otu → α → Otu} (h : ∀ o x, SamplesTaken o (f o x)) (l : List α) (o : Otu) : SamplesTaken o (l.foldl f o) := by
  induction l generalizing o with
  | nil => rfl
  | cons x r ih => exact (h o x).trans (ih _)

theorem jobLoss_taken (o : Otu) (tag : Nat) : SamplesTaken o (o.jobLoss tag) := rfl

theorem send_taken (o : Otu) (kind inst rtype tag : Nat) (body : List Byte) : SamplesTaken o (o.send kind inst rtype tag body) := rfl

theorem setQueue_taken (o : Otu) (q : Nat) (x : QSt) : SamplesTaken o (o.setQueue q x) := rfl

theorem sendSamples_taken (o : Otu) (inst seqReg : Nat) (rs : List (Nat × List Byte)) : SamplesTaken o (o.sendSamples inst seqReg rs).1 := by
  unfold Otu.sendSamples
  dsimp only
  split
  · have hlost : SamplesTaken o (OtuR.cnt o OTU_QS_LOST 0 32 1) := rfl
    exact hlost.trans (.foldl (fun p (r : Nat × List Byte) => jobLoss_taken p r.1) rs _)
  · have hseq : SamplesTaken o (OtuR.set o seqReg ((OtuR.get o seqReg + rs.length) % 2 ^ 32)) := rfl
    exact hseq.trans (.foldl (fun p (r : Nat × List Byte) => send_taken p 4 inst 0x05 r.1 r.2) rs _)

theorem sampleDie_taken (o : Otu) : SamplesTaken o o.sampleDie := by
  unfold Otu.sampleDie
  dsimp only
  split
  · rfl
  · split
    · rfl
    · next t _ _ =>
      have hqueues := SamplesTaken.foldl (fun p q => setQueue_taken p q ((p.queue q).sampled p.lt)) ((o.sampleTimes.filter (·.2 == t)).map (·.1)) o
      generalize List.foldl (fun (p : Otu) q => p.setQueue q ((p.queue q).sampled p.lt)) o _ = p at hqueues ⊢
      generalize qsRecords _ _ _ _ _ _ _ = rs
      generalize List.map _ _ = qs
      have hmoved : SamplesTaken o { p with qsLast := t, qOld := p.qOld.filter fun x => !qs.contains x.1 } := hqueues.trans rfl
      split
      · exact (hmoved.trans (sendSamples_taken _ 0 OTU_QS_SEQ rs)).trans rfl
      · exact hmoved

/-- R53, R123: of the samples, those of the earliest instant due are taken. -/
theorem earliest_sample {o : Otu} {q t : Nat} (hq : (q, t) ∈ o.sampleTimes) (h : ∀ y ∈ o.sampleTimes, t ≤ y.2) :
    (o.sampleTimes.map (·.2)).min? = some t := by
  refine List.min?_eq_some_iff.mpr ⟨List.mem_map_of_mem hq, fun b hb => ?_⟩
  obtain ⟨y, hy, rfl⟩ := List.mem_map.mp hb
  exact h y hy

theorem sampleDie_facts (o : Otu) (q t : Nat) (hq : (q, t) ∈ o.sampleTimes) (hdue : o.due t = true) (h : ∀ y ∈ o.sampleTimes, t ≤ y.2) :
    ∃ p, o.sampleDie = p ∧ SamplesTaken o p ∧ p.qsLast = t ∧
      ∀ k, p.queue k = if (k, t) ∈ o.sampleTimes then (o.queue k).sampled o.lt else o.queue k := by
  obtain ⟨hlast, hqueues⟩ := Otu.sampleDie_all o t (earliest_sample hq h) hdue
  exact ⟨_, rfl, sampleDie_taken o, hlast, hqueues⟩

/-- Settles O19, by what each command leaves of its queue, and of the others. -/
theorem queuesFollowTheirEntries : Obligations.QueuesFollowTheirEntries := by
  unfold Obligations.QueuesFollowTheirEntries
  rintro s q e _ _ hv rfl rfl
  refine ⟨?_, fun hq hdepth => ?_, exec_queueDequeue_empty s e q hv, fun tag h hq => ?_, fun h hq => ?_, fun tag h => ⟨?_, ?_⟩, fun hnone => ?_,
    fun t hq hdue hleast => ?_⟩
  · rintro full level _ hq rfl
    refine ⟨exec_queueEnqueue_other s e q ⟨full, level⟩ hv hq, fun h => ?_⟩
    obtain ⟨p, hp, hframe, hothers, hregs⟩ := pushed_facts h
      ((s.otu.go e).setQueue q (entered ((s.otu.queue q).upto (s.otu.go e).lt) q (s.otu.go e).ft ⟨full, level⟩)) 0x61 level 1
    exact ⟨p, (exec_queueEnqueue_command s e q ⟨full, level⟩ hv h).trans (by rw [hp]), hframe, hothers, hregs⟩
  · obtain ⟨p, hp, hframe, hqueue, hothers⟩ := leftQueue_facts (s.otu.go e) q (left ((s.otu.queue q).upto (s.otu.go e).lt) (s.otu.go e).ft) (s.otu.queueOwner q)
    exact ⟨p, (exec_queueDequeue_entry s e q hv hq hdepth).trans (by rw [hp]), hframe, hqueue, hothers⟩
  · rw [exec_queueBind_own s e q tag hv, queueOwn_other _ _ h hq]
    rfl
  · rw [exec_queueUnbind_own s e q hv, queueOwn_other _ _ h hq]
    rfl
  · rw [exec_queueBind_own s e q tag hv, queueOwn_command _ _ h]
  · rw [exec_queueUnbind_own s e q hv, queueOwn_command _ _ h]
  · rw [exec_queueSample_die s e hv, Otu.sampleDie_none _ hnone]
  · obtain ⟨p, hp, hframe, hlast, hqueues⟩ := sampleDie_facts (s.otu.go e) q t hq hdue hleast
    refine ⟨p, (exec_queueSample_die s e hv).trans (by rw [hp]), ?_, fun k hk => (hqueues k).trans (if_pos hk), fun k hk => (hqueues k).trans (if_neg hk)⟩
    rw [← hlast]
    exact hframe

end Sys2Proof.Machine.QueuesWaitsHangs
end

section
namespace Sys2Proof.Machine.QueuesWaitsHangs
open Sys2Proof Sys2Proof.Machine.FleetTime Sys2Proof.Machine.Accords Sys2Proof.Machine.EngineCounters

/-! ### Two records of one wait in a table of egress queues that is out of order (05 R128, R130, log entry 47)

The statement speaks of every state, and so also of a table of egress queues whose keys do not rise, which `Tbl.put` never makes
of one whose keys do. There a store under a key stands before the entry that it should replace, and the old records count twice
for the fill of the staging buffer: room for two records before the first of them is then no room for the second. -/

theorem fld_of_regs {o p : Otu} (h : p.regs = o.regs) (a lo w : Nat) : OtuR.fld p a lo w = OtuR.fld o a lo w := by
  simp only [OtuR.fld, OtuR.get, h]

theorem sendSync_room (o : Otu) (tag : Nat) (r : SyncRec) (h : o.queuedBytes 5 + 48 ≤ 32768) :
    o.sendSync tag r = o.send 5 0 0x06 tag (syncBytes r) := if_neg (by omega)

theorem sendSync_full (o : Otu) (tag : Nat) (r : SyncRec) (h : 32768 < o.queuedBytes 5 + 48) :
    o.sendSync tag r = (OtuR.ev (OtuR.cnt o OTU_SYNC_LOST 0 32 1) OTU_SYNC_EVENTS 0).jobLoss tag := if_pos h

/-- R130: a sync record that finds no room is counted. -/
theorem sendSync_lost (o : Otu) (tag : Nat) (r : SyncRec) (h : 32768 < o.queuedBytes 5 + 48) :
    OtuR.fld (o.sendSync tag r) OTU_SYNC_LOST 0 32 = satAdd 32 (OtuR.fld o OTU_SYNC_LOST 0 32) 1 := by
  rw [sendSync_full o tag r h]
  exact (fld_of_get (OtuR.get_ev_ne (OtuR.cnt o OTU_SYNC_LOST 0 32 1) 0 (by decide)) 0 32).trans (fld_cnt o _ 0 32 1 (by decide))

theorem sendWait_two (o : Otu) (tag : Nat) (r f : SyncRec) : o.sendWait tag (r, some f) = (o.sendSync tag r).sendSync 0 f := rfl

/-- A wait that is not cancelled and not short sends its record, and the fleet context's where that differs. -/
theorem exec_waitEnd_long (s : State) (e : Edge) (n : Nat) (w : OpenWait) (hv : s.otu.invalid = false) (hw : s.otu.waits.lookup n = some w)
    (h : 2 * OtuR.fld s.otu OTU_SYNC_CTRL 1 8 ≤ (s.otu.go e).lt - w.lt) : exec (.waitEnd n false e) s =
      .next (s.withOtu (({ s.otu.go e with waits := Tbl.del s.otu.waits n }).sendWait w.tag ((s.otu.go e).waitCopies w n 0 (s.otu.go e).ft))) := by
  have hclose : (s.otu.go e).closeWait n false =
      ({ s.otu.go e with waits := Tbl.del s.otu.waits n }).sendWait w.tag ((s.otu.go e).waitCopies w n 0 (s.otu.go e).ft) := by
    unfold Otu.closeWait
    rw [Otu.go_waits, hw]
    exact if_neg (Nat.not_lt.mpr h)
  rw [exec_waitEnd, execWaitEnd, State.onOtu_with s _ hv, hclose]

/-- A wait of engine 0 for job 7, whose holder is engine 1 of no job: hidden from job 7. -/
def hiddenWait : OpenWait := { info := ⟨0, 0, 0, some 0, some 1, 0⟩, tag := 7 }

/-- 16,400 bytes of sync records. -/
def waiting : List QRec := List.replicate 41 { kind := 5, body := zeros 400 }

/-- That wait is open, and queue 512 of those records is listed after queue 513. -/
def disorderedState : State :=
  { State.reset with otu := { State.reset.otu with waits := [(0, hiddenWait)], eq := [(513, [{}]), (512, waiting)] } }

/-- The wait ends in cycle 32, the first at which it is not short. -/
def endEdge : Edge := ⟨0, 32⟩

/-- The die as the wait's records go out. -/
def closing : Otu := { disorderedState.otu.go endEdge with waits := Tbl.del disorderedState.otu.waits 0 }

/-- The wait's copies for its job and for the fleet context. -/
def copies : SyncRec × SyncRec := (hiddenWait.record 0 0 absent 0 false, hiddenWait.record 0 0 absent 0 true)

theorem closing_copies : (disorderedState.otu.go endEdge).waitCopies hiddenWait 0 0 (disorderedState.otu.go endEdge).ft = (copies.1, some copies.2) := by
  decide +kernel

theorem disordered_room : disorderedState.otu.queuedBytes 5 = 16400 := by decide +kernel

theorem closing_room : closing.queuedBytes 5 = 16400 := by decide +kernel

/-- The job's copy leaves no room for the fleet context's. -/
theorem closing_full : (closing.send 5 0 0x06 hiddenWait.tag (syncBytes copies.1)).queuedBytes 5 = 32848 := by decide +kernel

theorem closing_lost : OtuR.fld (closing.sendWait hiddenWait.tag (copies.1, some copies.2)) OTU_SYNC_LOST 0 32 = 1 := by
  have hfirst := sendSync_room closing hiddenWait.tag copies.1 (by rw [closing_room]; decide)
  have hsecond := sendSync_lost (closing.send 5 0 0x06 hiddenWait.tag (syncBytes copies.1)) 0 copies.2 (by rw [closing_full]; decide)
  have hnone : OtuR.fld (closing.send 5 0 0x06 hiddenWait.tag (syncBytes copies.1)) OTU_SYNC_LOST 0 32 = 0 := by decide +kernel
  rw [hnone] at hsecond
  rw [sendWait_two, hfirst, hsecond]
  rfl

theorem closing_valid : disorderedState.otu.invalid = false := by decide +kernel

theorem closing_long : 2 * OtuR.fld disorderedState.otu OTU_SYNC_CTRL 1 8 ≤ (disorderedState.otu.go endEdge).lt - hiddenWait.lt := by
  decide +kernel

/-- Two dies that one step answers with are one die. -/
theorem otu_of_next {s : State} {o p : Otu} (h : (.next (s.withOtu o) : Host.Outcome State Fault Refusal) = .next (s.withOtu p)) : o = p :=
  congrArg State.otu (Host.Outcome.next.inj h)

theorem exec_closing : exec (.waitEnd 0 false endEdge) disorderedState =
    .next (disorderedState.withOtu (closing.sendWait hiddenWait.tag (copies.1, some copies.2))) :=
  closing_copies ▸ exec_waitEnd_long disorderedState endEdge 0 hiddenWait closing_valid rfl closing_long

/-- Refutes O20: in a table of egress queues that is out of order the first of a wait's two records doubles the fill of the
staging buffer, and the second is lost although there was room for both. -/
theorem not_waitsOpenAndClose : ¬ Obligations.WaitsOpenAndClose := by
  intro h
  obtain ⟨-, -, -, -, hclose, -⟩ := h disorderedState 0 endEdge _ closing_valid rfl
  obtain ⟨o, r, hexec, hframe, -⟩ := hclose hiddenWait false copies.1 (some copies.2) rfl closing_long (by
    rw [disordered_room]; decide) closing_copies
  rw [exec_closing] at hexec
  have ho := otu_of_next hexec
  have hregs : o.regs = disorderedState.otu.regs := by
    rw [hframe, Otu.go_regs]
  have hkept : OtuR.fld o OTU_SYNC_LOST 0 32 = OtuR.fld disorderedState.otu OTU_SYNC_LOST 0 32 := fld_of_regs hregs _ _ _
  rw [← ho, closing_lost] at hkept
  exact absurd hkept (by decide +kernel)

end Sys2Proof.Machine.QueuesWaitsHangs
end

section
namespace Sys2Proof.Machine.QueuesWaitsHangs
open Sys2Proof Sys2Proof.Machine.FleetTime Sys2Proof.Machine.Accords Sys2Proof.Machine.EngineCounters

/-! ### What a hang cut latches (05 R131, R132)

The die's mirrors are settled after the job is marked as hung, which reaches neither the mirrors nor the latch. -/

/-- A register above the engines' blocks does not enter a latch. -/
theorem latch_set_high (o : Otu) (a v : Nat) (h : 0xA0000 ≤ a) : (OtuR.set o a v).latch = o.latch := by
  have hev (e k : Nat) (he : e < 512) : (OtuR.set o a v).evLatched e k = o.evLatched e k := by
    have hb : OtuR.get (OtuR.set o a v) (if k < 8 then OTU_ENG_EVSEL e k else OTU_ENG_CFG_EPOCH e) =
        OtuR.get o (if k < 8 then OTU_ENG_EVSEL e k else OTU_ENG_CFG_EPOCH e) :=
      OtuR.get_set_ne o v (by split <;> simp only [OTU_ENG_EVSEL, OTU_ENG_CFG_EPOCH] <;> omega)
    simp only [Otu.evLatched, hb]
    rfl
  have hhdr (e : Nat) (he : e < 512) : (e, (OtuR.set o a v).latchHdr e) = (e, o.latchHdr e) := by
    simp only [Otu.latchHdr, hev e _ he]
    rfl
  have hctr : (OtuR.set o a v).latchCtrs = o.latchCtrs := by
    simp only [Otu.latchCtrs, OtuR.set]
    rw [filterMap_put _ _ _ _ (fun w => by simp; omega)]
    rfl
  have hseq : (OtuR.set o a v).latchSeqs = o.latchSeqs := by
    simp only [Otu.latchSeqs, OtuR.set]
    rw [filterMap_put _ _ _ _ (fun w => by simp; omega)]
    rfl
  have hall := List.map_congr_left fun e he => hhdr e (List.mem_range.mp he)
  simp only [Otu.latch, hctr, hseq, hall]

theorem latch_ev (o : Otu) (a k : Nat) (h : 0xA0000 ≤ a) : (OtuR.ev o a k).latch = o.latch := latch_set_high o a _ h

/-- `p` is `o` but for registers that no latch takes and the jobs. -/
structure LatchAlike (o p : Otu) : Prop where
  frame : p = { o with regs := p.regs, cyc := p.cyc, jobs := p.jobs }
  latch : ∀ d, ({ p with dctr := d }).latch = ({ o with dctr := d }).latch

theorem LatchAlike.discard {o p : Otu} (h : LatchAlike o p) (c : Nat) (m : MirrorSt) :
    LatchAlike (OtuR.ev ((o.setMir c m).dctrAdd 0x4A 1) OTU_CAN_EVENTS 5) (OtuR.ev ((p.setMir c m).dctrAdd 0x4A 1) OTU_CAN_EVENTS 5) := by
  refine ⟨by rw [h.frame]; rfl, fun d => ?_⟩
  calc
    _ = ({ p with dctr := d, mirror := (p.setMir c m).mirror }).latch := latch_ev { p with dctr := d, mirror := (p.setMir c m).mirror } _ 5 (by decide)
    _ = ({ o with dctr := d, mirror := (o.setMir c m).mirror }).latch := h.latch d
    _ = _ := (latch_ev { o with dctr := d, mirror := (o.setMir c m).mirror } _ 5 (by decide)).symm

theorem LatchAlike.foldl {α : Type} {f : Otu → α → Otu} (hf : ∀ o p x, LatchAlike o p → LatchAlike (f o x) (f p x)) (l : List α) {o p : Otu}
    (h : LatchAlike o p) : LatchAlike (l.foldl f o) (l.foldl f p) := by
  induction l generalizing o p with
  | nil => exact h
  | cons x r ih => exact ih (hf o p x h)

theorem LatchAlike.staleMirrors {o p : Otu} (h : LatchAlike o p) (tag : Nat) : LatchAlike (o.staleMirrors tag) (p.staleMirrors tag) := by
  have hm : p.mirror = o.mirror := by rw [h.frame]
  have he : p.engs = o.engs := by rw [h.frame]
  simp only [Otu.staleMirrors, hm, he]
  exact .foldl (fun o p x hop => hop.discard x.1 _) _ h

theorem LatchAlike.settleMarks {o p : Otu} (h : LatchAlike o p) : LatchAlike o.settleMarks p.settleMarks := by
  have hs : p.staleDue = o.staleDue := by rw [h.frame]
  have hl : p.lt = o.lt := by rw [h.frame]
  have hdue : p.staleDue.filter (·.1 < p.lt) = o.staleDue.filter (·.1 < o.lt) := by rw [hs, hl]
  have hstart : LatchAlike { o with staleDue := o.staleDue.filter (·.1 ≥ o.lt) } { p with staleDue := p.staleDue.filter (·.1 ≥ p.lt) } :=
    ⟨by rw [h.frame], fun d => h.latch d⟩
  unfold Otu.settleMarks
  rw [hdue]
  exact .foldl (fun o p x hop => hop.staleMirrors x.2) _ hstart

/-- Dies alike for the latch latch the same once their mirrors are settled. -/
theorem LatchAlike.settled_latch {o p : Otu} (h : LatchAlike o p) : p.settleMarks.latch = o.settleMarks.latch := by
  have hd : p.settleMarks.dctr = o.settleMarks.dctr := by rw [h.settleMarks.frame]
  calc
    _ = ({ o.settleMarks with dctr := p.settleMarks.dctr }).latch := h.settleMarks.latch p.settleMarks.dctr
    _ = _ := by rw [hd]

theorem latchAlike_updJob (o : Otu) (tag : Nat) (f : JobSt → JobSt) : LatchAlike o (o.updJob tag f) := ⟨rfl, fun _ => rfl⟩

theorem latchAlike_ev_updJob (o : Otu) (a k tag : Nat) (f : JobSt → JobSt) (h : 0xA0000 ≤ a) : LatchAlike o ((OtuR.ev o a k).updJob tag f) :=
  ⟨rfl, fun d => latch_ev { o with dctr := d } a k h⟩

/-! ### The hang cut (05 R131, R132) -/

/-- What a job's hang table reads of the die is the same. -/
structure HangAlike (o p : Otu) : Prop where
  waits : p.waits = o.waits
  engs : p.engs = o.engs
  queues : p.queues = o.queues
  lt : p.lt = o.lt
  clk : p.clk = o.clk
  rank : ∀ tag, p.rankOf tag = o.rankOf tag

theorem HangAlike.trans {o p q : Otu} (h : HangAlike o p) (k : HangAlike p q) : HangAlike o q :=
  ⟨k.waits.trans h.waits, k.engs.trans h.engs, k.queues.trans h.queues, k.lt.trans h.lt, k.clk.trans h.clk, fun tag => (k.rank tag).trans (h.rank tag)⟩

theorem HangAlike.ft {o p : Otu} (h : HangAlike o p) : p.ft = o.ft := by rw [Otu.ft, Otu.ft, h.clk]

theorem HangAlike.holderShown {o p : Otu} (h : HangAlike o p) (w : OpenWait) : p.holderShown w = o.holderShown w := by
  have heng : p.eng = o.eng := funext fun n => congrArg (Tbl.get _ · n) h.engs
  unfold Otu.holderShown
  rw [heng]

theorem HangAlike.hangTable {o p : Otu} (h : HangAlike o p) (tag : Nat) : p.hangTable tag = o.hangTable tag := by
  simp only [Otu.hangTable, Otu.waitCopies, h.holderShown, h.waits, h.rank]

theorem HangAlike.hangQueues {o p : Otu} (h : HangAlike o p) (tag t : Nat) : p.hangQueues tag t = o.hangQueues tag t := by
  simp only [Otu.hangQueues, Otu.queueOwner, Otu.queue, Otu.eng, h.queues, h.engs, h.lt]

theorem hangAlike_settleMarks (o : Otu) : HangAlike o o.settleMarks := by
  have hloc := settleMarks_get o OTU_PORT_LOC (by decide)
  refine ⟨?_, settleMarks_engs o, ?_, ?_, settleMarks_clk o, fun tag => ?_⟩
  · rw [(settleMarks_settled o).frame]
  · rw [(settleMarks_settled o).frame]
  · rw [(settleMarks_settled o).frame]
  · simp only [Otu.rankOf, Otu.job?, settleMarks_jobs, hloc]

/-- An update that keeps the tag and the rank of a job keeps every job's rank. -/
theorem find?_updFirst_rank (l : List JobSt) (t tag : Nat) (f : JobSt → JobSt) (ht : ∀ j, (f j).tag = j.tag) (hr : ∀ j, (f j).rank = j.rank) :
    ((updFirst (·.tag == t) f l).find? (·.tag == tag)).map (·.rank) = (l.find? (·.tag == tag)).map (·.rank) := by
  induction l with
  | nil => rfl
  | cons x r ih =>
    unfold updFirst
    split
    · simp only [List.find?_cons, ht]
      split
      · exact congrArg some (hr x)
      · rfl
    · simp only [List.find?_cons]
      split
      · rfl
      · exact ih

theorem rankOf_eq (o : Otu) (tag : Nat) : o.rankOf tag = if tag = 0 then OtuR.get o OTU_PORT_LOC % 2 ^ 17 else ((o.job? tag).map (·.rank)).getD 0 := by
  unfold Otu.rankOf
  cases o.job? tag <;> rfl

theorem hangAlike_updJob (o : Otu) (t : Nat) (f : JobSt → JobSt) (ht : ∀ j, (f j).tag = j.tag) (hr : ∀ j, (f j).rank = j.rank) :
    HangAlike o (o.updJob t f) := by
  refine ⟨rfl, rfl, rfl, rfl, rfl, fun tag => ?_⟩
  rw [rankOf_eq, rankOf_eq]
  exact congrArg (fun r : Option Nat => if tag = 0 then _ else r.getD 0) (find?_updFirst_rank o.jobs t tag f ht hr)

theorem hangAlike_ev (o : Otu) (a k : Nat) (h : a ≠ OTU_PORT_LOC) : HangAlike o (OtuR.ev o a k) := by
  refine ⟨rfl, rfl, rfl, rfl, rfl, fun tag => ?_⟩
  rw [rankOf_eq, rankOf_eq, OtuR.get_ev_ne o k h]
  rfl

/-- R132: what stands in the shadow set that a hang cut takes. -/
structure HangShadow (o : Otu) (tag cause id : Nat) (sh : Shadow) (c : HangCopy) : Prop where
  kind : sh.kind = 2
  hang : sh.hang = some c
  cause : c.cause = cause
  id : c.id = id
  waits : c.waits = (o.hangTable tag).map (·.1)
  whole : c.whole = (o.hangTable tag).filterMap (·.2)
  queues : c.queues = (o.hangQueues tag o.ft).flatten
  lt : sh.lt = o.lt
  image : sh.image = o.settleMarks.latch

theorem HangShadow.of_alike {o p : Otu} {tag cause id : Nat} {sh : Shadow} {c : HangCopy} (h : HangShadow p tag cause id sh c)
    (ha : HangAlike o p) (hl : LatchAlike o p) : HangShadow o tag cause id sh c :=
  { kind := h.kind, hang := h.hang, cause := h.cause, id := h.id
    waits := h.waits.trans (by rw [ha.hangTable])
    whole := h.whole.trans (by rw [ha.hangTable])
    queues := h.queues.trans (by rw [ha.hangQueues, ha.ft])
    lt := h.lt.trans ha.lt
    image := h.image.trans hl.settled_latch }

/-- What a hang cut keeps of a die whose mirrors are settled. -/
def hangCopy (o : Otu) (tag cause : Nat) (id : Option Nat) : HangCopy :=
  { cause, id := id.getD o.ft, waits := (o.hangTable tag).map (·.1), whole := (o.hangTable tag).filterMap (·.2), queues := (o.hangQueues tag o.ft).flatten }

/-- The shadow that a hang cut takes of such a die. -/
def hangShadow (o : Otu) (tag cause : Nat) (id : Option Nat) : Shadow :=
  { kind := 2, hdr := o.cutHdr 2 (OtuR.get o OTU_ACC_LAST_NO) o.ft 0 false false o.latch, image := o.latch, lt := o.lt, ctxs := [(tag, o.rankOf tag)]
    stream := OtuR.flag o OTU_ACC_CTRL 2, hang := some (hangCopy o tag cause id) }

theorem hangShadow_settled (o : Otu) (tag cause : Nat) (id : Option Nat) :
    HangShadow o tag cause (id.getD o.ft) (hangShadow o.settleMarks tag cause id) (hangCopy o.settleMarks tag cause id) := by
  have ha := hangAlike_settleMarks o
  refine ⟨rfl, rfl, rfl, ?_, ?_, ?_, ?_, ha.lt, rfl⟩
  · rw [hangCopy, ha.ft]
  · rw [hangCopy, ha.hangTable]
  · rw [hangCopy, ha.hangTable]
  · rw [hangCopy, ha.hangQueues, ha.ft]

theorem hangCut_free (o : Otu) (tag cause : Nat) (id : Option Nat) (b : Bool) (h : o.acc.freeSet = some b) : o.hangCut tag cause id =
    OtuR.set { o.settleMarks with acc := { (o.acc.setShadow b (some (hangShadow o.settleMarks tag cause id))) with lastB := b } }
      OTU_HANG_LAST_T o.settleMarks.ft := by
  simp only [Otu.hangCut, h, settleMarks_acc]
  rfl

theorem settled_set {o q : Otu} (h : MarksSettled o q) (x : AccSt) (a v : Nat) : OtuR.set { q with acc := x } a v =
    { o with regs := (OtuR.set { q with acc := x } a v).regs, acc := x, cyc := q.cyc, dctr := q.dctr, mirror := q.mirror, staleDue := q.staleDue } :=
  congrArg (fun y : Otu => { y with acc := x, regs := (OtuR.set { q with acc := x } a v).regs }) h.frame

/-- R132: a hang cut with a set free. -/
theorem hangCut_taken (o : Otu) (tag cause : Nat) (id : Option Nat) (b : Bool) (h : o.acc.freeSet = some b) : ∃ p, o.hangCut tag cause id = p ∧
    p = { o with regs := p.regs, acc := { (o.acc.setShadow b (some (hangShadow o.settleMarks tag cause id))) with lastB := b }, cyc := p.cyc
                 dctr := p.dctr, mirror := p.mirror, staleDue := p.staleDue } ∧
    OtuR.get p OTU_HANG_LAST_T = o.ft % 2 ^ 64 ∧ ∀ a, a ≠ OTU_CAN_EVENTS → a ≠ OTU_HANG_LAST_T → OtuR.get p a = OtuR.get o a := by
  rw [hangCut_free o tag cause id b h]
  refine ⟨_, rfl, settled_set (settleMarks_settled o) _ _ _, ?_, fun a hc hl => ?_⟩
  · rw [OtuR.get_set_same, (hangAlike_settleMarks o).ft]
  · exact (OtuR.get_set_ne _ _ hl.symm).trans (settleMarks_get o a hc)

/-- R132: a hang cut with both sets in use waits for one. -/
theorem hangCut_waits (o : Otu) (tag cause : Nat) (id : Option Nat) (h : o.acc.freeSet = none) :
    o.hangCut tag cause id = { o with acc := { o.acc with hangPending := o.acc.hangPending ++ [(tag, cause, id.getD absent)] } } := by
  simp only [Otu.hangCut, h]

/-! ### HANG_DETECTED and HANG_CUT (05 R131, R132) -/

/-- The die whose job is marked as hung. -/
def hung (o : Otu) (tag : Nat) : Otu := (OtuR.ev o OTU_SYNC_EVENTS 1).updJob tag fun j => { j with hang := true }

theorem hung_hangAlike (o : Otu) (tag : Nat) : HangAlike o (hung o tag) :=
  (hangAlike_ev o OTU_SYNC_EVENTS 1 (by decide)).trans (hangAlike_updJob _ tag _ (fun _ => rfl) fun _ => rfl)

theorem hung_latchAlike (o : Otu) (tag : Nat) : LatchAlike o (hung o tag) := latchAlike_ev_updJob o _ 1 tag _ (by decide)

theorem hung_signalled (o : Otu) (tag : Nat) : OtuR.flag (hung o tag) OTU_SYNC_EVENTS 1 = true := OtuR.flag_ev o _ 1 (by decide)

theorem hung_get (o : Otu) (tag a : Nat) (h : a ≠ OTU_SYNC_EVENTS) : OtuR.get (hung o tag) a = OtuR.get o a := OtuR.get_ev_ne o 1 h.symm

theorem exec_hangDetected_none (s : State) (tag : Nat) (e : Edge) (hv : s.otu.invalid = false) (hj : s.otu.job? tag = none) :
    exec (.hangDetected tag e) s = .next (s.withOtu (s.otu.go e)) := by
  refine congrArg _ ((State.onOtu_with s _ hv).trans (congrArg _ ?_))
  have hgo : (s.otu.go e).job? tag = none := hj
  simp only [hgo]

theorem exec_hangDetected_hung (s : State) (tag : Nat) (e : Edge) (j : JobSt) (hv : s.otu.invalid = false) (hj : s.otu.job? tag = some j)
    (hon : OtuR.flag s.otu OTU_HANG_CTRL 0 = true) (hst : s.otu.clk.st ≠ 0) (hh : j.hang = false) (hp : (s.otu.go e).pendingWork tag = true)
    (hage : OtuR.fld s.otu OTU_HANG_CTRL 1 14 * 4000000 ≤ (s.otu.go e).clk.ft - j.lastProgress) :
    exec (.hangDetected tag e) s = .next (s.withOtu ((hung (s.otu.go e) tag).hangCut tag 0 none)) := by
  refine congrArg _ ((State.onOtu_with s _ hv).trans (congrArg _ ?_))
  have hgo : (s.otu.go e).job? tag = some j := hj
  have hclk : (s.otu.go e).clk.st ≠ 0 := by rwa [otu_go_clk]
  have hfld : OtuR.fld (s.otu.go e) OTU_HANG_CTRL 1 14 = OtuR.fld s.otu OTU_HANG_CTRL 1 14 := rfl
  have hflag : OtuR.flag (s.otu.go e) OTU_HANG_CTRL 0 = true := hon
  simp [hgo, hclk, hfld, hflag, hh, hp, hage, hung]

theorem exec_hangCut_due (s : State) (tag : Nat) (e : Edge) (j : JobSt) (hv : s.otu.invalid = false) (hj : s.otu.job? tag = some j)
    (hdue : (s.otu.go e).due j.hangAt = true) : exec (.hangCut tag e) s =
      .next (s.withOtu (((s.otu.go e).updJob tag fun j => { j with hangAt := absent }).hangCut tag 1 (some j.hangAt))) := by
  refine congrArg _ ((State.onOtu_with s _ hv).trans (congrArg _ ?_))
  have hgo : (s.otu.go e).job? tag = some j := hj
  simp only [hgo, hdue, if_true]

theorem exec_hangCut_idle (s : State) (tag : Nat) (e : Edge) (hv : s.otu.invalid = false)
    (hj : ∀ j, s.otu.job? tag = some j → (s.otu.go e).due j.hangAt = false) (hp : s.otu.acc.hangPending = []) :
    exec (.hangCut tag e) s = .next (s.withOtu (s.otu.go e)) := by
  refine congrArg _ ((State.onOtu_with s _ hv).trans (congrArg _ ?_))
  have hw : (s.otu.go e).hangCutWaiting = s.otu.go e := hangCutWaiting_none _ hp
  cases hjob : s.otu.job? tag with
  | none =>
    have hgo : (s.otu.go e).job? tag = none := hjob
    simp only [hgo, hw, ite_self]
  | some j =>
    have hgo : (s.otu.go e).job? tag = some j := hjob
    simp only [hgo, hj j hjob, Bool.false_eq_true, if_false, hw, ite_self]

/-- R131, R132: a job is found hung with a shadow set free. -/
theorem hung_taken (o : Otu) (tag : Nat) (b : Bool) (h : o.acc.freeSet = some b) : ∃ p sh c, (hung o tag).hangCut tag 0 none = p ∧
    p = { o with jobs := (o.updJob tag fun j => { j with hang := true }).jobs, regs := p.regs, acc := { (o.acc.setShadow b (some sh)) with lastB := b }
                 cyc := p.cyc, dctr := p.dctr, mirror := p.mirror, staleDue := p.staleDue } ∧
    HangShadow o tag 0 o.ft sh c ∧ OtuR.flag p OTU_SYNC_EVENTS 1 = true ∧ OtuR.get p OTU_HANG_LAST_T = o.ft % 2 ^ 64 := by
  have ha := hung_hangAlike o tag
  obtain ⟨p, hp, hframe, hlast, hget⟩ := hangCut_taken (hung o tag) tag 0 none b h
  have hsh := (hangShadow_settled (hung o tag) tag 0 none).of_alike ha (hung_latchAlike o tag)
  rw [Option.getD_none, ha.ft] at hsh
  exact ⟨p, _, _, hp, hframe, hsh, (flag_of_get (hget _ (by decide) (by decide)) 1).trans (hung_signalled o tag), hlast.trans (by rw [ha.ft])⟩

/-- R131, R132: a job is found hung with both sets in use. -/
theorem hung_waits (o : Otu) (tag : Nat) (h : o.acc.freeSet = none) : ∃ p, (hung o tag).hangCut tag 0 none = p ∧
    p = { o with jobs := (o.updJob tag fun j => { j with hang := true }).jobs, regs := p.regs, cyc := p.cyc
                 acc := { o.acc with hangPending := o.acc.hangPending ++ [(tag, 0, absent)] } } ∧
    OtuR.flag p OTU_SYNC_EVENTS 1 = true ∧ ∀ a, a ≠ OTU_SYNC_EVENTS → OtuR.get p a = OtuR.get o a :=
  ⟨_, hangCut_waits (hung o tag) tag 0 none h, rfl, hung_signalled o tag, fun a ha => hung_get o tag a ha⟩

/-- R132, R143: the job-wide cut at T_h with a shadow set free. -/
theorem jobWide_taken (o : Otu) (tag t : Nat) (b : Bool) (h : o.acc.freeSet = some b) : ∃ p sh c,
    (o.updJob tag fun j => { j with hangAt := absent }).hangCut tag 1 (some t) = p ∧
    p = { o with jobs := (o.updJob tag fun j => { j with hangAt := absent }).jobs, regs := p.regs, acc := { (o.acc.setShadow b (some sh)) with lastB := b }
                 cyc := p.cyc, dctr := p.dctr, mirror := p.mirror, staleDue := p.staleDue } ∧
    HangShadow o tag 1 t sh c ∧ OtuR.get p OTU_HANG_LAST_T = o.ft % 2 ^ 64 := by
  have ha := hangAlike_updJob o tag (fun j => { j with hangAt := absent }) (fun _ => rfl) fun _ => rfl
  obtain ⟨p, hp, hframe, hlast, -⟩ := hangCut_taken (o.updJob tag fun j => { j with hangAt := absent }) tag 1 (some t) b h
  exact ⟨p, _, _, hp, hframe, (hangShadow_settled _ tag 1 (some t)).of_alike ha (latchAlike_updJob o tag _), hlast.trans (by rw [ha.ft])⟩

end Sys2Proof.Machine.QueuesWaitsHangs
end

section
namespace Sys2Proof.Machine.QueuesWaitsHangs
open Sys2Proof Sys2Proof.Machine.FleetTime Sys2Proof.Machine.Accords Sys2Proof.Machine.EngineCounters

/-! ### What touches neither the tree nor a hang graph

Heart notes, flacons, uplinks, events and the answers of a broadcast leave Priord's tree and its hang graphs alone. -/

/-- `p` has the tree and the hang graphs of `o`. -/
structure Aside (o p : Prd) : Prop where
  tree : p.tree = o.tree
  hangs : p.hangs = o.hangs

theorem Aside.refl (o : Prd) : Aside o o := ⟨rfl, rfl⟩

/-- A step after others, read from the last one back. -/
theorem Aside.after {o p q : Prd} (k : Aside p q) (h : Aside o p) : Aside o q := ⟨k.tree.trans h.tree, k.hangs.trans h.hangs⟩

theorem Aside.foldl {α : Type} {f : Prd → α → Prd} (h : ∀ o x, Aside o (f o x)) (l : List α) (o : Prd) : Aside o (l.foldl f o) := by
  induction l generalizing o with
  | nil => exact .refl o
  | cons x r ih => exact (ih _).after (h o x)

theorem aside_ite {c : Prop} [Decidable c] {o p q : Prd} (hp : Aside o p) (hq : Aside o q) : Aside o (if c then p else q) := by
  split
  · exact hp
  · exact hq

theorem aside_ev (o : Prd) (a k : Nat) : Aside o (PrdR.ev o a k) := ⟨rfl, rfl⟩
theorem aside_event (o : Prd) (r : EvReq) : Aside o (o.event r) := ⟨Prd.event_tree o r, Prd.event_hangs o r⟩
theorem aside_setFlacon (o : Prd) (n : Nat) (f : Flacon) : Aside o (o.setFlacon n f) := ⟨rfl, rfl⟩
theorem aside_hnr (o : Prd) (h : Hnr) : Aside o { o with hnr := h } := ⟨rfl, rfl⟩

/-! #### Heart notes (06 R163, R169) -/

theorem aside_transfer (o : Prd) (n : Nat) (s : Seg) (later : List Seg) : Aside o (o.transfer n s later).1 := by
  unfold Prd.transfer
  split
  · exact (aside_event _ _).after ((aside_ev _ _ _).after ((aside_ev _ _ _).after ((aside_ev _ _ _).after (aside_setFlacon o n _))))
  · exact (aside_hnr _ _).after (aside_setFlacon o n _)

theorem aside_placeSeg (o : Prd) (s : Seg) (fuel : Nat) : Aside o (o.placeSeg s fuel) := by
  induction fuel generalizing o with
  | zero => exact aside_hnr o _
  | succ fuel ih =>
    unfold Prd.placeSeg
    split
    · exact aside_hnr o _
    · next n _ =>
      have h := aside_transfer o n s o.hnr.ring
      exact aside_ite h ((ih _).after h)

theorem aside_reclaim (o : Prd) (slot : Nat) : Aside o (o.reclaim slot) := by
  unfold Prd.reclaim
  split
  · exact .refl o
  · exact ⟨rfl, rfl⟩

theorem aside_closeSeg (o : Prd) : Aside o o.closeSeg :=
  (aside_hnr _ _).after ((aside_reclaim _ _).after (aside_ite (.refl o) (aside_placeSeg o _ 4)))

theorem aside_subRecord (o : Prd) (r : HRec) : Aside o (o.subRecord r) := aside_ite (.refl o) ⟨rfl, rfl⟩

theorem aside_hnrAdd (o : Prd) (r : HRec) : Aside o (o.hnrAdd r) :=
  (aside_subRecord _ r).after ((aside_hnr _ _).after (aside_ite (aside_closeSeg o) (.refl o)))

theorem aside_descFrom (o before : Prd) (fuel : Nat) : Aside o (o.descFrom before fuel) := by
  induction fuel generalizing o before with
  | zero => exact .refl o
  | succ fuel ih => exact aside_ite (.refl o) ((ih _ _).after (.foldl (fun a n => aside_hnrAdd a _) _ o))

theorem aside_hnrPut (o : Prd) (r : HRec) : Aside o (o.hnrPut r) := by
  have h : Aside o ((o.hnrAdd { r with at_ := o.ft }).descChanges o) := (aside_descFrom _ o 5).after (aside_hnrAdd o _)
  exact aside_ite (.refl o) ⟨h.tree, h.hangs⟩

/-! #### Freezes (06 R165 to R169) -/

theorem aside_takeSegs (o : Prd) (n : Nat) (l : List Seg) : Aside o (o.takeSegs n l).1 := by
  induction l generalizing o with
  | nil => exact .refl o
  | cons s l ih =>
    have h : Aside o (if (o.flacon n).takes && (o.flacon n).meets s then o.transfer n s l else (o, false)).1 := by
      split
      · exact aside_transfer o n s l
      · exact .refl o
    exact (ih _).after h

theorem aside_takeRing (o : Prd) (n : Nat) : Aside o (o.takeRing n) := by
  have h := aside_takeSegs o n ((if o.hnr.goneAt = o.ft then o.hnr.gone else []) ++ o.hnr.ring)
  exact aside_ite ⟨h.tree, h.hangs⟩ ⟨h.tree, h.hangs⟩

theorem aside_headLost (o : Prd) (n : Nat) : Aside o (o.headLost n) := aside_ite ((aside_ev _ _ _).after (aside_setFlacon o n _)) (.refl o)

theorem aside_takeSlot (o : Prd) (n : Nat) (f : Flacon) : Aside o (o.takeSlot n f) := by
  have h : Aside o ((o.setFlacon n { f with st := 3 }).takeRing n) := (aside_takeRing _ n).after (aside_setFlacon o n _)
  exact aside_ite ((aside_takeRing _ n).after ((aside_ev _ _ _).after (aside_setFlacon o n _)))
    (aside_ite ((aside_headLost _ n).after ((aside_setFlacon _ n _).after h)) ((aside_headLost _ n).after h))

theorem aside_refuseFreeze (o : Prd) (f : Flacon) : Aside o (o.refuseFreeze f) := (aside_event _ _).after (aside_ev o _ 4)

theorem aside_attachEvent (o : Prd) (f : Flacon) (x : Trigger) : Aside o (o.attachEvent f x) := (aside_event _ _).after (aside_ev o _ 6)

theorem aside_acceptFreeze (o : Prd) (f : Flacon) : Aside o (o.acceptFreeze f) := by
  unfold Prd.acceptFreeze
  dsimp only
  split
  · exact (aside_descFrom _ o 5).after ((aside_takeSlot _ _ _).after (aside_ite (aside_ev o _ 7) (.refl o)))
  · refine aside_ite ((aside_ev _ _ 5).after ?_) (aside_refuseFreeze o _)
    exact aside_ite ((aside_ev _ _ 7).after (aside_hnr o _)) (aside_hnr o _)

theorem aside_trayTrigger (o : Prd) (x : Trigger) : Aside o (o.trayTrigger x).1 := by
  unfold Prd.trayTrigger
  split
  · exact (aside_attachEvent _ _ x).after (aside_setFlacon o _ _)
  · split
    · exact (aside_attachEvent _ _ x).after (aside_hnr o _)
    · split
      · exact aside_refuseFreeze o _
      · exact aside_acceptFreeze o _

theorem aside_applyFreeze (o : Prd) (h : AtHdr) (x : FreezeMsg) : Aside o (o.applyFreeze h x).1 := by
  unfold Prd.applyFreeze
  dsimp only
  generalize (decide (h.scope = 3) || _) = homed
  cases homed with
  | false => exact .refl o
  | true =>
    have hlate : Aside o (PrdR.ev (o.actionLate 3 h.tAct h.tag) PRD_ATM_EVENTS 5) := (aside_ev _ _ _).after ((aside_event _ _).after (aside_ev o _ 7))
    exact (aside_acceptFreeze _ _).after (aside_ite hlate (.refl o))

/-! #### Messages (09 R238 to R241) -/

theorem aside_send (o : Prd) (dst cls k : Nat) (body : List Byte) : Aside o (o.send dst cls k body) := ⟨rfl, rfl⟩

theorem aside_send7 (o : Prd) (dst tag : Nat) (body : List Byte) : Aside o (o.send7 dst tag body) := ⟨rfl, rfl⟩

theorem aside_request (o : Prd) (kind tag : Nat) (fields : List Byte) : Aside o (o.request kind tag fields) :=
  .foldl (fun o i => aside_send7 o i tag _) _ o

theorem aside_sendChild (o : Prd) (b : BcastBody) (c : Child) : Aside o (o.sendChild b c) := by
  cases c <;> exact ⟨rfl, rfl⟩

theorem aside_answer (o : Prd) (dst : Option Nat) (type : Nat) (h : AtHdr) (payload : List Byte) : Aside o (o.answer dst type h payload) := by
  cases dst <;> exact ⟨rfl, rfl⟩

end Sys2Proof.Machine.QueuesWaitsHangs
end

section
namespace Sys2Proof.Machine.QueuesWaitsHangs
open Sys2Proof Sys2Proof.Machine.FleetTime Sys2Proof.Machine.Accords Sys2Proof.Machine.EngineCounters

/-! ### What a broadcast leaves of the tree (09 R237 to R241) -/

/-- `p` is `o` but for what its broadcasts have been answered. -/
structure BcastsKept (o p : Prd) : Prop where
  hangs : p.hangs = o.hangs
  tree : p.tree = { o.tree with bcasts := p.tree.bcasts }
  bodies : p.tree.bcasts.map (·.body) = o.tree.bcasts.map (·.body)

theorem Aside.bcastsKept {o p : Prd} (h : Aside o p) : BcastsKept o p := ⟨h.hangs, by rw [h.tree], by rw [h.tree]⟩

theorem BcastsKept.after {o p q : Prd} (k : BcastsKept p q) (h : BcastsKept o p) : BcastsKept o q :=
  ⟨k.hangs.trans h.hangs, k.tree.trans (by rw [h.tree]), k.bodies.trans h.bodies⟩

theorem bcastsKept_setBcast (o : Prd) (bseq : Nat) (f : Bcast → Bcast) (hf : ∀ b, (f b).body = b.body) : BcastsKept o (o.setBcast bseq f) :=
  ⟨rfl, rfl, map_updFirst _ f _ hf _⟩

theorem bcastsKept_closeBcast (o : Prd) (bseq : Nat) : BcastsKept o (o.closeBcast bseq) := by
  unfold Prd.closeBcast
  split
  · exact (Aside.refl o).bcastsKept
  · next b _ =>
    have hfirst : BcastsKept o (if b.complete && !b.gone then
        (o.setBcast bseq fun b' => { b' with closed := some b.total, gone := true }).answer b.sender 0x81 b.body.hdr (doneBytes b.total) else o) := by
      split
      · exact (aside_answer _ _ _ _ _).bcastsKept.after (bcastsKept_setBcast o bseq _ fun _ => rfl)
      · exact (Aside.refl o).bcastsKept
    refine (Aside.foldl (fun o w => aside_answer o _ _ _ _) _ _).bcastsKept.after (BcastsKept.after (bcastsKept_setBcast _ bseq _ ?_) hfirst)
    exact fun _ => rfl

/-- `p` is the node `o` once it has taken a message that is new there. -/
structure Taken (o p : Prd) (b : BcastBody) : Prop where
  hangs : p.hangs = o.hangs
  tree : p.tree = { o.tree.seeFault b with bmaps := p.tree.bmaps, bcasts := p.tree.bcasts, rootEpoch := p.tree.rootEpoch }
  held : ∃ x, x ∈ p.tree.bcasts ∧ x.body = b

theorem BcastsKept.taken {o p q : Prd} {b : BcastBody} (k : BcastsKept p q) (h : Taken o p b) : Taken o q b := by
  obtain ⟨x, hx, hb⟩ := h.held
  have hmem : b ∈ q.tree.bcasts.map (·.body) := by
    rw [k.bodies]
    exact List.mem_map.mpr ⟨x, hx, hb⟩
  obtain ⟨y, hy, hyb⟩ := List.mem_map.mp hmem
  have htree := k.tree
  rw [h.tree] at htree
  exact ⟨k.hangs.trans h.hangs, by rw [htree], y, hy, hyb⟩

/-- R240: a message that is new here is applied, kept and sent on. -/
theorem bcastNew_taken (o : Prd) (b : BcastBody) (sender : Option Nat) : Taken (o.applyHere b).1 (o.bcastNew b sender) b := by
  unfold Prd.bcastNew
  refine (bcastsKept_closeBcast _ _).taken ((Aside.foldl (fun o c => aside_sendChild o b c) _ _).bcastsKept.taken ?_)
  exact ⟨rfl, rfl, _, List.mem_cons_self, rfl⟩

theorem seeFault_other (t : Tree) (b : BcastBody) (hs : b.kind ≠ 1) (hf : b.kind ≠ 6) : t.seeFault b = t := by
  unfold Tree.seeFault
  rw [if_neg hs, if_neg (by simp [hf])]

/-! ### What a report leaves of the root's work and of the hang graphs (05 R136) -/

/-- `p` has the hang graphs, the START requests and the switches of `o`. -/
structure GraphsKept (o p : Prd) : Prop where
  hangs : p.hangs = o.hangs
  reqs : p.tree.reqs = o.tree.reqs
  switches : p.tree.switches = o.tree.switches

theorem Aside.graphsKept {o p : Prd} (h : Aside o p) : GraphsKept o p := ⟨h.hangs, by rw [h.tree], by rw [h.tree]⟩

theorem GraphsKept.after {o p q : Prd} (k : GraphsKept p q) (h : GraphsKept o p) : GraphsKept o q :=
  ⟨k.hangs.trans h.hangs, k.reqs.trans h.reqs, k.switches.trans h.switches⟩

theorem Taken.graphsKept {o p : Prd} {b : BcastBody} (h : Taken o p b) (hs : b.kind ≠ 1) (hf : b.kind ≠ 6) : GraphsKept o p := by
  have ht := h.tree
  rw [seeFault_other _ b hs hf] at ht
  exact ⟨h.hangs, by rw [ht], by rw [ht]⟩

theorem applyHere_freeze (o : Prd) (b : BcastBody) (h : b.kind = 4) : Aside o (o.applyHere b).1 := by
  unfold Prd.applyHere
  rw [h]
  cases b.freeze with
  | some x => exact aside_applyFreeze o _ x
  | none => exact .refl o

theorem graphsKept_issueFreeze (o : Prd) (tag scope tAct : Nat) (x : FreezeMsg) :
    GraphsKept o (o.issue 4 tag scope tAct 0 fun b => { b with freeze := some x }).1 :=
  ((bcastNew_taken _ _ none).graphsKept (show (4 : Nat) ≠ 1 by decide) (show (4 : Nat) ≠ 6 by decide)).after ((applyHere_freeze _ _ rfl).graphsKept.after ⟨rfl, rfl, rfl⟩)

theorem graphsKept_rootTrigger (o : Prd) (x : Trigger) : GraphsKept o (o.rootTrigger x).1 := by
  unfold Prd.rootTrigger
  split
  · exact (aside_attachEvent _ _ x).graphsKept.after ⟨rfl, rfl, rfl⟩
  · split
    · exact (aside_refuseFreeze o _).graphsKept
    · exact (graphsKept_issueFreeze _ _ _ _ _).after ⟨rfl, rfl, rfl⟩

theorem graphsKept_trigger (o : Prd) (x : Trigger) : GraphsKept o (o.trigger x).1 := by
  unfold Prd.trigger
  split
  · exact (Aside.refl o).graphsKept
  · split
    · exact (aside_trayTrigger o x).graphsKept
    · split
      · exact graphsKept_rootTrigger o x
      · exact (aside_request o 0 _ _).graphsKept

theorem graphsKept_triggerOf (o : Prd) (k tag tTrig rank : Nat) : GraphsKept o (o.triggerOf k tag tTrig rank) := graphsKept_trigger o _

theorem aside_set (o : Prd) (a v : Nat) : Aside o (PrdR.set o a v) := ⟨rfl, rfl⟩

theorem graphsKept_hangReport (o : Prd) (g : HangSt) (missing : List Nat) (es : List Edge16) : GraphsKept o (o.hangReport g missing es) := by
  refine (graphsKept_triggerOf _ 3 g.tag g.t 0).after (Aside.graphsKept ?_)
  have h : Aside o (PrdR.set (PrdR.ev ((o.hnrOwn 5 g.id g.tag 0 g.t (g.report o.ft missing es)).event
      { code := 0x31, sev := 4, tag := g.tag, payload := le 8 g.id ++ le 4 (cyclesOf es).length ++ le 4 (rootsOf es).length })
      PRD_HANG_EVENTS 1) PRD_HANG_LAST_ID g.id) :=
    (aside_set _ _ _).after ((aside_ev _ _ _).after ((aside_event _ _).after (aside_hnrPut o _)))
  exact aside_ite h ((aside_ev _ _ _).after h)

/-! ### Hang graphs (05 R135, R136) -/

theorem hang?_setHang (o : Prd) (id level : Nat) (f : HangSt → HangSt) (g : HangSt) (h : o.hang? id level = some g) (hid : (f g).id = g.id)
    (hn : (f g).node = g.node) : (o.setHang id level f).hang? id level = some (f g) :=
  find?_updFirst _ f o.hangs g h (by simp only [hid, hn])

/-- Updating an element that a search passes over does not change what it finds. -/
theorem find?_updFirst_ne {α : Type} (p q : α → Bool) (f : α → α) (h : ∀ x, q x = true → p x = false ∧ p (f x) = false) (l : List α) :
    (updFirst q f l).find? p = l.find? p := by
  induction l with
  | nil => rfl
  | cons x r ih =>
    unfold updFirst
    split
    · next hq =>
      obtain ⟨hx, hfx⟩ := h x hq
      rw [List.find?_cons_of_neg (by rw [hfx]; decide), List.find?_cons_of_neg (by rw [hx]; decide)]
    · rw [List.find?_cons, List.find?_cons, ih]

theorem hang?_setHang_ne (o : Prd) (id : Nat) {level l : Nat} (f : HangSt → HangSt) (hn : ∀ g, (f g).node = g.node) (h : l ≠ level) :
    (o.setHang id level f).hang? id l = o.hang? id l := by
  refine find?_updFirst_ne _ _ f (fun g hg => ?_) o.hangs
  have hlevel : g.node = level := eq_of_beq (Bool.and_eq_true_iff.mp hg).2
  simp only [hn, hlevel, beq_false_of_ne (Ne.symm h), Bool.and_false, and_self]

/-- `p` has the START requests and the switches of `o`, and its graphs of `id` below a level. -/
structure KeptBelow (id level : Nat) (o p : Prd) : Prop where
  reqs : p.tree.reqs = o.tree.reqs
  switches : p.tree.switches = o.tree.switches
  graphs : ∀ l, l < level → p.hang? id l = o.hang? id l

theorem GraphsKept.below {o p : Prd} (h : GraphsKept o p) (id level : Nat) : KeptBelow id level o p :=
  ⟨h.reqs, h.switches, fun l _ => by rw [Prd.hang?, Prd.hang?, h.hangs]⟩

theorem KeptBelow.after {id level : Nat} {o p q : Prd} (k : KeptBelow id level p q) (h : KeptBelow id level o p) : KeptBelow id level o q :=
  ⟨k.reqs.trans h.reqs, k.switches.trans h.switches, fun l hl => (k.graphs l hl).trans (h.graphs l hl)⟩

theorem KeptBelow.mono {id level : Nat} {o p : Prd} (h : KeptBelow id (level + 1) o p) : KeptBelow id level o p :=
  ⟨h.reqs, h.switches, fun l hl => h.graphs l (by omega)⟩

theorem keptBelow_setHang (o : Prd) (id level : Nat) (f : HangSt → HangSt) (hn : ∀ g, (f g).node = g.node) :
    KeptBelow id level o (o.setHang id level f) := ⟨rfl, rfl, fun _ hl => hang?_setHang_ne o id f hn (Nat.ne_of_lt hl)⟩

/-- R136: a graph that is closed, or lacks a rank before its deadline, does not close. -/
theorem hangClose_waits (o : Prd) (id : Nat) (late : Bool) (fuel level : Nat) (g : HangSt) (hg : o.hang? id level = some g)
    (h : (g.done || !(late || g.lacks.isEmpty)) = true) : o.hangClose id late fuel level = o := by
  cases fuel with
  | zero => rfl
  | succ fuel => simp only [Prd.hangClose, hg, h, if_true]

/-- R136: a graph that closes reaches the levels above it alone. -/
theorem hangClose_closing (id fuel : Nat) (hclose : ∀ o level, KeptBelow id level o (Prd.hangClose o id false fuel level)) (o : Prd) (late : Bool)
    (level : Nat) (g : HangSt) (hg : o.hang? id level = some g) (hd : g.done = false) (hl : (late || g.lacks.isEmpty) = true) :
    KeptBelow id (level + 1) (o.setHang id level fun g => { g with done := true }) (o.hangClose id late (fuel + 1) level) := by
  unfold Prd.hangClose
  rw [hg]
  simp only [hd, hl, Bool.not_true, Bool.or_self, Bool.false_eq_true, if_false]
  generalize (g.missing ++ _).eraseDups = missing
  generalize List.partition _ g.edges = es
  obtain ⟨mine, rest⟩ := es
  have hreport : GraphsKept (o.setHang id level fun g => { g with done := true })
      (if mine.isEmpty then o.setHang id level fun g => { g with done := true }
        else (o.setHang id level fun g => { g with done := true }).hangReport g missing mine) := by
    split
    · exact ⟨rfl, rfl, rfl⟩
    · exact graphsKept_hangReport _ g missing mine
  dsimp only
  generalize (if mine.isEmpty = true then _ else _) = p at hreport ⊢
  have hwide : GraphsKept (o.setHang id level fun g => { g with done := true }) (if rest.isEmpty = true then p else PrdR.ev p PRD_HANG_EVENTS 3) := by
    split
    · exact hreport
    · exact (aside_ev p _ 3).graphsKept.after hreport
  generalize (if rest.isEmpty = true then p else PrdR.ev p PRD_HANG_EVENTS 3) = q at hwide ⊢
  split
  · exact hreport.below id (level + 1)
  · have hq := hwide.below id (level + 1)
    split
    · exact hq
    · split
      · refine (hclose _ _).after (KeptBelow.after (keptBelow_setHang q id (level + 1) _ ?_) hq)
        exact fun _ => rfl
      · split
        · exact ((aside_send q _ _ _ _).graphsKept.below id (level + 1)).after hq
        · exact hq

/-- R136: closing a graph reaches neither the root's work nor the levels below. -/
theorem hangClose_keptBelow (id fuel : Nat) (o : Prd) (late : Bool) (level : Nat) : KeptBelow id level o (o.hangClose id late fuel level) := by
  induction fuel generalizing o late level with
  | zero => exact (Aside.refl o).graphsKept.below id level
  | succ fuel ih =>
    cases hg : o.hang? id level with
    | none => simpa only [Prd.hangClose, hg] using (Aside.refl o).graphsKept.below id level
    | some g =>
      cases hc : g.done || !(late || g.lacks.isEmpty) with
      | true => simpa only [hangClose_waits o id late _ level g hg hc] using (Aside.refl o).graphsKept.below id level
      | false =>
        obtain ⟨hd, hl⟩ := Bool.or_eq_false_iff.mp hc
        exact (hangClose_closing id fuel (fun o level => ih o false level) o late level g hg hd (by rwa [Bool.not_eq_false'] at hl)).mono.after
          (keptBelow_setHang o id level _ fun _ => rfl)

end Sys2Proof.Machine.QueuesWaitsHangs
end

section
namespace Sys2Proof.Machine.QueuesWaitsHangs
open Sys2Proof Sys2Proof.Machine.FleetTime Sys2Proof.Machine.Accords Sys2Proof.Machine.EngineCounters

/-! ### Hang commands at Priord (05 R134 to R136) -/

/-- R247: a root with no request unanswered and no switch followed has nothing to do. -/
theorem rootWork_idle (o : Prd) (hr : o.tree.reqs = []) (hs : o.tree.switches = []) : o.rootWork = o := by
  simp only [Prd.rootWork, hs, List.foldl_nil, hr, List.all_nil, if_true]

theorem exec_hangNoticeRx_of (s : State) (src : RecSrc) (x : HangNotice) (t : Nat) (o : Prd) (h : (s.prd.go t).hangNotice src x = o)
    (hr : o.tree.reqs = []) (hs : o.tree.switches = []) : exec (.hangNoticeRx src x t) s = .next (s.withPrd o) := by
  have hwork : ((s.prd.go t).hangNotice src x).rootWork = o := by rw [h, rootWork_idle o hr hs]
  exact congrArg (fun p => Host.Outcome.next (s.withPrd p)) hwork

theorem exec_hangProbe_of (s : State) (tag t : Nat) (o : Prd) (h : (s.prd.go t).hangProbe tag = o) (hr : o.tree.reqs = [])
    (hs : o.tree.switches = []) : exec (.hangProbe tag t) s = .next (s.withPrd o) := by
  have hwork : ((s.prd.go t).hangProbe tag).rootWork = o := by rw [h, rootWork_idle o hr hs]
  exact congrArg (fun p => Host.Outcome.next (s.withPrd p)) hwork

/-! #### Notices and probes (R134, R141) -/

theorem isRoot_ev (o : Prd) (a k : Nat) (h : a ≠ PRD_BOOT_STRAPS) : (PrdR.ev o a k).isRoot = o.isRoot := by
  have hget := PrdR.get_ev_ne o k h
  have hflag : PrdR.flag (PrdR.ev o a k) PRD_BOOT_STRAPS 13 = PrdR.flag o PRD_BOOT_STRAPS 13 := by rw [PrdR.flag, hget]; rfl
  have hfld : PrdR.fld (PrdR.ev o a k) PRD_BOOT_STRAPS 0 12 = PrdR.fld o PRD_BOOT_STRAPS 0 12 := by rw [PrdR.fld, hget]; rfl
  have htray : (PrdR.ev o a k).tray = o.tray := by
    unfold Prd.tray
    rw [hflag, hfld]
  unfold Prd.isRoot
  rw [htray]
  rfl

theorem hangProbe_away (o : Prd) (tag : Nat) (h : o.isRoot = false) : o.hangProbe tag = o := by
  simp only [Prd.hangProbe, h, Bool.not_false, Bool.true_or, if_true]

theorem hangProbe_held (o : Prd) (tag h : Nat) (hp : o.tree.probes.lookup tag = some h) (hh : o.ft < h) : o.hangProbe tag = o := by
  simp only [Prd.hangProbe, hp, Option.any_some, hh, decide_true, Bool.or_true, if_true]

theorem request_ulq (o : Prd) (kind tag : Nat) (fields : List Byte) : o.request kind tag fields = { o with ulq := (o.request kind tag fields).ulq } := by
  have hfold (l : List Nat) (f : Prd → Nat → List Byte) (o : Prd) :
      l.foldl (fun o i => o.send7 i tag (f o i)) o = { o with ulq := (l.foldl (fun o i => o.send7 i tag (f o i)) o).ulq } := by
    induction l generalizing o with
    | nil => rfl
    | cons i r ih =>
      rw [List.foldl_cons, ih]
      rfl
  exact hfold _ _ o

theorem hangNotice_malformed (o : Prd) (src : RecSrc) (x : HangNotice) (h : 2 ^ 17 ≤ x.rank) : o.hangNotice src x = o := if_pos h

/-- R134: a SELF notice of a die of this tray, away from the root. -/
theorem hangNotice_self (o : Prd) (n : Nat) (x : HangNotice) (hc : x.cause = 0) (hrank : x.rank < 2 ^ 17) (hroot : o.isRoot = false)
    (hhome : o.awayHome (.port n) x.tag x.rank = none) :
    o.hangNotice (.port n) x = (PrdR.ev o PRD_HANG_EVENTS 0).request 1 x.tag (le 8 x.tCut) := by
  have haway := hangProbe_away (PrdR.ev o PRD_HANG_EVENTS 0) x.tag ((isRoot_ev o _ 0 (by decide)).trans hroot)
  unfold Prd.hangNotice
  rw [if_neg (by omega), hhome]
  simp only [hc, if_true, haway]

theorem hangNotice_self_facts (o : Prd) (n : Nat) (x : HangNotice) (hc : x.cause = 0) (hrank : x.rank < 2 ^ 17) (hroot : o.isRoot = false)
    (hhome : o.awayHome (.port n) x.tag x.rank = none) : ∃ p, o.hangNotice (.port n) x = p ∧
    p = { o with regs := p.regs, ulq := p.ulq, cyc := p.cyc } ∧ PrdR.flag p PRD_HANG_EVENTS 0 = true ∧
    ∀ a, a ≠ PRD_HANG_EVENTS → PrdR.get p a = PrdR.get o a := by
  have hreq := request_ulq (PrdR.ev o PRD_HANG_EVENTS 0) 1 x.tag (le 8 x.tCut)
  have hget (a : Nat) : PrdR.get ((PrdR.ev o PRD_HANG_EVENTS 0).request 1 x.tag (le 8 x.tCut)) a = PrdR.get (PrdR.ev o PRD_HANG_EVENTS 0) a := by
    rw [hreq]
    rfl
  refine ⟨_, hangNotice_self o n x hc hrank hroot hhome, ?_, ?_, fun a ha => (hget a).trans (PrdR.get_ev_ne o 0 ha.symm)⟩
  · rw [hreq]
    rfl
  · rw [PrdR.flag, hget]
    exact PrdR.flag_ev o _ 0 (by decide)

theorem lookup_ins_same {α : Type} (t : List (Nat × α)) (k : Nat) (v : α) : (Tbl.ins t k v).lookup k = some v := by
  induction t with
  | nil => simp [Tbl.ins]
  | cons x r ih =>
    simp only [Tbl.ins]
    split
    · simp
    · split
      · simp
      · next hne hlt =>
        rw [List.lookup_cons, beq_false_of_ne (Ne.symm hne)]
        exact ih

/-- The message with which the root freezes a hung job. -/
def hangFreeze (o : Prd) (tag h : Nat) : BcastBody :=
  { kind := 5, hangId := h, hdr := { tag, scope := 2, bseq := o.tree.rootEpoch % 2 ^ 16 * 2 ^ 48 + (o.tree.count + 1) % 2 ^ 48, tAct := h, treeEpoch := o.tree.epoch, from_ := o.tray } }

theorem applyHang_tree (o : Prd) (h : AtHdr) (id : Nat) : (o.applyHang h id).1.tree = o.tree := by
  unfold Prd.applyHang
  split <;> rfl

/-- The root that keeps a job's holdoff and counts the freeze that it issues. -/
def probed (o : Prd) (tag h : Nat) : Prd :=
  { o with tree := { o.tree with probes := Tbl.ins o.tree.probes tag (h + PrdR.fld o PRD_HANG_CFG 16 16 * 1000 * tickUs), count := o.tree.count + 1 } }

theorem hangProbe_issue (o : Prd) (tag : Nat) (hroot : o.isRoot = true) (hp : o.tree.probes.lookup tag = none) : o.hangProbe tag =
    (probed o tag (o.ft + PrdR.fld o PRD_HANG_CFG 0 16 * tickUs)).bcastNew (hangFreeze o tag (o.ft + PrdR.fld o PRD_HANG_CFG 0 16 * tickUs)) none := by
  simp only [Prd.hangProbe, hroot, hp, Option.any_none, Bool.not_true, Bool.or_self, Bool.false_eq_true, if_false]
  rfl

/-- R134, R141: a probe at the root, none held: the holdoff is kept and the freeze goes out. -/
theorem hangProbe_root (o : Prd) (tag h : Nat) (hroot : o.isRoot = true) (hp : o.tree.probes.lookup tag = none)
    (hh : h = o.ft + PrdR.fld o PRD_HANG_CFG 0 16 * tickUs) : ∃ p, o.hangProbe tag = p ∧
    p.tree.reqs = o.tree.reqs ∧ p.tree.switches = o.tree.switches ∧
    p.tree.probes.lookup tag = some (h + PrdR.fld o PRD_HANG_CFG 16 16 * 1000 * tickUs) ∧ p.tree.count = o.tree.count + 1 ∧
    ∃ x, x ∈ p.tree.bcasts ∧ x.body = hangFreeze o tag h := by
  subst hh
  have ht := bcastNew_taken (probed o tag (o.ft + PrdR.fld o PRD_HANG_CFG 0 16 * tickUs)) (hangFreeze o tag (o.ft + PrdR.fld o PRD_HANG_CFG 0 16 * tickUs)) none
  have htree := ht.tree
  have happly : ((probed o tag (o.ft + PrdR.fld o PRD_HANG_CFG 0 16 * tickUs)).applyHere (hangFreeze o tag (o.ft + PrdR.fld o PRD_HANG_CFG 0 16 * tickUs))).1.tree =
    (probed o tag (o.ft + PrdR.fld o PRD_HANG_CFG 0 16 * tickUs)).tree := applyHang_tree _ _ _
  rw [seeFault_other _ _ (show (5 : Nat) ≠ 1 by decide) (show (5 : Nat) ≠ 6 by decide), happly] at htree
  refine ⟨_, hangProbe_issue o tag hroot hp, ?_, ?_, ?_, ?_, ht.held⟩
  · rw [htree]; rfl
  · rw [htree]; rfl
  · rw [htree]; exact lookup_ins_same _ _ _
  · rw [htree]; rfl

/-! #### Graphs (R135, R136) -/

theorem lacks_complete_owed (y : HangSt) (r n : Nat) (he : r ∈ y.expect) (hr : y.ranks.contains r = false) (hm : y.missing.contains r = false)
    (hn : 0 < n) : r ∈ (HangSt.complete { y with owed := (r, n) :: y.owed.filter (·.1 != r) }).lacks := by
  have hmem : r ∉ y.ranks := by simpa using hr
  have hmiss : r ∉ y.missing := by simpa using hm
  have hn0 : n ≠ 0 := by omega
  simp [HangSt.lacks, HangSt.complete, he, hmem, hmiss, hn0]

/-- What a JOB_WIDE notice adds to the graph of its HANG_ID: the open records that its rank owes. -/
def noticed (x : HangNotice) (g : HangSt) : HangSt :=
  if g.ranks.contains x.rank || g.tag ≠ x.tag then g else HangSt.complete { g with owed := (x.rank, x.nOpen) :: g.owed.filter (·.1 != x.rank) }

theorem hangNotice_jobWide (o : Prd) (src : RecSrc) (x : HangNotice) (hc : x.cause ≠ 0) (hrank : x.rank < 2 ^ 17)
    (hhome : o.awayHome src x.tag x.rank = none) : o.hangNotice src x = (o.setHang x.hangId 0 (noticed x)).hangClose x.hangId false 4 0 := by
  unfold Prd.hangNotice
  rw [if_neg (by omega), hhome]
  simp only [hc, if_false]
  rfl

/-- R133, R135: a JOB_WIDE notice with open records makes its graph owe them. -/
theorem hangNotice_owes (o : Prd) (src : RecSrc) (x : HangNotice) (y : HangSt) (hc : x.cause ≠ 0) (hrank : x.rank < 2 ^ 17)
    (hhome : o.awayHome src x.tag x.rank = none) (hy : o.hang? x.hangId 0 = some y) (htag : y.tag = x.tag) (hr : y.ranks.contains x.rank = false)
    (he : x.rank ∈ y.expect) (hm : y.missing.contains x.rank = false) (hn : 0 < x.nOpen) :
    o.hangNotice src x = o.setHang x.hangId 0 (noticed x) ∧ (o.setHang x.hangId 0 (noticed x)).hang? x.hangId 0 =
      some (HangSt.complete { y with owed := (x.rank, x.nOpen) :: y.owed.filter (·.1 != x.rank) }) := by
  have hranks : x.rank ∉ y.ranks := by simpa using hr
  have hnew : noticed x y = HangSt.complete { y with owed := (x.rank, x.nOpen) :: y.owed.filter (·.1 != x.rank) } :=
    if_neg (by simp [hranks, htag])
  have hgraph := hang?_setHang o x.hangId 0 (noticed x) y hy (by rw [hnew]; rfl) (by rw [hnew]; rfl)
  rw [hnew] at hgraph
  have hlacks := List.isEmpty_eq_false_iff_exists_mem.mpr ⟨_, lacks_complete_owed y x.rank x.nOpen he hr hm hn⟩
  refine ⟨?_, hgraph⟩
  rw [hangNotice_jobWide o src x hc hrank hhome]
  exact hangClose_waits _ _ _ _ _ _ hgraph (by rw [hlacks, Bool.or_false, Bool.not_false, Bool.or_true])

theorem hang?_go (o : Prd) (t id level : Nat) : (o.go t).hang? id level = o.hang? id level := by rw [Prd.hang?, Prd.hang?, Prd.go_hangs]

theorem exec_hangComponentRx_none (s : State) (c : HangComp) (t : Nat)
    (h : ((s.prd.go t).childTrays (s.prd.go t).tree.roles).find? (fun x => x.2 == c.child) = none) :
    exec (.hangComponentRx c t) s = .next (s.withPrd (s.prd.go t)) := by
  refine congrArg (fun p => Host.Outcome.next (s.withPrd p)) ?_
  simp only [h]

/-- What a component adds to the graph of its HANG_ID. -/
def joinedBy (c : HangComp) (g : HangSt) : HangSt := if g.done || g.tag ≠ c.tag then g else g.take c

/-- R136: a component from a child while the level above lacks ranks. -/
theorem exec_hangComponentRx_lacks (s : State) (c : HangComp) (t l : Nat) (y : HangSt) (hr : s.prd.tree.reqs = []) (hs : s.prd.tree.switches = [])
    (hchild : ((s.prd.go t).childTrays (s.prd.go t).tree.roles).find? (fun x => x.2 == c.child) = some (l, c.child))
    (hy : (s.prd.go t).hang? c.hangId (l + 1) = some y) (hd : y.done = false) (htag : y.tag = c.tag) (hl : (y.take c).lacks ≠ []) :
    exec (.hangComponentRx c t) s = .next (s.withPrd ((s.prd.go t).setHang c.hangId (l + 1) (joinedBy c))) ∧
      ((s.prd.go t).setHang c.hangId (l + 1) (joinedBy c)).hang? c.hangId (l + 1) = some (y.take c) := by
  have hnew : joinedBy c y = y.take c := if_neg (by simp [hd, htag])
  have hgraph := hang?_setHang (s.prd.go t) c.hangId (l + 1) (joinedBy c) y hy (by rw [hnew]; rfl) (by rw [hnew]; rfl)
  rw [hnew] at hgraph
  refine ⟨congrArg (fun p => Host.Outcome.next (s.withPrd p)) ?_, hgraph⟩
  have hclose := hangClose_waits _ c.hangId false 4 (l + 1) (y.take c) hgraph (by simp [hl])
  simp only [hchild]
  change (((s.prd.go t).setHang c.hangId (l + 1) (joinedBy c)).hangClose c.hangId false 4 (l + 1)).rootWork = _
  rw [hclose]
  exact rootWork_idle _ ((congrArg Tree.reqs (Prd.go_tree s.prd t)).trans hr) ((congrArg Tree.switches (Prd.go_tree s.prd t)).trans hs)

theorem exec_hangGraphDeadline_none (s : State) (level id t : Nat) (h : (s.prd.go t).hang? id level = none) :
    exec (.hangGraphDeadline level id t) s = .next (s.withPrd (s.prd.go t)) := by
  refine congrArg (fun p => Host.Outcome.next (s.withPrd p)) ?_
  simp only [h]

/-- R136: the instant at which a node's graph closes. -/
def graphDeadline (o : Prd) (level : Nat) (y : HangSt) : Nat := y.t + PrdR.fld o PRD_HANG_DEADLINES (8 * level) 8 * 1000 * tickUs

theorem exec_hangGraphDeadline_early (s : State) (level id t : Nat) (y : HangSt) (h : (s.prd.go t).hang? id level = some y)
    (ht : (s.prd.go t).ft < graphDeadline (s.prd.go t) level y) : exec (.hangGraphDeadline level id t) s = .next (s.withPrd (s.prd.go t)) := by
  refine congrArg (fun p => Host.Outcome.next (s.withPrd p)) ?_
  simp only [h]
  exact if_neg (Nat.not_le.mpr ht)

/-- R136: at its deadline a graph closes, whatever it lacks. -/
theorem exec_hangGraphDeadline_late (s : State) (level id t : Nat) (y : HangSt) (hr : s.prd.tree.reqs = []) (hs : s.prd.tree.switches = [])
    (h : (s.prd.go t).hang? id level = some y) (hd : y.done = false) (ht : graphDeadline (s.prd.go t) level y ≤ (s.prd.go t).ft) :
    exec (.hangGraphDeadline level id t) s = .next (s.withPrd ((s.prd.go t).hangClose id true 4 level)) ∧
      ((s.prd.go t).hangClose id true 4 level).hang? id level = some { y with done := true } := by
  have hc := hangClose_closing id 3 (fun o level => hangClose_keptBelow id 3 o false level) (s.prd.go t) true level y h hd rfl
  have hgraph := hang?_setHang (s.prd.go t) id level (fun g => { g with done := true }) y h rfl rfl
  refine ⟨congrArg (fun p => Host.Outcome.next (s.withPrd p)) ?_, (hc.graphs level (Nat.lt_succ_self _)).trans hgraph⟩
  simp only [h]
  refine (if_pos ht).trans (rootWork_idle _ ?_ ?_)
  · exact hc.reqs.trans ((congrArg Tree.reqs (Prd.go_tree s.prd t)).trans hr)
  · exact hc.switches.trans ((congrArg Tree.switches (Prd.go_tree s.prd t)).trans hs)

/-- Settles O21: the OTU's part by the hang cut that a free shadow set takes, Priord's by what its commands reach of the tree and of
the hang graphs. -/
theorem hangsAreCutAndGathered : Obligations.HangsAreCutAndGathered := by
  rintro s tag t e _ _ rfl rfl
  refine ⟨fun hv hj => exec_hangDetected_none s tag e hv hj, fun hv j hj hon hst hh hp hage => ?_, fun hv j b hj hdue hb => ?_,
    fun hv hj hp => exec_hangCut_idle s tag e hv hj hp, fun hr hs => ?_⟩
  · have hexec := exec_hangDetected_hung s tag e j hv hj hon hst hh hp hage
    refine ⟨fun b hb => ?_, fun hb => ?_⟩
    · obtain ⟨o, sh, c, ho, hframe, hsh, hself, hlast⟩ := hung_taken (s.otu.go e) tag b hb
      exact ⟨o, sh, c, hexec.trans (by rw [ho]), hframe, hsh.kind, hsh.hang, hsh.cause, hsh.id, hsh.waits, hsh.whole, hsh.queues, hsh.lt, hsh.image,
        hself, hlast⟩
    · obtain ⟨o, ho, hframe, hself, hget⟩ := hung_waits (s.otu.go e) tag hb
      exact ⟨o, hexec.trans (by rw [ho]), hframe, hself, hget⟩
  · obtain ⟨o, sh, c, ho, hframe, hsh, hlast⟩ := jobWide_taken (s.otu.go e) tag j.hangAt b hb
    exact ⟨o, sh, c, (exec_hangCut_due s tag e j hv hj hdue).trans (by rw [ho]), hframe, hsh.kind, hsh.hang, hsh.cause, hsh.id, hsh.waits, hsh.queues, hlast⟩
  · have hreqs : (s.prd.go t).tree.reqs = [] := by rw [Prd.go_tree, hr]
    have hswitches : (s.prd.go t).tree.switches = [] := by rw [Prd.go_tree, hs]
    refine ⟨fun n x hc hrank hroot hhome => ?_, fun src x hrank => ?_, fun hroot => ?_, fun h hp hh => ?_, fun h hroot hp hh => ?_,
      fun src x y hc hrank hhome hy htag _ hranks he hm hn => ?_, fun c l y hchild hy hd htag hl => ?_, fun c hc => ?_,
      fun level id h => exec_hangGraphDeadline_none s level id t h, fun level id y hy hd => ⟨fun hearly => ?_, fun hlate => ?_⟩⟩
    · obtain ⟨o, ho, hframe, hself, hget⟩ := hangNotice_self_facts (s.prd.go t) n x hc hrank hroot hhome
      have htree : o.tree = (s.prd.go t).tree := by rw [hframe]
      exact ⟨o, exec_hangNoticeRx_of s _ x t o ho (by rw [htree, hreqs]) (by rw [htree, hswitches]), hframe, hself, hget⟩
    · exact exec_hangNoticeRx_of s src x t _ (hangNotice_malformed _ src x hrank) hreqs hswitches
    · exact exec_hangProbe_of s tag t _ (hangProbe_away _ tag hroot) hreqs hswitches
    · exact exec_hangProbe_of s tag t _ (hangProbe_held _ tag h (by rw [Prd.go_tree, hp]) hh) hreqs hswitches
    · obtain ⟨o, ho, hor, hos, hprobes, hcount, x, hx, hbody⟩ := hangProbe_root (s.prd.go t) tag h hroot (by rw [Prd.go_tree, hp])
        (by rw [hh, PrdR.fld, PrdR.fld, Prd.get_go])
      refine ⟨o, exec_hangProbe_of s tag t o ho (by rw [hor, hreqs]) (by rw [hos, hswitches]), ?_, ?_, x, hx, ?_⟩
      · rw [hprobes, PrdR.fld, PrdR.fld, Prd.get_go]
      · rw [hcount, Prd.go_tree]
      · rw [hbody]
        exact ⟨rfl, rfl, rfl, rfl⟩
    · obtain ⟨ho, hgraph⟩ := hangNotice_owes (s.prd.go t) src x y hc hrank hhome hy htag hranks he hm hn
      exact ⟨_, exec_hangNoticeRx_of s src x t _ ho hreqs hswitches, rfl, hgraph⟩
    · obtain ⟨ho, hgraph⟩ := exec_hangComponentRx_lacks s c t l y hr hs hchild hy hd htag hl
      exact ⟨_, ho, rfl, hgraph⟩
    · exact exec_hangComponentRx_none s c t (List.find?_eq_none.mpr fun x hx => by simpa using hc x hx)
    · refine exec_hangGraphDeadline_early s level id t y hy ?_
      rwa [graphDeadline, PrdR.fld, Prd.get_go]
    · obtain ⟨ho, hgraph⟩ := exec_hangGraphDeadline_late s level id t y hr hs hy hd (by rwa [graphDeadline, PrdR.fld, Prd.get_go])
      exact ⟨_, _, ho, hgraph, rfl⟩

end Sys2Proof.Machine.QueuesWaitsHangs
end
